-- ==== Sys2Proof/Word.lean ====
section
/-!
DEFINITION. The word types of the manual and the tagged word (R4, R5, R28): values that the manual treats as bits.
-/

namespace Sys2Proof

/-- A byte. -/
abbrev Byte := BitVec 8
/-- A 16-bit field. -/
abbrev W16 := BitVec 16
/-- A 32-bit register or value field. -/
abbrev W32 := BitVec 32
/-- A MAC address. -/
abbrev W48 := BitVec 48
/-- A 64-bit field. -/
abbrev W64 := BitVec 64
/-- TIME and BASE are 80 bits wide (R247). -/
abbrev W80 := BitVec 80
/-- A block descriptor is 128 bits wide (R90). -/
abbrev W128 := BitVec 128
/-- The bits of an IEEE 754 binary64 number. -/
abbrev F64 := BitVec 64
/-- A byte string, first byte first. -/
abbrev Bytes := List Byte

/-- A tagged word: the tag byte (bits 39:32) and the value field (bits 31:0) (R4, R5). -/
structure TWord where
  tag : Byte
  val : W32
deriving DecidableEq, Repr, Inhabited

/-- The word an unused point reads as, 0x80_0000_0000 (R39, R40). -/
def TWord.unused : TWord := ⟨0x80, 0⟩

/-- The word 0x00_0000_0000 that an absent operand reads as (R95). -/
def TWord.zero : TWord := ⟨0, 0⟩

end Sys2Proof
end

