-- ==== Sys2Proof/Machine/Base.lean ====
section
/-!
DEFINITION. The closed name sets of the manual (modes, sides, states) with their codes, and the counter and frame records that several blocks share.
-/

namespace Sys2Proof.Machine

/-- Modes of the table "Modes" (R453). -/
inductive Mode where
  | cold | bootwait | verify | selftest | stop | alone | catchup | twin | lead | test | dbg | silent
deriving DecidableEq, Repr, Inhabited

/-- Mode code of 0x1100:01 (R453). -/
def Mode.code : Mode → Nat
  | .cold => 0 | .bootwait => 1 | .verify => 2 | .selftest => 3 | .stop => 4 | .alone => 5
  | .catchup => 6 | .twin => 7 | .lead => 8 | .test => 9 | .dbg => 10 | .silent => 11

/-- The run modes: ALONE, TWIN, LEAD and TEST (R453). -/
def Mode.run : Mode → Bool
  | .alone | .twin | .lead | .test => true
  | .cold | .bootwait | .verify | .selftest | .stop | .catchup | .dbg | .silent => false

/-- The modes in which ALIVE_OUT may toggle (R188). -/
def Mode.aliveList : Mode → Bool
  | .stop | .catchup | .alone | .twin | .lead | .test => true
  | .cold | .bootwait | .verify | .selftest | .dbg | .silent => false

/-- The modes in which a CAN controller joins the bus (R310). -/
def Mode.canOn : Mode → Bool
  | .stop | .alone | .catchup | .twin | .lead | .test | .dbg => true
  | .cold | .bootwait | .verify | .selftest | .silent => false

/-- Modes that execute tasks: the run modes and DEBUG (R448, R453). -/
def Mode.executes (m : Mode) : Bool := m.run || m == .dbg

/-- Life-cycle states (R462). -/
inductive Life where
  | blank | provisioned | commissioned | decommissioned
deriving DecidableEq, Repr, Inhabited

/-- Life-cycle code of 0x1100:06 (R462). -/
def Life.code : Life → Nat
  | .blank => 0 | .provisioned => 1 | .commissioned => 2 | .decommissioned => 3

/-- Time states of the table "Time states". -/
inductive TimeState where
  | unset | slewing | locked | holdover | freerun
deriving DecidableEq, Repr, Inhabited

/-- Code of a time state (0x1300:02). -/
def TimeState.code : TimeState → Nat
  | .unset => 0 | .slewing => 1 | .locked => 2 | .holdover => 3 | .freerun => 4

/-- Free-running column of the table "Time states". -/
def TimeState.free : TimeState → Bool
  | .unset | .slewing | .freerun => true
  | .locked | .holdover => false

/-- Time state with a given code; any other code is taken as UNSET. -/
def TimeState.ofCode : Nat → TimeState
  | 1 => .slewing | 2 => .locked | 3 => .holdover | 4 => .freerun | _ => .unset

/-- The two native core pairs (R383). -/
inductive Cp where
  | n0 | n1
deriving DecidableEq, Repr, Inhabited

/-- The five Ethernet ports (R223). -/
inductive Port where
  | p0 | p1 | s0 | s1 | h
deriving DecidableEq, Repr, Inhabited

/-- Position of a port in 0x1401–0x1405 (R242). -/
def Port.num : Port → Nat
  | .p0 => 0 | .p1 => 1 | .s0 => 2 | .s1 => 3 | .h => 4

/-- The way a dictionary message came in: an Ethernet port or a CAN controller (R282, R300). -/
inductive Via where
  | port (p : Port)
  | can (n : Nat)
  | mailbox (c : Cp)
deriving DecidableEq, Repr, Inhabited

/-- Share states of a paired current output (R370). -/
inductive Share where
  | share | full | off
deriving DecidableEq, Repr, Inhabited

/-- Code of 0x1811:09 (R370). -/
def Share.code : Share → Nat
  | .share => 0 | .full => 1 | .off => 2
/-- An event and diagnostic counter of 32 bits with its saturation flag (R52). -/
structure Ctr where
  n : W32
  sat : Bool
deriving DecidableEq, Repr, Inhabited

/-- Ctr right after reset. -/
def Ctr.reset : Ctr where
  n := 0
  sat := false

/-- An event and diagnostic counter that holds at 65,535 (R413, R431, R432). -/
structure Ctr16 where
  n : W16
  sat : Bool
deriving DecidableEq, Repr, Inhabited

/-- Ctr16 right after reset. -/
def Ctr16.reset : Ctr16 where
  n := 0
  sat := false

/-- An Ethernet frame: addresses, redundancy tags, VLAN tag, EtherType, payload after the EtherType, and whether its FCS is good (R225, R228, R233). -/
structure Frame where
  dst : W48
  src : W48
  hsr : Option W16
  rct : Option (W16 × Nat)
  vlan : Option (Nat × Nat)
  etype : W16
  payload : Bytes
  fcsOk : Bool
deriving DecidableEq, Repr, Inhabited

/-- One ASDU of a sampled-value frame (R137). -/
structure Asdu where
  svId : Bytes
  smpCnt : Nat
  confRev : W32
  smpSynch : Nat
  smpRate : Option Nat
  elems : List (W32 × W32)
deriving DecidableEq, Repr, Inhabited

/-- A sampled-value frame: its bytes from destination MAC to the end of the APDU, and their decoded fields (R137). -/
structure SvFrame where
  dst : W48
  etype : W16
  vlan : Nat
  appid : Nat
  sim : Bool
  asdus : List Asdu
  bytes : Bytes
  wellFormed : Bool
deriving DecidableEq, Repr, Inhabited

/-- One dataset member of a GOOSE message: its value bits, and the Quality member that follows it, if any (R239). -/
structure GooseMember where
  val : W32
  quality : Option W32
deriving DecidableEq, Repr, Inhabited

/-- A received GOOSE message (R241). -/
structure GooseMsg where
  dst : W48
  appid : Nat
  gocbRef : Bytes
  datSet : Bytes
  confRev : W32
  stNum : W32
  sqNum : W32
  sim : Bool
  ndsCom : Bool
  ttlMs : Nat
  members : List GooseMember
  bytes : Bytes
deriving DecidableEq, Repr, Inhabited

/-- A CAN frame (R307, R326). -/
structure CanFrame where
  id : W32
  ide : Bool
  fdf : Bool
  brs : Bool
  rtr : Bool
  esi : Bool
  dlc : Nat
  data : Bytes
deriving DecidableEq, Repr, Inhabited

/-- A dictionary write request as FORWARD and WRITE carry it: session role, request identifier, entry, type code and value (R210, R296). -/
structure PairReq where
  role : Nat
  reqid : W64
  index : Nat
  sub : Nat
  typ : Nat
  data : Bytes
deriving DecidableEq, Repr, Inhabited

/-- ANNOUNCE payload (R255): a step, an agreed state or both, for a named tick. -/
structure Announce where
  tick : W64
  step : Bool
  change : Bool
  state : TimeState
  offset : Int
  utc : Int
  leap : Byte
deriving DecidableEq, Repr, Inhabited

/-- What a sequenced WRITE carries: a dictionary request, an on-line change decision (R75), a record start (R341) or a time announcement (R255). -/
inductive SeqBody where
  | request (r : PairReq)
  | activate (tick : W64)
  | refuseChange (differ : Bool)
  | recordStart (number : W32) (tick : W64) (source : W16)
deriving DecidableEq, Repr, Inhabited
/-- WRITE payload (R193): write sequence number, target tick, origin side, forward number and request. -/
structure WriteMsg where
  wsn : W32
  target : W64
  originB : Bool
  fwd : W32
  body : SeqBody
deriving DecidableEq, Repr, Inhabited

/-- FLAGS and SEQ of a received Miojo message, and the lane it came on (R193). -/
structure MjHdr where
  lane : Bool
  sideB : Bool
  own : Bool
  alive : Bool
  silent : Bool
  catchup : Bool
  seq : W32
deriving DecidableEq, Repr, Inhabited

/-- HELLO payload (R193). -/
structure Hello where
  pairNo : Nat
  addr : W16
  mac : W48
  mode : Nat
  pairClass : W32
  digest : Bytes
deriving DecidableEq, Repr, Inhabited

/-- TICK payload (R201): tick count, due tasks, whether the previous tick was released, held frames with their CRCs, and owned input words. -/
structure TickMsg where
  tick : W64
  due : BitVec 4
  prevReleased : Bool
  held : List (Nat × W32)
  inputs : List (Nat × TWord)
deriving DecidableEq, Repr, Inhabited

/-- SAMPLE payload (R194). -/
structure SampleMsg where
  stream : Nat
  holds : Bool
  sync : Bool
  smpCnt : Nat
  inst : W64
  arrival : W64
  crc : W32
deriving DecidableEq, Repr, Inhabited

/-- One SIDEIN item (R194). -/
structure SideItem where
  kind : Nat
  source : Nat
  target : Nat
  value : W32
  stamp : W64
deriving DecidableEq, Repr, Inhabited

/-- LOG items (R196). -/
inductive LogItem where
  | landed (slot : Nat) (sgl : Bool) (f : Frame)
  | landedGoose (slot : Nat) (sgl : Bool) (g : GooseMsg)
  | owned (inputs : List (Nat × TWord))
  | command (w : WriteMsg)
  | skipped
  | sampleSet (m : SampleMsg) (f : Option SvFrame)
  | side (x : SideItem)
  | announce (a : Announce)
deriving DecidableEq, Repr, Inhabited

/-- Miojo messages with their payloads (R193, R194, R195, R196). -/
inductive MjMsg where
  | hello (h : Hello)
  | keep
  | delay (response : Bool) (raw : W64) (turnaround : W32)
  | tick (t : TickMsg)
  | supply (slot : Nat) (f : Frame)
  | supplyGoose (slot : Nat) (g : GooseMsg)
  | sample (m : SampleMsg)
  | svsupply (stream : Nat) (f : SvFrame)
  | sidein (xs : List SideItem)
  | output (tick digest engine : W64)
  | forward (fwd : W32) (r : PairReq)
  | write (w : WriteMsg)
  | wack (wsn : W32)
  | refuse (fwd : W32) (code : W16)
  | handover (tick : W64)
  | announce (a : Announce)
  | check (tick : W64) (outcome : Nat) (digest : Bytes)
  | silent (reason : Nat)
  | state (region : Nat) (offset : Nat) (data : Bytes)
  | stateack (seq : W32)
  | log (tick : W64) (items : List LogItem)
  | catchMsg (phase : Nat) (snapshot : W64) (reason : Option Nat)
deriving DecidableEq, Repr, Inhabited

/-- TYPE of a Miojo message (R193). -/
def MjMsg.type : MjMsg → Nat
  | .hello .. => 0x01 | .keep => 0x02 | .delay .. => 0x03 | .tick .. => 0x10 | .supply .. => 0x11
  | .supplyGoose .. => 0x11 | .sample .. => 0x12 | .svsupply .. => 0x13 | .sidein .. => 0x14
  | .output .. => 0x18 | .forward .. => 0x20 | .write .. => 0x21 | .wack .. => 0x22
  | .refuse .. => 0x23 | .handover .. => 0x24 | .announce .. => 0x25 | .check .. => 0x26
  | .silent .. => 0x30 | .state .. => 0x40 | .stateack .. => 0x41 | .log .. => 0x42 | .catchMsg .. => 0x43

/-- Messages striped across the lanes rather than duplicated on both (R193, R197). -/
def MjMsg.striped : MjMsg → Bool
  | .state .. | .log .. => true
  | .hello .. | .keep | .delay .. | .tick .. | .supply .. | .supplyGoose .. | .sample .. | .svsupply ..
  | .sidein .. | .output .. | .forward .. | .write .. | .wack .. | .refuse .. | .handover .. | .announce ..
  | .check .. | .silent .. | .stateack .. | .catchMsg .. => false
/-- A received Sync, or the event part of a two-step one (R252, R262). -/
structure PtpSync where
  port : Nat
  domain : Nat
  gm : W64
  srcPort : W80
  seq : W16
  twoStep : Bool
  origin : Nat
  correction : Int
  ingress : W64
  interval : Nat
deriving DecidableEq, Repr, Inhabited

/-- A received Announce with the data the best master clock algorithm compares, and the profile TLV when present (R261, R264). -/
structure PtpAnnounce where
  port : Nat
  domain : Nat
  srcPort : W80
  gm : W64
  prio1 : Nat
  clockClass : Nat
  accuracy : Nat
  variance : Nat
  prio2 : Nat
  steps : Nat
  utc : Int
  leap : Byte
  inaccuracy : Option W32
  intervalNs : Nat
deriving DecidableEq, Repr, Inhabited

/-- A PTP message arriving on a ring port for the transparent clock (R265). -/
structure PtpFwd where
  fromP1 : Bool
  kind : Nat
  srcPort : W80
  seq : W16
  twoStep : Bool
  correction : Int
  ingress : W64
  egress : W64
deriving DecidableEq, Repr, Inhabited

/-- Header fields, tag and arrival port of a dictionary message (R289). -/
structure MsgHdr where
  via : Via
  sid : W32
  ctr : W32
  reqid : W64
  tag : Bytes
deriving DecidableEq, Repr, Inhabited

/-- One item of READ (R290). -/
structure ReadItem where
  index : Nat
  sub : Nat
  offset : Nat
deriving DecidableEq, Repr, Inhabited

/-- Body of WRITE (R290). -/
structure WritePiece where
  index : Nat
  sub : Nat
  typ : Nat
  more : Bool
  offset : Nat
  data : Bytes
deriving DecidableEq, Repr, Inhabited

/-- The redundancy a frame carries on a port: on the ring the HSR tag, with its path identifier and LSDU size; on a station port the
redundancy control trailer, with its LAN identifier and LSDU size; none on port H (R225, R228, R229). -/
inductive PortTag where
  | hsr (path size : Nat) (seq : W16)
  | rct (seq : W16) (lan size : Nat)
  | plain
deriving DecidableEq, Repr, Inhabited

/-- The source MAC of a frame, and the ports on which it left with the tag or trailer it carries on each (R17, R225, R228, R229). -/
structure Source where
  mac : W48
  sent : List (Port × PortTag)
deriving DecidableEq, Repr, Inhabited

/-- Everything the module sends or shows on a wire in a step, in the order it does so (log entry 4). -/
inductive Out where
  | frame (ports : List Port) (f : Frame) (wire : Bytes)
  | forwarded (port : Port) (f : Frame)
  | cutFrame
  | miojo (lanes : List Bool) (hdr : MjHdr) (m : MjMsg) (wire : Bytes)
  | boot (src dst : W48) (type : Nat) (xid : W32) (payload : Bytes)
  | dict (via : Via) (source : Option Source) (msg : Bytes)
  | can (ctrl : Nat) (f : CanFrame)
  | canAbort (ctrl : Nat)
  | ptp (src : W48) (port : Nat) (kind : Nat) (seq : W16) (correction : Int)
  | ptpForward (src : W48) (toP1 : Bool) (kind : Nat) (srcPort : W80) (seq : W16) (correction : Int)
  | arpReply (port : Port) (source : Source) (addr : W32) (mac : W48)
  | icmpReply (port : Port) (source : Source) (id seq : W16) (data : Bytes)
  | sv (ports : List Port)
  | goose (source : Source) (pub : Nat) (stNum sqNum : W32) (ttlMs : Nat) (test : Bool) (members : List GooseMember)
  | barrierRefresh
  | barrierOff
  | uart (record : Bytes)
  | i2c (data : Bytes)
  | jtag (served : Bool) (data : W32)
  | debugError
  | regRead (value : W32)
deriving DecidableEq, Repr, Inhabited
/-- The side and position straps as read twice, once with a pull-down and once with a pull-up (R507). -/
structure Straps where
  sideB : Bool
  pos : BitVec 6
  anyOpen : Bool
deriving DecidableEq, Repr, Inhabited

/-- Source address, exchange identifier and VER of a boot message (R475, R476). -/
structure BootHdr where
  src : W48
  xid : W32
  ver : Byte := 1
deriving DecidableEq, Repr, Inhabited

/-- The session, request and role a dictionary request came with (R282, R289). -/
structure Client where
  via : Via
  sid : W32
  ctr : W32
  reqid : W64
  role : Nat
deriving DecidableEq, Repr, Inhabited

/-- A supplied frame: a publication or a GOOSE message (R202). -/
inductive SlotFrame where
  | net (f : Frame)
  | goose (g : GooseMsg)
deriving DecidableEq, Repr, Inhabited

/-- Wake causes of a sleeping CAN controller (R321–R323). -/
inductive CanWakeCause where
  | dominant
  | edge
  | frame (f : CanFrame)
deriving DecidableEq, Repr, Inhabited

/-- Bus masters of the table "MPU registers" (MPU_FINFO.MASTER), and the management cores (R405). -/
inductive Master where
  | n0 | n1 | dma | dap | mgmt
deriving DecidableEq, Repr, Inhabited

/-- Memories that check their words (table "Memory protection", R436), and the port domain's frame path out at a port, which carries
parity (R434; the table has no row of its own for it, DESIGN CHOICE, log entry 134). -/
inductive EccPlace where
  | image | desc | tcm (n1 : Bool) | dram (n1 : Bool) | mram | flash | ring | frame (port : Port)
deriving DecidableEq, Repr, Inhabited
/-- A CAN bus error: code, whether in the data phase, whether transmitting, and what ISO 11898-1's counting rules look at besides:
`flag`, a bit error while an error or overload flag is sent, a dominant bit first after a receiver's own flag, or each further run of
dominant bits after one; `arbStuff`, a stuff error in arbitration whose recessive stuff bit was monitored dominant; `dominant`, a
dominant bit seen while a passive error flag is sent (R318). -/
structure CanErr where
  code : BitVec 3
  data : Bool
  transmitting : Bool
  flag : Bool := false
  arbStuff : Bool := false
  dominant : Bool := false
deriving DecidableEq, Repr, Inhabited

/-- What the debug access port does to a core pair: halt it, step one instruction, read or write a register or CSR by its number in the
RISC-V debug specification, or set EBREAK to enter debug mode, itself a CSR write (R447). -/
inductive DbgOp where
  | halt | step | readReg (n : Nat) | writeReg (n : Nat) (v : W32) | arm (on : Bool)
deriving DecidableEq, Repr, Inhabited

/-- A denied access (R404, R407). -/
structure Violation where
  master : Nat
  addr : W32
  kind : Nat
  priv : Bool
  region : Nat
  firewall : Bool
deriving DecidableEq, Repr, Inhabited

end Sys2Proof.Machine
end

