-- ==== Sys2Proof/Machine/Package.lean ====
section
/-!
DEFINITION. The application package as the module uses it: point descriptors, programs, channels, loops, publications, subscriptions, field sections and the other values of persistence Package.
-/

namespace Sys2Proof.Machine

/-- Point descriptor (R38, table "Point descriptor"): the fields of its 64 bits. -/
structure PointDesc where
  typ : Nat
  scale : Int
  source : Nat
  retain : Bool
  forceable : Bool
  task : Nat
  fresh : Nat
  init : Option Nat
deriving DecidableEq, Repr, Inhabited

/-- A block instance: its instance ID and its descriptor as the package carries it, 16 bytes, most significant first (R76, R90). -/
structure BlockInst where
  id : Nat
  bytes : Bytes
deriving DecidableEq, Repr, Inhabited

/-- A declared NCALL function: number and time budget in ns (R133). -/
structure NcallFn where
  func : Nat
  budgetNs : Nat
  user : Bool
deriving DecidableEq, Repr, Inhabited

/-- Package values of a channel, entries 0x2000:01–0x17 (R135, R163). -/
structure ChannelCfg where
  source : Nat
  fast : Bool
  f0 : Nat
  quantity : Nat
  dst : W48
  vlan : Nat
  appid : Nat
  svId : Bytes
  confRev : W32
  element : Nat
  point : Nat
  convInput : Nat
  convSideB : Bool
  limitUs : Nat
  refCh : Nat
  base : Nat
  task : Nat
  hout : Nat
  angles : Bool
deriving DecidableEq, Repr, Inhabited

/-- Package values of a loop, entries 0x2100:02–0x37 (R164, R187). -/
structure LoopCfg where
  fast : Bool
  dv : Nat
  pvPoint : Bool
  pvCh : Nat
  pvKind : Nat
  pvPt : Nat
  spSource : Nat
  spRef : Nat
  gate : Nat
  ffPt : Option Nat
  deadlineUs : Nat
  bankPoint : Option Nat
  refCh : Nat
  cells : Nat
  base : Nat
  task : Nat
  output : Option Nat
  leadOnly : Bool
  pacedPub : Option Nat
  pacing : Nat
deriving DecidableEq, Repr, Inhabited

/-- Package values of a publication (R243). -/
structure PubCfg where
  kind : Nat
  task : Nat
  first : Nat
  count : Nat
  dst : W48
  vlan : Nat
  prio : Nat
  ring : Bool
  station : Bool
  gocbRef : Bytes
  datSet : Bytes
  goId : Bytes
  appid : Nat
  confRev : W32
  tminMs : Nat
  tmaxMs : Nat
  memberTypes : List Nat
deriving DecidableEq, Repr, Inhabited

/-- Package values of a subscription slot (R244). -/
structure SubCfg where
  kind : Nat
  task : Nat
  first : Nat
  count : Nat
  pair : W16
  pub : Nat
  dst : W48
  appid : Nat
  gocbRef : Bytes
  datSet : Bytes
  confRev : W32
  memberTypes : List Nat
deriving DecidableEq, Repr, Inhabited

/-- Field section values of a D channel (R381, R521). -/
structure DCfg where
  func : Nat
  paired : Bool
  input : Option Nat
  command : Option Nat
  readback : Option Nat
deriving DecidableEq, Repr, Inhabited

/-- Field section values of a LOOP channel (R381, R521). -/
structure LoopIoCfg where
  func : Nat
  paired : Bool
  input : Option Nat
  command : Option Nat
  readback : Option Nat
deriving DecidableEq, Repr, Inhabited

/-- Sequencer entry (R373, R382). -/
structure SeqCfg where
  input : Nat
  trigger : Nat
  toReg : Bool
  toDma : Bool
  boundTo : Nat
  number : Nat
deriving DecidableEq, Repr, Inhabited

/-- The field section of one side (R521). -/
structure FieldCfg where
  d : List DCfg
  l : List LoopIoCfg
  seq : List SeqCfg
  statusPoint : Option Nat
deriving DecidableEq, Repr, Inhabited

/-- Package values of a CAN controller (R327). -/
structure CanCfg where
  owner : Nat
  nbt : W32
  dbt : W32
  tdc : W32
  fdAllowed : Bool
  reqId : W32
  rspId : W32
  bellId : W32
  wakeFrame : Bool
  wakeId : W32
  wakeMask : W32
deriving DecidableEq, Repr, Inhabited

/-- Package values of the recorder (R354). -/
structure RecCfg where
  channels : List Nat
  exps : List Nat
  points : List Nat
  triggers : List Nat
deriving DecidableEq, Repr, Inhabited

/-- Application-named entry (R280): its default in the encoding of its type, and its persistence, 0 none, 1 package, 2 MRAM, 3 flash, 4 fixed. -/
structure AppEntry where
  index : Nat
  sub : Nat
  point : Nat
  typ : Nat
  dflt : Nat
  pers : Nat
  pair : Bool
  role : Nat
deriving DecidableEq, Repr, Inhabited

/-- A wrapped role key of 68 bytes (R491). -/
structure Wrapped where
  role : Nat
  num : Nat
  salt : Bytes
  cipher : Bytes
  tag : Bytes
deriving DecidableEq, Repr, Inhabited

/-- An application package as installed (chapters 1 to 18, persistence Package). -/
structure Package where
  name : Bytes
  pairNo : Nat
  paired : Bool
  slot : Option Nat
  etype : W16
  prio : Nat
  ptpDomain : Nat
  ipA : W32
  ipB : W32
  netLen : Nat
  gateway : W32
  media : List Nat
  periods : List Nat
  points : List (Nat × PointDesc)
  consts : List (Nat × TWord)
  blocks : List (List BlockInst)
  ncalls : List NcallFn
  writers : List (Nat × Nat)
  channels : List (Nat × ChannelCfg)
  loops : List (Nat × LoopCfg)
  pubs : List (Nat × PubCfg)
  subs : List (Nat × SubCfg)
  fieldA : FieldCfg
  fieldB : FieldCfg
  can : List CanCfg
  canWritable : List (Nat × Nat)
  recCfg : RecCfg
  apps : List AppEntry
  operateOnce : List (Nat × Nat)
  settings : List (Nat × Nat)
  keys : List Wrapped
  roleN0 : Nat
  roleN1 : Nat
  dmaOwner : Nat
  adcWriter : Nat
  shareN0 : Nat
  shareN1 : Nat
  imageN0 : List (Nat × Bytes)
  imageN1 : List (Nat × Bytes)
  entryN0 : W32
  entryN1 : W32
  keptPages : List (Nat × Nat)
  nativeMib : Nat
deriving DecidableEq, Repr, Inhabited

/-- The contents of an on-line change (R74, R75): replacement blocks, constants and point descriptors, and whether anything else differs. -/
structure Change where
  valid : Bool
  structural : Bool
  blocks : List (List BlockInst)
  consts : List (Nat × TWord)
  points : List (Nat × PointDesc)
deriving DecidableEq, Repr, Inhabited

/-- The fields of a manifest (R468). -/
structure Manifest where
  kind : Nat
  key : Nat
  revoke : BitVec 4
  iversion : W32
  pclass : W16
  cclass : W16
  svn : Nat
  setfmt : Nat
  chunks : Nat
  length : Nat
  generation : W32
  base : Bytes
  digests : List Bytes
  signature : Bytes
  header : Bytes
deriving DecidableEq, Repr, Inhabited

/-- A running or previous package: its manifest, its image bytes, its contents, and the digest of its program (R74, R89, R481). -/
structure Installed where
  man : Manifest
  image : List (Nat × Byte)
  pkg : Package
  prog : Bytes
deriving DecidableEq, Repr, Inhabited

end Sys2Proof.Machine
end

