-- ==== Sys2Proof/Syntax.lean ====
section
/-!
DEFINITION. The commands of the block: one constructor for each row of the table of operations and events.
-/

namespace Sys2Proof

open Sys2Proof.Machine

/-- A command: an operation or event of the manual, with what it carries. An operand with a default is one that most such acts do
without: `held`, the bits that hardware sets in the same clock (R10; none); `at_` and `egress`, interpolated stamps (R246; without
one in this AON tick the tick itself is the stamp); `retired`, the instructions that the call has retired (R81); `rsv`, the reserved
bits and bytes of a message (R6; zeros); `size`, the bytes of an access (R9; a word); `broken`, a parity error on the frame's way
(R434); `load`, whether the access reads (R306). -/
inductive Instr where
  /-- POWER_ON (R503). -/
  | powerOn (straps : Straps)
  /-- FEED_CHANGE (R502). -/
  | feedChange (a b : Bool)
  /-- STORED_ENERGY_WARNING (R504). -/
  | storedEnergyWarning
  /-- RST_N_ASSERT (R505). -/
  | rstNAssert (us : Nat)
  /-- WIPE_N_HELD (R463). -/
  | wipeNHeld
  /-- MASK_ROM_CHECK (R472). -/
  | maskRomCheck
  /-- STAGED_LOADER_INSTALL (R474). -/
  | stagedLoaderInstall
  /-- SOLICIT_TIMER (R477). -/
  | solicitTimer
  /-- BOOT_OFFER (R477). -/
  | bootOffer (b : BootHdr) (kind manLen imgLen : Nat)
  /-- BOOT_DATA (R478). -/
  | bootData (b : BootHdr) (object chunk block : Nat) (data : Bytes)
  /-- BOOT_ACK_TIMER (R477). -/
  | bootAckTimer
  /-- BOOT_TRANSFER_TIMEOUT (R477). -/
  | bootTransferTimeout
  /-- BOOT_GET (R479). -/
  | bootGet (b : BootHdr) (object offset : Nat) (nonce : Bytes)
  /-- PROVISION (R489). -/
  | provision (b : BootHdr) (body : Bytes)
  /-- SELFTEST_RUN (R439). -/
  | selftestRun (failed : Option Nat)
  /-- PACKAGE_SETTLE (R481). -/
  | packageSettle
  /-- START_FROM_STOP (R213). -/
  | startFromStop
  /-- STARTUP_WAIT_EXPIRE (R213). -/
  | startupWaitExpire
  /-- OWN_HIGH_ENTER_ALONE (R213). -/
  | ownHighEnterAlone
  /-- STOP_REJOIN_TIMER (R459). -/
  | stopRejoinTimer
  /-- TICK (R54). -/
  | tick
  /-- EXECUTION_START (R59). -/
  | executionStart
  /-- EXECUTION_END (R71). -/
  | executionEnd
  /-- MIOJO_OUTPUT (R206). -/
  | miojoOutput (h : MjHdr) (tick digest engine : W64)
  /-- DIGEST_TIMEOUT (R206). -/
  | digestTimeout
  /-- SWITCHOVER_RESUME (R486). -/
  | switchoverResume
  /-- AGREEMENT_TIMEOUT (R218). -/
  | agreementTimeout
  /-- NCALL_TRAP (R418). -/
  | ncallTrap (c : Cp)
  /-- CYC_RETT_WRITE (R419). -/
  | cycRettWrite (c : Cp) (v : W32) (retired : Nat := 0)
  /-- NCALL_ABANDON (R81). -/
  | ncallAbandon (c : Cp) (retired : Nat := 0)
  /-- CYC_VEC_WRITE (R421). -/
  | cycVecWrite (c : Cp) (v : W32)
  /-- POINT_STAGE_WRITE (R390). -/
  | pointStageWrite (c : Cp) (point : Nat) (v : W32)
  /-- POINT_COMMIT_WRITE (R390). -/
  | pointCommitWrite (c : Cp) (point : Nat) (v : W32)
  /-- CONSTANT_WINDOW_WRITE (R392). -/
  | constantWindowWrite (c : Cp) (const : Nat) (v : W32)
  /-- GRID_INSTANT (R149). -/
  | gridInstant
  /-- SAMPLE_DEADLINE (R145). -/
  | sampleDeadline (stream : Nat)
  /-- ANALYSIS_INSTANT (R153). -/
  | analysisInstant (ch : Nat)
  /-- TRACKING_LOSS_TIMER (R154). -/
  | trackingLossTimer (ch : Nat)
  /-- LOOP_UPDATE (R167). -/
  | loopUpdate (n : Nat)
  /-- SHARE_TO_FULL (R370). -/
  | shareToFull (n : Nat)
  /-- FULL_TO_SHARE (R370). -/
  | fullToShare (n : Nat)
  /-- MIOJO_HELLO (R213). -/
  | miojoHello (h : MjHdr) (x : Hello)
  /-- MIOJO_KEEP (R198). -/
  | miojoKeep (h : MjHdr)
  /-- KEEP_SEND_TIMER (R198). -/
  | keepSendTimer (lane : Bool)
  /-- MIOJO_DELAY (R199). -/
  | miojoDelay (h : MjHdr) (response : Bool) (raw : W64) (turnaround : W32)
  /-- DELAY_MEASURE_TIMER (R199). -/
  | delayMeasureTimer
  /-- MIOJO_TICK (R202). -/
  | miojoTick (h : MjHdr) (t : TickMsg)
  /-- MIOJO_SUPPLY (R202). -/
  | miojoSupply (h : MjHdr) (slot : Nat) (f : SlotFrame)
  /-- MIOJO_SAMPLE (R145). -/
  | miojoSample (h : MjHdr) (m : SampleMsg)
  /-- MIOJO_SVSUPPLY (R145). -/
  | miojoSvsupply (h : MjHdr) (stream : Nat) (f : SvFrame)
  /-- MIOJO_SIDEIN (R148). -/
  | miojoSidein (h : MjHdr) (xs : List SideItem)
  /-- MIOJO_FORWARD (R210). -/
  | miojoForward (h : MjHdr) (fwd : W32) (r : PairReq)
  /-- MIOJO_WRITE (R210). -/
  | miojoWrite (h : MjHdr) (w : WriteMsg)
  /-- WRITE_RESEND_TIMER (R210). -/
  | writeResendTimer
  /-- MIOJO_WACK (R210). -/
  | miojoWack (h : MjHdr) (wsn : W32)
  /-- MIOJO_REFUSE (R210). -/
  | miojoRefuse (h : MjHdr) (fwd : W32) (code : W16)
  /-- MIOJO_HANDOVER (R219). -/
  | miojoHandover (h : MjHdr) (tick : W64)
  /-- MIOJO_ANNOUNCE (R255). -/
  | miojoAnnounce (h : MjHdr) (a : Announce)
  /-- MIOJO_CHECK (R75). -/
  | miojoCheck (h : MjHdr) (tick : W64) (outcome : Nat) (digest : Bytes)
  /-- MIOJO_SILENT (R189). -/
  | miojoSilent (h : MjHdr) (reason : Nat)
  /-- MIOJO_STATE (R195). -/
  | miojoState (h : MjHdr) (region : Nat) (offset : Nat) (data : Bytes)
  /-- MIOJO_STATEACK (R197). -/
  | miojoStateack (h : MjHdr) (seq : W32)
  /-- STATE_RESEND_TIMER (R197). -/
  | stateResendTimer
  /-- MIOJO_LOG (R196). -/
  | miojoLog (h : MjHdr) (tick : W64) (items : List LogItem)
  /-- MIOJO_CATCH (R196). -/
  | miojoCatch (h : MjHdr) (phase : Nat) (snapshot : W64) (reason : Option Nat)
  /-- MIOJO_BAD_CRC (R197). -/
  | miojoBadCrc (lane : Bool)
  /-- LANE_UP (R198). -/
  | laneUp (lane : Bool)
  /-- LANE_DOWN (R198). -/
  | laneDown (lane : Bool)
  /-- MIOJO_LINK_DOWN (R218). -/
  | miojoLinkDown
  /-- ALIVE_TOGGLE (R188). -/
  | aliveToggle
  /-- ALIVE_PERMIT_WRITE (R188). -/
  | alivePermitWrite
  /-- ALIVE_PERMIT_EXPIRE (R188). -/
  | alivePermitExpire
  /-- ALIVE_IN_EDGE (R189). -/
  | aliveInEdge
  /-- ALIVE_TIMEOUT (R189). -/
  | aliveTimeout
  /-- OWN_IN_CHANGE (R190). -/
  | ownInChange (high : Bool)
  /-- OWN_PERMIT_EXPIRE (R190). -/
  | ownPermitExpire
  /-- INTERLOCK_WIRING_FAULT (R192). -/
  | interlockWiringFault
  /-- CATCHUP_BULK_PASS_DONE (R214). -/
  | catchupBulkPassDone (dirty : Nat)
  /-- CATCHUP_REPLAY_TICK (R214). -/
  | catchupReplayTick
  /-- CATCHUP_RETRY_TIMER (R215). -/
  | catchupRetryTimer
  /-- TWIN_STABLE_TIMER (R215). -/
  | twinStableTimer
  /-- PUBLICATION_RECEIVE (R235). -/
  | publicationReceive (f : Frame)
  /-- SLOT_FORGET_TIMER (R237). -/
  | slotForgetTimer (slot : Nat)
  /-- GOOSE_RECEIVE (R241). -/
  | gooseReceive (g : GooseMsg)
  /-- GOOSE_RETRANSMIT (R240). -/
  | gooseRetransmit (pub : Nat)
  /-- SV_FRAME_RECEIVE (R137). -/
  | svFrameReceive (f : SvFrame) (at_ : W64 := 0)
  /-- BELL_RECEIVE (R19). -/
  | bellReceive (herd : W16) (mac : W48)
  /-- BELL_SEND_TIMER (R324). -/
  | bellSendTimer
  /-- CAN_BELL_SEND (R325). -/
  | canBellSend (ctrl : Nat)
  /-- RING_FRAME_ARRIVAL (R226). -/
  | ringFrameArrival (onP1 : Bool) (f : Frame) (broken : Bool := false)
  /-- STATION_FRAME_ARRIVAL (R228). -/
  | stationFrameArrival (p : Port) (f : Frame) (broken : Bool := false)
  /-- SEPARATOR_ENTRY_EXPIRE (R226). -/
  | separatorEntryExpire
  /-- SUPERVISION_SEND_TIMER (R225). -/
  | supervisionSendTimer
  /-- RING_LINK_CHANGE (R223). -/
  | ringLinkChange (p : Port) (up : Bool) (medium : Nat)
  /-- RING_MEDIUM_DETECT_TIMER (R224). -/
  | ringMediumDetectTimer
  /-- ARP_REQUEST (R283). -/
  | arpRequest (p : Port) (mac : W48) (ip target : W32)
  /-- ICMP_ECHO (R283). -/
  | icmpEcho (p : Port) (target : W32) (id seq : W16) (data : Bytes)
  /-- PTP_SYNC_RECEIVE (R252). -/
  | ptpSyncReceive (m : PtpSync)
  /-- PTP_FOLLOW_UP_RECEIVE (R252). -/
  | ptpFollowUpReceive (srcPort : W80) (seq : W16) (origin : Nat) (correction : Int)
  /-- PTP_ANNOUNCE_RECEIVE (R264). -/
  | ptpAnnounceReceive (m : PtpAnnounce)
  /-- PDELAY_REQ_RECEIVE (R263). -/
  | pdelayReqReceive (port : Nat) (seq : W16) (correction : Int) (ingress egress : W64)
  /-- PDELAY_RESP_RECEIVE (R263). -/
  | pdelayRespReceive (port : Nat) (seq : W16) (ingress : W64) (turnaround : Int)
  /-- PDELAY_REQ_TIMER (R263). -/
  | pdelayReqTimer (egress : List W64 := [])
  /-- PTP_TC_FORWARD (R265). -/
  | ptpTcForward (m : PtpFwd)
  /-- PTP_TC_ENTRY_EXPIRE (R265). -/
  | ptpTcEntryExpire
  /-- SYNC_LOSS_TIMER (R251). -/
  | syncLossTimer
  /-- HOLDOVER_LIMIT_EXPIRE (R253). -/
  | holdoverLimitExpire
  /-- REF_IN_QUALIFY (R258). -/
  | refInQualify (diff : Int)
  /-- REF_IN_LOSS (R259). -/
  | refInLoss
  /-- PPS_IN_EDGE (R260). -/
  | ppsInEdge (at_ : W64 := 0)
  /-- WHOLE_SECOND (R260). -/
  | wholeSecond
  /-- TIME_ALARM_FIRE (R271). -/
  | timeAlarmFire
  /-- TIME_ALARM_ARM (R271). -/
  | timeAlarmArm
  /-- TIME_ALARM_DISARM (R270). -/
  | timeAlarmDisarm
  /-- RATE_WRITE (R248). -/
  | rateWrite (rate : W32)
  /-- TIME_GROUP_LATCH_READ (R270). -/
  | timeGroupLatchRead (reg : Nat) (m : Master := .mgmt)
  /-- FORERUNNER_LOAD (R269). -/
  | forerunnerLoad (v : W32)
  /-- SESSION_OPEN (R285). -/
  | sessionOpen (h : MsgHdr) (body : Bytes)
  /-- SESSION_SETUP_TIMEOUT (R285). -/
  | sessionSetupTimeout (sid : W32)
  /-- SESSION_IDLE_TIMEOUT (R287). -/
  | sessionIdleTimeout (sid : W32)
  /-- SESSION_CLOSE (R287). -/
  | sessionClose (h : MsgHdr)
  /-- DICT_READ (R291). -/
  | dictRead (h : MsgHdr) (items : List ReadItem) (rsv : Bytes := [])
  /-- DICT_WRITE (R292). -/
  | dictWrite (h : MsgHdr) (w : WritePiece) (rsv : Bytes := [])
  /-- DICT_MALFORMED (R290). -/
  | dictMalformed (h : MsgHdr) (type : Nat) (body : Bytes)
  /-- CAN_TP_FRAME (R300). -/
  | canTpFrame (ctrl : Nat) (f : CanFrame)
  /-- CAN_TP_TIMEOUT (R300). -/
  | canTpTimeout (ctrl : Nat)
  /-- SERVICE_UNLOCK (R281). -/
  | serviceUnlock (c : Client) (data : Bytes)
  /-- RESTART_WARM (R85). -/
  | restartWarm (c : Client)
  /-- RESTART_COLD (R85). -/
  | restartCold (c : Client)
  /-- SET_FORCE (R46). -/
  | setForce (c : Client) (data : Bytes)
  /-- RELEASE_FORCE (R48). -/
  | releaseForce (c : Client) (data : Bytes)
  /-- RELEASE_ALL_FORCES (R48). -/
  | releaseAllForces (c : Client)
  /-- ONLINE_CHANGE_ACTIVATE (R75). -/
  | onlineChangeActivate (c : Client)
  /-- ONLINE_CHANGE_DISCARD (R75). -/
  | onlineChangeDiscard (c : Client)
  /-- CLEAR_COUNTERS (R52). -/
  | clearCounters (c : Client) (index sub : Nat)
  /-- LOOP_MODE_SET (R179). -/
  | loopModeSet (c : Client) (n mode : Nat)
  /-- LOOP_BANK_COMMAND (R176). -/
  | loopBankCommand (c : Client) (n bank : Nat)
  /-- CLEAR_REPETITIVE_MEMORY (R172). -/
  | clearRepetitiveMemory (c : Client) (n : Nat)
  /-- COMMANDED_HANDOVER (R219). -/
  | commandedHandover (c : Client)
  /-- RETRY_CATCHUP (R215). -/
  | retryCatchup (c : Client)
  /-- MANUAL_TRIGGER (R339). -/
  | manualTrigger (c : Client)
  /-- DELETE_ALL_RECORDS (R354). -/
  | deleteAllRecords (c : Client)
  /-- CLEAR_D_FAULT (R362). -/
  | clearDFault (c : Option Client) (held : Bool := false)
  /-- CLEAR_DEBUGGED (R447). -/
  | clearDebugged (c : Client)
  /-- CLEAR_LATENT_FAULT (R442). -/
  | clearLatentFault (c : Client)
  /-- COMMANDED_STOP (R459). -/
  | commandedStop (c : Client)
  /-- LIFT_STOP (R459). -/
  | liftStop (c : Client)
  /-- COMMANDED_RESET (R459). -/
  | commandedReset (c : Client)
  /-- TEST_ENTER (R458). -/
  | testEnter (c : Client)
  /-- TEST_LEAVE (R458). -/
  | testLeave (c : Client)
  /-- COMMISSION (R463). -/
  | commission (c : Client)
  /-- RETURN_TO_BLANK (R463). -/
  | returnToBlank (c : Client)
  /-- DECOMMISSION (R463). -/
  | decommission (c : Client)
  /-- RAISE_MINIMUM_SVN (R496). -/
  | raiseMinimumSvn (c : Client)
  /-- PACKAGE_KEY_A1_WRITE (R497). -/
  | packageKeyA1Write (c : Client) (data : Bytes)
  /-- WRAPPED_ROLE_KEY_WRITE (R492). -/
  | wrappedRoleKeyWrite (c : Client) (data : Bytes)
  /-- REMOVE_ROLE_KEY (R492). -/
  | removeRoleKey (c : Client) (data : Bytes)
  /-- ATTESTATION_NONCE (R495). -/
  | attestationNonce (c : Client) (nonce : Bytes)
  /-- ATTESTATION_SIGNED (R495). -/
  | attestationSigned
  /-- BEGIN_STAGING (R480). -/
  | beginStaging (c : Client) (kind : Nat)
  /-- MANIFEST_STREAM_WRITE (R480). -/
  | manifestStreamWrite (c : Client) (offset : Nat) (data : Bytes)
  /-- IMAGE_STREAM_WRITE (R480). -/
  | imageStreamWrite (c : Client) (offset : Nat) (data : Bytes)
  /-- CONFIRM_SETTINGS (R483). -/
  | confirmSettings (c : Client)
  /-- DISCARD_SLOT (R498). -/
  | discardSlot (c : Client)
  /-- RUN_PREVIOUS_PACKAGE (R481). -/
  | runPreviousPackage (c : Client)
  /-- PREPARE_SWITCHOVER (R485). -/
  | prepareSwitchover (c : Client)
  /-- SWITCHOVER (R486). -/
  | switchover (c : Client)
  /-- LOG_RECORD_WRITE (R331). -/
  | logRecordWrite
  /-- LOG_MIRROR_COPY (R334). -/
  | logMirrorCopy
  /-- OPERATING_SECOND (R328). -/
  | operatingSecond
  /-- RECORD_START (R341). -/
  | recordStart
  /-- RECORD_COMMIT (R342). -/
  | recordCommit (number : W32)
  /-- REC_LOGGO (R336). -/
  | recLoggo (c : Cp)
  /-- DMB_GO (R304). -/
  | dmbGo (c : Cp)
  /-- DMB_ABORT (R303). -/
  | dmbAbort (c : Cp)
  /-- DMB_DONE (R304). -/
  | dmbDone (c : Cp)
  /-- DMB_NCALL_DISCARD (R306). -/
  | dmbNcallDiscard (c : Cp) (offset : Nat) (v : W32) (load : Bool := false)
  /-- CAN_FRAME_RECEIVE (R312). -/
  | canFrameReceive (ctrl : Nat) (f : CanFrame)
  /-- CAN_TX_COMPLETE (R317). -/
  | canTxComplete (ctrl : Nat)
  /-- CAN_BUS_ERROR (R318). -/
  | canBusError (ctrl : Nat) (e : CanErr)
  /-- CAN_RECOVERY_DONE (R319). -/
  | canRecoveryDone (ctrl : Nat)
  /-- CAN_TXSUBMIT (R315). -/
  | canTxsubmit (ctrl : Nat) (v : W32)
  /-- CAN_TXCANCEL (R317). -/
  | canTxcancel (ctrl : Nat) (v : W32)
  /-- CAN_RXACK (R313). -/
  | canRxack (ctrl : Nat)
  /-- CAN_RECOVER (R319). -/
  | canRecover (ctrl : Nat)
  /-- CAN_SLEEP (R321). -/
  | canSleep (ctrl : Nat)
  /-- CAN_WAKE_COMMAND (R323). -/
  | canWakeCommand (ctrl : Nat)
  /-- CAN_WAKE (R323). -/
  | canWake (ctrl : Nat) (cause : CanWakeCause)
  /-- CAN_LASTERR_READ (R326). -/
  | canLasterrRead (ctrl : Nat) (held : W32 := 0)
  /-- INTERRUPT_EVENT (R410). -/
  | interruptEvent (c : Cp) (src : Nat)
  /-- INTC_CLAIM (R412). -/
  | intcClaim (c : Cp) (v : W32)
  /-- INTC_COMPLETE (R413). -/
  | intcComplete (c : Cp) (v : W32)
  /-- INTC_SWSET (R409). -/
  | intcSwset (c : Cp) (v : W32)
  /-- INTC_STRAY_CLEAR (R413). -/
  | intcStrayClear (c : Cp)
  /-- HOLD_EXPIRE (R415). -/
  | holdExpire (c : Cp) (src : Nat)
  /-- WFI (R416). -/
  | wfi (c : Cp)
  /-- CORE_WAKE (R416). -/
  | coreWake (c : Cp)
  /-- DMA_GO (R425). -/
  | dmaGo (ch : Nat)
  /-- DMA_RESUME (R427). -/
  | dmaResume (ch : Nat)
  /-- DMA_STOP (R428). -/
  | dmaStop (ch : Nat)
  /-- DMA_DISABLE (R428). -/
  | dmaDisable
  /-- DMA_BEAT (R423). -/
  | dmaBeat (ch : Nat) (held : W32 := 0)
  /-- DMA_DESCRIPTOR_DONE (R426). -/
  | dmaDescriptorDone (ch : Nat)
  /-- DMA_BUS_ERROR (R429). -/
  | dmaBusError (ch : Nat) (addr : W32)
  /-- DMA_UNFREEZE (R405). -/
  | dmaUnfreeze (c : Cp) (held : Bool := false)
  /-- EVF_SWPULSE (R430). -/
  | evfSwpulse (v : W32) (m : Master := .mgmt)
  /-- EVENT_DELIVERY (R431). -/
  | eventDelivery (producer : Nat)
  /-- EVF_LOST_CLEAR (R431). -/
  | evfLostClear (m : Master := .mgmt)
  /-- CLK_WAKES_CLEAR (R432). -/
  | clkWakesClear (c : Cp)
  /-- MPU_SYNC_READ (R400). -/
  | mpuSyncRead (c : Cp)
  /-- MPU_REGION_LOCK (R401). -/
  | mpuRegionLock (c : Cp) (region : Nat)
  /-- PROTECTION_VIOLATION (R404). -/
  | protectionViolation (v : Violation)
  /-- ACCESS_FAULT (R388). -/
  | accessFault (m : Master) (addr : W32) (type : Nat) (ch : Nat)
  /-- MISALIGNED_ACCESS (R383). -/
  | misalignedAccess (c : Cp) (addr : W32) (store : Bool)
  /-- REGISTER_WRITE (R9). -/
  | registerWrite (m : Master) (addr : W32) (v : W32) (size : Nat := 4) (held : W32 := 0)
  /-- ADC_SWGO (R373). -/
  | adcSwgo (v : W32)
  /-- ADC_INJECT_WRITE (R375). -/
  | adcInjectWrite (v : W32)
  /-- CONVERSION_DONE (R374). -/
  | conversionDone (code : W16) (at_ : W64 := 0)
  /-- ADC_RESULT_READ (R380). -/
  | adcResultRead (reg : Nat) (held : W32 := 0) (m : Master := .mgmt)
  /-- CONVERTER_CALIBRATION (R377). -/
  | converterCalibration (offsets gains : List Int)
  /-- REFERENCE_CHECK (R377). -/
  | referenceCheck (uv : Nat)
  /-- FIELD_REFRESH (R356). -/
  | fieldRefresh
  /-- FIELD_WATCHDOG_TRIP (R356). -/
  | fieldWatchdogTrip
  /-- D_INPUT_SAMPLE (R359). -/
  | dInputSample (levels : List Bool)
  /-- D_INPUT_TEST (R359). -/
  | dInputTest (failed : List Nat)
  /-- PULSE_EDGE (R360). -/
  | pulseEdge (n : Nat)
  /-- OVERCURRENT_TRIP (R361). -/
  | overcurrentTrip (n : Nat)
  /-- TRIP_RETRY (R361). -/
  | tripRetry (n : Nat)
  /-- LPLUS_SAG (R363). -/
  | lplusSag (mv : W16)
  /-- LPLUS_RECOVER (R363). -/
  | lplusRecover (mv : W16)
  /-- COMPLIANCE_SHORTFALL (R367). -/
  | complianceShortfall (n : Nat)
  /-- LOCKSTEP_MISMATCH (R433). -/
  | lockstepMismatch (unit : Nat) (detail : W32)
  /-- UNCORRECTABLE_ERROR (R436). -/
  | uncorrectableError (m : EccPlace) (detail : W32)
  /-- CORRECTED_ERROR (R35). -/
  | correctedError (m : EccPlace)
  /-- MANAGEMENT_WATCHDOG (R443). -/
  | managementWatchdog
  /-- SUPPLY_CLOCK_FAULT (R443). -/
  | supplyClockFault (unit : Nat)
  /-- SCRUB_STEP (R437). -/
  | scrubStep (m : EccPlace) (words : Nat)
  /-- RUNTIME_COMPARATOR_TEST (R441). -/
  | runtimeComparatorTest (unit : Nat) (pass : Bool)
  /-- ECC_DECODER_TEST (R441). -/
  | eccDecoderTest (unit : Nat) (pass : Bool)
  /-- AUTOMATIC_RESTART (R445). -/
  | automaticRestart
  /-- DEBUG_HALT (R447). -/
  | debugHalt (c : Cp) (op : DbgOp := .halt)
  /-- EBREAK (R447). -/
  | ebreak (c : Cp)
  /-- DEBUG_LOCKED_ACCESS (R450). -/
  | debugLockedAccess (addr : W32) (region : Nat)
  /-- DEBUG_RESET (R405). -/
  | debugReset
  /-- MANAGEMENT_DEBUG_OP (R449). -/
  | managementDebugOp
  /-- I2C_WRITE (R510). -/
  | i2cWrite (b : Byte)
  /-- I2C_READ (R510). -/
  | i2cRead (n : Nat)
  /-- JTAG_ACCESS (R446). -/
  | jtagAccess (ir : Nat) (v : W32) (mem : Option W32 := none)
  /-- RST_N_RELEASE (R503). -/
  | rstNRelease (straps : Straps)
  /-- PGOOD_FALL (R504). -/
  | pgoodFall
  /-- ANNOUNCE_RECEIPT_TIMEOUT (R261). -/
  | announceReceiptTimeout
  /-- NCALL_TIME_BUDGET_ELAPSED (R448). -/
  | ncallTimeBudgetElapsed (c : Cp)
  /-- PPS_OUT_FALL (R260). -/
  | ppsOutFall
  /-- LED_FLASH_TOGGLE (R454). -/
  | ledFlashToggle (pairLed : Bool)
  /-- CUTOFF_CONVERTER_HOLD (R373). -/
  | cutoffConverterHold (task : Nat)
  /-- MPU_RULE_WRITE_EFFECTIVE (R400). -/
  | mpuRuleWriteEffective (m : Master)
deriving DecidableEq, Repr

end Sys2Proof
end

