-- ==== Sys2Proof/Machine/Entries.lean ====
section
/-!
DEFINITION. The entry tables of the object dictionary: type, access, role, default and persistence of every entry (R273–R279, and the entry tables of the chapters).
-/

namespace Sys2Proof.Machine

/-- Access codes (R275). -/
inductive Access where
  | const | ro | rw | wo | pair
deriving DecidableEq, Repr, Inhabited

/-- Persistence codes (R277). -/
inductive Persist where
  | none | package | mram | flash | fixed
deriving DecidableEq, Repr, Inhabited

/-- A row of an entry table: sub-index, type code, access, role, default in the encoding of its type, persistence. -/
structure EntryRow where
  sub : Nat
  typ : Nat
  access : Access
  role : Nat
  dflt : Nat
  pers : Persist
deriving DecidableEq, Repr, Inhabited

/-- An entry table and the indices it serves. -/
structure EntryTable where
  first : Nat
  last : Nat
  rows : List EntryRow
deriving DecidableEq, Repr, Inhabited

/-- Entries of 0x1000. -/
def entries1000 : List EntryRow :=
  [⟨0x00, 6, .const, 0, 9, .none⟩,
   ⟨0x01, 14, .const, 0, 0, .fixed⟩,
   ⟨0x02, 14, .const, 0, 0, .fixed⟩,
   ⟨0x03, 14, .const, 0, 0, .fixed⟩,
   ⟨0x04, 15, .const, 0, 0, .fixed⟩,
   ⟨0x05, 7, .const, 0, 0, .fixed⟩,
   ⟨0x06, 7, .const, 0, 0, .fixed⟩,
   ⟨0x07, 6, .ro, 0, 0, .none⟩,
   ⟨0x08, 6, .ro, 0, 0, .none⟩,
   ⟨0x09, 6, .ro, 0, 255, .package⟩]

/-- Entries of 0x1001. -/
def entries1001 : List EntryRow :=
  [⟨0x00, 6, .const, 0, 8, .none⟩,
   ⟨0x01, 8, .ro, 0, 0, .flash⟩,
   ⟨0x02, 15, .ro, 0, 0, .flash⟩,
   ⟨0x03, 8, .ro, 0, 0, .none⟩,
   ⟨0x04, 15, .ro, 0, 0, .none⟩,
   ⟨0x05, 7, .ro, 0, 0, .none⟩,
   ⟨0x06, 15, .ro, 0, 0, .package⟩,
   ⟨0x07, 14, .ro, 0, 0, .package⟩,
   ⟨0x08, 8, .ro, 0, 0, .package⟩]

/-- Entries of 0x1002. -/
def entries1002 : List EntryRow :=
  [⟨0x00, 6, .const, 0, 5, .none⟩,
   ⟨0x01, 15, .ro, 0, 0, .package⟩,
   ⟨0x02, 6, .ro, 0, 24, .package⟩,
   ⟨0x03, 15, .ro, 0, 0, .package⟩,
   ⟨0x04, 7, .const, 0, 48740, .none⟩,
   ⟨0x05, 15, .const, 0, 0, .none⟩]

/-- Entries of 0x1010. -/
def entries1010 : List EntryRow :=
  [⟨0x00, 6, .const, 0, 13, .none⟩,
   ⟨0x01, 6, .ro, 0, 0, .none⟩,
   ⟨0x02, 6, .const, 0, 16, .none⟩,
   ⟨0x03, 7, .const, 0, 60, .none⟩,
   ⟨0x04, 8, .ro, 0, 0, .none⟩,
   ⟨0x05, 8, .ro, 0, 0, .none⟩,
   ⟨0x06, 8, .ro, 0, 0, .none⟩,
   ⟨0x07, 8, .ro, 0, 0, .none⟩,
   ⟨0x08, 8, .ro, 0, 0, .none⟩,
   ⟨0x09, 8, .ro, 0, 0, .none⟩,
   ⟨0x0A, 6, .ro, 0, 0, .none⟩,
   ⟨0x0B, 6, .wo, 1, 0, .none⟩,
   ⟨0x0C, 6, .ro, 0, 0, .package⟩,
   ⟨0x0D, 6, .ro, 0, 0, .package⟩]

/-- Entries of 0x1100. -/
def entries1100 : List EntryRow :=
  [⟨0x00, 6, .const, 0, 14, .none⟩,
   ⟨0x01, 6, .ro, 0, 4, .none⟩,
   ⟨0x02, 6, .ro, 0, 0, .none⟩,
   ⟨0x03, 7, .ro, 0, 0, .none⟩,
   ⟨0x04, 6, .wo, 2, 0, .none⟩,
   ⟨0x05, 6, .pair, 2, 0, .none⟩,
   ⟨0x06, 6, .ro, 0, 0, .fixed⟩,
   ⟨0x07, 8, .wo, 3, 0, .none⟩,
   ⟨0x08, 6, .ro, 0, 255, .fixed⟩,
   ⟨0x09, 7, .ro, 0, 0, .fixed⟩,
   ⟨0x0A, 8, .ro, 0, 0, .none⟩,
   ⟨0x0B, 8, .ro, 0, 0, .none⟩,
   ⟨0x0C, 6, .ro, 0, 0, .none⟩,
   ⟨0x0D, 6, .wo, 1, 0, .none⟩,
   ⟨0x0E, 7, .ro, 0, 0, .none⟩]

/-- Entries of 0x1200. -/
def entries1200a : List EntryRow :=
  [⟨0x00, 6, .const, 0, 38, .none⟩,
   ⟨0x01, 7, .ro, 0, 0, .package⟩,
   ⟨0x02, 6, .ro, 0, 0, .package⟩,
   ⟨0x03, 6, .ro, 0, 0, .none⟩,
   ⟨0x04, 7, .ro, 0, 0, .none⟩,
   ⟨0x05, 7, .ro, 0, 0, .none⟩,
   ⟨0x06, 15, .ro, 0, 0, .none⟩,
   ⟨0x07, 8, .ro, 0, 0, .none⟩,
   ⟨0x08, 8, .ro, 0, 0, .none⟩,
   ⟨0x09, 15, .ro, 0, 0, .none⟩,
   ⟨0x0A, 6, .ro, 0, 0, .none⟩,
   ⟨0x0B, 6, .ro, 0, 255, .none⟩,
   ⟨0x0C, 7, .ro, 0, 0, .none⟩,
   ⟨0x0D, 6, .ro, 0, 0, .none⟩,
   ⟨0x0E, 8, .ro, 0, 0, .none⟩,
   ⟨0x0F, 4, .ro, 0, 0, .none⟩,
   ⟨0x10, 7, .rw, 2, 5000, .mram⟩,
   ⟨0x11, 6, .pair, 1, 0, .none⟩,
   ⟨0x12, 6, .ro, 0, 0, .none⟩,
   ⟨0x13, 9, .ro, 0, 0, .none⟩,
   ⟨0x14, 8, .ro, 0, 0, .none⟩,
   ⟨0x15, 6, .ro, 0, 0, .none⟩,
   ⟨0x16, 6, .wo, 2, 0, .none⟩,
   ⟨0x17, 8, .ro, 0, 0, .none⟩,
   ⟨0x18, 9, .ro, 0, 0, .none⟩,
   ⟨0x19, 8, .ro, 0, 0, .none⟩,
   ⟨0x1A, 8, .ro, 0, 0, .none⟩,
   ⟨0x1B, 8, .ro, 0, 0, .none⟩,
   ⟨0x1C, 8, .ro, 0, 0, .none⟩,
   ⟨0x1D, 8, .ro, 0, 0, .none⟩]

/-- Entries of 0x1200. -/
def entries1200b : List EntryRow :=
  [⟨0x1E, 8, .ro, 0, 0, .none⟩,
   ⟨0x1F, 8, .ro, 0, 0, .none⟩,
   ⟨0x20, 8, .ro, 0, 0, .none⟩,
   ⟨0x21, 8, .ro, 0, 0, .none⟩,
   ⟨0x22, 8, .ro, 0, 0, .none⟩,
   ⟨0x23, 8, .ro, 0, 0, .none⟩,
   ⟨0x24, 8, .ro, 0, 0, .none⟩,
   ⟨0x25, 7, .ro, 0, 0, .none⟩,
   ⟨0x26, 6, .wo, 1, 0, .none⟩]

/-- Every entry of 0x1200–0x1200. -/
def entries1200 : List EntryRow := entries1200a ++ entries1200b

/-- Entries of 0x1300. -/
def entries1300 : List EntryRow :=
  [⟨0x00, 6, .const, 0, 29, .none⟩,
   ⟨0x01, 6, .ro, 0, 0, .package⟩,
   ⟨0x02, 6, .ro, 0, 0, .none⟩,
   ⟨0x03, 6, .ro, 0, 0, .none⟩,
   ⟨0x04, 15, .ro, 0, 0, .none⟩,
   ⟨0x05, 4, .ro, 0, 0, .none⟩,
   ⟨0x06, 4, .ro, 0, 0, .none⟩,
   ⟨0x07, 8, .ro, 0, 0, .none⟩,
   ⟨0x08, 6, .ro, 0, 255, .none⟩,
   ⟨0x09, 7, .rw, 2, 291, .mram⟩,
   ⟨0x0A, 15, .ro, 0, 0, .none⟩,
   ⟨0x0B, 8, .ro, 0, 4294967295, .none⟩,
   ⟨0x0C, 3, .ro, 0, 0, .none⟩,
   ⟨0x0D, 6, .ro, 0, 0, .none⟩,
   ⟨0x0E, 6, .pair, 2, 1, .mram⟩,
   ⟨0x0F, 8, .pair, 2, 1000, .mram⟩,
   ⟨0x10, 8, .pair, 2, 200000, .mram⟩,
   ⟨0x11, 6, .pair, 2, 4, .mram⟩,
   ⟨0x12, 6, .rw, 2, 1, .mram⟩,
   ⟨0x13, 7, .ro, 0, 10, .none⟩,
   ⟨0x14, 6, .rw, 2, 1, .mram⟩,
   ⟨0x15, 4, .ro, 0, 0, .none⟩,
   ⟨0x16, 8, .ro, 0, 0, .none⟩,
   ⟨0x17, 8, .ro, 0, 0, .none⟩,
   ⟨0x18, 8, .ro, 0, 0, .none⟩,
   ⟨0x19, 8, .ro, 0, 0, .none⟩,
   ⟨0x1A, 8, .ro, 0, 0, .none⟩,
   ⟨0x1B, 8, .ro, 0, 0, .none⟩,
   ⟨0x1C, 6, .ro, 0, 0, .none⟩,
   ⟨0x1D, 6, .wo, 1, 0, .none⟩]

/-- Entries of 0x1400. -/
def entries1400 : List EntryRow :=
  [⟨0x00, 6, .const, 0, 3, .none⟩,
   ⟨0x01, 7, .ro, 0, 34997, .package⟩,
   ⟨0x02, 7, .const, 0, 2000, .none⟩,
   ⟨0x03, 6, .ro, 0, 4, .package⟩]

/-- Entries of 0x1401–0x1405. -/
def entries1401 : List EntryRow :=
  [⟨0x00, 6, .const, 0, 10, .none⟩,
   ⟨0x01, 6, .ro, 0, 0, .package⟩,
   ⟨0x02, 1, .ro, 0, 0, .none⟩,
   ⟨0x03, 8, .ro, 0, 0, .none⟩,
   ⟨0x04, 8, .ro, 0, 0, .none⟩,
   ⟨0x05, 8, .ro, 0, 0, .none⟩,
   ⟨0x06, 8, .ro, 0, 0, .none⟩,
   ⟨0x07, 8, .ro, 0, 0, .none⟩,
   ⟨0x08, 8, .ro, 0, 0, .none⟩,
   ⟨0x09, 6, .ro, 0, 0, .none⟩,
   ⟨0x0A, 6, .wo, 1, 0, .none⟩]

/-- Entries of 0x1410. -/
def entries1410 : List EntryRow :=
  [⟨0x00, 6, .const, 0, 10, .none⟩,
   ⟨0x01, 7, .const, 0, 400, .none⟩,
   ⟨0x02, 8, .ro, 0, 0, .none⟩,
   ⟨0x03, 8, .ro, 0, 0, .none⟩,
   ⟨0x04, 8, .ro, 0, 0, .none⟩,
   ⟨0x05, 7, .ro, 0, 0, .none⟩,
   ⟨0x06, 7, .ro, 0, 0, .none⟩,
   ⟨0x07, 8, .ro, 0, 0, .none⟩,
   ⟨0x08, 8, .ro, 0, 0, .none⟩,
   ⟨0x09, 6, .ro, 0, 0, .none⟩,
   ⟨0x0A, 6, .wo, 1, 0, .none⟩]

/-- Entries of 0x1500. -/
def entries1500 : List EntryRow :=
  [⟨0x00, 6, .const, 0, 2, .none⟩,
   ⟨0x01, 16, .ro, 0, 0, .package⟩,
   ⟨0x02, 6, .const, 0, 2, .none⟩]

/-- Entries of 0x1501–0x1502. -/
def entries1501 : List EntryRow :=
  [⟨0x00, 6, .const, 0, 24, .none⟩,
   ⟨0x01, 6, .ro, 0, 0, .package⟩,
   ⟨0x02, 8, .ro, 0, 0, .package⟩,
   ⟨0x03, 8, .ro, 0, 0, .package⟩,
   ⟨0x04, 8, .ro, 0, 0, .package⟩,
   ⟨0x05, 6, .ro, 0, 1, .package⟩,
   ⟨0x06, 8, .ro, 0, 4294967295, .package⟩,
   ⟨0x07, 8, .ro, 0, 4294967295, .package⟩,
   ⟨0x08, 6, .rw, 2, 0, .mram⟩,
   ⟨0x09, 8, .ro, 0, 4294967295, .package⟩,
   ⟨0x0A, 7, .rw, 2, 1000, .mram⟩,
   ⟨0x0B, 6, .rw, 2, 0, .mram⟩,
   ⟨0x0C, 6, .ro, 0, 0, .package⟩,
   ⟨0x0D, 8, .ro, 0, 4294967295, .package⟩,
   ⟨0x0E, 8, .ro, 0, 536870911, .package⟩,
   ⟨0x0F, 6, .ro, 0, 5, .none⟩,
   ⟨0x10, 7, .ro, 0, 0, .none⟩,
   ⟨0x11, 6, .ro, 0, 0, .none⟩,
   ⟨0x12, 8, .ro, 0, 0, .none⟩,
   ⟨0x13, 8, .ro, 0, 0, .none⟩,
   ⟨0x14, 8, .ro, 0, 0, .none⟩,
   ⟨0x15, 8, .ro, 0, 0, .none⟩,
   ⟨0x16, 8, .ro, 0, 0, .none⟩,
   ⟨0x17, 6, .ro, 0, 0, .none⟩,
   ⟨0x18, 6, .wo, 1, 0, .none⟩]

/-- Entries of 0x1600. -/
def entries1600 : List EntryRow :=
  [⟨0x00, 6, .const, 0, 17, .none⟩,
   ⟨0x01, 15, .const, 0, 0, .fixed⟩,
   ⟨0x02, 15, .const, 0, 0, .fixed⟩,
   ⟨0x03, 15, .const, 0, 0, .fixed⟩,
   ⟨0x04, 6, .ro, 0, 0, .fixed⟩,
   ⟨0x05, 6, .ro, 0, 0, .fixed⟩,
   ⟨0x06, 6, .ro, 0, 0, .fixed⟩,
   ⟨0x07, 6, .wo, 3, 0, .none⟩,
   ⟨0x08, 15, .ro, 0, 0, .mram⟩,
   ⟨0x09, 15, .pair, 3, 0, .mram⟩,
   ⟨0x0A, 7, .ro, 0, 0, .mram⟩,
   ⟨0x0B, 16, .ro, 0, 0, .mram⟩,
   ⟨0x0C, 15, .pair, 3, 0, .mram⟩,
   ⟨0x0D, 6, .pair, 3, 0, .mram⟩,
   ⟨0x0E, 15, .wo, 0, 0, .none⟩,
   ⟨0x0F, 6, .ro, 0, 0, .none⟩,
   ⟨0x10, 15, .ro, 0, 0, .none⟩,
   ⟨0x11, 15, .ro, 0, 0, .none⟩]

/-- Entries of 0x1700. -/
def entries1700 : List EntryRow :=
  [⟨0x00, 6, .const, 0, 10, .none⟩,
   ⟨0x01, 7, .ro, 0, 0, .mram⟩,
   ⟨0x02, 6, .ro, 0, 0, .mram⟩,
   ⟨0x03, 6, .ro, 0, 0, .mram⟩,
   ⟨0x04, 8, .ro, 0, 0, .mram⟩,
   ⟨0x05, 8, .ro, 0, 0, .mram⟩,
   ⟨0x06, 6, .rw, 2, 0, .mram⟩,
   ⟨0x07, 6, .ro, 0, 0, .mram⟩,
   ⟨0x08, 6, .wo, 3, 0, .none⟩,
   ⟨0x09, 6, .rw, 3, 0, .none⟩,
   ⟨0x0A, 6, .wo, 1, 0, .none⟩]

/-- Entries of 0x1701. -/
def entries1701 : List EntryRow :=
  [⟨0x00, 6, .const, 0, 12, .none⟩,
   ⟨0x01, 8, .ro, 0, 0, .none⟩,
   ⟨0x02, 8, .ro, 0, 0, .none⟩,
   ⟨0x03, 8, .ro, 0, 0, .none⟩,
   ⟨0x04, 8, .ro, 0, 0, .none⟩,
   ⟨0x05, 8, .ro, 0, 0, .none⟩,
   ⟨0x06, 8, .ro, 0, 0, .none⟩,
   ⟨0x07, 8, .ro, 0, 0, .none⟩,
   ⟨0x08, 8, .ro, 0, 0, .none⟩,
   ⟨0x09, 6, .ro, 0, 0, .none⟩,
   ⟨0x0A, 6, .ro, 0, 0, .none⟩,
   ⟨0x0B, 6, .wo, 1, 0, .none⟩,
   ⟨0x0C, 8, .ro, 0, 0, .none⟩]

/-- Entries of 0x1702. -/
def entries1702 : List EntryRow :=
  [⟨0x00, 6, .const, 0, 9, .none⟩,
   ⟨0x01, 6, .ro, 0, 0, .none⟩,
   ⟨0x02, 6, .ro, 0, 0, .none⟩,
   ⟨0x03, 8, .ro, 0, 0, .none⟩,
   ⟨0x04, 8, .ro, 0, 0, .none⟩,
   ⟨0x05, 6, .ro, 0, 0, .none⟩,
   ⟨0x06, 8, .ro, 0, 0, .none⟩,
   ⟨0x07, 8, .ro, 0, 0, .none⟩,
   ⟨0x08, 6, .ro, 0, 0, .none⟩,
   ⟨0x09, 6, .wo, 1, 0, .none⟩]

/-- Entries of 0x1800. -/
def entries1800 : List EntryRow :=
  [⟨0x00, 6, .const, 0, 10, .none⟩,
   ⟨0x01, 10, .ro, 0, 0, .none⟩,
   ⟨0x02, 7, .ro, 0, 0, .none⟩,
   ⟨0x03, 6, .wo, 1, 0, .none⟩,
   ⟨0x04, 8, .ro, 0, 0, .none⟩,
   ⟨0x05, 8, .ro, 0, 0, .none⟩,
   ⟨0x06, 8, .ro, 0, 0, .none⟩,
   ⟨0x07, 8, .ro, 0, 0, .none⟩,
   ⟨0x08, 6, .ro, 0, 0, .none⟩,
   ⟨0x09, 6, .wo, 1, 0, .none⟩,
   ⟨0x0A, 8, .ro, 0, 4294967295, .package⟩]

/-- Entries of 0x1801–0x1810. -/
def entries1801 : List EntryRow :=
  [⟨0x00, 6, .const, 0, 10, .none⟩,
   ⟨0x01, 6, .ro, 0, 0, .package⟩,
   ⟨0x02, 6, .ro, 0, 0, .package⟩,
   ⟨0x03, 8, .ro, 0, 4294967295, .package⟩,
   ⟨0x04, 8, .ro, 0, 4294967295, .package⟩,
   ⟨0x05, 8, .ro, 0, 4294967295, .package⟩,
   ⟨0x06, 6, .pair, 2, 8, .mram⟩,
   ⟨0x07, 6, .pair, 2, 1, .mram⟩,
   ⟨0x08, 1, .ro, 0, 0, .none⟩,
   ⟨0x09, 1, .ro, 0, 0, .none⟩,
   ⟨0x0A, 8, .ro, 0, 0, .none⟩]

/-- Entries of 0x1811–0x1814. -/
def entries1811 : List EntryRow :=
  [⟨0x00, 6, .const, 0, 13, .none⟩,
   ⟨0x01, 6, .ro, 0, 0, .package⟩,
   ⟨0x02, 6, .ro, 0, 0, .package⟩,
   ⟨0x03, 8, .ro, 0, 4294967295, .package⟩,
   ⟨0x04, 8, .ro, 0, 4294967295, .package⟩,
   ⟨0x05, 8, .ro, 0, 4294967295, .package⟩,
   ⟨0x06, 6, .pair, 2, 1, .mram⟩,
   ⟨0x07, 10, .ro, 0, 0, .none⟩,
   ⟨0x08, 10, .ro, 0, 0, .none⟩,
   ⟨0x09, 6, .ro, 0, 2, .none⟩,
   ⟨0x0A, 8, .ro, 0, 0, .none⟩,
   ⟨0x0B, 8, .ro, 0, 0, .none⟩,
   ⟨0x0C, 6, .ro, 0, 0, .none⟩,
   ⟨0x0D, 6, .wo, 1, 0, .none⟩]

/-- Entries of 0x1900. -/
def entries1900 : List EntryRow :=
  [⟨0x00, 6, .const, 0, 9, .none⟩,
   ⟨0x01, 7, .pair, 2, 60, .mram⟩,
   ⟨0x02, 8, .ro, 0, 0, .none⟩,
   ⟨0x03, 16, .ro, 0, 0, .none⟩,
   ⟨0x04, 16, .ro, 0, 0, .none⟩,
   ⟨0x05, 8, .ro, 0, 0, .none⟩,
   ⟨0x06, 8, .ro, 0, 0, .none⟩,
   ⟨0x07, 6, .ro, 0, 0, .none⟩,
   ⟨0x08, 6, .wo, 1, 0, .none⟩,
   ⟨0x09, 6, .ro, 0, 0, .package⟩]

/-- Entries of 0x1901–0x1910. -/
def entries1901 : List EntryRow :=
  [⟨0x00, 6, .const, 0, 6, .none⟩,
   ⟨0x01, 6, .ro, 0, 0, .package⟩,
   ⟨0x02, 6, .ro, 0, 0, .package⟩,
   ⟨0x03, 6, .ro, 0, 1, .package⟩,
   ⟨0x04, 6, .ro, 0, 0, .package⟩,
   ⟨0x05, 8, .ro, 0, 4294967295, .package⟩,
   ⟨0x06, 7, .ro, 0, 0, .none⟩]

/-- Entries of 0x1A00. -/
def entries1A00 : List EntryRow :=
  [⟨0x00, 6, .const, 0, 13, .none⟩,
   ⟨0x01, 8, .const, 0, 2097152, .none⟩,
   ⟨0x02, 8, .ro, 0, 0, .mram⟩,
   ⟨0x03, 8, .ro, 0, 0, .mram⟩,
   ⟨0x04, 8, .ro, 0, 0, .mram⟩,
   ⟨0x05, 8, .ro, 0, 0, .mram⟩,
   ⟨0x06, 8, .ro, 0, 0, .flash⟩,
   ⟨0x07, 8, .ro, 0, 0, .flash⟩,
   ⟨0x08, 8, .rw, 0, 0, .none⟩,
   ⟨0x09, 15, .ro, 0, 0, .none⟩,
   ⟨0x0A, 8, .ro, 0, 0, .none⟩,
   ⟨0x0B, 8, .ro, 0, 0, .none⟩,
   ⟨0x0C, 6, .ro, 0, 0, .mram⟩,
   ⟨0x0D, 6, .wo, 1, 0, .none⟩]

/-- Entries of 0x1A10. -/
def entries1A10 : List EntryRow :=
  [⟨0x00, 6, .const, 0, 9, .none⟩,
   ⟨0x01, 6, .pair, 2, 1, .mram⟩,
   ⟨0x02, 8, .pair, 2, 10000, .mram⟩,
   ⟨0x03, 8, .pair, 2, 20000, .mram⟩,
   ⟨0x04, 7, .pair, 2, 600, .mram⟩,
   ⟨0x05, 15, .ro, 0, 0, .package⟩,
   ⟨0x06, 16, .ro, 0, 0, .package⟩,
   ⟨0x07, 16, .ro, 0, 0, .package⟩,
   ⟨0x08, 16, .ro, 0, 0, .package⟩,
   ⟨0x09, 6, .pair, 1, 0, .none⟩]

/-- Entries of 0x1A20. -/
def entries1A20 : List EntryRow :=
  [⟨0x00, 6, .const, 0, 15, .none⟩,
   ⟨0x01, 7, .ro, 0, 0, .mram⟩,
   ⟨0x02, 8, .ro, 0, 0, .mram⟩,
   ⟨0x03, 8, .ro, 0, 0, .mram⟩,
   ⟨0x04, 8, .ro, 0, 1, .mram⟩,
   ⟨0x05, 8, .ro, 0, 0, .none⟩,
   ⟨0x06, 8, .rw, 0, 0, .none⟩,
   ⟨0x07, 15, .ro, 0, 0, .none⟩,
   ⟨0x08, 15, .ro, 0, 0, .none⟩,
   ⟨0x09, 6, .ro, 0, 0, .none⟩,
   ⟨0x0A, 8, .ro, 0, 0, .none⟩,
   ⟨0x0B, 8, .ro, 0, 0, .none⟩,
   ⟨0x0C, 8, .ro, 0, 0, .none⟩,
   ⟨0x0D, 6, .ro, 0, 0, .none⟩,
   ⟨0x0E, 6, .wo, 1, 0, .none⟩,
   ⟨0x0F, 6, .wo, 2, 0, .none⟩]

/-- Entries of 0x1B00. -/
def entries1B00 : List EntryRow :=
  [⟨0x00, 6, .const, 0, 17, .none⟩,
   ⟨0x01, 6, .wo, 2, 0, .none⟩,
   ⟨0x02, 6, .ro, 0, 0, .flash⟩,
   ⟨0x03, 15, .wo, 2, 0, .flash⟩,
   ⟨0x04, 15, .wo, 2, 0, .flash⟩,
   ⟨0x05, 6, .pair, 2, 0, .none⟩,
   ⟨0x06, 7, .ro, 0, 0, .mram⟩,
   ⟨0x07, 15, .ro, 0, 0, .flash⟩,
   ⟨0x08, 8, .ro, 0, 0, .flash⟩,
   ⟨0x09, 15, .ro, 0, 0, .flash⟩,
   ⟨0x0A, 6, .wo, 2, 0, .none⟩,
   ⟨0x0B, 7, .ro, 0, 0, .mram⟩,
   ⟨0x0C, 6, .ro, 0, 0, .flash⟩,
   ⟨0x0D, 6, .wo, 2, 0, .flash⟩,
   ⟨0x0E, 6, .pair, 2, 0, .none⟩,
   ⟨0x0F, 8, .ro, 0, 0, .none⟩,
   ⟨0x10, 6, .pair, 2, 0, .none⟩,
   ⟨0x11, 9, .ro, 0, 0, .mram⟩]

/-- Entries of 0x2000–0x207F. -/
def entries2000a : List EntryRow :=
  [⟨0x00, 6, .const, 0, 33, .none⟩,
   ⟨0x01, 6, .ro, 0, 0, .package⟩,
   ⟨0x02, 6, .ro, 0, 0, .package⟩,
   ⟨0x03, 6, .ro, 0, 50, .package⟩,
   ⟨0x04, 6, .ro, 0, 0, .package⟩,
   ⟨0x05, 15, .ro, 0, 0, .package⟩,
   ⟨0x06, 7, .ro, 0, 0, .package⟩,
   ⟨0x07, 7, .ro, 0, 0, .package⟩,
   ⟨0x08, 14, .ro, 0, 0, .package⟩,
   ⟨0x09, 8, .ro, 0, 0, .package⟩,
   ⟨0x0A, 6, .ro, 0, 0, .package⟩,
   ⟨0x0B, 8, .ro, 0, 0, .package⟩,
   ⟨0x0C, 6, .ro, 0, 0, .package⟩,
   ⟨0x0D, 7, .ro, 0, 2000, .package⟩,
   ⟨0x0E, 6, .pair, 2, 0, .mram⟩,
   ⟨0x0F, 7, .pair, 2, 0, .mram⟩,
   ⟨0x10, 10, .pair, 2, 0, .mram⟩,
   ⟨0x11, 6, .ro, 0, 0, .package⟩,
   ⟨0x12, 10, .pair, 2, 0, .mram⟩,
   ⟨0x13, 6, .pair, 2, 10, .mram⟩,
   ⟨0x14, 8, .ro, 0, 0, .package⟩,
   ⟨0x15, 6, .ro, 0, 1, .package⟩,
   ⟨0x16, 6, .ro, 0, 0, .package⟩,
   ⟨0x17, 8, .ro, 0, 0, .package⟩,
   ⟨0x18, 7, .ro, 0, 0, .none⟩,
   ⟨0x19, 10, .ro, 0, 0, .none⟩,
   ⟨0x1A, 8, .ro, 0, 0, .none⟩,
   ⟨0x1B, 8, .ro, 0, 0, .none⟩,
   ⟨0x1C, 8, .ro, 0, 0, .none⟩,
   ⟨0x1D, 8, .ro, 0, 0, .none⟩]

/-- Entries of 0x2000–0x207F. -/
def entries2000b : List EntryRow :=
  [⟨0x1E, 8, .ro, 0, 0, .none⟩,
   ⟨0x1F, 8, .ro, 0, 0, .none⟩,
   ⟨0x20, 6, .ro, 0, 0, .none⟩,
   ⟨0x21, 6, .wo, 1, 0, .none⟩]

/-- Every entry of 0x2000–0x207F. -/
def entries2000 : List EntryRow := entries2000a ++ entries2000b

/-- Entries of 0x2100–0x211F. -/
def entries2100a : List EntryRow :=
  [⟨0x00, 6, .const, 0, 62, .none⟩,
   ⟨0x01, 6, .pair, 1, 0, .mram⟩,
   ⟨0x02, 6, .ro, 0, 0, .package⟩,
   ⟨0x03, 6, .ro, 0, 1, .package⟩,
   ⟨0x04, 6, .ro, 0, 0, .package⟩,
   ⟨0x05, 6, .ro, 0, 0, .package⟩,
   ⟨0x06, 6, .ro, 0, 0, .package⟩,
   ⟨0x07, 8, .ro, 0, 0, .package⟩,
   ⟨0x08, 6, .ro, 0, 0, .package⟩,
   ⟨0x09, 8, .ro, 0, 0, .package⟩,
   ⟨0x0A, 10, .pair, 1, 0, .mram⟩,
   ⟨0x0B, 7, .ro, 0, 1, .package⟩,
   ⟨0x0C, 10, .pair, 2, 1065353216, .mram⟩,
   ⟨0x0D, 8, .ro, 0, 4294967295, .package⟩,
   ⟨0x0E, 6, .pair, 2, 0, .mram⟩,
   ⟨0x0F, 6, .pair, 2, 0, .mram⟩,
   ⟨0x10, 10, .pair, 2, 0, .mram⟩,
   ⟨0x11, 10, .pair, 2, 1065353216, .mram⟩,
   ⟨0x12, 7, .ro, 0, 0, .package⟩,
   ⟨0x13, 7, .pair, 2, 3, .mram⟩,
   ⟨0x14, 6, .pair, 2, 0, .mram⟩,
   ⟨0x15, 10, .pair, 2, 0, .mram⟩,
   ⟨0x16, 6, .pair, 2, 1, .mram⟩,
   ⟨0x17, 10, .pair, 1, 0, .mram⟩,
   ⟨0x18, 6, .ro, 0, 0, .package⟩,
   ⟨0x19, 8, .ro, 0, 0, .package⟩,
   ⟨0x1A, 6, .pair, 1, 0, .mram⟩,
   ⟨0x1B, 6, .ro, 0, 0, .none⟩,
   ⟨0x1C, 10, .pair, 2, 0, .mram⟩,
   ⟨0x1D, 10, .pair, 2, 0, .mram⟩]

/-- Entries of 0x2100–0x211F. -/
def entries2100b : List EntryRow :=
  [⟨0x1E, 10, .pair, 2, 0, .mram⟩,
   ⟨0x1F, 10, .pair, 2, 0, .mram⟩,
   ⟨0x20, 10, .pair, 2, 0, .mram⟩,
   ⟨0x21, 10, .pair, 2, 0, .mram⟩,
   ⟨0x22, 7, .pair, 2, 0, .mram⟩,
   ⟨0x23, 10, .pair, 2, 0, .mram⟩,
   ⟨0x24, 10, .pair, 2, 0, .mram⟩,
   ⟨0x25, 10, .pair, 2, 0, .mram⟩,
   ⟨0x26, 10, .pair, 2, 0, .mram⟩,
   ⟨0x27, 10, .pair, 2, 0, .mram⟩,
   ⟨0x28, 10, .pair, 2, 0, .mram⟩,
   ⟨0x29, 10, .pair, 2, 0, .mram⟩,
   ⟨0x2A, 7, .pair, 2, 0, .mram⟩,
   ⟨0x2B, 10, .pair, 2, 0, .mram⟩,
   ⟨0x2C, 6, .pair, 1, 0, .mram⟩,
   ⟨0x2D, 6, .ro, 0, 0, .package⟩,
   ⟨0x2E, 7, .ro, 0, 256, .package⟩,
   ⟨0x2F, 6, .pair, 2, 0, .none⟩,
   ⟨0x30, 10, .pair, 2, 1065353216, .mram⟩,
   ⟨0x31, 8, .ro, 0, 0, .package⟩,
   ⟨0x32, 6, .ro, 0, 255, .package⟩,
   ⟨0x33, 6, .ro, 0, 0, .package⟩,
   ⟨0x34, 10, .pair, 2, 0, .mram⟩,
   ⟨0x35, 10, .pair, 2, 1065353216, .mram⟩,
   ⟨0x36, 7, .ro, 0, 65535, .package⟩,
   ⟨0x37, 7, .ro, 0, 1, .package⟩,
   ⟨0x38, 7, .ro, 0, 0, .none⟩,
   ⟨0x39, 8, .ro, 0, 0, .none⟩,
   ⟨0x3A, 8, .ro, 0, 0, .none⟩,
   ⟨0x3B, 8, .ro, 0, 0, .none⟩]

/-- Entries of 0x2100–0x211F. -/
def entries2100c : List EntryRow :=
  [⟨0x3C, 8, .ro, 0, 0, .none⟩,
   ⟨0x3D, 6, .ro, 0, 0, .none⟩,
   ⟨0x3E, 6, .wo, 1, 0, .none⟩]

/-- Every entry of 0x2100–0x211F. -/
def entries2100 : List EntryRow := entries2100a ++ entries2100b ++ entries2100c

/-- Entries of 0x2200. -/
def entries2200 : List EntryRow :=
  [⟨0x00, 6, .const, 0, 8, .none⟩,
   ⟨0x01, 15, .ro, 0, 0, .package⟩,
   ⟨0x02, 8, .ro, 0, 0, .package⟩,
   ⟨0x03, 6, .ro, 0, 0, .package⟩,
   ⟨0x04, 8, .ro, 0, 0, .package⟩,
   ⟨0x05, 6, .pair, 2, 0, .mram⟩,
   ⟨0x06, 6, .wo, 2, 0, .none⟩,
   ⟨0x07, 6, .ro, 0, 0, .none⟩,
   ⟨0x08, 9, .ro, 0, 0, .mram⟩]

/-- Entries of 0x2201–0x2204. -/
def entries2201 : List EntryRow :=
  [⟨0x00, 6, .const, 0, 10, .none⟩,
   ⟨0x01, 7, .ro, 0, 0, .package⟩,
   ⟨0x02, 8, .ro, 0, 0, .mram⟩,
   ⟨0x03, 8, .ro, 0, 0, .package⟩,
   ⟨0x04, 8, .ro, 0, 0, .none⟩,
   ⟨0x05, 8, .ro, 0, 0, .none⟩,
   ⟨0x06, 8, .ro, 0, 0, .none⟩,
   ⟨0x07, 8, .ro, 0, 0, .none⟩,
   ⟨0x08, 8, .ro, 0, 0, .none⟩,
   ⟨0x09, 6, .ro, 0, 0, .none⟩,
   ⟨0x0A, 6, .wo, 1, 0, .none⟩]

/-- Entries of 0x2210. -/
def entries2210 : List EntryRow :=
  [⟨0x00, 6, .const, 0, 6, .none⟩,
   ⟨0x01, 7, .ro, 0, 0, .mram⟩,
   ⟨0x02, 15, .pair, 2, 0, .mram⟩,
   ⟨0x03, 8, .pair, 1, 0, .mram⟩,
   ⟨0x04, 6, .pair, 1, 0, .none⟩,
   ⟨0x05, 7, .rw, 0, 0, .none⟩,
   ⟨0x06, 15, .ro, 0, 0, .none⟩]

/-- Entries of 0x2218. -/
def entries2218 : List EntryRow :=
  [⟨0x00, 6, .const, 0, 8, .none⟩,
   ⟨0x01, 6, .ro, 0, 0, .none⟩,
   ⟨0x02, 15, .ro, 0, 0, .flash⟩,
   ⟨0x03, 15, .ro, 0, 0, .flash⟩,
   ⟨0x04, 6, .pair, 2, 0, .none⟩,
   ⟨0x05, 9, .ro, 0, 0, .none⟩,
   ⟨0x06, 7, .ro, 0, 0, .none⟩,
   ⟨0x07, 7, .ro, 0, 0, .none⟩,
   ⟨0x08, 6, .wo, 2, 0, .none⟩]

/-- Entries of 0x3000–0x33FF. -/
def entries3000 : List EntryRow :=
  [⟨0x00, 6, .const, 0, 18, .none⟩,
   ⟨0x01, 6, .ro, 0, 0, .package⟩,
   ⟨0x02, 6, .ro, 0, 0, .package⟩,
   ⟨0x03, 8, .ro, 0, 0, .package⟩,
   ⟨0x04, 7, .ro, 0, 1, .package⟩,
   ⟨0x05, 15, .ro, 0, 0, .package⟩,
   ⟨0x06, 7, .ro, 0, 0, .package⟩,
   ⟨0x07, 6, .ro, 0, 0, .package⟩,
   ⟨0x08, 6, .ro, 0, 3, .package⟩,
   ⟨0x09, 14, .ro, 0, 0, .package⟩,
   ⟨0x0A, 14, .ro, 0, 0, .package⟩,
   ⟨0x0B, 14, .ro, 0, 0, .package⟩,
   ⟨0x0C, 7, .ro, 0, 0, .package⟩,
   ⟨0x0D, 8, .ro, 0, 1, .package⟩,
   ⟨0x0E, 7, .ro, 0, 4, .package⟩,
   ⟨0x0F, 7, .ro, 0, 1000, .package⟩,
   ⟨0x10, 8, .ro, 0, 0, .none⟩,
   ⟨0x11, 8, .ro, 0, 0, .none⟩,
   ⟨0x12, 6, .wo, 1, 0, .none⟩]

/-- Entries of 0x3400–0x37FF (sub-index within a slot). -/
def entries3400 : List EntryRow :=
  [⟨0x01, 6, .ro, 0, 0, .package⟩,
   ⟨0x02, 6, .ro, 0, 0, .package⟩,
   ⟨0x03, 8, .ro, 0, 0, .package⟩,
   ⟨0x04, 7, .ro, 0, 1, .package⟩,
   ⟨0x05, 7, .ro, 0, 0, .package⟩,
   ⟨0x06, 7, .ro, 0, 0, .package⟩,
   ⟨0x07, 15, .ro, 0, 0, .package⟩,
   ⟨0x08, 7, .ro, 0, 0, .package⟩,
   ⟨0x09, 14, .ro, 0, 0, .package⟩,
   ⟨0x0A, 14, .ro, 0, 0, .package⟩,
   ⟨0x0B, 8, .ro, 0, 1, .package⟩]

/-- Entries of 0x3800–0x3BFF (sub-index within a slot). -/
def entries3800 : List EntryRow :=
  [⟨0x01, 6, .ro, 0, 0, .none⟩,
   ⟨0x02, 8, .ro, 0, 0, .none⟩,
   ⟨0x03, 8, .ro, 0, 0, .none⟩,
   ⟨0x04, 8, .ro, 0, 0, .none⟩,
   ⟨0x05, 8, .ro, 0, 0, .none⟩,
   ⟨0x06, 6, .ro, 0, 0, .none⟩,
   ⟨0x07, 6, .wo, 1, 0, .none⟩]

/-- Every entry table of the manual but the point window and the vendor service. -/
def entryTables : List EntryTable :=
  [⟨0x1000, 0x1000, entries1000⟩,
   ⟨0x1001, 0x1001, entries1001⟩,
   ⟨0x1002, 0x1002, entries1002⟩,
   ⟨0x1010, 0x1010, entries1010⟩,
   ⟨0x1100, 0x1100, entries1100⟩,
   ⟨0x1200, 0x1200, entries1200⟩,
   ⟨0x1300, 0x1300, entries1300⟩,
   ⟨0x1400, 0x1400, entries1400⟩,
   ⟨0x1401, 0x1405, entries1401⟩,
   ⟨0x1410, 0x1410, entries1410⟩,
   ⟨0x1500, 0x1500, entries1500⟩,
   ⟨0x1501, 0x1502, entries1501⟩,
   ⟨0x1600, 0x1600, entries1600⟩,
   ⟨0x1700, 0x1700, entries1700⟩,
   ⟨0x1701, 0x1701, entries1701⟩,
   ⟨0x1702, 0x1702, entries1702⟩,
   ⟨0x1800, 0x1800, entries1800⟩,
   ⟨0x1801, 0x1810, entries1801⟩,
   ⟨0x1811, 0x1814, entries1811⟩,
   ⟨0x1900, 0x1900, entries1900⟩,
   ⟨0x1901, 0x1910, entries1901⟩,
   ⟨0x1A00, 0x1A00, entries1A00⟩,
   ⟨0x1A10, 0x1A10, entries1A10⟩,
   ⟨0x1A20, 0x1A20, entries1A20⟩,
   ⟨0x1B00, 0x1B00, entries1B00⟩,
   ⟨0x2000, 0x207F, entries2000⟩,
   ⟨0x2100, 0x211F, entries2100⟩,
   ⟨0x2200, 0x2200, entries2200⟩,
   ⟨0x2201, 0x2204, entries2201⟩,
   ⟨0x2210, 0x2210, entries2210⟩,
   ⟨0x2218, 0x2218, entries2218⟩,
   ⟨0x3000, 0x33FF, entries3000⟩,
   ⟨0x3400, 0x37FF, entries3400⟩,
   ⟨0x3800, 0x3BFF, entries3800⟩]

end Sys2Proof.Machine
end

