-- ==== Sys2Proof/Config.lean ====
section
/-!
DEFINITION. What one module is made with or what the manual leaves open, as constants without a body: no proof can see a value of them.
-/

namespace Sys2Proof.Config

open Sys2Proof.Machine

/-- Image key E0–E3 in the mask ROM (R467). -/
opaque imageKey : Nat → Bytes

/-- Certificate root key in the mask ROM (R467). -/
opaque rootKey : Bytes

/-- SLH-DSA-SHA2-128f verification of a signature over a message under a public key (R493; FIPS 205; log entry 9). -/
opaque verify128f : Bytes → Bytes → Bytes → Bool

/-- SLH-DSA-SHA2-128s verification of a signature over a message under a public key (R468; FIPS 205; log entry 9). -/
opaque verify128s : Bytes → Bytes → Bytes → Bool

/-- SLH-DSA-SHA2-128f signature under a private key of a message (R494; FIPS 205; log entry 9). -/
opaque sign128f : Bytes → Bytes → Bytes

/-- The contents of a package image behind its manifest: the manual gives the fields of a package and no layout of its
bytes (log entry 13). -/
opaque packageOf : Manifest → List (Nat × Byte) → Package

/-- The contents of an on-line change image behind its manifest (log entry 13). -/
opaque changeOf : Manifest → List (Nat × Byte) → Change

/-- Byte of the true random number generator, by its place in the order of draws (R285, R281; log entry 12). -/
opaque trng : Nat → Byte

/-- A value the manual leaves open, by its place in the order of such values (log entry 14). -/
opaque free : Nat → W64

/-- Argument of the number zero, which R153 and R155 ask for while a channel's fundamental is zero and the manual does not
give (log entry 10). -/
opaque argOfZero : F64

/-- The I32 value of a grid sample whose source point is not a number, which the manual does not give (R150, log entry 25). -/
opaque nanSample : W32

/-- Reason byte of the TYPE 0x0040 record of a violation by a native core pair or the DMA engine, which the table of R451
does not give (log entry 14). -/
opaque violationReason : Byte

/-- FIO_LCURn.UA for a total above 65,535 units, which the manual does not give (log entry 14). -/
opaque lcurOver : Nat → W16

/-- The frequency error in units of 2⁻⁴⁰ that the servo estimates from its last Syncs, as offset in 1/16 ns and RAW; the manual
gives no formula (R252; log entry 14). -/
opaque frequency : List (Int × W64) → Int

/-- The digest of the owning side's staged package as the other side finds it at a switchover, as a function of a free value:
no message of the manual carries it (R486, log entry 14). -/
opaque ownerStaged : W64 → Bytes

/-- What the time CSR of a native core pair gains in 40 ns: the manual gives it no unit (R394; log entry 96). -/
opaque timeCsrStep : W64

/-- Instructions that core pair 0 or 1 retires in the 40 ns from a RAW value on (R394; log entry 96). -/
opaque retiredIn : Nat → W64 → W64

end Sys2Proof.Config
end

