-- ==== Sys2Proof/Machine/Map.lean ====
section
/-!
DEFINITION. Sparse tables as lists sorted by key, and the byte-string operations that the rest of the model shares.
-/

namespace Sys2Proof.Machine

/-- The value at a key, if the table lists it. -/
def mget {α : Type} : List (Nat × α) → Nat → Option α
  | [], _ => none
  | (k', v) :: t, k => if k' = k then some v else mget t k

/-- The value at a key, or what an unlisted key reads as. -/
def mgetD {α : Type} (m : List (Nat × α)) (k : Nat) (d : α) : α := (mget m k).getD d

/-- The table with a value at a key, in key order. -/
def mset {α : Type} : List (Nat × α) → Nat → α → List (Nat × α)
  | [], k, v => [(k, v)]
  | (k', v') :: t, k, v =>
    if k < k' then (k, v) :: (k', v') :: t
    else if k' = k then (k, v) :: t
    else (k', v') :: mset t k v

/-- The table without a key. -/
def mdel {α : Type} : List (Nat × α) → Nat → List (Nat × α)
  | [], _ => []
  | (k', v') :: t, k => if k' = k then t else (k', v') :: mdel t k

/-- The table with the value at a key changed, an unlisted key reading as `d`. -/
def mupd {α : Type} (m : List (Nat × α)) (k : Nat) (d : α) (f : α → α) : List (Nat × α) :=
  mset m k (f (mgetD m k d))

/-- Write to a table whose unlisted keys read as `d`: the value `d` is not listed. -/
def mput {α : Type} [DecidableEq α] (m : List (Nat × α)) (k : Nat) (d v : α) : List (Nat × α) :=
  if v = d then mdel m k else mset m k v

/-- A table is in its one canonical form: keys strictly rising. -/
def msorted {α : Type} : List (Nat × α) → Bool
  | [] => true
  | [_] => true
  | a :: b :: t => decide (a.1 < b.1) && msorted (b :: t)

/-- A memory in canonical form: keys strictly rising and no entry equal to what an unlisted address reads as. -/
abbrev memWf (m : List (Nat × Byte)) : Prop := msorted m = true ∧ ∀ c ∈ m, c.2 ≠ 0

/-- One byte of a memory whose unlisted addresses read 0 (R465). -/
def byteAt (m : List (Nat × Byte)) (a : Nat) : Byte := mgetD m a 0

/-- A byte written to a memory. -/
def putByte (m : List (Nat × Byte)) (a : Nat) (b : Byte) : List (Nat × Byte) := mput m a 0 b

/-- Bytes written at rising addresses. -/
def putBytes (m : List (Nat × Byte)) (a : Nat) : Bytes → List (Nat × Byte)
  | [] => m
  | b :: t => putBytes (putByte m a b) (a + 1) t

/-- `n` bytes read at rising addresses. -/
def bytesAt (m : List (Nat × Byte)) (a n : Nat) : Bytes := (List.range n).map (fun i => byteAt m (a + i))

/-- `n` bytes of a value, least significant first (R4: multi-byte values of the module are little-endian). -/
def leBytes : Nat → Nat → Bytes
  | 0, _ => []
  | n + 1, v => BitVec.ofNat 8 v :: leBytes n (v / 256)

/-- The value of little-endian bytes. -/
def leNat : Bytes → Nat
  | [] => 0
  | b :: t => b.toNat + 256 * leNat t

/-- `n` bytes of a value, most significant first (network order). -/
def beBytes (n v : Nat) : Bytes := (leBytes n v).reverse

/-- The value of big-endian bytes. -/
def beNat (b : Bytes) : Nat := leNat b.reverse

/-- `n` bytes of an integer in two's complement, least significant first. -/
def leInt (n : Nat) (v : Int) : Bytes := leBytes n (v % (2 ^ (8 * n) : Nat)).toNat

/-- The bytes from an offset, at most `n`. -/
def slice (b : Bytes) (off n : Nat) : Bytes := (b.drop off).take n

/-- Bytes padded with zeros, or cut, to a length. -/
def padTo (n : Nat) (b : Bytes) : Bytes := b.take n ++ List.replicate (n - b.length) 0

/-- The element at a position changed. -/
def lupd {α : Type} (l : List α) (i : Nat) (f : α → α) : List α := l.modify i f

/-- The last `n` elements of a list. -/
def lastN {α : Type} (n : Nat) (l : List α) : List α := l.drop (l.length - n)

/-- ASCII bytes of a text. -/
def ascii (s : String) : Bytes := s.toList.map (fun c => BitVec.ofNat 8 c.toNat)

/-- A bit of a word of any width, by number. -/
def bitOf {w : Nat} (v : BitVec w) (i : Nat) : Bool := v.getLsbD i

/-- A word with one bit set to a value. -/
def setBit {w : Nat} (v : BitVec w) (i : Nat) (b : Bool) : BitVec w :=
  if b then v ||| BitVec.twoPow w i else v &&& ~~~ BitVec.twoPow w i

/-- The number a bit stands for. -/
def b2n (b : Bool) : Nat := if b then 1 else 0

/-- A field of a number: bits `hi` down to `lo`. -/
def field (v hi lo : Nat) : Nat := v / 2 ^ lo % 2 ^ (hi + 1 - lo)

/-- The two's complement reading of the low `w` bits of a number. -/
def sext (w v : Nat) : Int := let x := v % 2 ^ w; if x < 2 ^ (w - 1) then (x : Int) else (x : Int) - (2 ^ w : Nat)

end Sys2Proof.Machine
end

