-- ==== Sys2Proof/Machine/Float.lean ====
section
/-!
DEFINITION. IEEE 754 binary32 and binary64 as exact rationals with one rounding, to nearest with ties to even (R104, R167).
-/

namespace Sys2Proof.Machine

/-- A binary floating format: exponent bits and fraction bits. -/
structure FFmt where
  eb : Nat
  mb : Nat
deriving DecidableEq, Repr

/-- binary32. -/
def fmt32 : FFmt := ⟨8, 23⟩
/-- binary64. -/
def fmt64 : FFmt := ⟨11, 52⟩

/-- Bias of the exponent. -/
def FFmt.bias (f : FFmt) : Int := (2 ^ (f.eb - 1) - 1 : Nat)

/-- Bits of infinity without sign. -/
def FFmt.infBits (f : FFmt) : Nat := (2 ^ f.eb - 1) * 2 ^ f.mb

/-- Bits of the largest finite magnitude. -/
def FFmt.maxBits (f : FFmt) : Nat := f.infBits - 1

/-- A signed exact value: sign and magnitude as a fraction. -/
structure Q where
  neg : Bool
  num : Nat
  den : Nat
deriving DecidableEq, Repr, Inhabited

/-- The value of an integer. -/
def Q.ofInt (i : Int) : Q := ⟨decide (i < 0), i.natAbs, 1⟩

/-- The value of an integer over a natural number. -/
def Q.mk' (i : Int) (d : Nat) : Q := ⟨decide (i < 0), i.natAbs, d⟩

/-- Signed numerator. -/
def Q.snum (q : Q) : Int := if q.neg then - (q.num : Int) else q.num

/-- Exact sum; an exact zero sum is positive unless both are negative zeros. -/
def Q.add (a b : Q) : Q :=
  let n := a.snum * b.den + b.snum * a.den
  ⟨if n = 0 then a.neg && b.neg else decide (n < 0), n.natAbs, a.den * b.den⟩

/-- Negation. -/
def Q.negate (a : Q) : Q := { a with neg := ! a.neg }

/-- Exact difference. -/
def Q.sub (a b : Q) : Q := a.add b.negate

/-- Exact product. -/
def Q.mul (a b : Q) : Q := ⟨xor a.neg b.neg, a.num * b.num, a.den * b.den⟩

/-- Exact quotient by a value that is not zero. -/
def Q.div (a b : Q) : Q := ⟨xor a.neg b.neg, a.num * b.den, a.den * b.num⟩

/-- Order of two exact values. -/
def Q.le (a b : Q) : Bool := decide (a.snum * b.den ≤ b.snum * a.den)

/-- Strict order of two exact values. -/
def Q.lt (a b : Q) : Bool := decide (a.snum * b.den < b.snum * a.den)

/-- Magnitude. -/
def Q.abs (a : Q) : Q := { a with neg := false }

/-- `n / d` rounded to the nearest integer, ties to even. -/
def rne (n d : Nat) : Nat :=
  let q := n / d
  let r := n % d
  if 2 * r > d || (2 * r == d && q % 2 == 1) then q + 1 else q

/-- An exact value rounded to the nearest integer, ties to even. -/
def Q.round (q : Q) : Int := if q.neg then - (rne q.num q.den : Int) else rne q.num q.den

/-- An exact value truncated toward zero. -/
def Q.trunc (q : Q) : Int := if q.neg then - ((q.num / q.den : Nat) : Int) else (q.num / q.den : Nat)

/-- The bits, without sign, of the magnitude `n / d` rounded to nearest with ties to even; overflow gives infinity. -/
def FFmt.magBits (f : FFmt) (n d : Nat) : Nat :=
  if n = 0 then 0 else
  let e0 : Int := (n.log2 : Int) - (d.log2 : Int)
  let below := if 0 ≤ e0 then decide (n < d * 2 ^ e0.toNat) else decide (n * 2 ^ (- e0).toNat < d)
  let e := if below then e0 - 1 else e0
  let emin : Int := 1 - f.bias
  let ee := max e emin
  let q := ee - f.mb
  let m := if 0 ≤ q then rne n (d * 2 ^ q.toNat) else rne (n * 2 ^ (- q).toNat) d
  min ((ee - emin).toNat * 2 ^ f.mb + m) f.infBits

/-- The bits of an exact value rounded to nearest with ties to even. -/
def FFmt.ofQ (f : FFmt) (q : Q) : Nat := (if q.neg then 2 ^ (f.eb + f.mb) else 0) + f.magBits q.num q.den

/-- Sign of a number's bits. -/
def FFmt.sign (f : FFmt) (b : Nat) : Bool := b / 2 ^ (f.eb + f.mb) % 2 == 1

/-- Magnitude bits. -/
def FFmt.mag (f : FFmt) (b : Nat) : Nat := b % 2 ^ (f.eb + f.mb)

/-- Not a number. -/
def FFmt.isNan (f : FFmt) (b : Nat) : Bool := decide (f.mag b > f.infBits)

/-- An infinity. -/
def FFmt.isInf (f : FFmt) (b : Nat) : Bool := f.mag b == f.infBits

/-- Finite. -/
def FFmt.finite (f : FFmt) (b : Nat) : Bool := decide (f.mag b < f.infBits)

/-- A zero. -/
def FFmt.isZero (f : FFmt) (b : Nat) : Bool := f.mag b == 0

/-- Subnormal. -/
def FFmt.subnormal (f : FFmt) (b : Nat) : Bool := decide (0 < f.mag b ∧ f.mag b < 2 ^ f.mb)

/-- The exact value of finite bits. -/
def FFmt.toQ (f : FFmt) (b : Nat) : Q :=
  let m := f.mag b
  let ex := m / 2 ^ f.mb
  let fr := m % 2 ^ f.mb
  let sig := if ex = 0 then fr else fr + 2 ^ f.mb
  let e : Int := (max ex 1 : Nat) - f.bias - f.mb
  if 0 ≤ e then ⟨f.sign b, sig * 2 ^ e.toNat, 1⟩ else ⟨f.sign b, sig, 2 ^ (- e).toNat⟩

/-- Square root of a magnitude, exact to beyond binary64's precision, with the inexact tail marked. -/
def qsqrt (q : Q) : Q :=
  let k := 80 + (q.den.log2 + 1)
  let x := q.num * 4 ^ k / q.den
  let r := x.sqrt
  if r * r = x ∧ q.num * 4 ^ k % q.den = 0 then ⟨false, r, 2 ^ k⟩ else ⟨false, 2 * r + 1, 2 ^ (k + 1)⟩

/-- The exact value of a finite binary64 word; zero for an infinity or not-a-number, which the operations below tell apart. -/
def fq (x : F64) : Q := if fmt64.finite x.toNat then fmt64.toQ x.toNat else ⟨false, 0, 1⟩

/-- binary64 of an exact value. -/
def f64 (q : Q) : F64 := BitVec.ofNat 64 (fmt64.ofQ q)

/-- Not-a-number, infinity, zero and sign of a binary64 word. -/
def fnan : F64 := 0x7FF8000000000000
def fIsNan (x : F64) : Bool := fmt64.isNan x.toNat
def fIsInf (x : F64) : Bool := fmt64.isInf x.toNat
def fIsZero (x : F64) : Bool := fmt64.isZero x.toNat
def fSign (x : F64) : Bool := x.getLsbD 63

/-- An infinity. -/
def finf (neg : Bool) : F64 := if neg then 0xFFF0000000000000 else 0x7FF0000000000000

/-- binary64 sum (IEEE 754: an infinity stands, and two of unlike sign give not-a-number). -/
def fadd (a b : F64) : F64 :=
  if fIsNan a || fIsNan b then fnan
  else if fIsInf a then (if fIsInf b && fSign a != fSign b then fnan else a)
  else if fIsInf b then b
  else f64 ((fq a).add (fq b))

/-- binary64 negation. -/
def fneg (a : F64) : F64 := a ^^^ 0x8000000000000000

/-- binary64 difference. -/
def fsub (a b : F64) : F64 := fadd a (fneg b)

/-- binary64 product. -/
def fmul (a b : F64) : F64 :=
  if fIsNan a || fIsNan b then fnan
  else if fIsInf a || fIsInf b then (if fIsZero a || fIsZero b then fnan else finf (xor (fSign a) (fSign b)))
  else f64 ((fq a).mul (fq b))

/-- binary64 quotient. -/
def fdiv (a b : F64) : F64 :=
  if fIsNan a || fIsNan b then fnan
  else if fIsInf a then (if fIsInf b then fnan else finf (xor (fSign a) (fSign b)))
  else if fIsInf b then f64 ⟨xor (fSign a) (fSign b), 0, 1⟩
  else if fIsZero b then (if fIsZero a then fnan else finf (xor (fSign a) (fSign b)))
  else f64 ((fq a).div (fq b))

/-- binary64 square root. -/
def fsqrt (a : F64) : F64 :=
  if fIsNan a || fIsZero a then a else if fSign a then fnan else if fIsInf a then a else f64 (qsqrt (fq a))

/-- binary64 of an integer. -/
def fint (i : Int) : F64 := f64 (Q.ofInt i)

/-- binary64 magnitude. -/
def fabs (a : F64) : F64 := a &&& 0x7FFFFFFFFFFFFFFF

/-- Order on binary64: nothing is ordered against not-a-number. -/
def fle (a b : F64) : Bool :=
  if fIsNan a || fIsNan b then false
  else if fIsInf a || fIsInf b then a == b || (fIsInf a && fSign a) || (fIsInf b && !fSign b)
  else (fq a).le (fq b)

/-- Strict order on binary64. -/
def flt (a b : F64) : Bool :=
  if fIsNan a || fIsNan b then false
  else if fIsInf a || fIsInf b then a != b && ((fIsInf a && fSign a) || (fIsInf b && !fSign b))
  else (fq a).lt (fq b)

/-! ### Sine, cosine and argument

Each is worked out with some 200 bits beyond the point and rounded once to binary64 (R153, R154, R155; log entry 10). -/

/-- Sum of the arctangent series of z / 2^P, as a multiple of 2^-P: `pw` is z to the power 2j + 1. -/
def atanTerms (P z2 : Nat) : Nat → Nat → Nat → Int
  | 0, _, _ => 0
  | fuel + 1, j, pw =>
    let t : Int := (pw / (2 * j + 1) : Nat)
    (if j % 2 = 0 then t else -t) + atanTerms P z2 fuel (j + 1) (pw * z2 / 2 ^ P)

/-- arctan z as a multiple of 2^-P, z a multiple of 2^-P from 0 to 1: three halvings of the angle, then the series. -/
def atanFix (P z : Nat) : Nat :=
  let half := fun z : Nat => z * 2 ^ P / (2 ^ P + (4 ^ P + z * z).sqrt)
  let x := half (half (half z))
  8 * (atanTerms P (x * x / 2 ^ P) (P / 6 + 2) 0 x).toNat

/-- π as a multiple of 2^-P. -/
def piFix (P : Nat) : Nat := 4 * atanFix P (2 ^ P)

/-- Terms of the sine (odd k) or cosine (even k) series of x / 2^P from the power k on, as a multiple of 2^-P. -/
def sineTerms (P x2 : Nat) : Nat → Nat → Nat → Int
  | 0, _, _ => 0
  | fuel + 1, k, t => (t : Int) - sineTerms P x2 fuel (k + 2) (t * x2 / 2 ^ P / ((k + 1) * (k + 2)))

/-- Sine and cosine of f/n of an eighth of a turn, as multiples of 2^-240. -/
def sinEighth (f n : Nat) : Int :=
  let x := piFix 240 * f / (4 * n)
  sineTerms 240 (x * x / 2 ^ 240) 40 1 x
def cosEighth (f n : Nat) : Int :=
  let x := piFix 240 * f / (4 * n)
  sineTerms 240 (x * x / 2 ^ 240) 40 0 (2 ^ 240)

/-- Cosine of k/n of a turn, by its eighth of a turn. -/
def cosTurn (n k : Nat) : F64 :=
  let r := 8 * (k % n) % n
  let v : Int := match 8 * (k % n) / n with
    | 0 => cosEighth r n
    | 1 => sinEighth (n - r) n
    | 2 => - sinEighth r n
    | 3 => - cosEighth (n - r) n
    | 4 => - cosEighth r n
    | 5 => - sinEighth (n - r) n
    | 6 => sinEighth r n
    | _ => cosEighth (n - r) n
  f64 (Q.mk' v (2 ^ 240))

/-- Sine of k/n of a turn: the cosine a quarter turn before. -/
def sinTurn (n k : Nat) : F64 := cosTurn (4 * n) (4 * (k % n) + 3 * n)

/-- Argument of x + jy in radians, in (−π, π], of a finite number that is not zero. -/
def fatan2 (y x : F64) : F64 :=
  let a := (fq y).abs
  let b := (fq x).abs
  let big := if a.le b then b else a
  let small := if a.le b then a else b
  let P := 240 + ((big.num * small.den).log2 - (big.den * small.num).log2)
  let t := atanFix P (small.num * big.den * 2 ^ P / (small.den * big.num))
  let t : Int := if a.le b then t else (piFix P / 2 : Nat) - t
  let t : Int := if (fq x).neg && (fq x).num != 0 then piFix P - t else t
  f64 (Q.mk' (if (fq y).neg && (fq y).num != 0 then -t else t) (2 ^ P))

end Sys2Proof.Machine
end

