-- ==== Sys2Proof/Machine/StateA.lean ====
section
/-!
DEFINITION. State of the connector, identity, mode control, time base, process image and cycle.
-/

namespace Sys2Proof.Machine

/-- Fixed identity of the module (0x1000, 0x1600:01–0x03). -/
structure Ident where
  serial : Bytes
  mac : W48
  computeClass : W16
  hwRev : W16
  moduleCert : Bytes
  issuingCert : Bytes
deriving DecidableEq, Repr, Inhabited

/-- Ident right after reset. -/
def Ident.reset : Ident where
  serial := []
  mac := 0
  computeClass := 0
  hwRev := 0
  moduleCert := []
  issuingCert := []

/-- Supply, straps and logic contacts (19_connector). -/
structure Pins where
  vinA : Bool
  vinB : Bool
  pgood : Bool
  rstHigh : Bool
  aonPowered : Bool
  sideB : Bool
  pos : BitVec 6
  strapOpen : Bool
  warnAt : Option W64
  i2cPtr : BitVec 4
deriving DecidableEq, Repr, Inhabited

/-- Pins right after reset. -/
def Pins.reset : Pins where
  vinA := true
  vinB := true
  pgood := true
  rstHigh := true
  aonPowered := true
  sideB := false
  pos := 0
  strapOpen := false
  warnAt := none
  i2cPtr := 0

/-- Mode control (17_modes). -/
structure Ctl where
  mode : Mode
  prevMode : Mode
  reason : W16
  modeSince : W64
  changes : Ctr
  testWanted : Bool
  aloneAtTest : Bool
  commandedStop : Bool
  coldNext : Bool
  stopPending : Option Nat
  stoppedAt : Option W64
  life : Life
  lifePending : Option Life
  lifeChanges : Ctr16
  ledRun : Bool
  ledPair : Bool
  startsAt : Option W64
  conflictSeen : Bool
  testLeft : Bool
deriving DecidableEq, Repr, Inhabited

/-- Ctl right after reset. -/
def Ctl.reset : Ctl where
  mode := .cold
  prevMode := .cold
  reason := 0x0000
  modeSince := 0
  changes := Ctr.reset
  testWanted := false
  aloneAtTest := false
  commandedStop := false
  coldNext := false
  stopPending := none
  stoppedAt := none
  life := .blank
  lifePending := none
  lifeChanges := Ctr16.reset
  ledRun := false
  ledPair := false
  startsAt := none
  conflictSeen := false
  testLeft := false

/-- One accepted Sync of the servo history (R252). -/
structure SyncRec where
  offsetNs : Int
  raw : W64
deriving DecidableEq, Repr, Inhabited

/-- A master known to the best master clock algorithm (R264). -/
structure MasterRec where
  ann : PtpAnnounce
  atRaw : W64
deriving DecidableEq, Repr, Inhabited

/-- Transparent clock forward record (R265). -/
structure TcEntry where
  toP1 : Bool
  srcPort : W80
  kind : Nat
  seq : W16
  atRaw : W64
  add : Int
  awaits : Bool
deriving DecidableEq, Repr, Inhabited

/-- An outstanding Pdelay_Req and the last 8 completed exchanges of a port (R263). -/
structure Pdelay where
  seq : W16
  askedAt : Option W64
  sentAt : Option W64
  answered : Bool
  hist : List Int
deriving DecidableEq, Repr, Inhabited

/-- Pdelay right after reset. -/
def Pdelay.reset : Pdelay where
  seq := 0
  askedAt := none
  sentAt := none
  answered := true
  hist := []

/-- The TIME block and the servo (09_time). -/
structure TimeSt where
  raw : W64
  base : W80
  anchor : W64
  rate : W32
  own : TimeState
  agreed : TimeState
  announced : List Announce
  stepGen : Byte
  lastOffset : W32
  syncs : List SyncRec
  inLimit : Nat
  overStep : Nat
  sinceChange : Nat
  lastSync : Option W64
  syncInterval : Nat
  twoStep : Option PtpSync
  masters : List MasterRec
  gm : Option W64
  portInUse : Option Nat
  portSync : List (Nat × W64)
  inaccuracy : W32
  utc : Int
  leap : Byte
  pdelay : List Pdelay
  tcs : List TcEntry
  refQ : Bool
  onRef : Bool
  refDiff : Int
  lockedAt : Option W64
  holdAt : Option W64
  ppsOut : Bool
  ppsRoseAt : Option W64
  ppsCap : W80
  ppsAt : Option W64
  ppsOffset : W32
  almNs : W32
  almEp : W32
  almArm : Bool
  almFired : Bool
  fren : Bool
  frinc : W32
  frCount : W64
  frFrac : BitVec 24
  secDone : Nat
  fr0 : W32
  latNow : W80
  latRaw : W64
  latPps : W80
  latFr : W64
  forwarded : Ctr
  discarded : Ctr
  skips : List (Nat × Nat)
  stepAt : List Nat
  gridDone : Option Nat
  steps : Ctr
  masterChanges : Ctr
  holdovers : Ctr
  refLosses : Ctr
deriving DecidableEq, Repr, Inhabited

/-- TimeSt right after reset. -/
def TimeSt.reset : TimeSt where
  raw := 0
  base := 0
  anchor := 0
  rate := 0
  own := .unset
  agreed := .unset
  announced := []
  stepGen := 0
  lastOffset := 0
  syncs := []
  inLimit := 0
  overStep := 0
  sinceChange := 0
  lastSync := none
  syncInterval := 0
  twoStep := none
  masters := []
  gm := none
  portInUse := none
  portSync := []
  inaccuracy := 0xFFFFFFFF
  utc := 0
  leap := 0
  pdelay := List.replicate 4 Pdelay.reset
  tcs := []
  refQ := false
  onRef := false
  refDiff := 0
  lockedAt := none
  holdAt := none
  ppsOut := false
  ppsRoseAt := none
  ppsCap := 0
  ppsAt := none
  ppsOffset := 0
  almNs := 0
  almEp := 0
  almArm := false
  almFired := false
  fren := false
  frinc := 0x28000000
  frCount := 0
  frFrac := 0
  secDone := 0
  fr0 := 0
  latNow := 0
  latRaw := 0
  latPps := 0
  latFr := 0
  forwarded := Ctr.reset
  discarded := Ctr.reset
  skips := []
  stepAt := []
  gridDone := none
  steps := Ctr.reset
  masterChanges := Ctr.reset
  holdovers := Ctr.reset
  refLosses := Ctr.reset

/-- An active force: point, forced word and shadow word (R47, R48). -/
structure Force where
  point : Nat
  forced : TWord
  shadow : TWord
deriving DecidableEq, Repr, Inhabited

/-- One MRAM copy of a task's retained set (R44). -/
structure RetCopy where
  tick : W64
  cycle : W32
  digest : Bytes
  points : List (Nat × TWord)
  slots : List (Nat × W64)
deriving DecidableEq, Repr, Inhabited

/-- The process image, block state and retained sets (02_tagged_word). -/
structure Img where
  points : List (Nat × TWord)
  published : List (Nat × TWord)
  consts : List (Nat × TWord)
  descs : List (Nat × PointDesc)
  slots : List (Nat × W64)
  misses : List (Nat × Nat)
  forces : List Force
  pubForces : List Force
  copies : List (Nat × RetCopy)
  committedTick : Option W64
  committedCycles : List W32
  hist : List (Nat × Nat × List (Nat × TWord))
deriving DecidableEq, Repr, Inhabited

/-- Img right after reset. -/
def Img.reset : Img where
  points := []
  published := []
  consts := []
  descs := []
  slots := []
  misses := []
  forces := []
  pubForces := []
  copies := []
  committedTick := none
  committedCycles := []
  hist := []

/-- One task (03_cycle, entries 0x2201–0x2204). -/
structure TaskSt where
  cycle : W32
  firstCycle : Bool
  lastNs : W32
  longestNs : W32
  late : Ctr
  overruns : Ctr
  skipped : Ctr
deriving DecidableEq, Repr, Inhabited

/-- TaskSt right after reset. -/
def TaskSt.reset : TaskSt where
  cycle := 0
  firstCycle := false
  lastNs := 0
  longestNs := 0
  late := Ctr.reset
  overruns := Ctr.reset
  skipped := Ctr.reset

/-- Where the cycle of the present tick stands (table "Cycle phases"). -/
inductive Phase where
  | slack | agreeing | executing | output
deriving DecidableEq, Repr, Inhabited
/-- Outcome of a change check with the staged digest, and the tick of the boundary it was made at (R75). -/
structure CheckRes where
  outcome : Nat
  digest : Bytes
  tick : W64
deriving DecidableEq, Repr, Inhabited

/-- On-line change, entries 0x2218 (R74–R79). -/
structure ChangeSt where
  state : Nat
  tick : W64
  reason : W16
  dropped : W16
  active : Bool
  own : Option CheckRes
  partner : Option CheckRes
deriving DecidableEq, Repr, Inhabited

/-- ChangeSt right after reset. -/
def ChangeSt.reset : ChangeSt where
  state := 0
  tick := 0
  reason := 0
  dropped := 0
  active := false
  own := none
  partner := none

/-- A paced publication whose update is done and whose instant tₖ + Δ has not come: that instant, its loop, its publication, k, tₖ and the
words it carries (R185, R230). -/
structure PacedOut where
  due : Nat
  loop : Nat
  pub : Nat
  k : W32
  cut : Nat
  words : List TWord
deriving DecidableEq, Repr, Inhabited

/-- The cycle (03_cycle). -/
structure CycSt where
  tick : W64
  tasks : List TaskSt
  firstTick : Bool
  phase : Phase
  todo : List Nat
  nextBlock : Nat
  inputs : List (Nat × TWord)
  due : BitVec 4
  cutTime : W80
  cutGen : Byte
  lastTickRaw : Option W64
  stepped : Bool
  lastTick : Option Nat
  seqPlan : List (Nat × Bool × W16)
  paced : List PacedOut
  verdicts : List (Nat × Nat)
  confirmed : Bool
  startRaw : W64
  endRaw : W64
  released : Bool
  digest : W64
  engine : W64
  partnerOut : Option (W64 × W64 × W64)
  partnerTick : Option TickMsg
  supplies : List (Nat × Frame)
  suppliesG : List (Nat × GooseMsg)
  alone : Bool
  cutTick : W64
  cutDue : BitVec 4
  cutCycles : List W32
  lastRelease : W64
  restart : Nat
  change : ChangeSt
  revert : List (Nat × Nat)
  calls : List (Cp × Nat)
deriving DecidableEq, Repr, Inhabited

/-- CycSt right after reset. -/
def CycSt.reset : CycSt where
  tick := 0
  tasks := List.replicate 4 TaskSt.reset
  firstTick := false
  phase := .slack
  todo := []
  nextBlock := 0
  inputs := []
  due := 0
  cutTime := 0
  cutGen := 0
  lastTickRaw := none
  stepped := false
  lastTick := none
  seqPlan := []
  paced := []
  verdicts := []
  confirmed := false
  startRaw := 0
  endRaw := 0
  released := true
  digest := 0
  engine := 0
  partnerOut := none
  partnerTick := none
  supplies := []
  suppliesG := []
  alone := false
  cutTick := 0
  cutDue := 0
  cutCycles := []
  lastRelease := 0
  restart := 0
  change := ChangeSt.reset
  revert := []
  calls := []

end Sys2Proof.Machine
end

