-- ==== Sys2Proof/Machine/StateB.lean ====
section
/-!
DEFINITION. State of the native core pairs, their interrupt, clock, mailbox and protection contexts, the DMA engine, the event fabric and the CAN controllers.
-/

namespace Sys2Proof.Machine

/-- A call record (R80). -/
structure CallRec where
  inst : Nat
  func : Nat
  pres : BitVec 3
  a : TWord
  b : TWord
  c : TWord
  task : Nat
  cycle : W32
  tick : W64
  ibudget : Nat
deriving DecidableEq, Repr, Inhabited

/-- What NCALL entry saves (R418). -/
structure Saved where
  pc : W32
  machine : Bool
  mstatus : W32
  mepc : W32
  mcause : W32
  mtval : W32
  fcsr : W32
deriving DecidableEq, Repr, Inhabited

/-- Saved right after reset. -/
def Saved.reset : Saved where
  pc := 0
  machine := true
  mstatus := 0
  mepc := 0
  mcause := 0
  mtval := 0
  fcsr := 0

/-- A register file: x1–x31 and f0–f31 (R418). -/
structure Regs where
  x : List W32
  f : List W32
deriving DecidableEq, Repr, Inhabited

/-- Regs right after reset. -/
def Regs.reset : Regs where
  x := List.replicate 31 0
  f := List.replicate 32 0

/-- Interrupt controller context of a core pair (R409–R417, R432). -/
structure Intc where
  pend : BitVec 128
  en : BitVec 128
  claimed : BitVec 128
  holds : List (Nat × Nat)
  heldFrom : List (Nat × W64 × Nat)
  stray : Ctr16
  hsel : BitVec 7
deriving DecidableEq, Repr, Inhabited

/-- Intc right after reset. -/
def Intc.reset : Intc where
  pend := 0
  en := 1
  claimed := 0
  holds := []
  heldFrom := []
  stray := Ctr16.reset
  hsel := 0

/-- Clock context of a core pair (R416, R432). -/
structure Clk where
  sleep : Bool
  asleep : Bool
  src : BitVec 7
  byHold : Bool
  byCall : Bool
  wakes : Ctr16
  holdHit : Option Nat
  latch : Option Nat
deriving DecidableEq, Repr, Inhabited

/-- Clk right after reset. -/
def Clk.reset : Clk where
  sleep := false
  asleep := false
  src := 0
  byHold := false
  byCall := false
  wakes := Ctr16.reset
  holdHit := none
  latch := none

/-- Dictionary mailbox of a core pair (R303). -/
structure Dmb where
  irqen : Bool
  busy : Bool
  done : Bool
  err : Bool
  goLost : Bool
  rlen : Nat
  more : Bool
  op : BitVec 2
  typ : Byte
  len : BitVec 11
  index : W16
  sub : Byte
  offset : W32
  tag : W32
  result : W16
  tick : W64
  data : List (Nat × Byte)
  pending : Option (Bool × PairReq × Nat)
  answer : Option (Nat × Bytes × Bool × W64)
deriving DecidableEq, Repr, Inhabited

/-- Dmb right after reset. -/
def Dmb.reset : Dmb where
  irqen := false
  busy := false
  done := false
  err := false
  goLost := false
  rlen := 0
  more := false
  op := 0
  typ := 0
  len := 0
  index := 0
  sub := 0
  offset := 0
  tag := 0
  result := 0
  tick := 0
  data := []
  pending := none
  answer := none

/-- REC registers of a core pair (R353). -/
structure RecReg where
  busy : Bool
  done : Bool
  err : Bool
  irqen : Bool
  typ : W16
  sev : BitVec 2
  len : BitVec 10
  num : W32
  data : List (Nat × Byte)
deriving DecidableEq, Repr, Inhabited

/-- RecReg right after reset. -/
def RecReg.reset : RecReg where
  busy := false
  done := false
  err := false
  irqen := false
  typ := 0
  sev := 0
  len := 0
  num := 0
  data := []

/-- An MPU region (R397, R407). -/
structure Region where
  start : BitVec 30
  last : BitVec 30
  attrs : BitVec 7
  lock : Bool
deriving DecidableEq, Repr, Inhabited

/-- Region right after reset. -/
def Region.reset : Region where
  start := 0
  last := 0
  attrs := 0
  lock := false

/-- A rule write that is not effective yet (R400). -/
inductive RuleWrite where
  | start (r : Nat) (v : BitVec 30)
  | last (r : Nat) (v : BitVec 30)
  | attrs (r : Nat) (v : BitVec 8)
  | enable (v : Bool)
deriving DecidableEq, Repr, Inhabited

/-- One MPU context (R396, R407). -/
structure MpuCtx where
  regions : List Region
  enable : Bool
  lockWr : Bool
  gen : W16
  waiting : List RuleWrite
deriving DecidableEq, Repr, Inhabited

/-- MpuCtx right after reset. -/
def MpuCtx.reset : MpuCtx where
  regions := List.replicate 16 Region.reset
  enable := false
  lockWr := false
  gen := 0
  waiting := []

/-- The MPU (R396–R407). -/
structure Mpu where
  ctx0 : MpuCtx
  ctx1 : MpuCtx
  ctxD : MpuCtx
  ctxP : MpuCtx
  sel0 : Bool
  sel1 : Bool
  frDma : Bool
  frDap : Bool
  faddr : W32
  fmaster : BitVec 2
  fcheck : Bool
  ftype : BitVec 2
  fpriv : Bool
  fregion : BitVec 5
  ftarget : BitVec 5
  fmulti : Bool
  any : Bool
  lastAt : Option (W64 × Nat)
  fwlSet : Bool
deriving DecidableEq, Repr, Inhabited

/-- Mpu right after reset. -/
def Mpu.reset : Mpu where
  ctx0 := MpuCtx.reset
  ctx1 := MpuCtx.reset
  ctxD := MpuCtx.reset
  ctxP := MpuCtx.reset
  sel0 := false
  sel1 := false
  frDma := false
  frDap := false
  faddr := 0
  fmaster := 0
  fcheck := false
  ftype := 0
  fpriv := false
  fregion := 0
  ftarget := 0
  fmulti := false
  any := false
  lastAt := none
  fwlSet := false

/-- A native core pair (14_native, 15_interrupts_dma). -/
structure CpSt where
  released : Bool
  frozen : Bool
  halted : Bool
  lockstep : Bool
  dbgArmed : Bool
  pc : W32
  machine : Bool
  mstatus : W32
  mie : W32
  mtvec : W32
  mepc : W32
  mcause : W32
  mtval : W32
  fcsr : W32
  regs : Regs
  callRegs : Regs
  retired : Nat
  cycleCsr : W64
  timeCsr : W64
  instretCsr : W64
  saved : Saved
  call : Option CallRec
  posted : List CallRec
  vec : BitVec 30
  retv : W32
  staging : W32
  intc : Intc
  clk : Clk
  dmb : Dmb
  recr : RecReg
  tcm : List (Nat × Byte)
  dram : List (Nat × Byte)
  mram : List (Nat × Byte)
deriving DecidableEq, Repr, Inhabited

/-- CpSt right after reset. -/
def CpSt.reset : CpSt where
  released := false
  frozen := false
  halted := false
  lockstep := true
  dbgArmed := false
  pc := 0
  machine := true
  mstatus := 0
  mie := 0
  mtvec := 0
  mepc := 0
  mcause := 0
  mtval := 0
  fcsr := 0
  regs := Regs.reset
  callRegs := Regs.reset
  retired := 0
  cycleCsr := 0
  timeCsr := 0
  instretCsr := 0
  saved := Saved.reset
  call := none
  posted := []
  vec := 0
  retv := 0
  staging := 0
  intc := Intc.reset
  clk := Clk.reset
  dmb := Dmb.reset
  recr := RecReg.reset
  tcm := []
  dram := []
  mram := []

/-- A DMA channel (R423–R428, R432). -/
structure DmaCh where
  start : BitVec 28
  state : BitVec 2
  respend : Bool
  cur : W32
  remain : W16
  done : W16
  src : W32
  dst : W32
  sfix : Bool
  trig : Bool
  evt : Bool
  last : Bool
  next : BitVec 28
deriving DecidableEq, Repr, Inhabited

/-- DmaCh right after reset. -/
def DmaCh.reset : DmaCh where
  start := 0
  state := 0
  respend := false
  cur := 0
  remain := 0
  done := 0
  src := 0
  dst := 0
  sfix := false
  trig := false
  evt := false
  last := false
  next := 0

/-- The DMA engine (R423–R429). -/
structure DmaSt where
  enable : Bool
  busErr : Bool
  errCh : BitVec 4
  errAddr : W32
  chans : List DmaCh
deriving DecidableEq, Repr, Inhabited

/-- DmaSt right after reset. -/
def DmaSt.reset : DmaSt where
  enable := false
  busErr := false
  errCh := 0
  errAddr := 0
  chans := List.replicate 16 DmaCh.reset

/-- EVF_ROUTEt (R430, R432). -/
structure Route where
  src : BitVec 6
  enable : Bool
deriving DecidableEq, Repr, Inhabited

/-- Route right after reset. -/
def Route.reset : Route where
  src := 0
  enable := false

/-- The event fabric (R430, R431). -/
structure EvfSt where
  routes : List Route
  pend : List (Nat × W32)
  lost : Ctr16
  lostMap : W32
deriving DecidableEq, Repr, Inhabited

/-- EvfSt right after reset. -/
def EvfSt.reset : EvfSt where
  routes := List.replicate 32 Route.reset
  pend := []
  lost := Ctr16.reset
  lostMap := 0

/-- A pending CAN transmit slot: frame and order of submission (R315, R316). -/
structure Slot where
  frame : CanFrame
  order : Nat
deriving DecidableEq, Repr, Inhabited

/-- A dictionary transfer being received over CAN (R300). -/
structure TpRx where
  total : Nat
  data : Bytes
  sn : Nat
  block : Nat
  atRaw : W64
deriving DecidableEq, Repr, Inhabited

/-- A dictionary transfer being sent over CAN (R300): `gap` is the client's STmin in RAW units, `paced` a consecutive frame that waits for it. -/
structure TpTx where
  gap : Nat
  paced : Bool
  rest : Bytes
  sn : Nat
  credit : Option Nat
  waiting : Bool
  atRaw : W64
deriving DecidableEq, Repr, Inhabited

/-- A CAN controller (11_can). -/
structure CanSt where
  sleep : Bool
  state : BitVec 3
  wake : Bool
  rxovf : Bool
  suberr : Bool
  tec : BitVec 9
  rxErr : Byte
  errCode : BitVec 3
  errData : Bool
  pails : List (CanFrame × Nat)
  txbuf : List (Nat × W32)
  slots : List (Nat × Slot)
  cancel : W32
  txdone : W32
  irqen : BitVec 5
  fid : List (Nat × W32)
  fmask : List (Nat × W32)
  onBus : Option Nat
  order : Nat
  rx : Option TpRx
  tx : Option TpTx
  tpq : List Bytes
  busOffs : Ctr
  placed : Ctr
  lost : Ctr
  sent : Ctr
  wakes : Ctr
  wokeAt : Option W64
  bellK : Nat
deriving DecidableEq, Repr, Inhabited

/-- CanSt right after reset. -/
def CanSt.reset : CanSt where
  sleep := false
  state := 5
  wake := false
  rxovf := false
  suberr := false
  tec := 0
  rxErr := 0
  errCode := 0
  errData := false
  pails := []
  txbuf := []
  slots := []
  cancel := 0
  txdone := 0
  irqen := 0
  fid := []
  fmask := []
  onBus := none
  order := 0
  rx := none
  tx := none
  tpq := []
  busOffs := Ctr.reset
  placed := Ctr.reset
  lost := Ctr.reset
  sent := Ctr.reset
  wakes := Ctr.reset
  wokeAt := none
  bellK := 0

/-- The Bell (R324, R325). -/
structure BellSt where
  count : W32
  firstAt : Option W64
  lastAt : Option W64
  flags : Byte
  mode : Byte
deriving DecidableEq, Repr, Inhabited

/-- BellSt right after reset. -/
def BellSt.reset : BellSt where
  count := 0
  firstAt := none
  lastAt := none
  flags := 0
  mode := 0

end Sys2Proof.Machine
end

