-- ==== Sys2Proof/Machine/StateC.lean ====
section
/-!
DEFINITION. State of the channel engines, loop engines, the pair and the network ports.
-/

namespace Sys2Proof.Machine

/-- A sampled-value frame held for its samples' deadlines (R141, R144). -/
structure HeldSv where
  frame : SvFrame
  arrival : Nat
  single : Bool
deriving DecidableEq, Repr, Inhabited

/-- A subscribed stream (R136). -/
structure StreamSt where
  held : List HeldSv
  simulated : Bool
  lastInst : Option Nat
  peers : List SampleMsg
  sync : Bool
  lastT : Option Nat
  pendT : Option Nat
  cnt : Nat
deriving DecidableEq, Repr, Inhabited

/-- StreamSt right after reset. -/
def StreamSt.reset : StreamSt where
  held := []
  simulated := false
  lastInst := none
  peers := []
  sync := false
  lastT := none
  pendT := none
  cnt := 0

/-- A source sample: instant in 1/16 ns of TIME, and word (R149). -/
structure Tap where
  inst : Nat
  word : TWord
deriving DecidableEq, Repr, Inhabited

/-- A result of a channel before the scale of 0x2000:10 is applied: kind 0 takes no scale, 1 takes it, 2 is a U32 (R156, R162). -/
structure ChVal where
  val : F64
  tag : Byte
  kind : Nat
deriving DecidableEq, Repr, Inhabited

/-- The results of one grid sample (R159, R160). -/
structure ChResult where
  inst : Nat
  vals : List ChVal
deriving DecidableEq, Repr, Inhabited

/-- An analysis instant of a reference: number, instant, the tracked frequency in force from it, whether that is at a clamp, the magnitude of X1 below the threshold, and the phase of the fundamental in turns (R152, R154, R155, R171). -/
structure AInst where
  idx : Nat
  at_ : Nat
  fhat : F64
  clamped : Bool
  low : Bool
  psi : F64
deriving DecidableEq, Repr, Inhabited

/-- AInst right after reset. -/
def AInst.reset : AInst where
  idx := 0
  at_ := 0
  fhat := 0
  clamped := false
  low := false
  psi := 0

/-- A channel engine (05_channels). -/
structure ChSt where
  taps : List Tap
  missing : Nat
  lastGood : Option TWord
  lastGrid : Option Nat
  grid : List (Nat × F64 × TWord)
  m : Nat
  filled : Nat
  next : Nat
  lastA : Nat
  window : List (Nat × F64 × Byte)
  sums : List (F64 × F64)
  fhat : F64
  psi : F64
  fms : List F64
  fhs : List F64
  periods : Nat
  belowSince : Option Nat
  clamped : Bool
  cur : AInst
  thr : F64
  kper : Nat
  freq : F64
  roc : F64
  conv : List Tap
  convNext : Option Nat
  results : List ChResult
  status : W16
  nMissing : Ctr
  nLate : Ctr
  nReplaced : Ctr
  nSupplied : Ctr
  nMismatch : Ctr
  longest : W32
  discards : List W64
  insts : List AInst
deriving DecidableEq, Repr, Inhabited

/-- ChSt right after reset. -/
def ChSt.reset : ChSt where
  taps := []
  missing := 0
  lastGood := none
  lastGrid := none
  grid := []
  m := 0
  filled := 0
  next := 0
  lastA := 0
  window := []
  sums := []
  fhat := 0
  psi := 0
  fms := []
  fhs := []
  periods := 0
  belowSince := none
  clamped := false
  cur := AInst.reset
  thr := 0
  kper := 10
  freq := 0
  roc := 0
  conv := []
  convNext := none
  results := []
  status := 0
  nMissing := Ctr.reset
  nLate := Ctr.reset
  nReplaced := Ctr.reset
  nSupplied := Ctr.reset
  nMismatch := Ctr.reset
  longest := 0
  discards := []
  insts := []

/-- Results of one update (R182). -/
structure LoopRes where
  due : Nat
  k : W32
  words : List TWord
deriving DecidableEq, Repr, Inhabited

/-- A loop engine (06_loops). -/
structure LoopSt where
  mode : Nat
  bank : Nat
  par : List (Nat × Nat)
  wants : List (Nat × Nat × Nat)
  nextG : Option Nat
  k : W32
  i : F64
  d : F64
  x : F64
  first : Bool
  cells : List (Nat × F64)
  last : List TWord
  lateRun : Nat
  pulses : List (Nat × W32)
  spWord : TWord
  spVal : F64
  u : F64
  landed : Nat
  results : List LoopRes
  status : W16
  nLate : Ctr
  nFrozen : Ctr
  nSwaps : Ctr
deriving DecidableEq, Repr, Inhabited

/-- LoopSt right after reset. -/
def LoopSt.reset : LoopSt where
  mode := 0
  bank := 0
  par := []
  wants := []
  nextG := none
  k := 0
  i := 0
  d := 0
  x := 0
  first := true
  cells := []
  last := []
  lateRun := 0
  pulses := []
  spWord := TWord.unused
  spVal := 0
  u := 0
  landed := 0
  results := []
  status := 0
  nLate := Ctr.reset
  nFrozen := Ctr.reset
  nSwaps := Ctr.reset

/-- A PAIR write forwarded to the partner and not yet answered, or queued (R209, R210). -/
structure FwdReq where
  fwd : W32
  req : PairReq
  sid : W32
  via : Via
  ctr : W32
deriving DecidableEq, Repr, Inhabited

/-- A sequenced WRITE that waits for its boundary (R210). -/
structure SeqItem where
  msg : WriteMsg
  own : Bool
  sid : W32
  via : Via
  ctr : W32
deriving DecidableEq, Repr, Inhabited

/-- An accepted PAIR write, remembered for 10 s: its WRITE, its outcome as status and tick count, and repeats that wait for it (R211, R296). -/
structure Repeat where
  msg : WriteMsg
  outcome : Option (W16 × W64)
  atRaw : W64
  waits : List FwdReq
deriving DecidableEq, Repr, Inhabited

/-- A reply that waits for the end of a release (R295). -/
structure Reply where
  sid : W32
  via : Via
  ctr : W32
  req : PairReq
  status : W16
  wsn : W32
  tick : W64
deriving DecidableEq, Repr, Inhabited

/-- A STATE or LOG message sent and not covered by STATEACK (R197). -/
structure StateTx where
  seq : W32
  msg : MjMsg
  atRaw : W64
deriving DecidableEq, Repr, Inhabited

/-- The pair (07_pair). -/
structure PairSt where
  ownIn : Bool
  ownOut : Bool
  ownReq : Bool
  ownInLowSince : Option W64
  ownHighSince : Option W64
  aliveOut : Bool
  permitAt : Option W64
  toggledAt : Option W64
  edgeAt : Option W64
  dead : Bool
  seen : Bool
  pOwn : Bool
  pAlive : Bool
  pSilent : Bool
  pCatchup : Bool
  pSideB : Bool
  hello : Option Hello
  saidHello : Bool
  pMode : Nat
  lane0 : Bool
  lane1 : Bool
  link : Bool
  last0 : Option W64
  last1 : Option W64
  sent0 : W64
  sent1 : W64
  txSeq : W32
  rxSeqs : List W32
  delayNs : W32
  delayReq : Option W64
  delayAt : Option W64
  overDelay : Nat
  offset : W32
  offsets : List (Int × W64)
  farTicks : Nat
  following : Bool
  wiring : Bool
  wiringSince : Option W64
  noOwner : Bool
  handReq : Bool
  handover : Option Bool
  queue : List FwdReq
  forwarded : List FwdReq
  nextFwd : W32
  nextWsn : W32
  annResend : List (W32 × Announce × W64)
  annSeen : List (W32 × Announce)
  seqs : List SeqItem
  resend : List (WriteMsg × W64)
  repeats : List Repeat
  replies : List Reply
  heldReplies : List Reply
  phase : Nat
  cBytes : W64
  cStart : Option W64
  cDuration : W32
  cReason : Nat
  cFails : Nat
  cRetryAt : Option W64
  cMismatch : Bool
  twinSince : Option W64
  pass : Nat
  snapTick : W64
  serving : Nat
  stored : List (Nat × Nat × Bytes)
  log : List (W64 × List LogItem)
  unacked : List StateTx
  ackSeq : W32
  stripe : Bool
  seqTick : W64
  lastWsn : W32
  nDead : Ctr
  nHandover : Ctr
  nMismatch : Ctr
  nDone : Ctr
  nFailed : Ctr
  nSuppTo : Ctr
  nSuppBy : Ctr
  nContent : Ctr
  nCrc : Ctr
  nLoss : Ctr
  nWithdraw : Ctr
  nWiring : Ctr
  startWaitFrom : Option W64
  pTwinAt : Option W64
deriving DecidableEq, Repr, Inhabited

/-- PairSt right after reset. -/
def PairSt.reset : PairSt where
  ownIn := false
  ownOut := false
  ownReq := false
  ownInLowSince := some 0
  ownHighSince := none
  aliveOut := false
  permitAt := none
  toggledAt := none
  edgeAt := none
  dead := false
  seen := false
  pOwn := false
  pAlive := false
  pSilent := false
  pCatchup := false
  pSideB := false
  hello := none
  saidHello := false
  pMode := 0xFF
  lane0 := false
  lane1 := false
  link := false
  last0 := none
  last1 := none
  sent0 := 0
  sent1 := 0
  txSeq := 0
  rxSeqs := []
  delayNs := 0
  delayReq := none
  delayAt := none
  overDelay := 0
  offset := 0
  offsets := []
  farTicks := 0
  following := false
  wiring := false
  wiringSince := none
  noOwner := false
  handReq := false
  handover := none
  queue := []
  forwarded := []
  nextFwd := 0
  nextWsn := 0
  annResend := []
  annSeen := []
  seqs := []
  resend := []
  repeats := []
  replies := []
  heldReplies := []
  phase := 0
  cBytes := 0
  cStart := none
  cDuration := 0
  cReason := 0
  cFails := 0
  cRetryAt := none
  cMismatch := false
  twinSince := none
  pass := 0
  snapTick := 0xFFFFFFFFFFFFFFFF
  serving := 0
  stored := []
  log := []
  unacked := []
  ackSeq := 0
  stripe := false
  seqTick := 0
  lastWsn := 0
  nDead := Ctr.reset
  nHandover := Ctr.reset
  nMismatch := Ctr.reset
  nDone := Ctr.reset
  nFailed := Ctr.reset
  nSuppTo := Ctr.reset
  nSuppBy := Ctr.reset
  nContent := Ctr.reset
  nCrc := Ctr.reset
  nLoss := Ctr.reset
  nWithdraw := Ctr.reset
  nWiring := Ctr.reset
  startWaitFrom := none
  pTwinAt := none

/-- An Ethernet port, entries 0x1401–0x1405 (R242). -/
structure PortSt where
  medium : Nat
  link : Bool
  locked : Option Nat
  losses : Ctr
  rx : Ctr
  tx : Ctr
  fwd : Ctr
  fcs : Ctr
  disc : Ctr
  broken : Bool
deriving DecidableEq, Repr, Inhabited

/-- PortSt right after reset. -/
def PortSt.reset : PortSt where
  medium := 0
  link := false
  locked := none
  losses := Ctr.reset
  rx := Ctr.reset
  tx := Ctr.reset
  fwd := Ctr.reset
  fcs := Ctr.reset
  disc := Ctr.reset
  broken := false

/-- An entry of the Separator's record, or of its duplicate record (R226, R227). -/
structure SepEntry where
  src : W48
  seq : W16
  atRaw : W64
deriving DecidableEq, Repr, Inhabited

/-- A subscription slot (R235, R237, R241, R244). -/
structure SubSt where
  held : Option Frame
  heldG : Option GooseMsg
  frozen : Option Frame
  frozenG : Option GooseMsg
  last : Option W32
  lastSq : W32
  shown : W32
  simulated : Bool
  lastAt : Option W64
  landed : Option GooseMsg
  landedTime : Nat
  state : Nat
  nHeld : Ctr
  nDisc : Ctr
  nOld : Ctr
deriving DecidableEq, Repr, Inhabited

/-- SubSt right after reset. -/
def SubSt.reset : SubSt where
  held := none
  heldG := none
  frozen := none
  frozenG := none
  last := none
  lastSq := 0
  shown := 0
  simulated := false
  lastAt := none
  landed := none
  landedTime := 0
  state := 0
  nHeld := Ctr.reset
  nDisc := Ctr.reset
  nOld := Ctr.reset

/-- A publication (R240, R243). -/
structure PubSt where
  sent : Ctr
  last : W32
  stNum : W32
  sqNum : W32
  words : List TWord
  nextAt : Option W64
  interval : Nat
deriving DecidableEq, Repr, Inhabited

/-- PubSt right after reset. -/
def PubSt.reset : PubSt where
  sent := Ctr.reset
  last := 0
  stNum := 0
  sqNum := 0
  words := []
  nextAt := none
  interval := 0

/-- Ring ports, Separator, publications and subscriptions (08_network). -/
structure NetSt where
  ports : List PortSt
  heldMedium : Option Nat
  trying : Nat
  detectAt : Option W64
  mismatchAt : Option W64
  cw : List SepEntry
  acw : List SepEntry
  rxRec : List SepEntry
  pairSeq : W16
  modSeq : W16
  dups : Ctr
  evictions : Ctr
  returning : Ctr
  toPair : Ctr
  wrongLan : Ctr
  subs : List (Nat × SubSt)
  pubs : List (Nat × PubSt)
  supAt : Option W64
deriving DecidableEq, Repr, Inhabited

/-- NetSt right after reset. -/
def NetSt.reset : NetSt where
  ports := List.replicate 5 PortSt.reset
  heldMedium := none
  trying := 3
  detectAt := none
  mismatchAt := none
  cw := []
  acw := []
  rxRec := []
  pairSeq := 0
  modSeq := 0
  dups := Ctr.reset
  evictions := Ctr.reset
  returning := Ctr.reset
  toPair := Ctr.reset
  wrongLan := Ctr.reset
  subs := []
  pubs := []
  supAt := none

end Sys2Proof.Machine
end

