-- ==== Sys2Proof/Machine/StateD.lean ====
section
/-!
DEFINITION. State of the dictionary service, the recorder, the field side, the integrity logic and the boot and security functions.
-/

namespace Sys2Proof.Machine

/-- A dictionary session (R284–R287). -/
structure Session where
  sid : W32
  role : Nat
  keyNo : Nat
  key : Bytes
  via : Via
  established : Bool
  openedAt : W64
  lastAt : W64
  rxCtr : W32
  txCtr : W32
  reqid : W64
  stored : Option Bytes
  pending : Bool
  buf : Bytes
  bufReq : Option W64
deriving DecidableEq, Repr, Inhabited

/-- The dictionary service (10_dictionary). -/
structure DictSt where
  settings : List (Nat × Nat)
  sessions : List Session
  badTag : Ctr
  discarded : Ctr
  roleRef : Ctr
  served : Ctr
  canAborts : Ctr
  dmbDisc : Ctr
  nonce : Bytes
  unlocked : Bool
  unlockBuf : Bytes
  unlockReq : Option W64
  fresh : Nat
deriving DecidableEq, Repr, Inhabited

/-- DictSt right after reset. -/
def DictSt.reset : DictSt where
  settings := []
  sessions := []
  badTag := Ctr.reset
  discarded := Ctr.reset
  roleRef := Ctr.reset
  served := Ctr.reset
  canAborts := Ctr.reset
  dmbDisc := Ctr.reset
  nonce := []
  unlocked := false
  unlockBuf := []
  unlockReq := none
  fresh := 0

/-- A log record that waits in the queue, with the values it took when it was made (R330, R333). -/
structure LogReq where
  typ : Nat
  sev : Nat
  power : W32
  seconds : W32
  stamp : Bytes
  tick : W64
  body : Bytes
  app : Option Cp
  sideB : Bool
deriving DecidableEq, Repr, Inhabited

/-- A log record in the ring (R330); `hurt` is the byte of it that an uncorrectable memory error has changed, by its place and by what
was added to it (R436). -/
structure LogRec where
  pos : Nat
  len : Nat
  number : W32
  mark : Bool
  hurt : Option (Nat × Byte)
  req : LogReq
deriving DecidableEq, Repr, Inhabited

/-- A copy of the start pointer (R332). -/
structure StartPtr where
  pos : Nat
  number : W32
  good : Bool
deriving DecidableEq, Repr, Inhabited

/-- The event log (R328–R336). -/
structure LogSt where
  power : W32
  powerSat : Bool
  seconds : W32
  secondsSat : Bool
  secRaw : W64
  queue : List LogReq
  lostSince : Nat
  recs : List LogRec
  writePos : Nat
  next : W32
  ptrA : Option StartPtr
  ptrB : Option StartPtr
  ptrTurn : Bool
  sincePtr : Nat
  mirror : List LogRec
  sinceMirror : Nat
  mirrorAt : W64
  lost : Ctr
  bad : Ctr
deriving DecidableEq, Repr, Inhabited

/-- LogSt right after reset. -/
def LogSt.reset : LogSt where
  power := 1
  powerSat := false
  seconds := 0
  secondsSat := false
  secRaw := 0
  queue := []
  lostSince := 0
  recs := []
  writePos := 0
  next := 0
  ptrA := none
  ptrB := none
  ptrTurn := false
  sincePtr := 0
  mirror := []
  sinceMirror := 0
  mirrorAt := 0
  lost := Ctr.reset
  bad := Ctr.reset

/-- A Curd block in the pre-trigger ring (R346). -/
structure Curd where
  isPoint : Bool
  source : Nat
  first : Nat
  rate : Nat
  period : Nat
  count : Nat
  bytes : Bytes
  closedAt : W64
deriving DecidableEq, Repr, Inhabited

/-- A skipped tick whose point samples wait for the release of the cycle before it: the due tasks, the instant, and the STEPGEN of TIME
then (R338). -/
structure SkipRec where
  due : BitVec 4
  inst : Nat
  gen : Byte
deriving DecidableEq, Repr, Inhabited

/-- A Curd block being filled (R338); `gen` is the STEPGEN of TIME at its samples. -/
structure CurdAcc where
  gen : Byte
  isPoint : Bool
  source : Nat
  first : Nat
  rate : Nat
  period : Nat
  samples : List TWord
deriving DecidableEq, Repr, Inhabited

/-- A disturbance record: prepared, open or committed (R340–R344, R351); its times are in 1/16 ns of TIME, and `chans` and `points` are those parts of its header. -/
structure DRec where
  number : W32
  tick : W64
  trigger : Nat
  stamp : Bytes
  quality : TimeState
  source : W16
  start : Nat
  stop : Nat
  flags : Byte
  pre : Nat
  post : Nat
  utc : Int
  ids : Bytes
  chans : Bytes
  points : Bytes
  oldest : Nat
  blocks : List Curd
  header : Bytes
deriving DecidableEq, Repr, Inhabited

/-- The disturbance store (R337–R345, R354). -/
structure DistSt where
  ring : List Curd
  accs : List CurdAcc
  openRecs : List DRec
  recs : List DRec
  next : W32
  heldT : List DRec
  wanted : List DRec
  ringFrom : Nat
  gone : Nat
  skips : List SkipRec
  retired : List Nat
  prev : List (Nat × Bool)
  lastWords : List (Nat × TWord)
  truncated : Ctr
  discarded : Ctr
  deleted : Ctr
deriving DecidableEq, Repr, Inhabited

/-- DistSt right after reset. -/
def DistSt.reset : DistSt where
  ring := []
  accs := []
  openRecs := []
  recs := []
  next := 1
  heldT := []
  wanted := []
  ringFrom := 0
  gone := 0
  skips := []
  retired := []
  prev := []
  lastWords := []
  truncated := Ctr.reset
  discarded := Ctr.reset
  deleted := Ctr.reset

/-- A D channel (R358–R362). -/
structure DChan where
  level : Bool
  run : Nat
  terminal : Bool
  command : Bool
  on : Bool
  tripped : Bool
  trippedAt : Option W64
  count : W32
  fault : Bool
  testFail : Bool
  sensed : Bool
  atCut : Bool
  changedAt : Option W64
deriving DecidableEq, Repr, Inhabited

/-- DChan right after reset. -/
def DChan.reset : DChan where
  level := false
  run := 0
  terminal := false
  command := false
  on := false
  tripped := false
  trippedAt := none
  count := 0
  fault := false
  testFail := false
  sensed := false
  atCut := false
  changedAt := none

/-- A LOOP channel (R364–R370). -/
structure LChan where
  commandUa : Nat
  sourceUa : Nat
  shareSt : Share
  code : W16
  shortfall : Bool
  fullEntries : Ctr
  shortfalls : Ctr
deriving DecidableEq, Repr, Inhabited

/-- LChan right after reset. -/
def LChan.reset : LChan where
  commandUa := 0
  sourceUa := 0
  shareSt := .off
  code := 0
  shortfall := false
  fullEntries := Ctr.reset
  shortfalls := Ctr.reset

/-- ADC_RESe (R380). -/
structure SeqRes where
  code : W16
  isNew : Bool
  lost : Bool
  ns : W32
deriving DecidableEq, Repr, Inhabited

/-- SeqRes right after reset. -/
def SeqRes.reset : SeqRes where
  code := 0
  isNew := false
  lost := false
  ns := 0

/-- A conversion that waits: sequencer entry, or injection (none), input, and RAW of its hold (R373, R375). -/
structure HoldReq where
  entry : Option Nat
  input : Nat
  hold : W64
deriving DecidableEq, Repr, Inhabited

/-- The field side and the converter (13_field_io). -/
structure FieldSt where
  ds : List DChan
  ls : List LChan
  lplus : W16
  sag : Bool
  latch : Bool
  above19 : Option W64
  dfault : Bool
  wdt : Bool
  lfault : Bool
  ready : Bool
  refreshAt : Option W64
  refreshFrom : Option W64
  tripHold : Bool
  sags : Ctr
  latchOffs : Ctr
  trips : Ctr
  wdTrips : Ctr
  irqen : BitVec 5
  awake : Bool
  calAt : Option W64
  refAt : Option W64
  injOvr : Bool
  refErr : Bool
  injCode : W16
  injDone : Bool
  adcIrq : BitVec 3
  res : List SeqRes
  holds : List HoldReq
  codes : List (Nat × W16)
  cutHeld : List (Nat × Nat)
  displaced : List Nat
  cutDisplaced : Nat
  lastCal : W32
  offsets : List Int
  gains : List Int
  injections : Ctr
  refFails : Ctr
  refBad : Bool
  sagSeen : BitVec 4
deriving DecidableEq, Repr, Inhabited

/-- FieldSt right after reset. -/
def FieldSt.reset : FieldSt where
  ds := List.replicate 16 DChan.reset
  ls := List.replicate 4 LChan.reset
  lplus := 24000
  sag := false
  latch := false
  above19 := some 0
  dfault := false
  wdt := false
  lfault := false
  ready := false
  refreshAt := none
  refreshFrom := none
  tripHold := false
  sags := Ctr.reset
  latchOffs := Ctr.reset
  trips := Ctr.reset
  wdTrips := Ctr.reset
  irqen := 0
  awake := false
  calAt := none
  refAt := none
  injOvr := false
  refErr := false
  injCode := 0
  injDone := false
  adcIrq := 0
  res := List.replicate 16 SeqRes.reset
  holds := []
  codes := []
  cutHeld := []
  displaced := []
  cutDisplaced := 0
  lastCal := 0
  offsets := List.replicate 24 0
  gains := List.replicate 24 0
  injections := Ctr.reset
  refFails := Ctr.reset
  refBad := false
  sagSeen := 0

/-- Integrity logic (16_integrity). -/
structure IntegSt where
  latent : Bool
  debugged : Bool
  conflict : Bool
  stPassed : Bool
  dapSession : Bool
  reason : Nat
  unit : Nat
  detail : W32
  powerAt : W32
  latchedAt : Option W64
  restarts : List W32
  cImage : Ctr
  cDesc : Ctr
  cTcm : Ctr
  cDram : Ctr
  cMram : Ctr
  cFlash : Ctr
  uRing : Ctr
  discards : Ctr
  lastUnit : Nat
  lastPass : W32
  stResult : Nat
  stUnit : Nat
  rotations : Ctr
  testFails : Ctr
  latentUnit : Nat
  lockedHits : Ctr
  parity : Ctr
  eccAt : List (Nat × W64)
  laneNext : Nat
  laneAt : Option W64
  tested : List Nat
  lostReasons : Nat
deriving DecidableEq, Repr, Inhabited

/-- IntegSt right after reset. -/
def IntegSt.reset : IntegSt where
  latent := false
  debugged := false
  conflict := false
  stPassed := false
  dapSession := false
  reason := 0
  unit := 0
  detail := 0
  powerAt := 0
  latchedAt := none
  restarts := []
  cImage := Ctr.reset
  cDesc := Ctr.reset
  cTcm := Ctr.reset
  cDram := Ctr.reset
  cMram := Ctr.reset
  cFlash := Ctr.reset
  uRing := Ctr.reset
  discards := Ctr.reset
  lastUnit := 0
  lastPass := 0
  stResult := 0
  stUnit := 0
  rotations := Ctr.reset
  testFails := Ctr.reset
  latentUnit := 0
  lockedHits := Ctr.reset
  parity := Ctr.reset
  eccAt := []
  laneNext := 0
  laneAt := none
  tested := []
  lostReasons := 0

/-- A staging slot in flash (R480, R498): state code and the bytes written. -/
structure SlotSt where
  state : Nat
  man : List (Nat × Byte)
  img : List (Nat × Byte)
deriving DecidableEq, Repr, Inhabited

/-- SlotSt right after reset. -/
def SlotSt.reset : SlotSt where
  state := 0
  man := []
  img := []

/-- A public and private key (R467, R493). -/
structure KeyPair where
  pub : Bytes
  priv : Bytes
deriving DecidableEq, Repr, Inhabited

/-- A role key (R467, R489). -/
structure RoleKey where
  role : Nat
  num : Nat
  key : Bytes
deriving DecidableEq, Repr, Inhabited

/-- Keys in the pending area (R490). -/
structure PendKeys where
  roles : List RoleKey
  a0 : Option Bytes
  a1 : Option Bytes
deriving DecidableEq, Repr, Inhabited

/-- A boot transfer (R477): blocks received (64 c + b for block b of the manifest, c = 0, or of image chunk c − 1), image chunks verified so far, and the RAW of the last DATA of each chunk that is still incomplete. -/
structure Xfer where
  host : W48
  xid : W32
  kind : Nat
  manLen : Nat
  man : Bytes
  manOk : Bool
  chunk : Nat
  blocks : List (Nat × Bytes)
  img : Bytes
  lasts : List (Nat × W64)
  started : Bool
  lastAt : W64
deriving DecidableEq, Repr, Inhabited

/-- Boot, images, keys, updates and attestation (18_boot_security). -/
structure BootSt where
  loader : Option Manifest
  loaderImg : List (Nat × Byte)
  loaderRun : Option Manifest
  fetched : Bool
  fw : Option Manifest
  sLoader : SlotSt
  sPkg : SlotSt
  sChange : SlotSt
  lastKind : Nat
  running : Option Installed
  previous : Option Installed
  runPrev : Bool
  settled : Bool
  refusedPkg : Bool
  refusal : W16
  prepared : Option Installed
  ts : W32
  switchTick : W64
  curFmt : Option Nat
  switchAt : Option W64
  olderFmt : Nat
  formats : List (Nat × List (Nat × Nat))
  revoked : BitVec 4
  minLoader : Nat
  minFw : Nat
  a0 : Option Bytes
  a1 : Option Bytes
  roles : List RoleKey
  pendKeys : Option PendKeys
  identityKey : Option KeyPair
  attState : Nat
  attNonce : Bytes
  attReport : Bytes
  attHost : Option (W48 × W32)
  xfer : Option Xfer
  solicitAt : Option W64
deriving DecidableEq, Repr, Inhabited

/-- BootSt right after reset. -/
def BootSt.reset : BootSt where
  loader := none
  loaderImg := []
  loaderRun := none
  fetched := false
  fw := none
  sLoader := SlotSt.reset
  sPkg := SlotSt.reset
  sChange := SlotSt.reset
  lastKind := 0
  running := none
  previous := none
  runPrev := false
  settled := false
  refusedPkg := false
  refusal := 0
  prepared := none
  ts := 0
  switchTick := 0
  curFmt := none
  switchAt := none
  olderFmt := 0
  formats := []
  revoked := 0
  minLoader := 0
  minFw := 0
  a0 := none
  a1 := none
  roles := []
  pendKeys := none
  identityKey := some ⟨[], []⟩
  attState := 0
  attNonce := []
  attReport := []
  attHost := none
  xfer := none
  solicitAt := none

end Sys2Proof.Machine
end

