-- ==== Sys2Proof/Machine/Flags.lean ====
section
/-!
DEFINITION. The tag byte and its algebra (R28, R32), the normalisation of stored words (R28, R30, R31), and the counter classes (R52, R53).
-/

namespace Sys2Proof.Machine

/-- Severity of a tag's VAL: 0 GOOD, 1 QUESTIONABLE, 2 INVALID; 11 counts as INVALID (table "Tag byte"). -/
def tagSev (t : Byte) : Nat := min (t.toNat / 64) 2

/-- The tag with another VAL. -/
def withVal (t : Byte) (v : Nat) : Byte := (t &&& 0x3F) ||| BitVec.ofNat 8 (v % 4 * 64)

/-- VAL = 11 is stored as 10 (R28). -/
def normTag (t : Byte) : Byte := if t.toNat / 64 = 3 then withVal t 2 else t

/-- FRC bit of the tag byte. -/
def tFRC : Byte := 0x20
/-- SUB bit of the tag byte. -/
def tSUB : Byte := 0x10
/-- TST bit of the tag byte. -/
def tTST : Byte := 0x08
/-- STL bit of the tag byte. -/
def tSTL : Byte := 0x04
/-- LIM bit of the tag byte. -/
def tLIM : Byte := 0x02
/-- SGL bit of the tag byte. -/
def tSGL : Byte := 0x01

/-- A bit when a condition holds. -/
def tIf (c : Bool) (b : Byte) : Byte := if c then b else 0

/-- The tag with VAL made at least as severe as `v`. -/
def worsen (t : Byte) (v : Nat) : Byte := withVal t (max (tagSev t) v)

/-- Tag algebra (R32): worst VAL, OR of FRC, SUB, TST, STL and SGL, LIM not inherited. -/
def tagMerge (ts : List Byte) : Byte :=
  withVal (ts.foldl (fun acc t => acc ||| (t &&& 0x3D)) 0) (ts.foldl (fun acc t => max acc (tagSev t)) 0)

/-- A result's tag: the algebra over the contributing tags, TST in TEST, the producer's own LIM and VAL (R32). -/
def resTag (test : Bool) (ts : List Byte) (lim : Bool) (sev : Nat) : Byte :=
  worsen (tagMerge ts ||| tIf test tTST ||| tIf lim tLIM) sev

/-- The canonical NaN of an F32 point (table "Point types"). -/
def nan32 : W32 := 0x7FC00000

/-- A not-a-number as binary32. -/
def isNan32 (v : W32) : Bool := fmt32.isNan v.toNat

/-- An infinity as binary32. -/
def isInf32 (v : W32) : Bool := fmt32.isInf v.toNat

/-- Point type codes (table "Point types"). -/
def tyB : Nat := 0
def tyI32 : Nat := 1
def tyU32 : Nat := 2
def tyF32 : Nat := 3
def tyX32 : Nat := 4

/-- Normalisation of a word stored in a point of a type (R28, R30, R31). -/
def normWord (typ : Nat) (w : TWord) : TWord :=
  let t := normTag w.tag
  if typ = tyB then
    if w.val.toNat > 1 then ⟨t ||| tLIM, 1⟩ else ⟨t, w.val⟩
  else if typ = tyF32 then
    if isNan32 w.val then ⟨withVal t 2, nan32⟩
    else if isInf32 w.val then ⟨t ||| tLIM, w.val⟩
    else ⟨t, w.val⟩
  else ⟨t, w.val⟩

/-- One event counted: the counter holds at its maximum and sets its saturation flag there (R52). -/
def Ctr.inc (c : Ctr) : Ctr := if c.n = 0xFFFFFFFF then { c with sat := true } else { c with n := c.n + 1 }

/-- Several events counted (R52). -/
def Ctr.add (c : Ctr) (k : Nat) : Ctr :=
  if c.n.toNat + k > 0xFFFFFFFF then ⟨0xFFFFFFFF, true⟩ else { c with n := BitVec.ofNat 32 (c.n.toNat + k) }

/-- One event counted in a counter that holds at 65,535 (R52, R413). -/
def Ctr16.inc (c : Ctr16) : Ctr16 := if c.n = 0xFFFF then { c with sat := true } else { c with n := c.n + 1 }

/-- `a` is newer than `b` by the half-window rule (R53). -/
def newer {w : Nat} (a b : BitVec w) : Bool :=
  let d := (a - b).toNat
  decide (0 < d ∧ d < 2 ^ (w - 1))

/-- The word of a fresh, GOOD value. -/
def goodWord (v : W32) : TWord := ⟨0, v⟩

/-- A word with bits added to its tag. -/
def TWord.orTag (w : TWord) (b : Byte) : TWord := { w with tag := w.tag ||| b }

/-- The 40-bit number of a word (R4). -/
def TWord.toNat (w : TWord) : Nat := w.tag.toNat * 2 ^ 32 + w.val.toNat

/-- The word of a 40-bit number (R4). -/
def TWord.ofNat (n : Nat) : TWord := ⟨BitVec.ofNat 8 (n / 2 ^ 32), BitVec.ofNat 32 n⟩

/-- Five bytes of a word, tag first (R4). -/
def TWord.bytes (w : TWord) : Bytes := w.tag :: beBytes 4 w.val.toNat

end Sys2Proof.Machine
end

