-- ==== Sys2Proof/Machine/Blocks.lean ====
section
/-!
DEFINITION. The block library (04_blocks): the value, tag and state that each of the 44 block types forms.
-/

namespace Sys2Proof.Machine

/-- A binary32 result: the canonical NaN for a NaN. -/
def f32 (q : Q) : W32 := BitVec.ofNat 32 (fmt32.ofQ q)

/-- Exact value of finite binary32 bits. -/
def f32q (v : W32) : Q := fmt32.toQ v.toNat

/-- Sign bit of binary32. -/
def f32neg (v : W32) : Bool := v.getLsbD 31

/-- Infinity with a sign. -/
def inf32 (neg : Bool) : W32 := if neg then 0xFF800000 else 0x7F800000

/-- Zero with a sign. -/
def zero32 (neg : Bool) : W32 := if neg then 0x80000000 else 0

/-- Zero of either sign. -/
def isZero32 (v : W32) : Bool := v &&& 0x7FFFFFFF == 0

/-- binary32 sum (R103). -/
def f32add (a b : W32) : W32 :=
  if isNan32 a || isNan32 b then nan32
  else if isInf32 a then (if isInf32 b && f32neg a != f32neg b then nan32 else a)
  else if isInf32 b then b
  else f32 ((f32q a).add (f32q b))

/-- binary32 negation. -/
def f32negate (a : W32) : W32 := if isNan32 a then nan32 else a ^^^ 0x80000000

/-- binary32 difference (R103). -/
def f32sub (a b : W32) : W32 := f32add a (f32negate b)

/-- binary32 product (R103, R118). -/
def f32mul (a b : W32) : W32 :=
  let s := xor (f32neg a) (f32neg b)
  if isNan32 a || isNan32 b then nan32
  else if isInf32 a then (if isZero32 b then nan32 else inf32 s)
  else if isInf32 b then (if isZero32 a then nan32 else inf32 s)
  else f32 ((f32q a).mul (f32q b))

/-- binary32 quotient; a zero divisor as in the table "Division by zero" (R117, R118). -/
def f32div (a b : W32) : W32 :=
  let s := xor (f32neg a) (f32neg b)
  if isNan32 a || isNan32 b then nan32
  else if isInf32 a then (if isInf32 b then nan32 else inf32 s)
  else if isInf32 b then zero32 s
  else if isZero32 b then (if isZero32 a then nan32 else inf32 s)
  else f32 ((f32q a).div (f32q b))

/-- Fused multiply-add with one rounding (R116 SCALE). -/
def f32fma (a b c : W32) : W32 :=
  if isNan32 a || isNan32 b || isNan32 c then nan32
  else if isInf32 a || isInf32 b then f32add (f32mul a b) c
  else if isInf32 c then c
  else f32 (((f32q a).mul (f32q b)).add (f32q c))

/-- IEEE order on binary32 operands that are not NaN: +0 equals −0 (R115). -/
def f32lt (a b : W32) : Bool :=
  if isInf32 a then f32neg a && !(isInf32 b && f32neg b)
  else if isInf32 b then !f32neg b
  else (f32q a).lt (f32q b)

/-- IEEE equality on binary32 operands that are not NaN. -/
def f32eq (a b : W32) : Bool := a == b || (isZero32 a && isZero32 b)

/-- Order with −0 below +0, for MIN and MAX (R119). -/
def f32le0 (a b : W32) : Bool :=
  if isZero32 a && isZero32 b then f32neg a || !f32neg b else !f32lt b a

/-- Integer an operand of an integer type stands for (R29, R106). -/
def intVal (typ : Nat) (v : W32) : Int :=
  if typ = tyB then (v.toNat % 2 : Nat) else if typ = tyU32 then (v.toNat : Int) else v.toInt

/-- Range of the integer types (table "Point types"); B computes as U32 (R106). -/
def intRange (typ : Nat) : Int × Int :=
  if typ = tyI32 ∨ typ = tyX32 then (-2147483648, 2147483647) else (0, 4294967295)

/-- Saturation to the range of the output type: the bits and whether LIM is set (R104). -/
def saturate (typ : Nat) (i : Int) : W32 × Bool :=
  let r := intRange typ
  if i < r.1 then (BitVec.ofInt 32 r.1, true)
  else if r.2 < i then (BitVec.ofInt 32 r.2, true)
  else (BitVec.ofInt 32 i, false)

/-- `q × 2^e`, exactly. -/
def Q.scale (q : Q) (e : Int) : Q :=
  if 0 ≤ e then { q with num := q.num * 2 ^ e.toNat } else { q with den := q.den * 2 ^ (- e).toNat }

/-- The signed 8-bit shift field `i` of PARAM: SA, SB, SC (R105). -/
def shiftOf (param i : Nat) : Int := sext 8 (param / 2 ^ (8 * i))

/-- Aligned exact value of an operand of an integer type (R105, R106). -/
def alignedVal (typ param i : Nat) (v : W32) : Q :=
  let q := Q.ofInt (intVal typ v)
  if typ = tyX32 then q.scale (shiftOf param i) else q

/-- A binary32 result word's own LIM and severity (R31, R103). -/
def f32Lim (v : W32) : Bool := isInf32 v
def f32Sev (v : W32) : Nat := if isNan32 v then 2 else 0

/-- Least and greatest of exact values. -/
def Q.min (a b : Q) : Q := if a.le b then a else b
def Q.max (a b : Q) : Q := if b.le a then a else b

/-- Value, own LIM and own severity of an arithmetic block with OTYPE F32 (R103, R116–R119). -/
def arithF32 (op : Nat) (a b c : W32) (hasC : Bool) : W32 × Bool × Nat :=
  let anyNan := isNan32 a || isNan32 b || (hasC && isNan32 c)
  let mn := fun (x y : W32) => if f32le0 x y then x else y
  let mx := fun (x y : W32) => if f32le0 y x then x else y
  let out := fun (v : W32) => (v, f32Lim v, f32Sev v)
  match op with
  | 0x15 => out (f32add (f32add a b) c)
  | 0x16 => out (f32sub a b)
  | 0x17 => out (f32mul a b)
  | 0x18 => out (f32div a b)
  | 0x19 => out (if isNan32 a then nan32 else a &&& 0x7FFFFFFF)
  | 0x1A => out (f32negate a)
  | 0x1B => out (if anyNan then nan32 else if hasC then mn (mn a b) c else mn a b)
  | 0x1C => out (if anyNan then nan32 else if hasC then mx (mx a b) c else mx a b)
  | 0x1D =>
    let nan := isNan32 a || isNan32 b || isNan32 c
    let r := if nan then nan32 else mn (mx a b) c
    let a' := if isNan32 a then nan32 else a
    (r, f32Lim r || r != a' || (!nan && f32lt c b), f32Sev r)
  | _ => out (f32fma a b c)

/-- Value, own LIM and own severity of an arithmetic block with an integer OTYPE (R104–R106, R116–R119). LIMIT with a shift sets LIM
where the exact limited value differs from the exact aligned IN, before the result is rounded (DESIGN CHOICE, log entry 101: R119
does not say which bits of IN are compared). -/
def arithInt (op typ param : Nat) (a b c : W32) (hasC : Bool) : W32 × Bool × Nat :=
  let al := alignedVal typ param
  let qa := al 0 a
  let qb := al 1 b
  let qc := al 2 c
  let fin := fun (q : Q) => let r := saturate typ q.round; (r.1, r.2, 0)
  let raw := fun (v : W32) => Q.ofInt (intVal typ v)
  let sa := fun (q : Q) => if typ = tyX32 then q.scale (shiftOf param 0) else q
  match op with
  | 0x15 => fin ((qa.add qb).add qc)
  | 0x16 => fin (qa.sub qb)
  | 0x17 => fin (sa ((raw a).mul (raw b)))
  | 0x18 =>
    if intVal typ b = 0 then
      if intVal typ a = 0 then (0, true, 2)
      else
        let r := intRange typ
        (BitVec.ofInt 32 (if intVal typ a < 0 then r.1 else r.2), true, 2)
    else if typ = tyX32 then fin (sa ((raw a).div (raw b)))
    else let r := saturate typ ((raw a).div (raw b)).trunc; (r.1, r.2, 0)
  | 0x19 => fin qa.abs
  | 0x1A => fin qa.negate
  | 0x1B => fin (if hasC then (qa.min qb).min qc else qa.min qb)
  | 0x1C => fin (if hasC then (qa.max qb).max qc else qa.max qb)
  | 0x1D =>
    let x := (qa.max qb).min qc
    let r := saturate typ x.round
    (r.1, r.2 || !(x.le qa && qa.le x) || qc.lt qb, 0)
  | _ =>
    if typ = tyX32 then fin ((sa ((raw a).mul (raw b))).add ((raw c).scale (shiftOf param 2)))
    else fin (((raw a).mul (raw b)).add (raw c))

/-- The compare blocks EQ, NE, LT, LE, GT, GE from equality and order (R115). -/
def cmpSel (op : Nat) (eq lt : Bool) : Bool :=
  match op with
  | 0x0F => eq
  | 0x10 => !eq
  | 0x11 => lt
  | 0x12 => lt || eq
  | 0x13 => !lt && !eq
  | _ => !lt

/-- A compare block: result bit and own severity (R115). -/
def compareBlk (op typ param : Nat) (a b : W32) : Bool × Nat :=
  if typ = tyF32 then
    if isNan32 a || isNan32 b then (op == 0x10, 2) else (cmpSel op (f32eq a b) (f32lt a b), 0)
  else
    let qa := alignedVal typ param 0 a
    let qb := alignedVal typ param 1 b
    (cmpSel op (qa.le qb && qb.le qa) (qa.lt qb), 0)

/-- Timers: elapsed time, held at no more than PT, and Q after a scan (R109–R111). `op` 0x09 TON, 0x0A TOF, 0x0B TP. -/
def timerScan (op : Nat) (inp prev q : Bool) (et t pt : Nat) : Nat × Bool :=
  let et := min et pt
  match op with
  | 0x09 =>
    let e := if inp && !prev then 0 else if inp then min (et + t) pt else 0
    (e, inp && decide (e ≥ pt))
  | 0x0A =>
    if inp then (0, true)
    else if prev then (0, decide (0 < pt))
    else if q then let e := min (et + t) pt; (e, decide (e < pt))
    else (et, q)
  | _ =>
    if inp && !prev && !q then (0, decide (0 < pt))
    else if q then let e := min (et + t) pt; (e, decide (e < pt))
    else if !inp then (0, q)
    else (et, q)

/-- Limits of a block counter (R113). -/
def cvMax : Int := 2147483647
def cvMin : Int := -2147483648

/-- CTU, CTD, CTUD: count after a scan (R113). -/
def counterScan (op : Nat) (a b c prevu prevd : Bool) (cv pv : Int) : Int :=
  match op with
  | 0x0C => if b then 0 else if (a && !prevu) && decide (cv < cvMax) then cv + 1 else cv
  | 0x0D => if b then pv else if (a && !prevd) && decide (cv > cvMin) then cv - 1 else cv
  | _ =>
    let up := a && !prevu
    let dn := b && !prevd
    if c then 0
    else if up && !dn && decide (cv < cvMax) then cv + 1
    else if dn && !up && decide (cv > cvMin) then cv - 1
    else cv

/-- The task period in seconds as binary32, for a task of period N (R129). -/
def period32 (n : Nat) : W32 := f32 ⟨false, n, 4000⟩

/-- RAMP: output y after a scan, from the stored y (R128, R129). Where A and y are the same infinity, y has reached A and stays (DESIGN
CHOICE, log entry 101: their difference is not a number, and R128 gives no direction). -/
def rampStep (n : Nat) (a b y : W32) : W32 :=
  if isInf32 a && a == y then a else
  let s := f32mul (b &&& 0x7FFFFFFF) (period32 n)
  let d := f32sub a y &&& 0x7FFFFFFF
  if !isNan32 d && !f32lt s d then a
  else if f32lt y a then f32add y s else f32sub y s

/-- LAG: output y after a scan, from the stored y (R128–R130). -/
def lagStep (n : Nat) (x tau y : W32) : W32 :=
  let t := period32 n
  let alpha : W32 :=
    if !f32lt 0 tau then 0x3F800000
    else if tau = 0x7F800000 then 0
    else f32div t (f32add tau t)
  f32add y (f32mul alpha (f32sub x y))

/-- DEADBAND: whether y takes IN (R128). -/
def deadbandTakes (typ : Nat) (x y band : W32) (init : Bool) : Bool :=
  !init ||
  (if typ = tyF32 then
    isNan32 x || isNan32 y ||
      (let d := f32sub x y &&& 0x7FFFFFFF; !isNan32 d && !isNan32 band && f32lt band d)
   else
    decide (((intVal typ x - intVal typ y).natAbs : Int) > intVal typ band))

/-- `x > y` in a type, with NaN operands false (R128 HYST). -/
def gtTyped (typ : Nat) (x y : W32) : Bool :=
  if typ = tyF32 then !isNan32 x && !isNan32 y && f32lt y x else decide (intVal typ y < intVal typ x)

/-- ITOF: value and own LIM (R122). -/
def itof (typ param : Nat) (a : W32) : W32 × Bool × Nat :=
  if typ = tyF32 then (if isNan32 a then nan32 else a, false, f32Sev a)
  else let v := f32 (alignedVal typ param 0 a); (v, f32Lim v, 0)

/-- FTOI: value, own LIM and own severity (R123). With OTYPE B it converts as for U32 and R98 then keeps bit 0 (DESIGN CHOICE, log entry
101: R123 names I32, U32, X32 and F32 only). -/
def ftoi (typ param : Nat) (a : W32) : W32 × Bool × Nat :=
  if typ = tyF32 then (if isNan32 a then nan32 else a, false, f32Sev a)
  else if isNan32 a then (0, false, 2)
  else if isInf32 a then
    let r := intRange typ
    (BitVec.ofInt 32 (if f32neg a then r.1 else r.2), true, 0)
  else
    let q := if typ = tyX32 then (f32q a).scale (shiftOf param 0) else f32q a
    let r := saturate typ (if bitOf (BitVec.ofNat 40 param) 8 then q.trunc else q.round)
    (r.1, r.2, 0)

/-- A B result word value (R98). -/
def bWord (b : Bool) : W32 := if b then 1 else 0

/-- QGOOD (R124). -/
def qgood (a : TWord) (param : Nat) (test : Bool) : TWord :=
  let okVal := tagSev a.tag == 0 || (tagSev a.tag == 1 && decide (param / 64 % 2 = 1))
  let clear := (a.tag &&& BitVec.ofNat 8 (param % 64)) == 0
  ⟨(a.tag &&& 0x39) ||| tIf test tTST, bWord (okVal && clear)⟩

/-- QSET (R125). -/
def qset (a : TWord) (param : Nat) (test : Bool) : TWord :=
  ⟨normTag ((a.tag &&& BitVec.ofNat 8 param) ||| BitVec.ofNat 8 (param / 256) ||| (a.tag &&& 0x29)) ||| tIf test tTST,
   a.val⟩

/-- QMERGE over the operands present, in the order A, B, C (R126). -/
def qmerge (xs : List (Nat × TWord)) (test : Bool) : TWord :=
  match xs with
  | [] => ⟨tIf test tTST, 0⟩
  | x :: t =>
    let best := t.foldl (fun acc y => if tagSev y.2.tag < tagSev acc.2.tag then y else acc) x
    let orAll := xs.foldl (fun acc y => acc ||| (y.2.tag &&& 0x29)) (0 : Byte)
    let own := withVal (best.2.tag &&& 0x14) (tagSev best.2.tag)
    ⟨own ||| orAll ||| tIf (best.1 != 0) tSUB ||| tIf test tTST, best.2.val⟩

/-- Word read for an operand: absent reads 0x00_0000_0000 (R95); inversion changes bit 0 of a present one (R34, R97). -/
def readOperand (inv : Bool) (o : Option TWord) : TWord :=
  match o with
  | none => TWord.zero
  | some w => if inv then { w with val := w.val ^^^ 1 } else w

/-- Tags of the operands present. -/
def tagsOf (os : List (Option TWord)) : List Byte := os.filterMap (fun o => o.map (·.tag))

/-- The opcodes that keep state (R99). -/
def statefulOp (op : Nat) : Bool := (0x05 ≤ op && op ≤ 0x0E) || (0x26 ≤ op && op ≤ 0x29)

/-- A block other than NCALL: the word it writes and the slot state it leaves, from opcode, OTYPE, inversion flags,
PARAM, task period N, TEST, operands A, B, C, the two further operands of CTUD and MUX4, and slot state. RAMP leaves LIM clear on the NaN it
writes in a scan with a NaN in A or B, which makes no update (R130; DESIGN CHOICE, log entry 127). -/
def evalBlock (op typ inv param n : Nat) (test : Bool) (oa ob oc od oe : Option TWord) (slot : W64) : TWord × W64 :=
  let a := readOperand (bitOf (BitVec.ofNat 3 inv) 2) oa
  let b := readOperand (bitOf (BitVec.ofNat 3 inv) 1) ob
  let c := readOperand (bitOf (BitVec.ofNat 3 inv) 0) oc
  let ba := a.val.getLsbD 0
  let bb := b.val.getLsbD 0
  let bc := c.val.getLsbD 0
  let opt := param / 2 ^ 18 % 16
  let t1 := tagsOf [oa]
  let t2 := tagsOf [oa, ob]
  let t3 := tagsOf [oa, ob, oc]
  let word := fun (ts : List Byte) (v : W32) (lim : Bool) (sev : Nat) => (⟨resTag test ts lim sev, v⟩ : TWord)
  let y32 := slot.truncate 32
  let init := slot.getLsbD 32
  let mkY := fun (y : W32) => y.zeroExtend 64 ||| (0x100000000 : W64)
  match op with
  | 0x01 => (word t3 (bWord (ba && bb && (if oc.isSome then bc else true))) false 0, slot)
  | 0x02 => (word t3 (bWord (ba || bb || bc)) false 0, slot)
  | 0x03 => (word t3 (bWord (xor (xor ba bb) bc)) false 0, slot)
  | 0x04 => (word t1 (bWord (!ba)) false 0, slot)
  | 0x05 => let q := ba || (slot.getLsbD 0 && !bb); (word t2 (bWord q) false 0, (bWord q).zeroExtend 64)
  | 0x06 => let q := !bb && (ba || slot.getLsbD 0); (word t2 (bWord q) false 0, (bWord q).zeroExtend 64)
  | 0x07 => (word t1 (bWord (ba && !slot.getLsbD 0)) false 0, (bWord ba).zeroExtend 64)
  | 0x08 => (word t1 (bWord (slot.getLsbD 0 && !ba)) false 0, (bWord ba).zeroExtend 64)
  | 0x09 | 0x0A | 0x0B =>
    let pt := b.val.toNat * (if opt % 2 = 1 then 1000 else 1)
    let r := timerScan op ba (slot.getLsbD 48) (slot.getLsbD 49) (slot.toNat % 2 ^ 48) (n * 250) pt
    (word t2 (bWord r.2) false 0, BitVec.ofNat 64 (r.1 % 2 ^ 48 + b2n ba * 2 ^ 48 + b2n r.2 * 2 ^ 49))
  | 0x0C | 0x0D | 0x0E =>
    let pv := if op = 0x0E then (readOperand false od).val.toInt else c.val.toInt
    let cv := counterScan op ba bb bc (slot.getLsbD 32) (slot.getLsbD 33) y32.toInt pv
    let pu := if op = 0x0D then false else ba
    let pd := if op = 0x0C then false else if op = 0x0D then ba else bb
    let v : W32 :=
      match op with
      | 0x0C => if opt % 2 = 1 then bWord (decide (cv ≥ pv)) else BitVec.ofInt 32 cv
      | 0x0D => if opt % 2 = 1 then bWord (decide (cv ≤ 0)) else BitVec.ofInt 32 cv
      | _ => if opt % 4 = 1 then bWord (decide (cv ≥ pv)) else if opt % 4 = 2 then bWord (decide (cv ≤ 0)) else BitVec.ofInt 32 cv
    (word (if op = 0x0E then tagsOf [oa, ob, oc, od] else t3) v (cv == cvMax || cv == cvMin) 0,
     BitVec.ofNat 64 ((BitVec.ofInt 32 cv).toNat + b2n pu * 2 ^ 32 + b2n pd * 2 ^ 33))
  | 0x0F | 0x10 | 0x11 | 0x12 | 0x13 | 0x14 =>
    let r := compareBlk op typ param a.val b.val
    (word t2 (bWord r.1) false r.2, slot)
  | 0x15 | 0x16 | 0x17 | 0x18 | 0x19 | 0x1A | 0x1B | 0x1C | 0x1D | 0x1E =>
    let r := if typ = tyF32 then arithF32 op a.val b.val c.val oc.isSome
             else arithInt op typ param a.val b.val c.val oc.isSome
    let ts := if op = 0x19 ∨ op = 0x1A then t1 else if op = 0x16 ∨ op = 0x17 ∨ op = 0x18 then t2 else t3
    (word ts r.1 r.2.1 r.2.2, slot)
  | 0x1F =>
    let o := if ba then oc else ob
    let w := if ba then c else b
    (word (tagsOf [oa, o]) w.val (bitOf w.tag 1) 0, slot)
  | 0x20 =>
    let k := a.val.toNat
    let o := if k = 0 then ob else if k = 1 then oc else if k = 2 then od else oe
    let w := if k = 0 then b else if k = 1 then c else if k = 2 then readOperand false od else readOperand false oe
    (word (tagsOf [oa, o]) w.val (bitOf w.tag 1 || decide (k ≥ 4)) (if k ≥ 4 then 1 else 0), slot)
  | 0x21 => let r := itof typ param a.val; (word t1 r.1 r.2.1 r.2.2, slot)
  | 0x22 => let r := ftoi typ param a.val; (word t1 r.1 r.2.1 r.2.2, slot)
  | 0x23 => (qgood a param test, slot)
  | 0x24 => (qset a param test, slot)
  | 0x25 =>
    (qmerge ((if oa.isSome then [(0, a)] else []) ++ (if ob.isSome then [(1, b)] else []) ++
      (if oc.isSome then [(2, c)] else [])) test, slot)
  | 0x26 =>
    let x := if typ = tyB then bWord ba else a.val
    if deadbandTakes typ x y32 b.val init then
      let v := if typ = tyF32 && isNan32 x then nan32 else x
      (word t2 v (typ == tyF32 && f32Lim v) (if typ = tyF32 then f32Sev v else 0), mkY x)
    else (word t2 y32 (typ == tyF32 && f32Lim y32) (if typ = tyF32 then f32Sev y32 else 0), slot)
  | 0x27 =>
    if isNan32 a.val || isNan32 b.val then (word t3 nan32 false 2, slot)
    else
      let y := if !init || bc then a.val else rampStep n a.val b.val y32
      (word t3 y (y != a.val || f32Lim y) (f32Sev y), mkY y)
  | 0x28 =>
    if isNan32 a.val || isNan32 b.val then (word t2 nan32 false 2, slot)
    else
      let y := if !init then a.val else lagStep n a.val b.val y32
      (word t2 y (f32Lim y) (f32Sev y), mkY y)
  | 0x29 =>
    let nan := typ == tyF32 && (isNan32 a.val || isNan32 b.val || isNan32 c.val)
    let q := if nan then slot.getLsbD 0
             else if gtTyped typ a.val b.val then true
             else if gtTyped typ c.val a.val then false
             else slot.getLsbD 0
    (word t3 (bWord q) false (if nan then 2 else 0), (bWord q).zeroExtend 64)
  | 0x2A => (⟨a.tag ||| tIf test tTST, a.val⟩, slot)
  | 0x2B => (⟨normTag b.tag ||| (a.tag &&& 0x29) ||| tIf test tTST, a.val⟩, slot)
  | _ => (TWord.zero, slot)

/-- The tag an NCALL result takes from the returned tag and the operands' tags (R134). -/
def ncallTag (test : Bool) (ret : Byte) (ts : List Byte) : Byte :=
  resTag test (normTag ret :: ts) (bitOf ret 1) 0

/-- Fields of a block descriptor (R90, R91). -/
def dOpcode (w : W128) : Nat := field w.toNat 127 120
def dRetain (w : W128) : Bool := w.getLsbD 119
def dRstart (w : W128) : Bool := w.getLsbD 118
def dInv (w : W128) : Nat := field w.toNat 117 115
def dType (w : W128) : Nat := field w.toNat 114 112
def dOut (w : W128) : Nat := field w.toNat 111 94
def dA (w : W128) : Nat := field w.toNat 93 76
def dB (w : W128) : Nat := field w.toNat 75 58
def dC (w : W128) : Nat := field w.toNat 57 40
def dParam (w : W128) : Nat := field w.toNat 39 0
def dSlot (w : W128) : Nat := field w.toNat 39 22

/-- Null descriptors (R93). -/
def dNull (w : W128) : Bool :=
  dOpcode w == 0 || decide (dOpcode w > 0x2C) || decide (dType w > 4) || w.getLsbD 111

end Sys2Proof.Machine
end

