-- ==== Sys2Proof/Machine/Hash.lean ====
section
/-!
DEFINITION. The checks and digests the manual names: CRC-32C, CRC-64/XZ, SHA-256 and HMAC-SHA-256.
-/

namespace Sys2Proof.Machine

/-- One bit step of a reflected CRC. -/
def crcBit (poly c : Nat) : Nat := if c % 2 = 1 then (c / 2) ^^^ poly else c / 2

/-- One byte step of a reflected CRC. -/
def crcByte (poly c : Nat) (b : Byte) : Nat := (List.range 8).foldl (fun c _ => crcBit poly c) (c ^^^ b.toNat)

/-- CRC-32C (R193, R233). -/
def crc32c (b : Bytes) : W32 := BitVec.ofNat 32 ((b.foldl (crcByte 0x82F63B78) 0xFFFFFFFF) ^^^ 0xFFFFFFFF)

/-- CRC-64/XZ (R62). -/
def crc64 (b : Bytes) : W64 :=
  BitVec.ofNat 64 ((b.foldl (crcByte 0xC96C5795D7870F42) 0xFFFFFFFFFFFFFFFF) ^^^ 0xFFFFFFFFFFFFFFFF)

/-- The largest number of at most 37 bits whose `k`-th power does not exceed `n`, found bit by bit from the top. -/
def wholeRoot (k n : Nat) : Nat :=
  (List.range 37).foldl (fun r i => let t := r + 2 ^ (36 - i); if t ^ k ≤ n then t else r) 0

/-- The 64 primes below 312. -/
def shaPrimes : List Nat :=
  (List.range 312).filter (fun n => 2 ≤ n && [2, 3, 5, 7, 11, 13, 17].all (fun d => n % d != 0 || n == d))

/-- The first 32 binary digits after the point of the `k`-th root of `p`: SHA-256 draws its constants so from the primes. -/
def rootFraction (k p : Nat) : W32 := BitVec.ofNat 32 (wholeRoot k (p * 2 ^ (32 * k)))

/-- Word `i` of a value of 32-bit words, word 0 being the most significant. -/
def nthWord {n : Nat} (v : BitVec n) (i : Nat) : W32 := v.extractLsb' (n - 32 * (i + 1)) 32

/-- The value a SHA-256 starts from: square roots of the first eight primes. -/
def shaStart : BitVec 256 :=
  (shaPrimes.take 8).foldl (fun v p => v <<< 32 ||| (rootFraction 2 p).setWidth 256) 0

/-- `x` turned right by `i` and by `j`, with `z` added without carry: the one shape of all four mixings. -/
def turnMix (x : W32) (i j : Nat) (z : W32) : W32 := x.rotateRight i ^^^ x.rotateRight j ^^^ z

/-- A round with constant `k` and message word `w`: every word moves down by one place, the fifth taking the sum in,
and a new first word stands above them. -/
def shaTurn (v : BitVec 256) (k w : W32) : BitVec 256 :=
  let x := nthWord v 4
  let top := nthWord v 0
  let pick := nthWord v 6 ^^^ (x &&& (nthWord v 5 ^^^ nthWord v 6))
  let vote := (top &&& (nthWord v 1 ||| nthWord v 2)) ||| (nthWord v 1 &&& nthWord v 2)
  let sum := k + w + pick + turnMix x 6 11 (x.rotateRight 25) + nthWord v 7
  (sum + vote + turnMix top 2 13 (top.rotateRight 22)) ++ v.extractLsb' 160 96 ++ (sum + nthWord v 3)
    ++ v.extractLsb' 32 96

/-- The window of the last 16 message words moved on by one. -/
def shaSlide (m : BitVec 512) : BitVec 512 :=
  let p := nthWord m 1
  let q := nthWord m 14
  let next := nthWord m 0 + nthWord m 9 + turnMix p 7 18 (p >>> 3) + turnMix q 17 19 (q >>> 10)
  m <<< 32 ||| next.setWidth 512

/-- The 64 rounds over one block of 64 bytes, a round for each prime, and the sum with the value before them. -/
def shaAbsorb (v : BitVec 256) (b : Bytes) : BitVec 256 :=
  let r := shaPrimes.foldl (fun (c : BitVec 256 × BitVec 512) p =>
    (shaTurn c.1 (rootFraction 3 p) (nthWord c.2 0), shaSlide c.2)) (v, BitVec.ofNat 512 (beNat b))
  (List.range 8).foldl (fun acc i => acc <<< 32 ||| (nthWord v i + nthWord r.1 i).setWidth 256) 0

/-- SHA-256 of a byte string: a bit 1, zeros and the length in bits fill its last block. -/
def sha256 (m : Bytes) : Bytes :=
  let blocks := (m.length + 8) / 64 + 1
  let p := padTo (64 * blocks - 8) (m ++ [0x80]) ++ beBytes 8 (8 * m.length)
  beBytes 32 ((List.range blocks).foldl (fun v i => shaAbsorb v (slice p (64 * i) 64)) shaStart).toNat

/-- HMAC-SHA-256. -/
def hmac (key m : Bytes) : Bytes :=
  let k := padTo 64 (if key.length > 64 then sha256 key else key)
  sha256 (k.map (· ^^^ 0x5c) ++ sha256 (k.map (· ^^^ 0x36) ++ m))

end Sys2Proof.Machine
end

