-- ==== Sys2Proof/Machine/Curd.lean ====
section
/-!
DEFINITION. The Curd block: coding of the samples of one source for the disturbance store (R346–R350).
-/

namespace Sys2Proof.Machine

/-- NS32 of an instant of TIME in 1/16 ns (R266). -/
def ns32Of (t : Nat) : W32 := BitVec.ofNat 32 (t / 16)

/-- Epoch mark of an instant of TIME (R266). -/
def epochOf (t : Nat) : W32 := BitVec.ofNat 32 (t / 16 / 2 ^ 32)

/-- The low `n` bits of a number, most significant first. -/
def bitsOf : Nat → Nat → List Bool
  | 0, _ => []
  | n + 1, v => (v / 2 ^ n % 2 == 1) :: bitsOf n v

/-- Bytes of a bit string, most significant bit of each byte first, zero-padded to whole bytes (R348). -/
def packBits : Nat → List Bool → Bytes
  | 0, _ => []
  | fuel + 1, bs =>
    if bs.isEmpty then []
    else BitVec.ofNat 8 ((bs.take 8 ++ List.replicate (8 - bs.length) false).foldl (fun a b => 2 * a + b2n b) 0)
      :: packBits fuel (bs.drop 8)

/-- The coded quantity of a sample: its value field shifted right arithmetically by k (R347). -/
def curdX (k : Nat) (w : TWord) : Int := w.val.toInt / (2 ^ k : Nat)

/-- Prediction of sample i of an order, with `x` reading earlier samples (R348). -/
def curdPred (order : Nat) (x : Nat → Int) (i : Nat) : Int :=
  match order with
  | 0 => 0
  | 1 => x (i - 1)
  | 2 => 2 * x (i - 1) - x (i - 2)
  | _ => 3 * x (i - 1) - 3 * x (i - 2) + x (i - 3)

/-- Mapping of a residual to an unsigned number (R348). -/
def zigzag (r : Int) : Nat := if 0 ≤ r then (2 * r).toNat else (-2 * r - 1).toNat

/-- Length in bits of the code of u with Rice parameter m (R348). -/
def riceLen (m u : Nat) : Nat := if u / 2 ^ m < 32 then u / 2 ^ m + 1 + m else 68

/-- Code of u with Rice parameter m (R348). -/
def riceCode (m u : Nat) : List Bool :=
  let q := u / 2 ^ m
  if q < 32 then List.replicate q false ++ [true] ++ bitsOf m u else List.replicate 32 false ++ bitsOf 36 u

/-- The Rice parameter that gives the fewest bits, the lowest on a tie (R350). -/
def bestM (us : List Nat) : Nat :=
  let cost := fun m => (us.map (riceLen m)).sum
  (List.range 32).foldl (fun best m => if cost m < cost best then m else best) 0

/-- The partitions of the mapped residuals, from their position `i`: samples 64p to 64p + 63 (R348). -/
def curdParts (order : Nat) (us : List Nat) (count : Nat) : List (List Nat) :=
  (List.range ((count + 63) / 64)).map (fun p =>
    let lo := max (64 * p) order
    let hi := min (64 * p + 64) count
    (us.drop (lo - order)).take (hi - lo))

/-- The value section of an order, as bits (R348). -/
def curdValues (order : Nat) (xs : List Int) : List Bool :=
  let x := fun i => xs.getD i 0
  let us := (List.range (xs.length - order)).map (fun j => zigzag (x (j + order) - curdPred order x (j + order)))
  let warm := (xs.take order).flatMap (fun (v : Int) => bitsOf 32 (v % ((2 ^ 32 : Nat) : Int)).toNat)
  warm ++ (curdParts order us xs.length).flatMap (fun part =>
    let m := bestM part
    bitsOf 5 m ++ part.flatMap (riceCode m))

/-- Bytes a bit string takes. -/
def bytesFor (bits : List Bool) : Nat := (bits.length + 7) / 8

/-- The order with the shortest value section, the lowest on a tie (R350). -/
def bestOrder (xs : List Int) : Nat :=
  let cost := fun o => bytesFor (curdValues o xs)
  (List.range (min 3 (xs.length - 1) + 1)).foldl (fun best o => if cost o < cost best then o else best) 0

/-- Runs of equal tags with their lengths (R349). -/
def tagRuns : List Byte → List (Byte × Nat)
  | [] => []
  | t :: r =>
    match tagRuns r with
    | (t', n) :: more => if t = t' ∧ n < 256 then (t, n + 1) :: more else (t, 1) :: (t', n) :: more
    | [] => [(t, 1)]

/-- ORDER that MODE shows: the order chosen, 0 where the values stand verbatim and no order is used (R346, R350; log entry 110). -/
def shownOrder (verbatim : Bool) (order : Nat) : Nat := if verbatim then 0 else order

/-- The Curd block of the samples of one source; `first` is the first sample's instant in 1/16 ns of TIME (R346–R350). -/
def curdBlock (isPoint : Bool) (source k rate period first : Nat) (samples : List TWord) : Bytes :=
  let k := if isPoint then 0 else k
  let xs := samples.map (curdX k)
  let order := bestOrder xs
  let bits := curdValues order xs
  let coded := packBits (bits.length / 8 + 1) bits
  let verb := xs.flatMap (fun (v : Int) => beBytes 4 (v % ((2 ^ 32 : Nat) : Int)).toNat)
  let useVerb := decide (verb.length < coded.length)
  let values := if useVerb then verb else coded
  let tags := samples.map (·.tag)
  let runs := (tagRuns tags).flatMap (fun r => [r.1, BitVec.ofNat 8 (r.2 - 1)])
  let useTags := decide (tags.length < runs.length)
  let tagSec := if useTags then tags else runs
  let mode := k + b2n useVerb * 16 + b2n useTags * 32 + shownOrder useVerb order * 64
  let body :=
    [0xC5, 0xD7, BitVec.ofNat 8 (b2n isPoint), BitVec.ofNat 8 source, BitVec.ofNat 8 mode, BitVec.ofNat 8 rate] ++
    beBytes 2 period ++ beBytes 2 samples.length ++ beBytes 2 values.length ++ beBytes 2 tagSec.length ++ [0, 0] ++
    beBytes 4 (epochOf first).toNat ++ beBytes 4 (ns32Of first).toNat ++ values ++ tagSec
  body ++ beBytes 4 (crc32c body).toNat

end Sys2Proof.Machine
end

