-- ==== Sys2Proof/Machine/State.lean ====
section
/-!
DEFINITION. The whole state of the block as plain data, its reset value, and the closed lists of faults and refusals.
-/

namespace Sys2Proof.Machine

/-- Reasons the block stops with a fault. -/
inductive Fault where
  /-- Raised by no meaning: the manual gives every step of the table an effect; kept so that the type is inhabited (safe). -/
  | none
deriving DecidableEq, Repr, Inhabited

/-- Reasons a command is turned away without a meaning. -/
inductive Refusal where
  /-- Raised by an arm of the dispatcher whose command has no meaning yet (safe). -/
  | notModelled (mnemonic : String)
deriving DecidableEq, Repr, Inhabited
/-- The state of one GB7240 module, with the queue of the commands that wait. -/
structure State where
  pending : List Instr
  out : List Out
  ident : Ident
  pins : Pins
  ctl : Ctl
  time : TimeSt
  img : Img
  cyc : CycSt
  n0 : CpSt
  n1 : CpSt
  mpu : Mpu
  dma : DmaSt
  evf : EvfSt
  can0 : CanSt
  can1 : CanSt
  bell : BellSt
  streams : List (Nat × StreamSt)
  chans : List (Nat × ChSt)
  loops : List (Nat × LoopSt)
  pair : PairSt
  net : NetSt
  dict : DictSt
  log : LogSt
  dist : DistSt
  field : FieldSt
  integ : IntegSt
  boot : BootSt
deriving DecidableEq, Repr, Inhabited

/-- State right after reset. -/
def State.reset : State where
  pending := []
  out := []
  ident := Ident.reset
  pins := Pins.reset
  ctl := Ctl.reset
  time := TimeSt.reset
  img := Img.reset
  cyc := CycSt.reset
  n0 := CpSt.reset
  n1 := CpSt.reset
  mpu := Mpu.reset
  dma := DmaSt.reset
  evf := EvfSt.reset
  can0 := CanSt.reset
  can1 := CanSt.reset
  bell := BellSt.reset
  streams := []
  chans := []
  loops := []
  pair := PairSt.reset
  net := NetSt.reset
  dict := DictSt.reset
  log := LogSt.reset
  dist := DistSt.reset
  field := FieldSt.reset
  integ := IntegSt.reset
  boot := BootSt.reset

end Sys2Proof.Machine
end

