-- ==== Sys2Proof/Machine/Update.lean ====
section
/-!
DEFINITION. One update for each part of the state: every meaning changes the state through these.
-/

namespace Sys2Proof.Machine

/-- Change of the part `pending`. -/
def State.modPending (s : State) (f : List Instr → List Instr) : State := { s with pending := f s.pending }

/-- Change of the part `out`. -/
def State.modOut (s : State) (f : List Out → List Out) : State := { s with out := f s.out }

/-- Change of the part `ident`. -/
def State.modIdent (s : State) (f : Ident → Ident) : State := { s with ident := f s.ident }

/-- Change of the part `pins`. -/
def State.modPins (s : State) (f : Pins → Pins) : State := { s with pins := f s.pins }

/-- Change of the part `ctl`. -/
def State.modCtl (s : State) (f : Ctl → Ctl) : State := { s with ctl := f s.ctl }

/-- Change of the part `time`. -/
def State.modTime (s : State) (f : TimeSt → TimeSt) : State := { s with time := f s.time }

/-- Change of the part `img`. -/
def State.modImg (s : State) (f : Img → Img) : State := { s with img := f s.img }

/-- Change of the part `cyc`. -/
def State.modCyc (s : State) (f : CycSt → CycSt) : State := { s with cyc := f s.cyc }

/-- Change of the part `n0`. -/
def State.modN0 (s : State) (f : CpSt → CpSt) : State := { s with n0 := f s.n0 }

/-- Change of the part `n1`. -/
def State.modN1 (s : State) (f : CpSt → CpSt) : State := { s with n1 := f s.n1 }

/-- Change of the part `mpu`. -/
def State.modMpu (s : State) (f : Mpu → Mpu) : State := { s with mpu := f s.mpu }

/-- Change of the part `dma`. -/
def State.modDma (s : State) (f : DmaSt → DmaSt) : State := { s with dma := f s.dma }

/-- Change of the part `evf`. -/
def State.modEvf (s : State) (f : EvfSt → EvfSt) : State := { s with evf := f s.evf }

/-- Change of the part `can0`. -/
def State.modCan0 (s : State) (f : CanSt → CanSt) : State := { s with can0 := f s.can0 }

/-- Change of the part `can1`. -/
def State.modCan1 (s : State) (f : CanSt → CanSt) : State := { s with can1 := f s.can1 }

/-- Change of the part `bell`. -/
def State.modBell (s : State) (f : BellSt → BellSt) : State := { s with bell := f s.bell }

/-- Change of the part `streams`. -/
def State.modStreams (s : State) (f : List (Nat × StreamSt) → List (Nat × StreamSt)) : State := { s with streams := f s.streams }

/-- Change of the part `chans`. -/
def State.modChans (s : State) (f : List (Nat × ChSt) → List (Nat × ChSt)) : State := { s with chans := f s.chans }

/-- Change of the part `loops`. -/
def State.modLoops (s : State) (f : List (Nat × LoopSt) → List (Nat × LoopSt)) : State := { s with loops := f s.loops }

/-- Change of the part `pair`. -/
def State.modPair (s : State) (f : PairSt → PairSt) : State := { s with pair := f s.pair }

/-- Change of the part `net`. -/
def State.modNet (s : State) (f : NetSt → NetSt) : State := { s with net := f s.net }

/-- Change of the part `dict`. -/
def State.modDict (s : State) (f : DictSt → DictSt) : State := { s with dict := f s.dict }

/-- Change of the part `log`. -/
def State.modLog (s : State) (f : LogSt → LogSt) : State := { s with log := f s.log }

/-- Change of the part `dist`. -/
def State.modDist (s : State) (f : DistSt → DistSt) : State := { s with dist := f s.dist }

/-- Change of the part `field`. -/
def State.modField (s : State) (f : FieldSt → FieldSt) : State := { s with field := f s.field }

/-- Change of the part `integ`. -/
def State.modInteg (s : State) (f : IntegSt → IntegSt) : State := { s with integ := f s.integ }

/-- Change of the part `boot`. -/
def State.modBoot (s : State) (f : BootSt → BootSt) : State := { s with boot := f s.boot }

end Sys2Proof.Machine
end

