-- ==== Sys2Proof/Machine/Wire.lean ====
section
/-!
DEFINITION. The bytes of the Miojo link: the layout of every message, of the payloads of TICK, SAMPLE and SIDEIN, and of the LOG items, every field most significant byte first (R193, R194, R196, R201, R255).
-/

namespace Sys2Proof.Machine

/-! ### Publications and frames -/

/-- COUNT of a publication (R233). -/
def pfCount (b : Bytes) : Nat := beNat (slice b 18 2)

/-- Length of the publication without padding. -/
def pfLen (b : Bytes) : Nat := 20 + 5 * pfCount b

/-- A VLAN tag as it stands in a frame: priority and VLAN ID. -/
def vlanBytes : Option (Nat × Nat) → Bytes
  | none => []
  | some (prio, vid) => [0x81, 0x00] ++ beBytes 2 (prio % 8 * 8192 + vid % 4096)

/-- Shortest frame without its FCS (IEEE 802.3). -/
def minFrame : Nat := 60

/-- HSR tag of a frame: EtherType, path identifier 0 with the LSDU size, sequence number (R225; size as IEC 62439-3 counts it,
PRESUMED, log entry 20). -/
def hsrTag (seq : W16) (lsdu : Nat) : Bytes := [0x89, 0x2F] ++ beBytes 2 (lsdu % 4096) ++ beBytes 2 seq.toNat

/-- Redundancy control trailer: sequence number, LAN identifier with the LSDU size, suffix (R228; IEC 62439-3, PRESUMED, log
entry 20). -/
def rctTrailer (seq : W16) (lan lsdu : Nat) : Bytes :=
  beBytes 2 seq.toNat ++ beBytes 2 (lan % 16 * 4096 + lsdu % 4096) ++ [0x88, 0xFB]

/-- A frame as it stands on a port, without its FCS: addresses, HSR tag, VLAN tag, EtherType, payload, padding to the Ethernet
minimum, redundancy control trailer (R225, R228, R233). -/
def Frame.wire (f : Frame) : Bytes :=
  let v := vlanBytes f.vlan
  let tags := 14 + v.length + (if f.hsr.isSome then 6 else 0) + (if f.rct.isSome then 6 else 0)
  let body := f.payload ++ List.replicate (minFrame - tags - f.payload.length) 0
  beBytes 6 f.dst.toNat ++ beBytes 6 f.src.toNat ++
    (match f.hsr with | some q => hsrTag q (body.length + 6) | none => []) ++ v ++ beBytes 2 f.etype.toNat ++ body ++
    (match f.rct with | some (q, lan) => rctTrailer q lan (body.length + 6) | none => [])

/-- A received publication from destination MAC to its CRC-32C (R193); an HSR tag has come off at the ring port (log entry
103). -/
def Frame.supplyBytes (f : Frame) : Bytes :=
  beBytes 6 f.dst.toNat ++ beBytes 6 f.src.toNat ++ vlanBytes f.vlan ++ beBytes 2 f.etype.toNat ++
    f.payload.take (pfLen f.payload + 4)

/-! ### Payloads -/

/-- A flag at a bit of a byte. -/
def flagBit (b : Bool) (i : Nat) : Byte := BitVec.ofNat 8 (b2n b * 2 ^ i)

/-- A number in one byte. -/
def oneByte (n : Nat) : Byte := BitVec.ofNat 8 n

/-- HELLO payload (R193). -/
def Hello.wire (h : Hello) : Bytes :=
  beBytes 2 h.pairNo ++ beBytes 2 h.addr.toNat ++ beBytes 6 h.mac.toNat ++ [oneByte h.mode, 0] ++
    beBytes 4 h.pairClass.toNat ++ padTo 32 h.digest

/-- The Inputs field: number of words, then point number and word of each (R201). -/
def inputsWire (xs : List (Nat × TWord)) : Bytes :=
  beBytes 2 xs.length ++ xs.flatMap (fun x => beBytes 3 x.1 ++ TWord.bytes x.2)

/-- The bitmap of held slots: slot 0 in bit 7 of the first byte (R201). -/
def bitmapWire (slots : List Nat) : Bytes :=
  (List.range 512).map (fun i =>
    slots.foldl (fun b n => if n / 8 = i then b ||| flagBit true (7 - n % 8) else b) (0 : Byte))

/-- TICK payload (R201); the held frames stand in slot order. -/
def TickMsg.wire (t : TickMsg) : Bytes :=
  beBytes 8 t.tick.toNat ++ [t.due.zeroExtend 8 ||| flagBit t.prevReleased 4, 0] ++ beBytes 2 t.held.length ++
    bitmapWire (t.held.map (·.1)) ++ t.held.flatMap (fun x => beBytes 4 x.2.toNat) ++ inputsWire t.inputs

/-- SAMPLE payload (R194). -/
def SampleMsg.wire (m : SampleMsg) : Bytes :=
  [oneByte m.stream, flagBit m.holds 0 ||| flagBit m.sync 1] ++ beBytes 2 m.smpCnt ++ beBytes 8 m.inst.toNat ++
    beBytes 8 (if m.holds then m.arrival.toNat else 0) ++ beBytes 4 (if m.holds then m.crc.toNat else 0)

/-- One SIDEIN item (R194). -/
def SideItem.wire (x : SideItem) : Bytes :=
  [oneByte x.kind, oneByte x.source] ++ beBytes 2 x.target ++ beBytes 4 x.value.toNat ++ beBytes 8 x.stamp.toNat

/-- ANNOUNCE payload (R255). -/
def Announce.wire (a : Announce) : Bytes :=
  beBytes 8 a.tick.toNat ++ [flagBit a.step 0 ||| flagBit a.change 1, oneByte a.state.code] ++
    (leInt 8 (if a.step then a.offset else 0)).reverse ++ (leInt 2 a.utc).reverse ++ [a.leap, 0, 0, 0]

/-- A dictionary write request as FORWARD and WRITE carry it: the session's role, the request identifier, then the body of
the dictionary's WRITE with the joined value (R193, R290; log entry 103). -/
def PairReq.wire (r : PairReq) : Bytes :=
  [oneByte r.role] ++ beBytes 8 r.reqid.toNat ++ beBytes 2 r.index ++ [oneByte r.sub, oneByte r.typ, 0, 0, 0, 0] ++
    beBytes 4 0 ++ beBytes 2 r.data.length ++ r.data

/-- What a sequenced WRITE carries, a kind byte first (log entry 103). -/
def SeqBody.wire : SeqBody → Bytes
  | .request r => 0 :: r.wire
  | .activate t => 1 :: beBytes 8 t.toNat
  | .refuseChange d => [2, flagBit d 0]
  | .recordStart n t src => 3 :: (beBytes 4 n.toNat ++ beBytes 8 t.toNat ++ beBytes 2 src.toNat)

/-- WRITE payload (R193). -/
def WriteMsg.wire (w : WriteMsg) : Bytes :=
  beBytes 4 w.wsn.toNat ++ beBytes 8 w.target.toNat ++ [flagBit w.originB 0] ++ beBytes 4 w.fwd.toNat ++ w.body.wire

/-- Type code of a LOG item (R196). -/
def LogItem.code : LogItem → Nat
  | .landed .. | .landedGoose .. => 1 | .owned _ => 2 | .command _ => 3 | .skipped => 4 | .sampleSet .. => 5
  | .side _ => 6 | .announce _ => 7

/-- Data of a LOG item (R196). -/
def LogItem.data : LogItem → Bytes
  | .landed n g f => beBytes 2 n ++ [flagBit g 0] ++ f.supplyBytes
  | .landedGoose n g f => beBytes 2 n ++ [flagBit g 0] ++ f.bytes
  | .owned xs => inputsWire xs
  | .command w => w.wire
  | .skipped => []
  | .sampleSet m f => m.wire ++ (match f with | some f => f.bytes | none => [])
  | .side x => x.wire
  | .announce a => a.wire

/-- A LOG item: type code, length and data (R196). -/
def LogItem.wire (x : LogItem) : Bytes := [oneByte x.code] ++ beBytes 3 x.data.length ++ x.data

/-- Bytes of a LOG item in its message. -/
def LogItem.size (x : LogItem) : Nat := x.wire.length

/-- The payload of a message (R193, R194, R195, R196). -/
def MjMsg.payload : MjMsg → Bytes
  | .hello h => h.wire
  | .keep => []
  | .delay response raw turn => [flagBit response 0] ++ beBytes 8 raw.toNat ++ beBytes 4 turn.toNat
  | .tick t => t.wire
  | .supply n f => beBytes 2 n ++ f.supplyBytes
  | .supplyGoose n g => beBytes 2 n ++ g.bytes
  | .sample m => m.wire
  | .svsupply n f => oneByte n :: f.bytes
  | .sidein xs => [oneByte xs.length, 0, 0, 0] ++ xs.flatMap SideItem.wire
  | .output t d e => beBytes 8 t.toNat ++ beBytes 8 d.toNat ++ beBytes 8 e.toNat
  | .forward n r => beBytes 4 n.toNat ++ r.wire
  | .write w => w.wire
  | .wack n => beBytes 4 n.toNat
  | .refuse n code => beBytes 4 n.toNat ++ beBytes 2 code.toNat
  | .handover t => beBytes 8 t.toNat
  | .announce a => a.wire
  | .check t outcome d => beBytes 8 t.toNat ++ beBytes 2 outcome ++ padTo 32 d
  | .silent r => [oneByte r]
  | .state region off d => [oneByte region] ++ beBytes 8 off ++ d
  | .stateack n => beBytes 4 n.toNat
  | .log t xs => beBytes 8 t.toNat ++ xs.flatMap LogItem.wire
  | .catchMsg ph snap r => [oneByte ph] ++ beBytes 8 snap.toNat ++ (match r with | some r => [oneByte r] | none => [])

/-! ### Messages -/

/-- FLAGS of a message (R193). -/
def MjHdr.flags (h : MjHdr) : Byte :=
  flagBit h.sideB 7 ||| flagBit h.own 6 ||| flagBit h.alive 5 ||| flagBit h.silent 4 ||| flagBit h.catchup 3

/-- A message as it stands on a lane: TYPE, FLAGS, LEN, SEQ, payload and CRC-32C (R193). -/
def mjWire (h : MjHdr) (m : MjMsg) : Bytes :=
  let b := [oneByte m.type, h.flags] ++ beBytes 2 m.payload.length ++ beBytes 4 h.seq.toNat ++ m.payload
  b ++ beBytes 4 (crc32c b).toNat

end Sys2Proof.Machine
end

