-- ==== Sys2Proof/Machine/Ops.lean ====
section
/-!
DEFINITION. The operations over the state that every family shares: time and stamps, settings, interrupt edges and event pulses, the event log, the recorder's ring, points with their forces, mode changes and entry to SILENT.
-/

namespace Sys2Proof.Machine

/-! ### Time -/

/-- RAW units of n nanoseconds, microseconds, milliseconds and seconds (R245). -/
def rNs (n : Nat) : Nat := 16 * n
def rUs (n : Nat) : Nat := 16000 * n
def rMs (n : Nat) : Nat := 16000000 * n
def rSec (n : Nat) : Nat := 16000000000 * n

/-- RAW elapsed since a stamp, modulo 2⁶⁴ (R245). -/
def elapsed (s : State) (t : W64) : Nat := (s.time.raw - t).toNat

/-- At least `d` of RAW has passed since a stamp that was made. -/
def past (s : State) (t : Option W64) (d : Nat) : Bool :=
  match t with
  | none => false
  | some t => decide (d ≤ elapsed s t)

/-- Less than `d` of RAW has passed since a stamp that was made. -/
def within (s : State) (t : Option W64) (d : Nat) : Bool :=
  match t with
  | none => false
  | some t => decide (elapsed s t < d)

/-- TIME at a RAW value (R247). -/
def timeAt (t : TimeSt) (r : W64) : Nat :=
  let d : Int := (r - t.anchor).toNat
  (((t.base.toNat : Int) + d + (d * t.rate.toInt) / ((2 ^ 40 : Nat) : Int)) % ((2 ^ 80 : Nat) : Int)).toNat

/-- An instant as a time-to-digital converter holds it: to 1/4 ns, the two low bits of its RAW value zero (R246). -/
def quarter (r : W64) : W64 := r &&& ~~~ 3

/-- An interpolated stamp of something that happened at an AON tick `r`: a converter's value where it lies within one AON tick
of it, else the tick itself (R246). -/
def stampNear (r at_ : W64) : W64 := if (at_ - r).toNat < 640 ∨ (r - at_).toNat < 640 then quarter at_ else r

/-- An interpolated stamp of what happens now (R246). -/
def stampAt (s : State) (at_ : W64) : W64 := stampNear s.time.raw at_

/-- TIME at an interpolated stamp; one that lies just before ANCHOR, where the last rate write or step anchored TIME, counts back
from TIME there (R247, R256; log entry 105). -/
def stampTime (s : State) (r : W64) : Nat :=
  if (r - s.time.anchor).toNat < 2 ^ 63 then timeAt s.time r
  else timeAt s.time s.time.anchor - (s.time.anchor - r).toNat

/-- TIME now. -/
def timeNow (s : State) : Nat := timeAt s.time s.time.raw

/-- The instant of TIME that a stamp of TIME[63:0] stands for: of those with its low 64 bits the one nearest to an instant about which
it was made (R194, R247). -/
def nearTime (about : Nat) (x : W64) : Nat :=
  let b := about / 2 ^ 64 * 2 ^ 64 + x.toNat
  if about + 2 ^ 63 < b ∧ 2 ^ 64 ≤ b then b - 2 ^ 64 else if b + 2 ^ 63 < about then b + 2 ^ 64 else b

/-- Time quality of a full stamp (R268). -/
def timeQual (t : TimeState) : Nat :=
  match t with
  | .locked | .holdover => 0
  | .slewing | .freerun => 1
  | .unset => 2

/-- The full stamp of an instant of TIME (R268). -/
def fullStamp (own : TimeState) (t : Nat) : Bytes :=
  beBytes 8 (t / 16000000000) ++ beBytes 4 (t / 16 % 1000000000 + timeQual own * 2 ^ 30)

/-- The full stamp of now. -/
def stampNow (s : State) : Bytes := fullStamp s.time.own (timeNow s)

/-! ### The package and settings -/

/-- The running package's contents. -/
def pkgOf (s : State) : Option Package := s.boot.running.map (·.pkg)

/-- A value of the running package, or what a module without a package has. -/
def pkgD {α : Type} (s : State) (d : α) (f : Package → α) : α := ((pkgOf s).map f).getD d

/-- Key of an entry in the settings. -/
def entryKey (index sub : Nat) : Nat := index * 256 + sub

/-- A kept value of an RW or PAIR entry, or its default (R277, R278). -/
def setting (s : State) (index sub dflt : Nat) : Nat := mgetD s.dict.settings (entryKey index sub) dflt

/-- A kept value written. -/
def putSetting (s : State) (index sub v : Nat) : State :=
  s.modDict (fun d => { d with settings := mset d.settings (entryKey index sub) v })

/-- Field section of this side (R521). -/
def fieldCfg (s : State) : FieldCfg :=
  pkgD s ⟨[], [], [], none⟩ (fun p => if s.pins.sideB then p.fieldB else p.fieldA)

/-- This module's herd address 2k + s (R16). -/
def herdAddr (s : State) : W16 := pkgD s 0 (fun p => BitVec.ofNat 16 (2 * p.pairNo + b2n s.pins.sideB))

/-- Recorder package values. -/
def recCfgOf (s : State) : RecCfg := pkgD s ⟨[], [], [], []⟩ (·.recCfg)

/-- One thing sent, after everything sent before it. -/
def send (s : State) (o : Out) : State := s.modOut (· ++ [o])

/-! ### Interrupt edges and event pulses -/

/-- The level sources (table "Interrupt sources"). -/
def levelSources : List Nat := [0, 32, 48, 49, 51, 52, 53, 54, 56, 57, 64, 65, 66, 67, 68, 69, 70, 71, 96, 112]

/-- The reserved sources (table "Interrupt sources"). -/
def reservedSrc (n : Nat) : Bool :=
  n == 14 || n == 15 || (22 ≤ n && n ≤ 31) || (40 ≤ n && n ≤ 47) || (58 ≤ n && n ≤ 63) || (72 ≤ n && n ≤ 79) ||
    (84 ≤ n && n ≤ 95) || (99 ≤ n && n ≤ 111) || (115 ≤ n && n ≤ 119) || decide (127 < n)

/-- An edge of a source in one context: its pending bit sets; a reserved or level source latches nothing (R409, R410). -/
def Intc.edge (i : Intc) (src : Nat) : Intc :=
  if reservedSrc src || levelSources.contains src then i else { i with pend := setBit i.pend src true }

/-- An edge reaches both contexts (R409). -/
def raiseIrq (s : State) (src : Nat) : State :=
  (s.modN0 (fun n => { n with intc := n.intc.edge src })).modN1 (fun n => { n with intc := n.intc.edge src })

/-- The sequencer entries of this side (R373). -/
def seqCfg (s : State) (e : Nat) : SeqCfg := (fieldCfg s).seq.getD e ⟨0, 0, false, false, 0, 0⟩

/-- A hold made for a conversion: the converter takes it in its turn (R373). -/
def addHold (s : State) (e : Option Nat) (input : Nat) (r : W64) : State :=
  s.modField (fun f => { f with holds := f.holds ++ [⟨e, input, r⟩], awake := true })

/-- RAW of a hold requested now: 2 µs of start-up come first when the converter is powered down (R376). -/
def holdNow (s : State) : W64 := if s.field.awake then s.time.raw else s.time.raw + BitVec.ofNat 64 (rUs 2)

/-- A pulse reaches one target: it becomes pending there, or is lost and counted (R431). -/
def EvfSt.deliver (e : EvfSt) (t : Nat) (v : W32) : EvfSt :=
  if (mget e.pend t).isSome then { e with lost := e.lost.inc, lostMap := setBit e.lostMap t true }
  else { e with pend := mset e.pend t v }

/-- A sequencer target with a pending event makes its entry hold when it can, and consumes the event when that hold begins: at once, or
after the start-up of a converter that was powered down (R373, R376, R431). -/
def seqConsume (s : State) (t : Nat) : State :=
  let e := t - 16
  if t < 16 ∨ (seqCfg s e).trigger ≠ 5 then s
  else if (mget s.evf.pend t).isSome && !(s.field.holds.any (fun h => h.entry == some e)) then
    let r := holdNow s
    let s := addHold s (some e) (seqCfg s e).input r
    if r = s.time.raw then s.modEvf (fun v => { v with pend := mdel v.pend t }) else s
  else s

/-- The holds of trigger 5 that begin at this instant consume their targets' events (R431). -/
def holdsBegin (s : State) : State :=
  let now := s.field.holds.filter (fun h => h.hold == s.time.raw)
  now.foldl (fun s h =>
    match h.entry with
    | some e => if (seqCfg s e).trigger = 5 then s.modEvf (fun v => { v with pend := mdel v.pend (16 + e) }) else s
    | none => s) s

/-- A pulse of a producer with the NS32 it carries reaches every target routed to it (R430, R431). -/
def pulse (s : State) (producer : Nat) (v : W32) : State :=
  if 54 ≤ producer then s
  else
    (List.range 32).foldl (fun s t =>
      let r := s.evf.routes.getD t Route.reset
      if r.enable && r.src.toNat == producer then seqConsume (s.modEvf (fun e => e.deliver t v)) t else s) s

/-- A pulse at this instant. -/
def pulseNow (s : State) (producer : Nat) : State := pulse s producer (ns32Of (timeNow s))

/-! ### The event log -/

/-- Record type codes (table "Event record types"). -/
def ltReset : Nat := 0x0001
def ltMode : Nat := 0x0002
def ltLife : Nat := 0x0003
def ltForce : Nat := 0x0010
def ltChange : Nat := 0x0011
def ltDropped : Nat := 0x0012
def ltPair : Nat := 0x0020
def ltTime : Nat := 0x0030
def ltInteg : Nat := 0x0040
def ltNet : Nat := 0x0050
def ltCan : Nat := 0x0060
def ltField : Nat := 0x0070
def ltDist : Nat := 0x0080
def ltOverflow : Nat := 0x0081
def ltSec : Nat := 0x0090

/-- Severity of a record type (table "Event record types"). -/
def logSeverity (typ : Nat) : Nat :=
  if typ = ltInteg then 2
  else if typ = 0 ∨ typ = ltReset ∨ typ = ltMode ∨ typ = ltTime ∨ typ = ltDist then 0
  else 1

/-- A record with the values it takes when it is made (R330). -/
def mkLog (s : State) (typ sev : Nat) (body : Bytes) (app : Option Cp) : LogReq :=
  { typ := typ, sev := sev, power := s.log.power, seconds := s.log.seconds, stamp := stampNow s,
    tick := if s.ctl.mode.run then s.cyc.tick else 0xFFFFFFFFFFFFFFFF, body := body, app := app,
    sideB := s.pins.sideB }

/-- A record enters the queue of 256, or is lost and counted (R333). -/
def queueLog (s : State) (r : LogReq) : State :=
  if 256 ≤ s.log.queue.length then
    s.modLog (fun l => { l with lost := l.lost.inc, lostSince := l.lostSince + 1 })
  else s.modLog (fun l => { l with queue := l.queue ++ [r] })

/-- An event of the table "Event record types" is logged (R335). -/
def logEvent (s : State) (typ : Nat) (body : Bytes) : State := queueLog s (mkLog s typ (logSeverity typ) body none)

/-- Bytes of the log ring (R331). -/
def logRing : Nat := 2097152

/-- Length of a record with a body: a multiple of 64 (R330). -/
def logLen (body : Bytes) : Nat := (44 + body.length + 63) / 64 * 64

/-- Bytes of a record as it stands in the ring (R330). -/
def logBytes (r : LogRec) : Bytes :=
  let head :=
    beBytes 2 r.len ++ beBytes 4 r.number.toNat ++ beBytes 4 r.req.power.toNat ++ beBytes 4 r.req.seconds.toNat ++
    beBytes 2 r.req.typ ++ [BitVec.ofNat 8 r.req.sev, BitVec.ofNat 8 (b2n r.req.sideB)] ++ padTo 12 r.req.stamp ++
    beBytes 8 r.req.tick.toNat ++ padTo (r.len - 44) r.req.body
  let b := (if r.mark then [0x5A, 0x17] else [0, 0]) ++ head ++ beBytes 4 (crc32c head).toNat
  match r.hurt with
  | none => b
  | some (i, v) => lupd b i (· + v)

/-- A record placed in the ring at the next position: older records it overlaps are overwritten (R331). -/
def LogSt.place (l : LogSt) (len : Nat) (r : LogReq) : LogSt :=
  let p := l.writePos
  { l with
    recs := l.recs.filter (fun x => decide (x.pos + x.len ≤ p ∨ p + len ≤ x.pos)) ++ [⟨p, len, l.next, true, none, r⟩],
    next := l.next + 1,
    writePos := if p + len = logRing then 0 else p + len,
    sincePtr := l.sincePtr + 1, sinceMirror := l.sinceMirror + 1 }

/-- The start pointer is stored in its older copy (R332). -/
def LogSt.storePtr (l : LogSt) : LogSt :=
  match l.recs.getLast? with
  | none => l
  | some x =>
    let v : Option StartPtr := some ⟨x.pos, x.number, true⟩
    if l.ptrTurn then { l with ptrB := v, ptrTurn := false, sincePtr := 0 }
    else { l with ptrA := v, ptrTurn := true, sincePtr := 0 }

/-- The writer puts a record in the ring, a pad record first where it does not fit (R331, R332). -/
def LogSt.write (l : LogSt) (r : LogReq) : LogSt :=
  let len := logLen r.body
  let space := logRing - l.writePos
  let l := if space < len then l.place space { r with typ := 0, sev := 0, body := [], app := none } else l
  let l := l.place len r
  if 64 ≤ l.sincePtr then l.storePtr else l

/-- A record is written to the ring, and every record written leaves on UART_TX as well, as one line of hexadecimal text of these
bytes (R331, R509). -/
def writeLog (s : State) (r : LogReq) : State :=
  let t := s.modLog (fun l => l.write r)
  let fresh := t.log.recs.filter (fun x => decide ((x.number - s.log.next).toNat < (t.log.next - s.log.next).toNat))
  fresh.foldl (fun t x => send t (.uart (logBytes x))) t

/-- Grid instant number g of a rate, counted from the epoch, in 1/16 ns rounded down (R140, log entry 25). -/
def gridAt (fs g : Nat) : Nat := g / fs * 16000000000 + g % fs * 16000000000 / fs

/-- Number of the latest grid instant not after an instant. -/
def gridIdx (fs t : Nat) : Nat := t / 16000000000 * fs + ((t % 16000000000 + 1) * fs - 1) / 16000000000

/-! ### The recorder's ring -/

/-- Bytes of the pre-trigger ring (R337). -/
def ringBytes : Nat := 2147483648

/-- Time from the first to the last of `n + 1` samples of a rate code, in 1/16 ns (R346). -/
def rateSpan (rate period n : Nat) : Nat :=
  match rate with
  | 0 => n * 10000000 / 3
  | 1 => n * 10000000 / 9
  | _ => n * period * 4000000

/-- Instant of a block's last sample. -/
def Curd.lastAt (c : Curd) : Nat := c.first + rateSpan c.rate c.period (c.count - 1)

/-- A block holds a sample inside a window (R342). -/
def Curd.meets (c : Curd) (start stop : Nat) : Bool := decide (c.first ≤ stop ∧ start ≤ c.lastAt)

/-- The oldest blocks are overwritten until the ring holds its blocks (R337). -/
def ringTrim : Nat → List Curd → List Curd
  | 0, r => r
  | n + 1, r => if ringBytes < (r.map (fun c => c.bytes.length)).sum then ringTrim n (r.drop 1) else r

/-- Order in which blocks that close at one tick are written: channels by number, then points by position (R337). -/
def Curd.key (c : Curd) : Nat := (if c.isPoint then 128 else 0) + c.source

/-- A closed block takes its place at the end of a list of blocks, before those that closed at the same tick and come after it in that
tick's order (R337). -/
def blockInsert (l : List Curd) (c : Curd) : List Curd :=
  let after := fun (x : Curd) => x.closedAt == c.closedAt && decide (c.key < x.key)
  l.filter (fun x => !after x) ++ [c] ++ l.filter after

/-- A closed block enters the ring, and every open record whose window it meets copies it; the instant up to which blocks have been
overwritten follows (R337, R342). -/
def DistSt.push (d : DistSt) (c : Curd) : DistSt :=
  let all := blockInsert d.ring c
  let kept := ringTrim (d.ring.length + 1) all
  { d with
    ring := kept, gone := ((all.take (all.length - kept.length)).map Curd.lastAt).foldl max d.gone,
    openRecs := d.openRecs.map (fun r => if c.meets r.start r.stop then { r with blocks := blockInsert r.blocks c } else r) }

/-- A block being filled is coded and closed (R338). -/
def closeAcc (s : State) (a : CurdAcc) : State :=
  if a.samples.isEmpty then s
  else
    let k := (recCfgOf s).exps.getD a.source 0
    let b := curdBlock a.isPoint a.source k a.rate a.period a.first a.samples
    s.modDist (fun d => d.push ⟨a.isPoint, a.source, a.first, a.rate, a.period, a.samples.length, b, s.time.raw⟩)

/-- Order of the blocks being filled, as `Curd.key`. -/
def accKey (a : CurdAcc) : Nat := (if a.isPoint then 128 else 0) + a.source

/-- Every block being filled closes (R338). -/
def closeAll (s : State) : State :=
  let accs := s.dist.accs
  (accs.foldl closeAcc s).modDist (fun d => { d with accs := [] })

/-- The accumulators kept in the order of the ring. -/
def insertAcc (l : List CurdAcc) (a : CurdAcc) : List CurdAcc :=
  match l with
  | [] => [a]
  | x :: t => if accKey a < accKey x then a :: x :: t else if accKey a = accKey x then a :: t else x :: insertAcc t a

/-- A sample of a source at an instant: it follows on, or closes the block before it, as it does where a step of TIME lies
between them, which `gen`, the STEPGEN at the sample, shows; the 256th closes it; while 0x1A10:01 is 0 nothing is recorded (R338, R354). -/
def recSample (s : State) (gen : Byte) (isPoint : Bool) (source rate period inst : Nat) (w : TWord) (follows : Bool) : State :=
  let key := (if isPoint then 128 else 0) + source
  let cur := s.dist.accs.find? (fun a => accKey a == key)
  let fresh : CurdAcc := ⟨gen, isPoint, source, inst, rate, period, [w]⟩
  if setting s 0x1A10 1 1 = 0 then s
  else match cur with
  | none => s.modDist (fun d => { d with accs := insertAcc d.accs fresh })
  | some a =>
    if !follows || a.gen != gen || a.rate != rate || a.period != period then
      (closeAcc s a).modDist (fun d => { d with accs := insertAcc d.accs fresh })
    else
      let a' := { a with samples := a.samples ++ [w] }
      if 256 ≤ a'.samples.length then
        (closeAcc s a').modDist (fun d => { d with accs := d.accs.filter (fun x => accKey x != key) })
      else s.modDist (fun d => { d with accs := insertAcc d.accs a' })

/-! ### Points and forces -/

/-- SOURCE codes of a point descriptor (table "Point descriptor"). -/
def srcUnused : Nat := 0
def srcBlock : Nat := 1
def srcSub : Nat := 2
def srcChannel : Nat := 3
def srcLoop : Nat := 4
def srcField : Nat := 5
def srcNative : Nat := 6
def srcDict : Nat := 7

/-- Descriptor of a point that the package does not use. -/
def PointDesc.unused : PointDesc := ⟨0, 0, 0, false, false, 0, 0, none⟩

/-- Descriptor of a point (R38). -/
def descOf (i : Img) (p : Nat) : PointDesc := mgetD i.descs p PointDesc.unused

/-- A point's word as the image holds it; an unused point reads 0x80_0000_0000 (R39). -/
def pointWord (i : Img) (p : Nat) : TWord :=
  if (descOf i p).source = srcUnused then TWord.unused else mgetD i.points p TWord.unused

/-- A constant's word (R37). -/
def constWord (i : Img) (k : Nat) : TWord := mgetD i.consts k TWord.zero

/-- The force on a point. -/
def forceOn (i : Img) (p : Nat) : Option Force := i.forces.find? (fun f => f.point == p)

/-- The forces with one entry set, in order of point number. -/
def forcePut : List Force → Force → List Force
  | [], f => [f]
  | x :: t, f => if f.point < x.point then f :: x :: t else if f.point = x.point then f :: t else x :: forcePut t f

/-- The producer's own word of a point: the shadow word while it is forced (R48). -/
def ownWord (i : Img) (p : Nat) : TWord :=
  match forceOn i p with
  | some f => f.shadow
  | none => pointWord i p

/-- A producer's word stored in a point: normalised for its type, and to the shadow while the point is forced
(R28, R30, R31, R48). -/
def Img.store (i : Img) (p : Nat) (w : TWord) : Img :=
  let w := normWord (descOf i p).typ w
  match forceOn i p with
  | some f => { i with forces := forcePut i.forces { f with shadow := w } }
  | none => { i with points := mset i.points p w }

/-- A discarded write is counted and raises source 114 (R37, R38). -/
def discardWrite (s : State) : State :=
  raiseIrq (s.modInteg (fun g => { g with discards := g.discards.inc })) 114

/-- A write by a producer of a kind: discarded and counted when it is not the point's own (R38, R39). -/
def produce (s : State) (kind p : Nat) (w : TWord) : State :=
  if (descOf s.img p).source = kind ∧ kind ≠ srcUnused then s.modImg (fun i => i.store p w) else discardWrite s

/-- The module is in TEST (R458). -/
def inTest (s : State) : Bool := s.ctl.mode == .test

/-- A tag with TST set only while the module is in TEST (R47). -/
def forcedTag (s : State) (t : Byte) : Byte := (t &&& ~~~ tTST) ||| tIf (inTest s) tTST

/-- The forced words take TST on entry to TEST and lose it on leaving; nothing else of a force changes (R47). -/
def retagForces (s : State) : State :=
  let w := fun (f : Force) => ({ f.forced with tag := forcedTag s f.forced.tag } : TWord)
  s.modImg (fun i => { i with
    forces := i.forces.map (fun f => { f with forced := w f }),
    points := i.forces.foldl (fun m f => mset m f.point (w f)) i.points })

/-- A force's word: value and VAL as requested, FRC set, TST only in TEST, then normalised (R47). -/
def forcedWord (s : State) (p val : Nat) (v : W32) : TWord :=
  normWord (descOf s.img p).typ ⟨withVal (tFRC ||| tIf (inTest s) tTST) val, v⟩

/-- Body of a force record (R49, table "Event record types"). -/
def forceLogBody (s : State) (isSet : Bool) (p : Nat) (w : TWord) : Bytes :=
  let task := (descOf s.img p).task
  [BitVec.ofNat 8 (b2n isSet)] ++ beBytes 3 p ++ [BitVec.ofNat 8 (w.tag.toNat / 64)] ++ beBytes 4 w.val.toNat ++
    beBytes 4 ((s.cyc.tasks.getD task TaskSt.reset).cycle.toNat)

/-- A force set at its boundary: the shadow takes the point's word, or stays when the point is forced (R47, R73). -/
def applyForce (s : State) (p val : Nat) (v : W32) : State :=
  let w := forcedWord s p val v
  let sh := ownWord s.img p
  let s := s.modImg (fun i => { i with forces := forcePut i.forces ⟨p, w, sh⟩, points := mset i.points p w })
  logEvent s ltForce (forceLogBody s true p w)

/-- A force released: the shadow word is stored in the point, and the release is logged (R28–R31, R48, R49). -/
def releaseForce (s : State) (p : Nat) : State :=
  match forceOn s.img p with
  | none => s
  | some f =>
    let s := s.modImg (fun i => Img.store { i with forces := i.forces.filter (fun x => x.point != p) } p f.shadow)
    logEvent s ltForce (forceLogBody s false p (pointWord s.img p))

/-- The forces end with what the restart or the life-cycle change put in their points: each is logged as released, in order
of point number (R50). -/
def clearForces (s : State) : State :=
  let ps := s.img.forces.map (·.point)
  ps.foldl (fun s p => logEvent s ltForce (forceLogBody s false p (pointWord s.img p))) (s.modImg (fun i => { i with forces := [] }))

/-- Every force is released, in order of point number (R48). -/
def releaseAll (s : State) : State := (s.img.forces.map (·.point)).foldl releaseForce s

/-! ### Field side in the modes that hold it off -/

/-- Function of a LOOP channel and whether it is paired, on this side (R381). -/
def loopIo (s : State) (n : Nat) : LoopIoCfg := (fieldCfg s).l.getD n ⟨0, false, none, none, none⟩

/-- Function of a D channel on this side (R381). -/
def dCfg (s : State) (n : Nat) : DCfg := (fieldCfg s).d.getD n ⟨0, false, none, none, none⟩

/-- Low alarm current in 0.5 µA (R357, R366). -/
def lowAlarm : Nat := 7000

/-- A D output commanded to 0 at RAW `r`: it is off, a trip clears, and a command that was 1 has changed (R361, R362). -/
def DChan.cleared (d : DChan) (r : W64) : DChan :=
  { d with command := false, on := false, tripped := false, changedAt := if d.command then some r else d.changedAt }

/-- The outputs at their SILENT values, which the logic side commands: D outputs off, unpaired current outputs at 3.5 mA, paired ones
below 0.1 mA (R357). -/
def fieldOff (s : State) : State :=
  s.modField (fun f => { f with
    ds := f.ds.map (·.cleared s.time.raw),
    ls := (f.ls.zipIdx).map (fun x =>
      let c := loopIo s x.2
      if c.func = 2 ∨ c.func = 3 then
        (if c.paired then { x.1 with commandUa := 0, sourceUa := 0, shareSt := .off }
         else { x.1 with commandUa := lowAlarm, sourceUa := lowAlarm })
      else x.1) })

/-- The outputs with the field side unpowered or just powered: D off, every current below 0.1 mA (R454 COLD). -/
def fieldDead (s : State) : State :=
  s.modField (fun f => { f with
    ds := f.ds.map (·.cleared s.time.raw),
    ls := f.ls.map (fun l => { l with commandUa := 0, sourceUa := 0, shareSt := .off }) })

/-! ### Modes -/

/-- The agreed state takes a value; source 17 when it changes (R250). -/
def setAgreed (s : State) (st : TimeState) : State :=
  if s.time.agreed = st then s else raiseIrq (s.modTime (fun t => { t with agreed := st })) 17

/-- Body of a TYPE 0x0002 record (table "Event record types"). -/
def modeBody (old new : Mode) (reason : Nat) : Bytes := [BitVec.ofNat 8 old.code, BitVec.ofNat 8 new.code] ++ beBytes 2 reason

/-- What a mode change does but for its record: counted, and raised as source 11; the recorder's ring starts empty on entry
to a run mode from outside them, and its blocks close on leaving them; forced words follow TEST, and outside the run modes the
agreed time state is the own one (R47, R250, R337, R338, R456; R337 says "on entry to a run mode", DEDUCED, log entry 136). -/
def moveMode (s : State) (m : Mode) (reason : Nat) : State :=
  let old := s.ctl.mode
  let s := if old.run && !m.run then closeAll s else s
  let s := if !old.run && m.run then s.modDist (fun d => { d with ring := [], accs := [], ringFrom := timeNow s, gone := 0, skips := [], lastWords := [] }) else s
  let s := s.modCtl (fun c => { c with
    mode := m, prevMode := old, reason := BitVec.ofNat 16 reason, modeSince := s.time.raw, changes := c.changes.inc })
  let s := if (old == .test) != (m == .test) then retagForces s else s
  raiseIrq (if m.run then s else setAgreed s s.time.own) 11

/-- A mode change, logged with its reason (R456). -/
def setMode (s : State) (m : Mode) (reason : Nat) : State :=
  logEvent (moveMode s m reason) ltMode (modeBody s.ctl.mode m reason)

/-- FLAGS of a Miojo message this side sends (R193); bit 5 stays clear while R459 holds ALIVE_OUT low after a stop. -/
def mjHdr (s : State) (lane : Bool) (seq : W32) : MjHdr :=
  { lane := lane, sideB := s.pins.sideB, own := s.pair.ownOut,
    alive := s.ctl.mode.aliveList && within s s.pair.permitAt (rMs 2) && s.ctl.stoppedAt.isNone,
    silent := s.ctl.mode == .silent, catchup := s.ctl.mode == .catchup, seq := seq }

/-- The lanes that are up (R198). -/
def lanesUp (s : State) : List Bool := (if s.pair.lane0 then [false] else []) ++ (if s.pair.lane1 then [true] else [])

/-- A Miojo message sent on given lanes under one SEQ, with its bytes (R193, R197). -/
def mjSendOn (s : State) (lanes : List Bool) (m : MjMsg) : State :=
  if lanes.isEmpty then s
  else
    let seq := s.pair.txSeq
    let s := s.modPair (fun p => { p with
      txSeq := p.txSeq + 1, sent0 := if lanes.contains false then s.time.raw else p.sent0,
      sent1 := if lanes.contains true then s.time.raw else p.sent1 })
    let h := mjHdr s (!lanes.contains false) seq
    send s (.miojo lanes h m (mjWire h m))

/-- The clocks of the Churn, the engines, the core pairs and the DMA engine run and the management cores are out of reset: in
every mode but SILENT (R444). -/
def clocksRun (s : State) : Bool := s.ctl.mode != .silent

/-- Modes in which the PLLs of the Churn, the engines, the core pairs and the DMA engine stay locked (R422). -/
def pllOn : Mode → Bool
  | .selftest | .alone | .catchup | .twin | .lead | .test | .dbg => true
  | .cold | .bootwait | .verify | .stop | .silent => false

/-- A duplicated Miojo message is sent once on each lane that is up (R193, R197); in SILENT nothing but KEEP goes out (R200). -/
def mjSend (s : State) (m : MjMsg) : State := if clocksRun s then mjSendOn s (lanesUp s) m else s

/-- A CAN controller. -/
def canOf (s : State) (n : Nat) : CanSt := if n = 0 then s.can0 else s.can1

/-- A CAN controller changed. -/
def modCan (s : State) (n : Nat) (f : CanSt → CanSt) : State := if n = 0 then s.modCan0 f else s.modCan1 f

/-- A change of a controller's state: logged with its counters, and source 50 or 55 where CAN_IRQEN enables it (R318,
R326). -/
def setCanState (s : State) (n : Nat) (st : BitVec 3) : State :=
  if (canOf s n).state = st then s
  else
    let s := modCan s n (fun c => { c with state := st })
    let c := canOf s n
    let s := logEvent s ltCan ([BitVec.ofNat 8 n, BitVec.ofNat 8 st.toNat] ++ beBytes 2 c.tec.toNat ++ [c.rxErr])
    if c.irqen.getLsbD 2 then raiseIrq s (if n = 0 then 50 else 55) else s

/-- The dictionary transfers on a controller are aborted and counted (R320, 0x1010:08). -/
def abortTp (s : State) (n : Nat) : State :=
  let c := canOf s n
  let s := if c.rx.isSome then s.modDict (fun d => { d with canAborts := d.canAborts.inc }) else s
  let s := if c.tx.isSome then s.modDict (fun d => { d with canAborts := d.canAborts.inc }) else s
  modCan s n (fun c => { c with rx := none, tx := none, tpq := [] })

/-- A controller leaves the bus: a frame on the bus is aborted and CANn_TXD stays recessive (R310, R444). -/
def canOff (s : State) (n : Nat) : State :=
  let s := if (canOf s n).onBus.isSome then send s (.canAbort n) else s
  setCanState (modCan (abortTp s n) n (fun c => { c with onBus := none })) n 5

/-- Body of an integrity record (table "Event record types"). -/
def integBody (unit reason : Nat) (detail : W32) : Bytes :=
  [BitVec.ofNat 8 unit, BitVec.ofNat 8 reason] ++ beBytes 4 detail.toNat

/-- A SILENT reason latches: the first one is recorded and the reaction of R444 follows; a later one is only counted.
In COLD no SILENT entry exists (table "Mode transitions"). -/
def enterSilent (s : State) (reason unit : Nat) (detail : W32) : State :=
  match s.ctl.mode with
  | .cold => s
  | .silent => s.modInteg (fun g => { g with lostReasons := g.lostReasons + 1 })
  | _ =>
    let rec0 := mkLog s ltInteg 2 (integBody unit reason detail) none
    let recM := mkLog s ltMode (logSeverity ltMode) (modeBody s.ctl.mode .silent 0x000E) none
    let s := send s .cutFrame
    let s := s.modInteg (fun g => { g with
      reason := reason, unit := unit, detail := detail, powerAt := s.log.power, latchedAt := some s.time.raw })
    let s := if s.pair.ownOut then raiseIrq s 38 else s
    let s := s.modPair (fun p => { p with ownOut := false, ownReq := false, ownHighSince := none, aliveOut := false })
    let s := moveMode s .silent 0x000E
    let s := mjSendOn s [false, true] (.silent reason)
    let s := send (fieldOff s) .barrierOff
    let s := canOff (canOff s 0) 1
    let s := s.modDict (fun d => { d with sessions := [] })
    let s := s.modPair (fun p => { p with replies := [], forwarded := [], queue := [] })
    let s := s.modTime (fun t => { t with ppsOut := false })
    let s := s.modBoot (fun b => { b with xfer := none, solicitAt := none })
    let s := s.modCtl (fun c => { c with ledRun := false, ledPair := false })
    writeLog (writeLog s rec0) recM

end Sys2Proof.Machine
end

