-- ==== Sys2Proof/Machine/Net.lean ====
section
/-!
DEFINITION. Ring and station ports, the Separator, publications, GOOSE and subscriptions (08_network).
-/

namespace Sys2Proof.Machine

/-- The outcome of a command. -/
abbrev Res := Host.Outcome State Fault Refusal

/-- Module MAC (R17, 0x1000). -/
def moduleMac (s : State) : W48 := s.ident.mac

/-- Pair address 2k (R17). -/
def pairAddr (s : State) : W16 := pkgD s 0 (fun p => BitVec.ofNat 16 (2 * p.pairNo))

/-- Pair MAC of a pair address, 02-ED-72-40-hh-ll (R17). -/
def pairMacOf (a : W16) : W48 := 0x02ED72400000 + a.zeroExtend 48

/-- This pair's MAC. -/
def pairMac (s : State) : W48 := pairMacOf (pairAddr s)

/-- Some pair's MAC, whose last two octets are an even address 2k (R17, R232). -/
def isPairMac (m : W48) : Bool := m.toNat / 65536 == 0x02ED7240 && m.toNat % 2 == 0

/-- Modes in which module-own traffic leaves (table "Outputs by mode"). -/
def ownTraffic (s : State) : Bool :=
  match s.ctl.mode with
  | .stop | .alone | .catchup | .twin | .lead | .test | .dbg => true
  | .cold | .bootwait | .verify | .selftest | .silent => false

/-- A port's record changed. -/
def modPort (s : State) (p : Port) (f : PortSt → PortSt) : State :=
  s.modNet (fun n => { n with ports := lupd n.ports p.num f })

/-- A port's record. -/
def portOf (s : State) (p : Port) : PortSt := s.net.ports.getD p.num PortSt.reset

/-- Time after which the Separator forgets (R226, R227). -/
def sepForget : Nat := rMs 400

/-- Entries of a Separator record that have not expired. -/
def sepLive (s : State) (l : List SepEntry) : List SepEntry := l.filter (fun e => decide (elapsed s e.atRaw < sepForget))

/-- The record holds a (source MAC, sequence number) (R226). -/
def sepHas (s : State) (l : List SepEntry) (src : W48) (seq : W16) : Bool :=
  (sepLive s l).any (fun e => e.src == src && e.seq == seq)

/-- An entry made in a direction's record: the oldest gives way at 65,536 and is counted (R226). -/
def sepAdd (s : State) (cw : Bool) (src : W48) (seq : W16) : State :=
  let l := sepLive s (if cw then s.net.cw else s.net.acw)
  let full := decide (65536 ≤ l.length)
  let l' := ⟨src, seq, s.time.raw⟩ :: (if full then l.dropLast else l)
  s.modNet (fun n =>
    let n := if cw then { n with cw := l' } else { n with acw := l' }
    if full then { n with evictions := n.evictions.inc } else n)

/-- A ring port. -/
def Port.ring : Port → Bool
  | .p0 | .p1 => true
  | .s0 | .s1 | .h => false

/-- A frame the module sources starts on a port, and whether it does: not without a link, not on a ring port whose direction's record
already holds it, and not where the internal frame path finds a parity error, which drops and counts it (R226, R434). One that starts is
counted, and recorded for its direction. -/
def startOn (s : State) (p : Port) (src : W48) (seq : W16) : Bool × State :=
  if p != .h && !(portOf s p).link then (false, s)
  else if p.ring && sepHas s (if p == .p1 then s.net.cw else s.net.acw) src seq then (false, s)
  else if (portOf s p).broken then
    (false, (modPort s p (fun q => { q with broken := false })).modInteg (fun g => { g with parity := g.parity.inc }))
  else (true, modPort (if p.ring then sepAdd s (p == .p1) src seq else s) p (fun q => { q with tx := q.tx.inc }))

/-- A frame as it leaves on a port: with its HSR tag on the ring, with its redundancy control trailer on a station port (R225, R228). -/
def Frame.onPort (f : Frame) (p : Port) (seq : W16) : Frame :=
  match p with
  | .p0 | .p1 => { f with hsr := some seq }
  | .s0 => { f with rct := some (seq, 0xA) }
  | .s1 => { f with rct := some (seq, 0xB) }
  | .h => f

/-- A frame sourced on one port (R225, R226, R228). -/
def portSend (s : State) (p : Port) (seq : W16) (f : Frame) : State :=
  let r := startOn s p f.src seq
  if r.1 then send r.2 (.frame [p] (f.onPort p seq) (f.onPort p seq).wire) else r.2

/-- The ports that a source on the ring, on the station LANs or on both starts frames on. -/
def sourcePorts (ring station : Bool) : List Port :=
  (if ring then [.p1, .p0] else []) ++ (if station then [.s0, .s1] else [])

/-- LSDU size that a frame's tag or trailer gives, from the lengths of its VLAN tag and its payload, with the padding to the Ethernet
minimum (R225, R228; as Frame.wire has it, log entry 20). -/
def lsduSize (vlan payload : Nat) : Nat := max payload (minFrame - 20 - vlan) + 6

/-- The tag or trailer of a frame on a port: path identifier 0; LAN identifier 0xA on S0 and 0xB on S1 (R225, R228). -/
def portTag (seq : W16) (size : Nat) : Port → PortTag
  | .p0 | .p1 => .hsr 0 size seq
  | .s0 => .rct seq 0xA size
  | .s1 => .rct seq 0xB size
  | .h => .plain

/-- A frame of a source MAC started on several ports under one number: what it carries on each port where it leaves (R225, R228,
R229). -/
def sourceOn (s : State) (ports : List Port) (mac : W48) (seq : W16) (size : Nat) : Source × State :=
  let r := ports.foldl (fun (a : List (Port × PortTag) × State) p =>
    let q := startOn a.2 p mac seq
    (if q.1 then a.1 ++ [(p, portTag seq size p)] else a.1, q.2)) ([], s)
  (⟨mac, r.1⟩, r.2)

/-- The next number of the pair or module counter (R229). -/
def takeSeq (s : State) (pairSourced : Bool) : W16 × State :=
  if pairSourced then (s.net.pairSeq, s.modNet (fun n => { n with pairSeq := n.pairSeq + 1 }))
  else (s.net.modSeq, s.modNet (fun n => { n with modSeq := n.modSeq + 1 }))

/-- A frame sent on the ring, the station ports or both under a sequence number (R225, R228, R229). -/
def sourceUnder (s : State) (seq : W16) (ring station : Bool) (f : Frame) : State :=
  (sourcePorts ring station).foldl (fun s p => portSend s p seq f) s

/-- A frame sourced under the next number of its counter (R17, R229). -/
def sourceFrame (s : State) (pairSourced ring station : Bool) (dst : W48) (vlan : Option (Nat × Nat)) (etype : W16)
    (payload : Bytes) : State :=
  let r := takeSeq s pairSourced
  sourceUnder r.2 r.1 ring station
    ⟨dst, if pairSourced then pairMac s else moduleMac s, none, none, vlan, etype, payload, true⟩

/-! ### Publications -/

/-- VLAN tag of a publication, its priority and its VLAN ID: present when either is non-zero (R233). -/
def pubVlan (c : PubCfg) : Option (Nat × Nat) := if c.vlan = 0 ∧ c.prio = 0 then none else some (c.prio, c.vlan)

/-- Words of a publication's points as they stand (R234). -/
def pubWords (s : State) (c : PubCfg) : List TWord := (List.range c.count).map (fun i => pointWord s.img (c.first + i))

/-- Payload of a herd publication (R233). -/
def pubPayload (s : State) (n : Nat) (paced : Bool) (cycle : W32) (cut : Nat) (ws : List TWord) : Bytes :=
  let single := pkgD s true (fun p => !p.paired)
  let flags := b2n paced + 2 * b2n (inTest s) + 4 * b2n single
  let body :=
    [0x01, BitVec.ofNat 8 flags] ++ beBytes 2 (pairAddr s).toNat ++ beBytes 2 n ++ beBytes 4 cycle.toNat ++
    beBytes 4 (ns32Of cut).toNat ++ beBytes 4 (epochOf cut).toNat ++ beBytes 2 ws.length ++ ws.flatMap TWord.bytes
  body ++ beBytes 4 (crc32c body).toNat

/-- Record of a publication. -/
def pubSt (s : State) (n : Nat) : PubSt := mgetD s.net.pubs n PubSt.reset

/-- A publication's record changed. -/
def modPub (s : State) (n : Nat) (f : PubSt → PubSt) : State :=
  s.modNet (fun t => { t with pubs := mupd t.pubs n PubSt.reset f })

/-- The number of a publication, or of its retransmission: the one issued to it at the cutoff, or the next (R230). -/
def pubSeq (s : State) (n : Nat) (again : Bool) : W16 × State :=
  match s.cyc.seqPlan.find? (fun x => x.1 == n && x.2.1 == again) with
  | some x => (x.2.2, s.modCyc (fun c => { c with seqPlan := c.seqPlan.filter (fun y => y != x) }))
  | none => takeSeq s true

/-- A publication sent with given words (R233); a paced one takes its number at its own instant (R230). It counts as sent in 0x3000:10
also where it leaves on no port, the links being down or the Separator's record holding it (DESIGN CHOICE, log entry 131). -/
def sendPubWords (s : State) (n : Nat) (c : PubCfg) (paced : Bool) (cycle : W32) (cut : Nat) (ws : List TWord) : State :=
  let r := if paced then takeSeq s true else pubSeq s n false
  let f : Frame := ⟨c.dst, pairMac s, none, none, pubVlan c, pkgD s 0x88B5 (·.etype), pubPayload s n paced cycle cut ws, true⟩
  modPub (sourceUnder r.2 r.1 c.ring c.station f) n (fun p => { p with sent := p.sent.inc, last := cycle })

/-- A herd publication sent with its points as they stand (R233, R234). -/
def sendPub (s : State) (n : Nat) (c : PubCfg) (paced : Bool) (cycle : W32) (cut : Nat) : State :=
  sendPubWords s n c paced cycle cut (pubWords s c)

/-- Quality member of a tag on publication (R240). -/
def tagQuality (t : Byte) : W32 :=
  (match tagSev t with | 0 => 0 | 1 => 3 | _ => (1 : W32)) |||
  (if bitOf t 4 || bitOf t 5 then 0x400 else 0) ||| (if bitOf t 3 then 0x800 else 0) |||
  (if bitOf t 2 then 0x80 else 0) ||| (if bitOf t 1 then 0x08 else 0)

/-- Tag of an IEC 61850 quality value (R139). -/
def qualityTag (q : W32) : Byte :=
  let v := q.toNat % 4
  let sev := max (if v = 0 then 0 else if v = 3 then 1 else 2)
    (max (if bitOf q 6 then 2 else 0) (if bitOf q 4 || bitOf q 5 || bitOf q 8 || bitOf q 9 then 1 else 0))
  withVal (tIf (bitOf q 2 || bitOf q 3) tLIM ||| tIf (bitOf q 7 || bitOf q 12) tSTL ||| tIf (bitOf q 10) tSUB |||
    tIf (bitOf q 11) tTST) sev

/-- GOOSE dataset member types: 0 BOOLEAN, 1 INT32, 2 INT32U, 3 FLOAT32, 4 Quality, 5 Dbpos (R239). -/
def memberTypeOk (t : Nat) : Bool := decide (t ≤ 5)

/-- Value published for a word of a point: an X32 point goes as FLOAT32 of its represented value (R239). -/
def memberVal (s : State) (p : Nat) (w : TWord) : W32 :=
  let d := descOf s.img p
  if d.typ = tyX32 then f32 ((Q.ofInt w.val.toInt).scale d.scale) else w.val

/-- Members of a GOOSE dataset from its words: each point's value, and its tag where a Quality member follows it (R239,
R240). -/
def gooseMembers (s : State) : Nat → List Nat → List TWord → List GooseMember
  | _, [], _ => []
  | p, t :: more, ws =>
    if t = 4 then gooseMembers s p more ws
    else
      let w := ws.headD TWord.unused
      ⟨memberVal s p w, if more.head? = some 4 then some (tagQuality w.tag) else none⟩
        :: gooseMembers s (p + 1) more (ws.drop 1)

/-- An interval in ms rounded up to whole periods of a task, in ticks (R240). -/
def gooseTicks (ms period : Nat) : Nat := if period = 0 then ms * 4 else (ms * 4 + period - 1) / period * period

/-- Period of a task in ticks. -/
def periodOf (s : State) (t : Nat) : Nat := pkgD s 0 (fun p => p.periods.getD t 0)

/-- Interval after the message with a given sqNum: Tmin, then doubled up to Tmax (R240). -/
def gooseInterval (s : State) (c : PubCfg) (sq : Nat) : Nat :=
  let tmin := gooseTicks c.tminMs (periodOf s c.task)
  if sq = 0 then tmin else min (tmin * 2 ^ min sq 40) (max (gooseTicks c.tmaxMs (periodOf s c.task)) 1)

/-- Octets of an element of the basic encoding rules: tag, length and content (IEC 61850-8-1; PRESUMED, log entry 135). -/
def berLen (n : Nat) : Nat := 1 + (if n < 128 then 1 else if n < 256 then 2 else 3) + n

/-- Octets of an element holding an integer of an inclusive magnitude: the fewest that keep its sign. -/
def berInt (v : Nat) : Nat :=
  berLen (if v < 2 ^ 7 then 1 else if v < 2 ^ 15 then 2 else if v < 2 ^ 23 then 3 else if v < 2 ^ 31 then 4 else 5)

/-- Octets of one member of a dataset, by its type and value: BOOLEAN, INT32, INT32U, FLOAT32, Quality, Dbpos. -/
def memberLen (type : Nat) (v : W32) : Nat :=
  match type with
  | 0 => 3
  | 1 => berInt (if v.msb then (~~~ v).toNat else v.toNat)
  | 2 => berInt v.toNat
  | 3 => 7
  | 4 => 5
  | _ => 4

/-- Octets of the members of a dataset. -/
def membersLen : List Nat → List GooseMember → Nat
  | [], _ => 0
  | 4 :: ts, ms => memberLen 4 0 + membersLen ts ms
  | t :: ts, ms => memberLen t ((ms.head?.map (·.val)).getD 0) + membersLen ts (ms.drop 1)

/-- Octets of a GOOSE message after its EtherType: APPID, length and reserved fields, then the APDU (IEC 61850-8-1; PRESUMED, log entry
135). -/
def gooseLen (c : PubCfg) (st sq : W32) (ttl : Nat) (ms : List GooseMember) : Nat :=
  8 + berLen (berLen c.gocbRef.length + berInt ttl + berLen c.datSet.length + berLen c.goId.length + berLen 8 + berInt st.toNat +
    berInt sq.toNat + 3 + berInt c.confRev.toNat + 3 + berInt c.memberTypes.length + berLen (membersLen c.memberTypes ms))

/-- A GOOSE message leaves with the words of its dataset, its numbers and its time allowed to live, twice the interval in whole ms
(rounded down: DESIGN CHOICE, log entry 129); the next retransmission is due that interval after the tick this message was due at
(R225, R228, R240). -/
def gooseOut (s : State) (n : Nat) (c : PubCfg) (again : Bool) (st sq : W32) (due : W64) (interval : Nat) : State :=
  let r := pubSeq s n again
  let ttl := 2 * interval / 4
  let ms := gooseMembers s c.first c.memberTypes (pubSt s n).words
  let o := sourceOn r.2 (sourcePorts c.ring c.station) (pairMac s) r.1
    (lsduSize (if (pubVlan c).isSome then 4 else 0) (gooseLen c st sq ttl ms))
  modPub (send o.2 (.goose o.1 n st sq ttl (inTest s) ms)) n (fun p => { p with
    sent := p.sent.inc, last := st, stNum := st, sqNum := sq, interval := interval, nextAt := some (due + BitVec.ofNat 64 interval) })

/-- A GOOSE publication at a release: sent when its dataset words differ from the last message (R240). -/
def gooseRelease (s : State) (n : Nat) (c : PubCfg) : State :=
  let ws := pubWords s c
  if ws = (pubSt s n).words then s
  else
    let s := modPub s n (fun p => { p with words := ws })
    gooseOut s n c false ((pubSt s n).stNum + 1) 0 s.cyc.cutTick (gooseTicks c.tminMs (periodOf s c.task))

/-- A GOOSE publication's retransmission that is due at a tick up to a given one: the last message's words under the next sqNum
(R240). -/
def gooseRepeat (s : State) (n : Nat) (c : PubCfg) (tick : W64) : State :=
  let p := pubSt s n
  match p.nextAt with
  | none => s
  | some t =>
    if c.kind == 2 && decide (t.toNat ≤ tick.toNat) then
      let tmax := gooseTicks c.tmaxMs (periodOf s c.task)
      gooseOut s n c true p.stNum (p.sqNum + 1) t (min (2 * p.interval) (max tmax 1))
    else s

/-- The retransmissions due at ticks up to a given one, by publication number up to `last` (R230). -/
def gooseRepeats (s : State) (tick : W64) (last : Nat) : State :=
  (pkgD s [] (·.pubs)).foldl (fun s x => if x.1 ≤ last then gooseRepeat s x.1 x.2 tick else s) s

/-- The publications of the due tasks, by publication number, after any retransmission that an earlier tick still owes (R230,
R234). -/
def sendPublications (s : State) (due : BitVec 4) : State :=
  (pkgD s [] (·.pubs)).foldl (fun s x =>
    let c := x.2
    if due.getLsbD c.task then
      if c.kind = 1 then sendPub s x.1 c false (s.cyc.cutCycles.getD c.task 0) s.cyc.cutTime.toNat
      else if c.kind = 2 then gooseRelease s x.1 c
      else s
    else s) (gooseRepeats s (s.cyc.cutTick - 1) 1023)

/-- Some publication of the package is paced by a loop, so that numbers are issued at the cutoff (R230). -/
def hasPaced (s : State) : Bool := (pkgD s [] (·.pubs)).any (fun x => x.2.kind == 3)

/-- Where paced frames can leave between a cutoff and its release, a cutoff that stands issues the numbers of what its tick can send:
every publication of the due tasks, then every retransmission due, by publication number (R230). A tick that is skipped issues none. A
GOOSE publication whose words do not change leaves its number unused (log entry 107). -/
def planSeqs (s : State) : State :=
  if !hasPaced s then s.modCyc (fun c => { c with seqPlan := [] })
  else
    let s := gooseRepeats s (s.cyc.cutTick - 1) 1023
    let pubs := pkgD s [] (·.pubs)
    let new := (pubs.filter (fun x => (x.2.kind == 1 || x.2.kind == 2) && s.cyc.cutDue.getLsbD x.2.task)).map (fun x => (x.1, false))
    let old := (pubs.filter (fun x => x.2.kind == 2 && (pubSt s x.1).nextAt == some s.cyc.cutTick)).map (fun x => (x.1, true))
    let plan := ((new ++ old).zipIdx).map (fun x => (x.1.1, x.1.2, s.net.pairSeq + BitVec.ofNat 16 x.2))
    (s.modCyc (fun c => { c with seqPlan := plan })).modNet (fun n => { n with pairSeq := n.pairSeq + BitVec.ofNat 16 plan.length })

/-- A paced publication waits for its instant, in the order of instants and, at one instant, of loops (R230). -/
def pacedInsert (x : PacedOut) : List PacedOut → List PacedOut
  | [] => [x]
  | y :: t => if x.due < y.due || (x.due == y.due && decide (x.loop < y.loop)) then x :: y :: t else y :: pacedInsert x t

/-- One paced publication at its instant: sent in the run modes; a joining side only counts its number (R185, R230). -/
def sendPaced (s : State) (x : PacedOut) : State :=
  match mget (pkgD s [] (·.pubs)) x.pub with
  | none => s
  | some c =>
    if s.ctl.mode.run then sendPubWords s x.pub c true x.k x.cut x.words
    else if s.ctl.mode == .catchup then (takeSeq s true).2
    else s

/-- The paced publications whose instant lies before a TIME leave, each under the next number (R185, R230). -/
def leavePaced (s : State) (t : Nat) : State :=
  let now := s.cyc.paced.filter (fun x => decide (x.due < t))
  now.foldl sendPaced (s.modCyc (fun c => { c with paced := c.paced.filter (fun x => !decide (x.due < t)) }))

/-- The paced publications whose instant has come leave; while a tick waits to be agreed or skipped they wait with it, so that a tick that
stands has its numbers before theirs and a skipped one takes none (R230; DESIGN CHOICE, log entry 133). -/
def pacedNow (s : State) : State :=
  if s.cyc.phase = .agreeing ∧ s.cyc.confirmed = false then s else leavePaced s (timeNow s + 1)

/-- GOOSE_RETRANSMIT: the retransmissions due, up to this publication, once the release of their tick is done, at an interval
that doubles up to Tmax (R230, R240). -/
def execGooseRetransmit (pub : Nat) (s : State) : Res :=
  if s.ctl.mode.run && (mget (pkgD s [] (·.pubs)) pub).isSome && s.cyc.released then
    .next (gooseRepeats s s.cyc.lastRelease pub)
  else .next s

/-! ### Subscriptions -/

/-- Record of a subscription slot. -/
def subSt (s : State) (n : Nat) : SubSt := mgetD s.net.subs n SubSt.reset

/-- A slot's record changed. -/
def modSub (s : State) (n : Nat) (f : SubSt → SubSt) : State :=
  s.modNet (fun t => { t with subs := mupd t.subs n SubSt.reset f })

/-- A slot's state changed: source 39 (R244, table "Interrupt sources"). -/
def setSubState (s : State) (n st : Nat) : State :=
  if (subSt s n).state = st then s else raiseIrq (modSub s n (fun x => { x with state := st })) 39

/-- Fields of a herd publication's payload (R233). -/
def pfPair (b : Bytes) : Nat := beNat (slice b 2 2)
def pfPub (b : Bytes) : Nat := beNat (slice b 4 2)
def pfCycle (b : Bytes) : W32 := BitVec.ofNat 32 (beNat (slice b 6 4))

/-- CRC field of a publication. -/
def pfCrc (b : Bytes) : W32 := BitVec.ofNat 32 (beNat (slice b (pfLen b) 4))

/-- The words of a publication (R233). -/
def pfWords (b : Bytes) : List TWord :=
  (List.range (pfCount b)).map (fun i =>
    ⟨b.getD (20 + 5 * i) 0, BitVec.ofNat 32 (beNat (slice b (21 + 5 * i) 4))⟩)

/-- The tests of R235 other than the CYCLE test. -/
def pubFits (s : State) (f : Frame) (c : SubCfg) : Bool :=
  let b := f.payload
  f.fcsOk && f.etype == pkgD s 0x88B5 (·.etype) && b.getD 0 0 == 0x01 && pfCrc b == crc32c (b.take (pfLen b)) &&
    f.src == pairMacOf c.pair && pfCount b == c.count

/-- A frame judged for one slot whose pair and publication it names: held, counted as discarded or as old (R235). -/
def holdPub (s : State) (f : Frame) (n : Nat) (c : SubCfg) : State :=
  let x := subSt s n
  if !pubFits s f c then modSub s n (fun x => { x with nDisc := x.nDisc.inc })
  else
    let isNew := match x.last with | none => true | some l => newer (pfCycle f.payload) l
    if isNew then
      modSub s n (fun x => { x with held := some f, last := some (pfCycle f.payload), shown := pfCycle f.payload,
                                    lastAt := some s.time.raw, nHeld := x.nHeld.inc })
    else modSub s n (fun x => { x with nOld := x.nOld.inc })

/-- PUBLICATION_RECEIVE: a herd publication that the Separator passed up (R235); the data plane takes it in every mode but COLD
(R12). -/
def execPublicationReceive (f : Frame) (s : State) : Res :=
  if s.ctl.mode == .cold then .next s else
  .next ((pkgD s [] (·.subs)).foldl (fun s x =>
    if x.2.kind = 1 ∧ x.2.pair.toNat = pfPair f.payload ∧ x.2.pub = pfPub f.payload then holdPub s f x.1 x.2 else s) s)

/-- SLOT_FORGET_TIMER: a slot with no frame for 1 s forgets its last accepted CYCLE (R237); a GOOSE slot its last stNum and sqNum in the
same way (DESIGN CHOICE, log entry 130). -/
def execSlotForgetTimer (slot : Nat) (s : State) : Res :=
  if s.ctl.mode == .cold then .next s else
  if past s (subSt s slot).lastAt (rSec 1) then .next (modSub s slot (fun x => { x with last := none })) else .next s

/-- A (stNum, sqNum) pair is newer than the last accepted one (R53, R241). -/
def gooseNewer (st sq lst lsq : W32) : Bool := newer st lst || (st == lst && newer sq lsq)

/-- A message judged for one slot whose control block it names: held, discarded or old (R241). In TEST a simulated message is
taken, and from then on only simulated ones (R138). -/
def holdGoose (s : State) (g : GooseMsg) (n : Nat) (c : SubCfg) : State :=
  let st := subSt s n
  let matched := g.dst == c.dst && g.appid == c.appid && g.datSet == c.datSet && g.confRev == c.confRev
  let simOk := if g.sim then inTest s else !(inTest s && st.simulated)
  let isNew := match st.last with | none => true | some l => gooseNewer g.stNum g.sqNum l st.lastSq
  if !matched || !simOk then modSub s n (fun y => { y with nDisc := y.nDisc.inc })
  else
    let s := modSub s n (fun y => { y with simulated := y.simulated || g.sim })
    if isNew then
      modSub s n (fun y => { y with heldG := some g, last := some g.stNum, lastSq := g.sqNum, shown := g.stNum,
                                    lastAt := some s.time.raw, nHeld := y.nHeld.inc })
    else modSub s n (fun y => { y with nOld := y.nOld.inc })

/-- GOOSE_RECEIVE: the management cores, which SILENT holds in reset, take a message for its slots (R239, R241, R444). -/
def execGooseReceive (g : GooseMsg) (s : State) : Res :=
  if !clocksRun s then .next s else
  .next ((pkgD s [] (·.subs)).foldl (fun s x =>
    if x.2.kind = 2 ∧ x.2.gocbRef = g.gocbRef then holdGoose s g x.1 x.2 else s) s)

/-! ### Frames on the ports -/

/-- A frame's way into the receive path: own sources never enter, pair addresses are counted, later copies are
discarded (R227, R232). -/
def passUp (s : State) (f : Frame) (seq : Option W16) : State :=
  if f.src == moduleMac s || f.src == pairMac s then s
  else if isPairMac f.dst then s.modNet (fun n => { n with toPair := n.toPair.inc })
  else
    match seq with
    | none => s
    | some q =>
      if sepHas s s.net.rxRec f.src q then s.modNet (fun n => { n with dups := n.dups.inc })
      else s.modNet (fun n => { n with rxRec := ⟨f.src, q, s.time.raw⟩ :: sepLive s n.rxRec })

/-- RING_FRAME_ARRIVAL: forwarded once to the other ring port and passed up once (R12, R225–R227); a frame that the internal frame
paths find `broken` by its parity is dropped and counted in 0x1702:07 (R434). -/
def execRingFrameArrival (onP1 : Bool) (f : Frame) (s : State) (broken : Bool := false) : Res :=
  let inp := if onP1 then Port.p1 else Port.p0
  let outp := if onP1 then Port.p0 else Port.p1
  if s.ctl.mode == .cold then .next s
  else
    let s := modPort s inp (fun q => { q with rx := q.rx.inc })
    if !f.fcsOk then .next (modPort s inp (fun q => { q with fcs := q.fcs.inc }))
    else if broken then .next (s.modInteg (fun g => { g with parity := g.parity.inc }))
    else
      match f.hsr with
      | none =>
        if f.etype == 0x88F7 then .next s else .next (modPort s inp (fun q => { q with disc := q.disc.inc }))
      | some seq =>
        let cw := !onP1
        let had := sepHas s (if cw then s.net.cw else s.net.acw) f.src seq
        let own := f.src == moduleMac s
        let s1 :=
          if own || had then
            (if own || f.src == pairMac s then s.modNet (fun n => { n with returning := n.returning.inc }) else s)
          else if f.dst == moduleMac s then s
          else
            if (portOf s outp).link then
              send (modPort (sepAdd s cw f.src seq) outp (fun q => { q with fwd := q.fwd.inc })) (.forwarded outp f)
            else s
        .next (passUp s1 f (some seq))

/-- Address of port H in BOOTWAIT, 169.254.72.40 (R282). -/
def hostIp : Nat := 0xA9FE4828

/-- The frames of the herd dictionary protocol at an IPv4 address: its ARP, its ICMP echo, and UDP port 48740, in a datagram that is whole
and has no options (R283). -/
def isHerdIp (f : Frame) (ip : Nat) : Bool :=
  let b := f.payload
  if f.etype == 0x0806 then beNat (slice b 6 2) == 1 && beNat (slice b 24 4) == ip
  else
    f.etype == 0x0800 && b.getD 0 0 == 0x45 && beNat (slice b 6 2) % 16384 == 0 && beNat (slice b 16 4) == ip &&
      ((b.getD 9 0 == 1 && b.getD 20 0 == 8) || (b.getD 9 0 == 17 && beNat (slice b 22 2) == 48740))

/-- A frame on port H: the boot protocol, and in BOOTWAIT the herd dictionary protocol, are left to their own commands; every other frame
is discarded and counted, and none reaches another port (R223, R283). -/
def hostFrame (s : State) (f : Frame) : State :=
  if f.etype == 0x88B6 || (s.ctl.mode == .bootwait && isHerdIp f hostIp) then s
  else modPort s .h (fun q => { q with disc := q.disc.inc })

/-- An untagged frame on a station port that is a PTP message: it never passes the Separator (R262). -/
def stationPtp (f : Frame) : Bool :=
  f.etype == 0x88F7 && f.rct.isNone && (match f.vlan with | none => true | some (_, vid) => vid == 0)

/-- STATION_FRAME_ARRIVAL: on S0 and S1 passed up once, duplicates discarded, wrong-LAN frames counted and passed on (R227,
R228, R262); on port H served or discarded (R223); a frame that the internal frame paths find `broken` is dropped and counted in
0x1702:07 (R434). -/
def execStationFrameArrival (p : Port) (f : Frame) (s : State) (broken : Bool := false) : Res :=
  if s.ctl.mode == .cold || p == .p0 || p == .p1 then .next s
  else
    let s := modPort s p (fun q => { q with rx := q.rx.inc })
    if !f.fcsOk then .next (modPort s p (fun q => { q with fcs := q.fcs.inc }))
    else if broken then .next (s.modInteg (fun g => { g with parity := g.parity.inc }))
    else if p == .h then .next (hostFrame s f)
    else if stationPtp f then .next s
    else
      match f.rct with
      | none => .next (passUp s f none)
      | some (seq, lan) =>
        let s := if lan = (if p = .s1 then 0xB else 0xA) then s else s.modNet (fun n => { n with wrongLan := n.wrongLan.inc })
        .next (passUp s f (some seq))

/-- SEPARATOR_ENTRY_EXPIRE: entries older than 400 ms leave the records (R226, R227). -/
def execSeparatorEntryExpire (s : State) : Res :=
  .next (s.modNet (fun n => { n with cw := sepLive s n.cw, acw := sepLive s n.acw, rxRec := sepLive s n.rxRec }))

/-- Payload of an HSR supervision frame naming the module MAC (R225; layout of IEC 62439-3, PRESUMED, log entry 20). -/
def supervisionPayload (s : State) : Bytes :=
  [0x00, 0x01] ++ beBytes 2 s.net.modSeq.toNat ++ [0x17, 0x06] ++ beBytes 6 (moduleMac s).toNat ++ [0x00, 0x00]

/-- SUPERVISION_SEND_TIMER: a supervision frame every 2 s under the module MAC (R225). -/
def execSupervisionSendTimer (s : State) : Res :=
  if ownTraffic s && (s.net.supAt.isNone || past s s.net.supAt (rMs 2000)) then
    let s := sourceFrame s false true false 0x01154E000100 none 0x88FB (supervisionPayload s)
    .next (s.modNet (fun n => { n with supAt := some s.time.raw }))
  else .next s

/-- Body of a network record (table "Event record types"). -/
def netBody (code port : Nat) (mac : W48) : Bytes :=
  [BitVec.ofNat 8 code, BitVec.ofNat 8 port] ++ beBytes 6 mac.toNat

/-- A port's link set, with source 33 + n raised and a loss counted and logged (R242, table "Interrupt sources"). -/
def setLink (s : State) (p : Port) (up : Bool) : State :=
  let was := (portOf s p).link
  if was = up then s
  else
    let s := modPort s p (fun q => { q with link := up })
    let s := raiseIrq s (33 + p.num)
    if up then s
    else logEvent (modPort s p (fun q => { q with losses := q.losses.inc })) ltNet (netBody 2 p.num 0)

/-- The medium a ring port can lock at: the one it runs, held in flash or set by the package, or the one it is trying (R224). -/
def ringMedium (s : State) (p : Port) : Nat := if s.net.heldMedium.isSome then (portOf s p).medium else s.net.trying

/-- The other ring port. -/
def otherRing (p : Port) : Port := if p = .p0 then .p1 else .p0

/-- RING_LINK_CHANGE: a port gains lock at a medium, or loses it. While the medium is being detected a ring port's link rises only once both
have locked at the same medium; ring ports at different media are both kept down and the fault is logged (R223, R224). -/
def execRingLinkChange (p : Port) (up : Bool) (medium : Nat) (s : State) : Res :=
  if s.ctl.mode == .cold then .next s
  else if !p.ring then .next (setLink (modPort s p (fun q => { q with locked := if up then some medium else none })) p up)
  else if up && medium != ringMedium s p then .next s
  else
    let s := modPort s p (fun q => { q with locked := if up then some medium else none })
    if !up then .next (setLink s p false)
    else
      let other := otherRing p
      match (portOf s other).locked with
      | none =>
        if s.net.heldMedium.isNone then .next s
        else .next (setLink (modPort s p (fun q => { q with medium := medium })) p true)
      | some m =>
        if m = medium then
          let s := modPort s p (fun q => { q with medium := medium })
          let s := s.modNet (fun n => { n with heldMedium := some medium })
          .next (setLink (setLink s p true) other true)
        else
          let s := setLink (setLink s p false) other false
          let s := s.modNet (fun n => { n with mismatchAt := some s.time.raw })
          .next (logEvent s ltNet (netBody 1 p.num 0))

/-- The next medium a port tries: 10GBASE-R, 2500BASE-X, 1000BASE-X in turn (R224). -/
def nextMedium (m : Nat) : Nat := if m = 3 then 2 else if m = 2 then 1 else 3

/-- RING_MEDIUM_DETECT_TIMER: the next medium after 200 ms without a held medium; detection starts again 1 s after a
mismatch (R224). -/
def execRingMediumDetectTimer (s : State) : Res :=
  if s.ctl.mode == .cold then .next s
  else if past s s.net.mismatchAt (rSec 1) then
    let s := modPort (modPort s .p0 (fun q => { q with locked := none })) .p1 (fun q => { q with locked := none })
    .next (s.modNet (fun n => { n with mismatchAt := none, trying := 3, detectAt := some s.time.raw }))
  else if s.net.mismatchAt.isNone && s.net.heldMedium.isNone && ((portOf s .p0).locked.isNone || (portOf s .p1).locked.isNone) &&
      past s s.net.detectAt (rMs 200) then
    .next (s.modNet (fun n => { n with trying := nextMedium n.trying, detectAt := some s.time.raw }))
  else .next s

end Sys2Proof.Machine
end

