-- ==== Sys2Proof/Machine/Program.lean ====
section
/-!
DEFINITION. A program as its descriptor tables give it: ranks, worst case, and the checks made at start and on an on-line change (R66–R70, R75, R92).
-/

namespace Sys2Proof.Machine

/-- The 128-bit descriptor that a package carries as 16 bytes, most significant byte first (R90). -/
def BlockInst.word (b : BlockInst) : W128 := BitVec.ofNat 128 (beNat b.bytes)

/-- The ranks of a task's table: a descriptor with RSTART begins one, and so does the first (R66, R92). -/
def ranksOf : List BlockInst → List (List BlockInst)
  | [] => []
  | b :: t =>
    match t, ranksOf t with
    | b' :: _, r :: more => if dRstart b'.word then [b] :: r :: more else (b :: r) :: more
    | _, _ => [[b]]

/-- Number of output points of a rank in one bank (R36, R70). -/
def bankLoad (r : List BlockInst) (bank : Nat) : Nat :=
  (r.filter (fun b => !dNull b.word && dOut b.word % 32 == bank)).length

/-- Output points of a rank held in its most-used bank (R70). -/
def worstBank (r : List BlockInst) : Nat := (List.range 32).foldl (fun a k => max a (bankLoad r k)) 0

/-- Time budget declared for an NCALL's function (R133). N0 and N1 share one numbering of functions: FUNC alone names it (DESIGN CHOICE,
log entry 128: R133 does not say whether each core pair has its own). -/
def callBudget (p : Package) (w : W128) : Nat :=
  match p.ncalls.find? (fun f => f.func == dParam w / 2 ^ 27 % 4096) with
  | some f => f.budgetNs
  | none => 0

/-- A descriptor that is an NCALL. -/
def isNcall (w : W128) : Bool := !dNull w && dOpcode w == 0x2C

/-- Computed worst case W of a task in ns (R70). -/
def taskW (p : Package) (t : Nat) : Nat :=
  let tbl := p.blocks.getD t []
  ((ranksOf tbl).map (fun r => max (3 * ((r.length + 7) / 8)) (worstBank r) + 40)).sum +
    ((tbl.filter (fun b => isNcall b.word)).map (fun b => callBudget p b.word)).sum

/-- The program's worst case (R70). -/
def programW (p : Package) : Nat := ((List.range 4).map (taskW p)).sum

/-- Ranks of all tasks (0x2200:03). -/
def rankCount (p : Package) : Nat := (p.blocks.map (fun t => (ranksOf t).length)).sum

/-- Block instances (0x2200:02). -/
def blockCount (p : Package) : Nat := (p.blocks.map List.length).sum

/-- Point an operand reference names, if it names a point (R7, R95). -/
def refPoint (r : Nat) : Option Nat := if r < 131072 then some r else none

/-- Points a block reads (R95, R112, R120). -/
def blockReads (w : W128) : List Nat :=
  let op := dOpcode w
  let extra := if op = 0x0E then [dParam w % 2 ^ 18] else if op = 0x20 then [dParam w % 2 ^ 18, dParam w / 2 ^ 18 % 2 ^ 18] else []
  let used :=
    if op = 0x04 ∨ op = 0x07 ∨ op = 0x08 ∨ op = 0x19 ∨ op = 0x1A ∨ op = 0x21 ∨ op = 0x22 ∨ op = 0x23 ∨ op = 0x24 ∨ op = 0x2A then [dA w]
    else if (0x05 ≤ op ∧ op ≤ 0x06) ∨ (0x09 ≤ op ∧ op ≤ 0x0B) ∨ (0x0F ≤ op ∧ op ≤ 0x14) ∨ (0x16 ≤ op ∧ op ≤ 0x18) ∨ op = 0x26 ∨ op = 0x28 ∨ op = 0x2B
      then [dA w, dB w]
    else [dA w, dB w, dC w]
  (used ++ extra).filterMap refPoint

/-- A block of a rank reads a point produced in its own rank: by a block of the rank, or by a native write of an NCALL of the
rank that the package names as the point's writer (R67, R391). -/
def sameRankRead (writers : List (Nat × Nat)) (r : List BlockInst) : Bool :=
  let live := r.filter (fun b => !dNull b.word)
  let native := (writers.filter (fun w => live.any (fun b => b.id == w.2))).map (·.1)
  let outs := live.map (fun b => dOut b.word) ++ native
  r.any (fun b => !dNull b.word && (blockReads b.word).any (fun p => outs.contains p))

/-- First of rows 4, 5 and 6 of the table "On-line change and start refusal reasons" that fails (R75). -/
def programCheck (p : Package) : Option Nat :=
  if 100000 < programW p then some 4
  else if p.blocks.any (fun t => (ranksOf t).any (sameRankRead p.writers)) then some 5
  else if 64 < rankCount p then some 6
  else none

/-- A block instance of a program by its instance ID. -/
def instOf (bs : List (List BlockInst)) (id : Nat) : Option BlockInst := bs.flatten.find? (fun b => b.id == id)

/-- A kept stateful instance has another state slot: row 7 (R75, R76). -/
def slotMoved (old new : List (List BlockInst)) : Bool :=
  new.flatten.any (fun b =>
    match instOf old b.id with
    | none => false
    | some o => dOpcode o.word == dOpcode b.word && statefulOp (dOpcode b.word) && dSlot o.word != dSlot b.word)

end Sys2Proof.Machine
end

