-- ==== Sys2Proof/Machine/PairOps.lean ====
section
/-!
DEFINITION. What the families share about the pair: who owns, whether a partner is expected, target ticks, and the entries to CATCHUP, LEAD and STOP that several events cause (07_pair, R456).
-/

namespace Sys2Proof.Machine

/-- The applied tick count of an answer that names none. -/
def noTick : W64 := 0xFFFFFFFFFFFFFFFF

/-- The running package declares a pair (R21). -/
def isPaired (s : State) : Bool := pkgD s false (·.paired)

/-- This side owns (R188, introduction of 07_pair). -/
def owns (s : State) : Bool := s.pair.ownOut

/-- Mode codes of the run modes. -/
def runCode (c : Nat) : Bool := c == 5 || c == 7 || c == 8 || c == 9

/-- The partner runs beside this side: link up, not dead, in a run mode and not in CATCHUP (R203, R206). -/
def partnerRuns (s : State) : Bool :=
  isPaired s && s.pair.link && !s.pair.dead && !s.pair.pCatchup && !s.pair.pSilent && runCode s.pair.pMode

/-- A verify tick is agreed with the partner (phase 5 of R214). -/
def verifying (s : State) : Bool :=
  isPaired s && s.pair.link && !s.pair.dead && (s.pair.serving == 5 || s.pair.phase == 5)

/-- This side expects the partner's TICK (R203), unless the cycle went on without the partner (R218). In DEBUG it cycles
without agreement (R448). -/
def expectsTick (s : State) : Bool :=
  (partnerRuns s || verifying s) && !s.cyc.alone && (s.ctl.mode.run || (s.ctl.mode == .catchup && s.pair.phase == 5))

/-- This side takes the owning side's part: it owns, or no side owns and it is side A (R202, R206, R208). -/
def ownerPart (s : State) : Bool := owns s || (s.pair.noOwner && !s.pins.sideB) || !isPaired s

/-- Ticks of 250 µs in 1/16 ns of TIME. -/
def tickLen : Nat := 4000000

/-- Exact instant of the tick at or before now (R54, R520). -/
def tickInstant (s : State) : Nat := timeNow s / tickLen * tickLen

/-- The exact TIME of a tick that is due to be taken now: TIME has reached a multiple of 250 µs that lies after the last one
taken; after a step, the first multiple of the stepped TIME that lies at least 250 µs of RAW after the previous tick (R54,
R58, R520). -/
def tickReached (s : State) : Option Nat :=
  let m := tickInstant s
  match s.cyc.lastTickRaw, s.cyc.lastTick with
  | some r, some l =>
    if s.cyc.stepped then
      let floor := stampTime s (r + BitVec.ofNat 64 (rUs 250))
      if floor ≤ m ∧ rUs 250 ≤ elapsed s r then some m else none
    else if l < m then some m else none
  | none, some l => if l < m then some m else none
  | _, none => some m

/-- Tasks due at a tick count (R55). -/
def dueAt (s : State) (tick : Nat) : BitVec 4 :=
  let d := fun t => let n := periodOf s t; decide (n ≠ 0) && tick % n == 0
  BitVec.ofNat 4 (b2n (d 0) + 2 * b2n (d 1) + 4 * b2n (d 2) + 8 * b2n (d 3))

/-- The first tick count at or after `n` at which a task (4: any task) is due. -/
def nextDue (s : State) (n task : Nat) : Nat :=
  let up := fun (t : Nat) => let p := periodOf s t; if p = 0 then none else some ((n + p - 1) / p * p)
  if task < 4 then (up task).getD n
  else ((List.range 4).filterMap up).foldl (fun a x => if a = 0 then x else min a x) 0

/-- The first tick that comes at least `us` µs from now at which a task (4: any) is due (R210, R255). -/
def targetTick (s : State) (us task : Nat) : W64 :=
  let n := s.cyc.tick.toNat + 1
  let t1 := tickInstant s + tickLen
  let early := timeNow s + rUs us
  let k := if t1 < early then (early - t1 + tickLen - 1) / tickLen else 0
  BitVec.ofNat 64 (nextDue s (n + k) task)

/-- The owning side gives an accepted command the next write sequence number and its target tick, keeps it for the boundary
and sends WRITE to the partner (R210). -/
def sequence (s : State) (body : SeqBody) (task : Nat) (originB : Bool) (fwd : W32) (own : Bool) (sid : W32) (via : Via)
    (ctr : W32) : State :=
  let m : WriteMsg := ⟨s.pair.nextWsn, targetTick s 150 task, originB, fwd, body⟩
  let both := isPaired s && s.pair.link && !s.pair.dead
  let s := s.modPair (fun p => { p with
    nextWsn := p.nextWsn + 1, seqs := p.seqs ++ [⟨m, own, sid, via, ctr⟩],
    resend := if both then p.resend ++ [(m, s.time.raw)] else p.resend })
  if both then mjSend s (.write m) else s

/-- A command of the module itself sequenced by the owning side. -/
def sequenceOwn (s : State) (body : SeqBody) : State := sequence s body 4 s.pins.sideB 0 false 0 (.port .h) 0

/-- The two sides agree samples, converter samples and pulse counts: they run together, or verify a tick (R145, R214). -/
def sharing (s : State) : Bool := partnerRuns s || (verifying s && s.cyc.phase != .slack)

/-- The owning side logs for a joining side, from the tick after the snapshot (R214). -/
def logging (s : State) : Bool := decide (3 ≤ s.pair.serving) && s.pair.snapTick != noTick

/-- Items of a tick join the log. -/
def logItems (s : State) (tick : W64) (xs : List LogItem) : State :=
  if !logging s || xs.isEmpty then s
  else s.modPair (fun p => { p with
    log := if p.log.any (fun x => x.1 == tick) then p.log.map (fun x => if x.1 = tick then (x.1, x.2 ++ xs) else x)
      else p.log ++ [(tick, xs)] })

/-- Body of a pair record (table "Event record types"). -/
def pairBody (code : Nat) (detail : W32) : Bytes := [BitVec.ofNat 8 code] ++ beBytes 4 detail.toNat

/-- A pair event is logged. -/
def logPair (s : State) (code : Nat) (detail : W32) : State := logEvent s ltPair (pairBody code detail)

/-- Pair status 0x1200:0C (R222). -/
def pairStatus (s : State) : Nat :=
  let p := s.pair
  let cls := match p.hello with | none => 0 | some h => b2n (h.pairClass != s.ident.computeClass.zeroExtend 32 * 65536 + (match s.boot.fw with | none => 0 | some f => f.pclass.zeroExtend 32)) * 256
  let dig := match p.hello, s.boot.running with
    | some h, some r => b2n (h.digest != sha256 r.man.header) * 512
    | _, _ => 0
  let num := match p.hello with | none => 0 | some h => b2n (h.pairNo != pkgD s 0 (·.pairNo)) * 1024
  b2n (isPaired s) + 2 * b2n (p.edgeAt.isSome && within s p.edgeAt (rMs 3)) + 4 * b2n p.ownIn + 8 * b2n p.ownOut +
    16 * b2n p.link + 32 * b2n (p.lane0 != p.lane1) + 64 * b2n (decide (1600 < p.delayNs.toNat)) + 128 * b2n p.following +
    cls + dig + num + 2048 * b2n (p.hello.isSome && p.pSideB == s.pins.sideB) + 4096 * b2n p.wiring + 8192 * b2n p.noOwner

/-- The partner's ALIVE is live on the wire (R189). -/
def partnerAlive (s : State) : Bool := s.pair.edgeAt.isSome && within s s.pair.edgeAt (rMs 3)

/-- A change of the pair's record: any bit of 0x1200:0C that changes raises source 38. -/
def changePair (s : State) (f : PairSt → PairSt) : State :=
  let t := s.modPair f
  if pairStatus t = pairStatus s then t else raiseIrq t 38

/-- Source 38 for whatever else has changed a bit of 0x1200:0C from state `s` to `t`: another package, or time (R409). -/
def notePair (s t : State) : State := if pairStatus t = pairStatus s then t else raiseIrq t 38

/-- Ownership changes hands: the tick of the change and its record (R222 0x18, table "Event record types"). -/
def ownerChanged (s : State) : State :=
  logPair (s.modPair (fun p => { p with seqTick := s.cyc.tick })) 1 (s.cyc.tick.truncate 32)

end Sys2Proof.Machine
end

