-- ==== Sys2Proof/Machine/Image.lean ====
section
/-!
DEFINITION. Manifests, the checks of an image, wrapped keys, the key store, package installation, and what holds the module in STOP (R457, R467–R471, R481–R483, R489–R492).
-/

namespace Sys2Proof.Machine

/-! ### Certificates -/

/-- Subject public key of a certificate (R493). -/
def certKey (cert : Bytes) : Bytes := slice cert 48 32

/-- Identifier of a public key as ISSUER of a certificate gives it: the first 8 bytes of its SHA-256 (R493). -/
def keyId (key : Bytes) : Bytes := (sha256 key).take 8

/-- Certificate root key identifier, 0x1600:03, in the form of ISSUER (R467, R493, R497; DEDUCED, log entry 138). -/
def rootKeyId : Bytes := keyId Config.rootKey

/-- A certificate of a kind verifies under an issuer's public key (R493). -/
def certOk (cert : Bytes) (kind : Byte) (issuer : Bytes) : Bool :=
  cert.length == 17168 && cert.take 6 == [0x47, 0x42, 0x43, 0x31, 0x01, kind] && slice cert 24 8 == keyId issuer &&
    Config.verify128f issuer (cert.take 80) (cert.drop 80)

/-- The chain the module is made with: the issuing certificate verifies under the certificate root key, the module certificate under the
issuing key (R467, R493). -/
def Ident.chained (i : Ident) : Bool := certOk i.issuingCert 1 Config.rootKey && certOk i.moduleCert 2 (certKey i.issuingCert)

/-! ### Images -/

/-- Bytes of a stored object in order. -/
def bytesOf (m : List (Nat × Byte)) : Bytes := m.map (·.2)

/-- Bytes written at their offsets: every byte written is listed, so that the count of listed bytes is what has been
received (R480). -/
def putListed (m : List (Nat × Byte)) (off : Nat) : Bytes → List (Nat × Byte)
  | [] => m
  | b :: t => putListed (mset m off b) (off + 1) t

/-- Length of a manifest of n chunks (R468). -/
def manifestLen (n : Nat) : Nat := 64 + 32 * n + 7856

/-- The fields of a manifest (table "Manifest"). -/
def parseManifest (b : Bytes) : Manifest :=
  let n := beNat (slice b 18 2)
  { kind := (b.getD 5 0).toNat, key := (b.getD 6 0).toNat, revoke := (b.getD 7 0).truncate 4,
    iversion := BitVec.ofNat 32 (beNat (slice b 8 4)), pclass := BitVec.ofNat 16 (beNat (slice b 12 2)),
    cclass := BitVec.ofNat 16 (beNat (slice b 14 2)), svn := (b.getD 16 0).toNat, setfmt := (b.getD 17 0).toNat,
    chunks := n, length := beNat (slice b 20 4), generation := BitVec.ofNat 32 (beNat (slice b 24 4)),
    base := slice b 32 32, digests := (List.range n).map (fun i => slice b (64 + 32 * i) 32),
    signature := slice b (64 + 32 * n) 7856, header := b.take (64 + 32 * n) }

/-- MAGIC and VERSION stand where the table "Manifest" has them. -/
def Manifest.marked (m : Manifest) : Bool := slice m.header 0 5 == [0x47, 0x42, 0x4D, 0x46, 0x01]

/-- The digest of an image (R469). -/
def Manifest.digest (m : Manifest) : Bytes := sha256 m.header

/-- The public key a manifest names, if it exists for the kind and is not revoked (R467, code 0x03 of R470). -/
def manifestKey (s : State) (m : Manifest) : Option Bytes :=
  if m.kind = 1 ∨ m.kind = 2 then
    if m.key < 4 ∧ s.boot.revoked.getLsbD m.key = false then some (Config.imageKey m.key) else none
  else if m.kind = 3 ∨ m.kind = 4 then (if m.key = 0 then s.boot.a0 else if m.key = 1 then s.boot.a1 else none)
  else none

/-- Bytes in chunk c of an image (R468). -/
def chunkLen (m : Manifest) (c : Nat) : Nat := if c + 1 < m.chunks then 65536 else m.length - 65536 * (m.chunks - 1)

/-- Every chunk's SHA-256 equals its DIGESTS entry (code 0x02). -/
def chunksGood (m : Manifest) (img : List (Nat × Byte)) : Bool :=
  (List.range m.chunks).all (fun c => sha256 (bytesAt img (65536 * c) (chunkLen m c)) == m.digests.getD c [])

/-- LENGTH fits the limit of its kind (code 0x09). -/
def lengthFits (m : Manifest) : Bool :=
  let mib := 1048576
  decide (m.length ≤ (match m.kind with | 1 => mib | 2 => 32 * mib | 3 => 1024 * mib | _ => 64 * mib))

/-- The role key of a role and number (R467). -/
def roleKey (ks : List RoleKey) (role num : Nat) : Option Bytes :=
  (ks.find? (fun k => k.role == role && k.num == num)).map (·.key)

/-- Exclusive or of two byte strings of one length. -/
def xorBytes (a b : Bytes) : Bytes := List.zipWith (· ^^^ ·) a b

/-- The wrap key W of security officer key number 0 (R491). -/
def wrapKey (so : Bytes) : Bytes := hmac so (ascii "GB7240 wrap")

/-- A wrapped key passes its tag under security officer key number 0 (R491, code 0x0B). -/
def wrapGood (so : Bytes) (w : Wrapped) : Bool :=
  w.tag == (hmac (wrapKey so) (ascii "mac" ++ w.salt ++ [BitVec.ofNat 8 w.role, BitVec.ofNat 8 w.num] ++ w.cipher)).take 16

/-- The key of a wrapped key (R491). -/
def unwrap (so : Bytes) (w : Wrapped) : RoleKey :=
  ⟨w.role, w.num, xorBytes w.cipher
    (hmac (wrapKey so) (ascii "enc" ++ w.salt ++ [BitVec.ofNat 8 w.role, BitVec.ofNat 8 w.num]))⟩

/-- The 68 bytes of a wrapped key (R491). -/
def parseWrapped (b : Bytes) : Wrapped :=
  ⟨(b.getD 0 0).toNat, (b.getD 1 0).toNat, slice b 4 16, slice b 20 32, slice b 52 16⟩

/-- Every wrapped key of a key section passes its tag (code 0x0B). -/
def keysGood (s : State) (ks : List Wrapped) : Bool :=
  match roleKey s.boot.roles 3 0 with
  | some so => ks.all (wrapGood so)
  | none => ks.isEmpty

/-- The keys of a key section, unwrapped under the security officer key number 0 in force (R491, R492). -/
def unwrapAll (s : State) (ks : List Wrapped) : List RoleKey :=
  match roleKey s.boot.roles 3 0 with
  | some so => ks.map (unwrap so)
  | none => []

/-- Version of the running firmware. -/
def fwVersion (s : State) : W32 := match s.boot.fw with | some m => m.iversion | none => 0

/-- Version of the resident loader. -/
def loaderVersion (s : State) : W32 := match s.boot.loader with | some m => m.iversion | none => 0

/-- The checks that need no image data, in the order of R470: 0x03, then 0x01, then 0x04, 0x05, 0x06, 0x09 (R477, R478). -/
def manifestCheck (s : State) (m : Manifest) (kind : Nat) : Nat :=
  match manifestKey s m with
  | none => 0x03
  | some k =>
    if !m.marked || !Config.verify128s k m.header m.signature then 0x01
    else if (m.kind = 1 ∧ m.svn < s.boot.minLoader) ∨ (m.kind = 2 ∧ m.svn < s.boot.minFw) then 0x04
    else if m.cclass ≠ 0xFFFF ∧ m.cclass ≠ s.ident.computeClass then 0x05
    else if m.kind ≠ kind then 0x06
    else if !lengthFits m then 0x09
    else 0

/-- A manifest's generation is not newer than the running package's (code 0x07, R482). -/
def olderThanRunning (s : State) (m : Manifest) : Bool :=
  match s.boot.running with
  | some r => !newer m.generation r.man.generation
  | none => false

/-- The first check of the table "Image refusal codes" that a complete image fails, or 0 (R470). `fresh` asks for the
generation check of a package that is to be installed over the running one (R482). -/
def imageCheck (s : State) (m : Manifest) (img : List (Nat × Byte)) (kind : Nat) (fresh : Bool) : Nat :=
  match manifestKey s m with
  | none => 0x03
  | some k =>
    if !m.marked || !Config.verify128s k m.header m.signature then 0x01
    else if !chunksGood m img then 0x02
    else if (m.kind = 1 ∧ m.svn < s.boot.minLoader) ∨ (m.kind = 2 ∧ m.svn < s.boot.minFw) then 0x04
    else if m.cclass ≠ 0xFFFF ∧ m.cclass ≠ s.ident.computeClass then 0x05
    else if m.kind ≠ kind then 0x06
    else if m.kind = 3 ∧ fresh ∧ olderThanRunning s m then 0x07
    else if m.kind = 3 ∧ (fwVersion s).toNat < m.iversion.toNat then 0x08
    else if !lengthFits m then 0x09
    else if m.kind = 3 ∧ fresh ∧ !keysGood s (Config.packageOf m img).keys then 0x0B
    else 0

/-- Body of a security record (table "Event record types"). -/
def secBody (code role : Nat) (detail : W32) : Bytes := [BitVec.ofNat 8 code, BitVec.ofNat 8 role] ++ beBytes 4 detail.toNat

/-- A security event is logged. -/
def logSec (s : State) (code role : Nat) (detail : W32) : State := logEvent s ltSec (secBody code role detail)

/-- A refusal of an image: recorded in 0x1B00:0B and logged with code 2 (R470). -/
def refuseImage (s : State) (code : Nat) : State :=
  logSec (s.modBoot (fun b => { b with refusal := BitVec.ofNat 16 code })) 2 code 0

/-! ### The key store -/

/-- A role key added or replaced. -/
def putRole (ks : List RoleKey) (k : RoleKey) : List RoleKey :=
  ks.filter (fun x => !(x.role == k.role && x.num == k.num)) ++ [k]

/-- Body detail of a key change: role in bits 7:4 and number in bits 3:0. -/
def keyDetail (role num : Nat) : W32 := BitVec.ofNat 32 (role * 16 + num)

/-- Sessions under a changed key end (R492). -/
def endKeySessions (s : State) (role num : Nat) : State :=
  s.modDict (fun d => { d with sessions := d.sessions.filter (fun x => !(x.role == role && x.keyNo == num)) })

/-- A key change is logged and sessions under the key end (R492). -/
def keyChanged (s : State) (role num : Nat) : State := endKeySessions (logSec s 3 role (keyDetail role num)) role num

/-- Each installation of a package replaces every role key with the keys of its key section (R492). -/
def installKeys (s : State) (ks : List RoleKey) : State :=
  let old := s.boot.roles
  let s := s.modBoot (fun b => { b with roles := ks })
  (old ++ ks.filter (fun k => (roleKey old k.role k.num).isNone)).foldl (fun s k =>
    if roleKey old k.role k.num = roleKey ks k.role k.num then s else keyChanged s k.role k.num) s

/-- SHA-256 of A0 ‖ A1, with 32 zero bytes for an absent key (ANCHORS of R494, 0x1600:11). -/
def anchors (s : State) : Bytes :=
  let z := List.replicate 32 (0 : Byte)
  sha256 (s.boot.a0.getD z ++ s.boot.a1.getD z)

/-! ### Installing a package -/

/-- A new package gives the kept entries the values it carries (R277). -/
def packageSettings (s : State) (p : Package) : State :=
  s.modDict (fun d => { d with settings := p.settings.foldl (fun m x => mset m x.1 x.2) d.settings })

/-- An image becomes the running package and the old one the previous package (R481, R486). -/
def installPackage (s : State) (i : Installed) : State :=
  let s := s.modBoot (fun b => { b with previous := b.running, running := some i })
  let s := packageSettings s i.pkg
  installKeys s (unwrapAll s i.pkg.keys)

/-- The staged package's image with its contents, when its slot is complete. -/
def stagedPackage (s : State) : Option Installed :=
  if s.boot.sPkg.state = 2 ∨ s.boot.sPkg.state = 3 then
    let m := parseManifest (bytesOf s.boot.sPkg.man)
    some ⟨m, s.boot.sPkg.img, Config.packageOf m s.boot.sPkg.img, m.digest⟩
  else none

/-- The staged on-line change's manifest, when its slot is complete. -/
def stagedChange (s : State) : Option Manifest :=
  if s.boot.sChange.state = 2 then some (parseManifest (bytesOf s.boot.sChange.man)) else none

/-- Digest of the staged change; zeros when none is staged (CHECK of R193). -/
def changeDigest (s : State) : Bytes :=
  match stagedChange s with | some m => m.digest | none => List.replicate 32 0

/-- Own PAIR_CLASS (R212). -/
def pairClass (s : State) : W32 :=
  (s.ident.computeClass.zeroExtend 32) * 65536 + (match s.boot.fw with | some f => f.pclass.zeroExtend 32 | none => 0)

/-- The running package's digest; zeros when none. -/
def packageDigest (s : State) : Bytes :=
  match s.boot.running with | some r => r.man.digest | none => List.replicate 32 0

/-- The ring and station ports take the media of a package: a port locked at another medium loses its link, and the medium of
the ring ports is held in flash (R224). -/
def takeMedia (s : State) (p : Package) : State :=
  let one := fun (s : State) (x : Port × Nat) =>
    match p.media[x.2]? with
    | none => s
    | some m =>
      if (portOf s x.1).medium = m then s
      else modPort (setLink s x.1 false) x.1 (fun q => { q with medium := m, locked := none })
  let s := [(Port.p0, 0), (Port.p1, 1), (Port.s0, 2), (Port.s1, 3)].foldl one s
  match p.media.head? with
  | some m => s.modNet (fun n => { n with heldMedium := some m })
  | none => s

/-- A package's constants as they are stored: no tag keeps VAL 11 (R28, R37). -/
def storedConsts (l : List (Nat × TWord)) : List (Nat × TWord) := l.map (fun x => (x.1, { x.2 with tag := normTag x.2.tag }))

/-- The process image as a package gives it, before any word is in force: descriptors and constants (R37, R38), and the media of
the ports (R224). -/
def loadProgram (s : State) : State :=
  match pkgOf s with
  | none => s.modImg (fun i => { i with descs := [], consts := [], points := [] })
  | some p => (takeMedia s p).modImg (fun i => { i with descs := p.points, consts := storedConsts p.consts })

/-! ### The partner as this side knows it -/

/-- The partner owns, by OWN_IN or by its Miojo FLAGS while the link is up (R213). -/
def partnerOwning (s : State) : Bool := s.pair.ownIn || (s.pair.link && s.pair.pOwn && !s.pair.dead)

/-- The partner is absent: declared dead, or no ALIVE edge for 3 ms with the link down (R213). -/
def partnerAbsent (s : State) : Bool := s.pair.dead || (!s.pair.link && !partnerAlive s)

/-- The partner is alive without owning: by its FLAGS while the link is up, by its wires while it is down (R213). -/
def aliveNotOwning (s : State) : Bool :=
  if s.pair.link then s.pair.pAlive && !s.pair.pOwn else partnerAlive s && !s.pair.ownIn

/-! ### Hold reasons -/

/-- The partner's pair number or SIDE does not fit: neither module may start (table "Pairing conditions"). -/
def wrongPartner (s : State) : Bool :=
  isPaired s && !partnerAbsent s &&
    (match s.pair.hello with
     | none => false
     | some h => h.pairNo != pkgD s 0 (·.pairNo) || s.pair.pSideB == s.pins.sideB)

/-- The partner's PAIR_CLASS or package digest differs (table "Pairing conditions"). -/
def unlikePartner (s : State) : Bool :=
  isPaired s && !partnerAbsent s &&
    (match s.pair.hello with
     | none => false
     | some h => h.pairClass != pairClass s || h.digest != packageDigest s)

/-- The first reason that keeps the module in STOP, 0 for none (R457, table "Mode change reasons"). A conflict noted before a run mode
(`conflictSeen`) holds the module until its next reset: R19 does not say when that hold ends, and 0x1700:0A clears the conflict flag
only (DESIGN CHOICE, log entry 121). -/
def startHold (s : State) : Nat :=
  let p := pkgOf s
  if s.ctl.life ≠ .commissioned then 0x0101
  else if p.isNone then 0x0102
  else if s.boot.refusedPkg then 0x0103
  else if 0x7FFF < pkgD s 0 (·.pairNo) ∨ (isPaired s = false ∧ s.pins.sideB = true) then 0x0104
  else if pkgD s false (fun p => match p.slot with | some n => n != s.pins.pos.toNat | none => false) then 0x0105
  else if s.integ.conflict || s.ctl.conflictSeen then 0x0106
  else if wrongPartner s || (unlikePartner s && (s.pins.sideB || runCode s.pair.pMode || partnerOwning s)) then 0x0107
  else if !past s s.field.above19 (rMs 10) then 0x0108
  else if s.ctl.commandedStop then 0x0109
  else 0

end Sys2Proof.Machine
end

