-- ==== Sys2Proof/Machine/Reset.lean ====
section
/-!
DEFINITION. What every reset and every life-cycle change keeps and wipes, the recovery of the event log, and the entry to COLD (R44, R50, R277, R328, R332, R343, R464, R465).
-/

namespace Sys2Proof.Machine

/-- Entries of persistence None or Package among the RW and PAIR entries, which a reset restores: 0x1100:05, 0x1200:11,
0x1700:09, 0x1A00:08, 0x1A20:06, 0x1A10:09, 0x1B00:05, 0x1B00:0E, 0x1B00:10, 0x2210:05, 0x2210:04 and 0x2218:04 (R277). -/
def volatileSettings : List Nat :=
  [entryKey 0x1100 5, entryKey 0x1200 0x11, entryKey 0x1700 9, entryKey 0x1A00 8, entryKey 0x1A20 6, entryKey 0x1A10 9,
   entryKey 0x1B00 5, entryKey 0x1B00 0xE, entryKey 0x1B00 0x10, entryKey 0x2210 4, entryKey 0x2210 5, entryKey 0x2218 4]

/-- `n` bytes drawn from the TRNG. -/
def draw (s : State) (n : Nat) : Bytes × State :=
  ((List.range n).map (fun i => Config.trng (s.dict.fresh + i)), s.modDict (fun d => { d with fresh := d.fresh + n }))

/-- A native core pair after a reset: its memories wiped but for the MRAM retained window (R395, R465). -/
def CpSt.afterReset (c : CpSt) : CpSt := { CpSt.reset with mram := c.mram }

/-- The event log after a reset at a value of RAW, which starts again at 0: the ring, its pointers, the mirror, the two life figures with
the part second that has run, and the saturation flags of MRAM stand; the queue is lost with its SRAM and the other counters restart
(R328, R334, R354, R465). -/
def LogSt.afterReset (l : LogSt) (raw : W64) : LogSt :=
  { l with queue := [], lostSince := 0, secRaw := l.secRaw - raw, mirrorAt := 0, lost := { Ctr.reset with sat := l.lost.sat },
           bad := { Ctr.reset with sat := l.bad.sat } }

/-- The disturbance store after a reset: committed records stand, every other one is erased and counted (R343). -/
def DistSt.afterReset (d : DistSt) : DistSt :=
  { DistSt.reset with recs := d.recs, next := d.next, retired := d.retired, discarded := (Ctr.reset).add d.openRecs.length }

/-- A staging slot after a reset: a preloaded package is no longer prepared (R465, R485). -/
def SlotSt.afterReset (x : SlotSt) : SlotSt := if x.state = 3 then { x with state := 2 } else x

/-- Boot and security state after a reset: flash, the key store and MRAM stand (R465). -/
def BootSt.afterReset (b : BootSt) : BootSt :=
  { b with loaderRun := none, fetched := false, fw := none, sPkg := b.sPkg.afterReset, settled := false,
           refusedPkg := false, prepared := none, ts := 0, switchAt := none, attState := 0, attNonce := [], attReport := [],
           attHost := none, xfer := none, solicitAt := none }

/-- Integrity state after a reset: DEBUGGED, the last SILENT record and the restart history stand (R445, R447, R452). -/
def IntegSt.afterReset (g : IntegSt) : IntegSt :=
  { IntegSt.reset with debugged := g.debugged, reason := g.reason, unit := g.unit, detail := g.detail, powerAt := g.powerAt,
                       restarts := g.restarts }

/-- Body of a TYPE 0x0001 record. -/
def resetBody (s : State) (cause : Nat) : Bytes :=
  [BitVec.ofNat 8 cause] ++ beBytes 4 (loaderVersion s).toNat ++ beBytes 4 (fwVersion s).toNat

/-- Body of a TYPE 0x0080 record. -/
def distBody (code : Nat) (num : W32) : Bytes := [BitVec.ofNat 8 code] ++ beBytes 4 num.toNat

/-- Every reset: the state that survives it, everything else as at power-up, with a fresh module nonce (R281, R465). -/
def keepState (s : State) : State :=
  let t := { State.reset with
    pending := s.pending, out := s.out, ident := s.ident, pins := s.pins,
    ctl := { Ctl.reset with life := s.ctl.life, lifePending := s.ctl.lifePending, lifeChanges := s.ctl.lifeChanges },
    img := { Img.reset with forces := s.img.forces, copies := s.img.copies, committedTick := s.img.committedTick,
                            committedCycles := s.img.committedCycles },
    cyc := { CycSt.reset with tick := s.img.committedTick.getD 0,
                              tasks := (List.range 4).map (fun i =>
                                { TaskSt.reset with cycle := s.img.committedCycles.getD i 0 }),
                              change := { ChangeSt.reset with state := if s.boot.sChange.state = 2 then 1 else 0 } },
    n0 := s.n0.afterReset, n1 := s.n1.afterReset,
    net := { NetSt.reset with heldMedium := s.net.heldMedium },
    pair := { PairSt.reset with ownIn := s.pair.ownIn, ownInLowSince := if s.pair.ownIn then none else some 0 },
    dict := { DictSt.reset with settings := s.dict.settings.filter (fun x => !volatileSettings.contains x.1),
                                fresh := s.dict.fresh },
    log := s.log.afterReset s.time.raw, dist := s.dist.afterReset, integ := s.integ.afterReset, boot := s.boot.afterReset,
    field := { FieldSt.reset with lplus := s.field.lplus,
                                  above19 := if s.field.lplus.toNat > 19000 then some 0 else none } }
  let d := draw t 32
  d.2.modDict (fun x => { x with nonce := d.1 })

/-- What a life-cycle change wipes beyond a reset, with the pending keys brought into force; the new log opens with the
change and the forces it released (table "What is wiped", R50, R464, R490). -/
def wipeLife (s : State) (target : Life) : State :=
  let old := s.ctl.life
  let forced := s.img.forces
  let b := s.boot
  let k := b.pendKeys.getD ⟨[], none, none⟩
  let s := { s with
    img := Img.reset, cyc := CycSt.reset, dist := DistSt.reset,
    log := { LogSt.reset with power := 0 },
    n0 := CpSt.reset, n1 := CpSt.reset,
    dict := { s.dict with settings := [], sessions := [] },
    integ := { IntegSt.reset with stPassed := s.integ.stPassed },
    boot := { b with sLoader := SlotSt.reset, sChange := SlotSt.reset,
                     sPkg := if target = Life.commissioned then b.sPkg else SlotSt.reset,
                     lastKind := 0, running := none, previous := none, runPrev := false, refusal := 0, switchTick := 0,
                     olderFmt := 0, formats := [], curFmt := none,
                     a0 := k.a0, a1 := k.a1, roles := k.roles, pendKeys := none,
                     identityKey := if target = Life.decommissioned then none else b.identityKey } }
  let s := s.modCtl (fun c => { c with life := target, lifePending := none, lifeChanges := c.lifeChanges.inc })
  let r := mkLog s ltLife 1 [BitVec.ofNat 8 old.code, BitVec.ofNat 8 target.code] none
  (forced.map (·.point)).foldl (fun s p => logEvent s ltForce (forceLogBody s false p TWord.unused)) (writeLog s r)

/-- A pending life-cycle change is carried out in COLD, before the resident loader starts (R464). -/
def settleLife (s : State) : State :=
  match s.ctl.lifePending with
  | none => s
  | some t => wipeLife s t

/-- A reset of the running module: COLD with reason 0x0000, a TYPE 0x0001 record with its cause, the mode record, and the
records of disturbance records that were still open (R335, R343, R456). -/
def resetModule (s : State) (cause : Nat) : State :=
  let old := s.ctl.mode
  let lost := s.dist.openRecs
  let t := settleLife (keepState s)
  let t := logEvent t ltReset (resetBody t cause)
  let t := logEvent t ltMode (modeBody old .cold 0)
  lost.foldl (fun t r => logEvent t ltDist (distBody 2 r.number)) t

/-! ### Recovery of the event log -/

/-- The newer start-pointer copy with a good CRC (R332, R53). -/
def newerPtr (l : LogSt) : Option StartPtr :=
  match l.ptrA.filter (·.good), l.ptrB.filter (·.good) with
  | some a, some b => some (if newer a.number b.number then a else b)
  | some a, none => some a
  | none, b => b

/-- A record's CRC is good (R332, R436). -/
def LogRec.good (r : LogRec) : Bool := r.hurt.isNone

/-- Position after a record (R331). -/
def nextPos (r : LogRec) : Nat := if r.pos + r.len ≥ logRing then 0 else r.pos + r.len

/-- The walk from a record to the newest valid one, and how many records it stopped at with MARK set but a wrong CRC or
number (R332). -/
def walkLog (l : LogSt) : Nat → LogRec → LogRec × Nat
  | 0, r => (r, 0)
  | n + 1, r =>
    match l.recs.find? (fun x => x.pos == nextPos r) with
    | none => (r, 0)
    | some q =>
      if q.mark && q.good && q.number == r.number + 1 then walkLog l n q else (r, b2n q.mark)

/-- LOG_RECOVERY_WALK: the newest valid record is found, no record after it is read any more, and the next one takes the number after it
(R332). -/
def recoverLog (s : State) : State :=
  let l := s.log
  match newerPtr l with
  | none => s
  | some p =>
    match l.recs.find? (fun x => x.pos == p.pos && x.number == p.number) with
    | none => s
    | some r =>
      let w := walkLog l l.recs.length r
      s.modLog (fun l => { l with
        recs := l.recs.filter (fun x => !newer x.number w.1.number),
        next := w.1.number + 1, writePos := nextPos w.1, bad := l.bad.add w.2 })

end Sys2Proof.Machine
end

