-- ==== Sys2Proof/Machine/Field.lean ====
section
/-!
DEFINITION. The field side: D channels, current loops, the field supply, the barrier and the local converter (13_field_io).
-/

namespace Sys2Proof.Machine

/-! ### Records and changes of one channel -/

/-- A D channel's record. -/
def dChan (s : State) (n : Nat) : DChan := s.field.ds.getD n DChan.reset

/-- A LOOP channel's record. -/
def lChan (s : State) (n : Nat) : LChan := s.field.ls.getD n LChan.reset

/-- A D channel changed. -/
def modD (s : State) (n : Nat) (f : DChan → DChan) : State := s.modField (fun x => { x with ds := lupd x.ds n f })

/-- A LOOP channel changed. -/
def modL (s : State) (n : Nat) (f : LChan → LChan) : State := s.modField (fun x => { x with ls := lupd x.ls n f })

/-- Body of a field record (table "Event record types", R378). -/
def fieldBody (group code detail : Nat) : Bytes := [BitVec.ofNat 8 group, BitVec.ofNat 8 code] ++ beBytes 4 detail

/-- A field event is logged (R378). -/
def logField (s : State) (group code detail : Nat) : State := logEvent s ltField (fieldBody group code detail)

/-- A current-output function (R364). -/
def loopOut (func : Nat) : Bool := func == 2 || func == 3

/-- Field status: FIO_STATUS bits 5:0 (R379). -/
def fieldStatus (s : State) : Nat :=
  let f := s.field
  b2n f.dfault + 2 * b2n f.sag + 4 * b2n f.latch + 8 * b2n f.wdt + 16 * b2n f.lfault + 32 * b2n f.ready

/-- Calibration runs: it takes the whole 16 µs that it may (R377; DESIGN CHOICE, log entry 123). -/
def calRuns (s : State) : Bool := within s s.field.calAt (rUs 16)

/-- The reference check runs, likewise (R377, log entry 123). -/
def checkRuns (s : State) : Bool := within s s.field.refAt (rUs 16)

/-- LPLUS as the field side reports it, in mV: 0 until it is powered and refreshed (R379, R381). -/
def lplusMv (s : State) : Nat := if s.field.ready then s.field.lplus.toNat else 0

/-- Latest code of a converter input (R372). -/
def convCode (s : State) (i : Nat) : Nat := (mgetD s.field.codes i 0).toNat

/-- Readback of a LOOP channel in 0.5 µA, the total for a paired output (R364). -/
def loopUa (s : State) (n : Nat) : Nat :=
  let c := loopIo s n
  if c.paired && loopOut c.func then 2 * convCode s (16 + n) else convCode s (16 + n)

/-- F32 value of a converter code in the unit of its input: volts, milliamperes or degrees Celsius (R372). -/
def codeF32 (input code : Nat) : W32 :=
  if input = 21 then f32 (Q.mk' ((code : Int) - 4000) 100) else f32 (Q.mk' code 2000)

/-- F32 milliamperes of a current in 0.5 µA. -/
def uaF32 (ua : Nat) : W32 := f32 (Q.mk' ua 2000)

/-- Tag of the table "Loop current quality" (R365), for a current in 0.5 µA. -/
def loopTag (ua : Nat) : Byte :=
  if ua < 7200 ∨ 42000 ≤ ua then withVal tLIM 2
  else if ua < 7600 ∨ 41000 < ua then withVal tLIM 1
  else 0

/-! ### Outputs -/

/-- A D switch is on while its command is 1 and nothing holds it off (R356, R361, R363). -/
def FieldSt.mayDrive (f : FieldSt) (d : DChan) : Bool := d.command && !d.tripped && !f.latch && !f.tripHold

/-- A D output takes a command; a command of 0 clears a trip (R361, R362). -/
def setD (s : State) (n : Nat) (v : Bool) : State :=
  modD s n (fun d =>
    let d := { d with command := v, changedAt := if d.command = v then d.changedAt else some s.time.raw,
                      tripped := d.tripped && v }
    { d with on := s.field.mayDrive d })

/-- Every D switch takes its command as the latch, the trips and the watchdog allow (R356, R363). -/
def driveD (s : State) : State :=
  s.modField (fun f => { f with ds := f.ds.map (fun d => { d with on := f.mayDrive d }) })

/-- A paired output bound to a loop of drive mode 1 on a side that is not the LEAD: it stays off (R184). -/
def leadDrives (s : State) (n : Nat) : Bool :=
  isPaired s && !owns s && (pkgD s [] (·.loops)).any (fun x => x.2.output == some n && x.2.leadOnly)

/-- A side in full regulates the total to its command by its own current, which it can raise from nothing only (R370). -/
def fullUa (source command total : Nat) : Nat := ((source : Int) + command - total).toNat

/-- The current of a paired output that takes a command: half of it in share, to which it comes from off; in full its own current
follows the change, the total being regulated (R184, R370). -/
def LChan.pairedTo (l : LChan) (ua : Nat) (off : Bool) : LChan :=
  if off then { l with commandUa := ua, sourceUa := 0, shareSt := .off }
  else
    match l.shareSt with
    | .full => { l with commandUa := ua, sourceUa := fullUa l.sourceUa ua l.commandUa }
    | .share | .off => { l with commandUa := ua, sourceUa := ua / 2, shareSt := .share }

/-- A current output takes a command in 0.5 µA; one that the watchdog holds off takes it when the trip ends (R356, R364, R370). -/
def setLoopUa (s : State) (n ua : Nat) : State :=
  modL s n (fun l =>
    if s.field.tripHold then { l with commandUa := ua }
    else if (loopIo s n).paired then l.pairedTo ua (leadDrives s n)
    else { l with commandUa := ua, sourceUa := ua })

/-- A readback of a paired output in full corrects half of what the total lies off the command, so that two sides in full come to it
together (R370; how fast the regulator acts is not given, DESIGN CHOICE, log entry 124). -/
def regulate (s : State) (input : Nat) : State :=
  let n := input - 16
  if input < 16 ∨ 20 ≤ input ∨ (lChan s n).shareSt ≠ .full then s
  else
    modL s n (fun l => { l with
      sourceUa := ((l.sourceUa : Int) + ((l.commandUa : Int) - (loopUa s n : Int)).tdiv 2).toNat })

/-- A command in mA clamped to 3.8–20.5 mA, in 0.5 µA (R364). -/
def clampUa (v : W32) : Nat :=
  if isInf32 v then (if f32neg v then 7600 else 41000)
  else (max 7600 (min 41000 ((f32q v).mul ⟨false, 2000, 1⟩).round)).toNat

/-- A current output from a point: INVALID or NaN takes the action of 0x1811:06 + n. The last current that action 0 holds is the one
commanded last, the 3.5 mA of R357 among them; for a paired output that was off it is the loop's, as it is read back (R366, log entry
124). -/
def pointUa (s : State) (n : Nat) (w : TWord) : Nat :=
  if tagSev w.tag = 2 ∨ isNan32 w.val then
    match setting s (0x1811 + n) 6 1 with
    | 0 => if (lChan s n).shareSt = .off ∧ (loopIo s n).paired = true then loopUa s n else (lChan s n).commandUa
    | 1 => lowAlarm
    | _ => 43000
  else clampUa w.val

/-- A point's owning task is one of those due. -/
def pointDue (s : State) (due : BitVec 4) (p : Nat) : Bool := due.getLsbD (descOf s.img p).task

/-- A D output at release takes its command point (R64, R358). -/
def releaseD (due : BitVec 4) (s : State) (n : Nat) : State :=
  let c := dCfg s n
  match c.command with
  | some p => if c.func = 4 ∧ pointDue s due p then setD s n ((pointWord s.img p).val.getLsbD 0) else s
  | none => s

/-- A current output from a point at release (R64, R364). -/
def releaseL (due : BitVec 4) (s : State) (n : Nat) : State :=
  let c := loopIo s n
  match c.command with
  | some p => if c.func = 2 ∧ pointDue s due p then setLoopUa s n (pointUa s n (pointWord s.img p)) else s
  | none => s

/-- The field outputs of a release; TEST holds them, and at the first release after it every one takes its command (R64, R458). -/
def applyOutputs (s : State) (due : BitVec 4) : State :=
  if inTest s then s
  else
    let all := if s.ctl.testLeft then 15 else due
    let s := s.modCtl (fun c => { c with testLeft := false })
    (List.range 4).foldl (releaseL all) ((List.range 16).foldl (releaseD all) s)

/-- Entry to a run mode: paired outputs leave off for share, those of drive mode 1 on the LEAD only (R184, R370). -/
def fieldRun (s : State) : State :=
  if s.field.tripHold then s else
  s.modField (fun f => { f with ls := (f.ls.zipIdx).map (fun x =>
    let c := loopIo s x.2
    if c.paired && loopOut c.func && x.1.shareSt == .off && !leadDrives s x.2 then x.1.pairedTo x.1.commandUa false else x.1) })

/-! ### Readback and inputs at a cutoff -/

/-- The readback of a D output is at fault against its command (table "D readback judgement"). -/
def dFaulty (paired command readback : Bool) : Bool := (command && !readback) || (!command && readback && !paired)

/-- A D output whose readback point is owned by a due task, at least 2 ms after its last command change (R362). -/
def judged (s : State) (due : BitVec 4) (n : Nat) : Bool :=
  let c := dCfg s n
  c.func == 4 && (match c.readback with | some p => pointDue s due p | none => false) &&
    !(within s (dChan s n).changedAt (rMs 2))

/-- What the field side holds at the instant of a cutoff: the levels its readbacks are judged by, and the displaced inputs
that it shows (R60, R362, R377). -/
def holdField (s : State) : State :=
  s.modField (fun f => { f with ds := f.ds.map (fun d => { d with atCut := d.terminal }), cutDisplaced := f.displaced.length })

/-- The judgement of the readbacks at an input cutoff, on the levels held there (R362). A fault that was not standing is
logged. -/
def judgeField (s : State) (due : BitVec 4) : State :=
  let now := (List.range 16).map (fun n =>
    judged s due n && dFaulty (dCfg s n).paired (dChan s n).command (dChan s n).atCut)
  let fresh := (List.range 16).any (fun n => now.getD n false && !(dChan s n).fault)
  let mask := ((List.range 16).map (fun n => b2n (now.getD n false) * 2 ^ n)).sum
  let t := s.modField (fun f => { f with
    dfault := f.dfault || now.any id,
    ds := (f.ds.zipIdx).map (fun x =>
      { x.1 with fault := if judged s due x.2 then now.getD x.2 false else x.1.fault, sensed := x.1.atCut }) })
  if fresh then logField t 0 0 mask else t

/-- Word of a D channel's point. -/
def dReadback (s : State) (n p : Nat) : TWord :=
  let d := dChan s n
  let sag := s.field.sagSeen.getLsbD (descOf s.img p).task
  ⟨withVal (tIf d.fault tLIM) (b2n (d.fault || sag)), bWord d.sensed⟩

/-- The tag a converter-fed point adds: QUESTIONABLE while the reference check fails, SUB where calibration displaced the
conversion (R377). -/
def convTag (s : State) (input : Nat) : Byte :=
  withVal (tIf (s.field.displaced.contains input) tSUB) (b2n s.field.refBad)

/-- A tag with the bits and severity of another added. -/
def addTag (a b : Byte) : Byte := worsen (a ||| (b &&& 0x3F)) (tagSev b)

/-- Points of D channel `n` with their words (R358). -/
def dPoints (s : State) (n : Nat) : List (Nat × TWord) :=
  let c := dCfg s n
  let d := dChan s n
  match c.input with
  | some p =>
    if c.func = 1 ∨ c.func = 2 then [(p, goodWord (bWord d.level))]
    else if c.func = 3 then [(p, goodWord d.count)]
    else if c.func = 5 then [(p, ⟨convTag s n, codeF32 n (convCode s n)⟩)]
    else []
  | none => []

/-- Readback point of D channel `n` with its word (R362). -/
def dBackPoints (s : State) (n : Nat) : List (Nat × TWord) :=
  match (dCfg s n).readback with
  | some p => if (dCfg s n).func = 4 then [(p, dReadback s n p)] else []
  | none => []

/-- Points of LOOP channel `n` with their words (R364, R365, R367). -/
def lPoints (s : State) (n : Nat) : List (Nat × TWord) :=
  let c := loopIo s n
  let ua := loopUa s n
  let base := addTag (loopTag ua) (convTag s (16 + n))
  let inp := match c.input with | some p => if c.func = 1 then [(p, (⟨base, uaF32 ua⟩ : TWord))] else [] | none => []
  let short := (lChan s n).shortfall
  let sag := fun p => s.field.sagSeen.getLsbD (descOf s.img p).task
  let back := match c.readback with
    | some p =>
      if loopOut c.func then
        [(p, (⟨addTag base (withVal (tIf short tLIM) (b2n (short || sag p))), uaF32 ua⟩ : TWord))] else []
    | none => []
  inp ++ back

/-- Word of a point fed by a sequencer entry: the code of its last result, or the quantity for an F32 point (R372, R374). -/
def seqPoints (s : State) (e : Nat) : List (Nat × TWord) :=
  let c := seqCfg s e
  if c.boundTo = 2 then
    let code := convCode s (32 + e)
    let v := if (descOf s.img c.number).typ = tyF32 then codeF32 c.input code else BitVec.ofNat 32 code
    [(c.number, ⟨convTag s c.input, v⟩)]
  else []

/-- This side's field and converter input words at a cutoff, for the tasks due; TST in TEST (R32, R60, R358). -/
def fieldInputs (s : State) (due : BitVec 4) : List (Nat × TWord) :=
  let st := match (fieldCfg s).statusPoint with
    | some p => [(p, goodWord (BitVec.ofNat 32 (fieldStatus s)))]
    | none => []
  ((List.range 16).flatMap (seqPoints s) ++ (List.range 16).flatMap (dPoints s) ++
    (List.range 16).flatMap (dBackPoints s) ++ (List.range 4).flatMap (lPoints s) ++ st).filterMap
      (fun x => if pointDue s due x.1 then some (x.1, TWord.orTag x.2 (tIf (inTest s) tTST)) else none)

/-- What a cutoff clears: the sag mark of the due tasks, the displaced inputs, and shortfalls that are over (R363, R367,
R377). -/
def fieldCutoff (s : State) (due : BitVec 4) : State :=
  s.modField (fun f => { f with
    sag := f.sag && decide (f.lplus.toNat < 18000), sagSeen := (if f.lplus.toNat < 18000 then f.sagSeen else f.sagSeen &&& ~~~ due),
    displaced := f.displaced.drop f.cutDisplaced, cutDisplaced := 0,
    ls := (f.ls.zipIdx).map (fun x =>
      if x.1.shortfall && decide (x.1.commandUa ≤ loopUa s x.2 + 400) then { x.1 with shortfall := false } else x.1) })

/-! ### The steps of the D group -/

/-- Filtered level of a D input after one reading: F + 1 equal readings pass a new level (R359). -/
def debounce (F : Nat) (d : DChan) (v : Bool) : DChan :=
  if v = d.level then { d with terminal := v, run := 0 }
  else if F ≤ d.run then { d with terminal := v, level := v, run := 0 }
  else { d with terminal := v, run := d.run + 1 }

/-- D_INPUT_SAMPLE: the level of each input is read and debounced (R359). -/
def execDInputSample (levels : List Bool) (s : State) : Res :=
  .next (s.modField (fun f => { f with
    ds := (f.ds.zipIdx).map (fun x => debounce (setting s (0x1801 + x.2) 6 8) x.1 (levels.getD x.2 false)) }))

/-- D_INPUT_TEST: each input stage is tested with an injected current; a failed test sets the D group fault (R359). -/
def execDInputTest (failed : List Nat) (s : State) : Res :=
  let bad := fun n => failed.contains n && ((dCfg s n).func == 1 || (dCfg s n).func == 2)
  .next (s.modField (fun f => { f with
    dfault := f.dfault || (List.range 16).any bad,
    ds := (f.ds.zipIdx).map (fun x => { x.1 with testFail := bad x.2 }) }))

/-- PULSE_EDGE: a rising edge on an input in pulse mode raises its count, which wraps (R360). -/
def execPulseEdge (n : Nat) (s : State) : Res :=
  if (dCfg s n).func = 3 then .next (modD s n (fun d => { d with count := d.count + 1 })) else .next s

/-- OVERCURRENT_TRIP: a D output that is on trips off; counted, logged, and the D group fault sets (R361). -/
def execOvercurrentTrip (n : Nat) (s : State) : Res :=
  if (dCfg s n).func = 4 ∧ (dChan s n).on = true then
    let s := modD s n (fun d => { d with on := false, tripped := true, trippedAt := some s.time.raw })
    .next (logField (s.modField (fun f => { f with trips := f.trips.inc, dfault := true })) 0 1 n)
  else .next s

/-- TRIP_RETRY: a tripped channel retries 1 s after the trip while its command stays 1 (R361). -/
def execTripRetry (n : Nat) (s : State) : Res :=
  let d := dChan s n
  if d.tripped && d.command && past s d.trippedAt (rSec 1) then
    .next (modD s n (fun d => let d := { d with tripped := false }; { d with on := s.field.mayDrive d }))
  else .next s

/-! ### The field supply -/

/-- LPLUS_SAG: below 18 V the readbacks become questionable; below 14 V the D outputs latch off (R363). -/
def execLplusSag (mv : W16) (s : State) : Res :=
  if 18000 ≤ mv.toNat then .next s
  else
    let newSag := !s.field.sag
    let newLatch := decide (mv.toNat < 14000) && !s.field.latch
    let s := s.modField (fun f => { f with lplus := mv, sag := true, sagSeen := 15, above19 := none })
    let s := if newSag then logField (s.modField (fun f => { f with sags := f.sags.inc })) 2 0 mv.toNat else s
    if newLatch then
      .next (logField (driveD (s.modField (fun f => { f with latch := true, latchOffs := f.latchOffs.inc }))) 0 2 mv.toNat)
    else .next s

/-- LPLUS_RECOVER: above 19 V for 10 ms the latch is released and every D output takes its command (R363). -/
def execLplusRecover (mv : W16) (s : State) : Res :=
  let s := s.modField (fun f => { f with lplus := mv })
  if mv.toNat ≤ 19000 then .next (s.modField (fun f => { f with above19 := none }))
  else
    match s.field.above19 with
    | none => .next (s.modField (fun f => { f with above19 := some s.time.raw }))
    | some t =>
      if past s (some t) (rMs 10) then
        let was := s.field.latch
        let s := driveD (s.modField (fun f => { f with latch := false, sag := false }))
        .next (if was then logField s 0 3 mv.toNat else s)
      else .next s

/-! ### The barrier -/

/-- FIELD_REFRESH: the AON domain's refresh; a trip ends after 100 ms of refreshing in a run mode (R356). -/
def execFieldRefresh (s : State) : Res :=
  let broken := !(within s s.field.refreshAt (rMs 8)) || s.field.refreshAt.isNone
  let s := send s .barrierRefresh
  let s := s.modField (fun f => { f with
    refreshFrom := if broken then some s.time.raw else f.refreshFrom, refreshAt := some s.time.raw, ready := true })
  if s.field.tripHold && s.ctl.mode.run && past s s.field.refreshFrom (rMs 100) then
    let s := driveD (s.modField (fun f => { f with tripHold := false }))
    .next ((List.range 4).foldl (fun s n => if loopOut (loopIo s n).func then setLoopUa s n (lChan s n).commandUa else s)
      (fieldRun s))
  else .next s

/-- The outputs as SILENT sets them, the commands standing (R356, R357). -/
def fieldTrip (s : State) : State :=
  s.modField (fun f => { f with
    ds := f.ds.map (fun d => { d with on := false }),
    ls := (f.ls.zipIdx).map (fun x =>
      let c := loopIo s x.2
      if loopOut c.func then
        (if c.paired then { x.1 with sourceUa := 0, shareSt := .off } else { x.1 with sourceUa := lowAlarm })
      else x.1) })

/-- FIELD_WATCHDOG_TRIP: 8 ms without a refresh, the field side switches its outputs off (R356). -/
def execFieldWatchdogTrip (s : State) : Res :=
  if s.field.ready && past s s.field.refreshAt (rMs 8) then
    let ms := match s.field.refreshAt with | some t => elapsed s t / 16000000 | none => 0
    let s := fieldTrip (s.modField (fun f => { f with
      wdt := true, tripHold := true, ready := false, wdTrips := f.wdTrips.inc }))
    .next (logField s 4 0 ms)
  else .next s

/-! ### Current loops -/

/-- SHARE_TO_FULL: a paired output in share whose total stays below its command enters full, and raises its own current until the total
equals the command (R370). -/
def execShareToFull (n : Nat) (s : State) : Res :=
  let c := loopIo s n
  if c.paired && loopOut c.func && (lChan s n).shareSt == .share then
    let total := loopUa s n
    let s := modL s n (fun l => { l with
      shareSt := .full, sourceUa := max l.sourceUa (fullUa l.sourceUa l.commandUa total), fullEntries := l.fullEntries.inc })
    .next (logField s 1 0 n)
  else .next s

/-- FULL_TO_SHARE: a side in full returns to share 1 ms after its partner enters TWIN (R370). -/
def execFullToShare (n : Nat) (s : State) : Res :=
  if (lChan s n).shareSt == .full && s.pair.pMode == 7 && past s s.pair.pTwinAt (rMs 1) then
    let s := modL s n (fun l => { l with shareSt := .share, sourceUa := l.commandUa / 2 })
    .next (logField s 1 1 n)
  else .next s

/-- COMPLIANCE_SHORTFALL: a readback more than 0.2 mA below the command for 2 ms (R367). -/
def execComplianceShortfall (n : Nat) (s : State) : Res :=
  if loopOut (loopIo s n).func && !(lChan s n).shortfall then
    let s := modL s n (fun l => { l with shortfall := true, shortfalls := l.shortfalls.inc })
    .next (logField (s.modField (fun f => { f with lfault := true })) 1 2 n)
  else .next s

/-! ### The local converter -/

/-- The entries of a trigger hold their inputs together, in entry order (R373). -/
def holdEntries (s : State) (r : W64) (sel : Nat → SeqCfg → Bool) : State :=
  (List.range 16).foldl (fun s e => let c := seqCfg s e; if sel e c then addHold s (some e) c.input r else s) s

/-- An injection that would run into a grid or cutoff hold at RAW `r`, by its place in the queue: it waits behind the conversion in
progress, or its own of 1 µs does not end before (R375). -/
def runsInto (r : W64) (x : HoldReq × Nat) : Bool :=
  x.1.entry.isNone && (decide (0 < x.2) || decide ((r - x.1.hold + BitVec.ofNat 64 (rUs 1000)).toNat < rUs 1001))

/-- A grid or cutoff group holds now; an injection that would run into it waits until the group is converted (R373, R375). -/
def holdGroup (s : State) (sel : Nat → SeqCfg → Bool) : State :=
  let r := s.time.raw
  let late := s.field.holds.zipIdx.filter (runsInto r)
  let n := ((List.range 16).filter (fun e => sel e (seqCfg s e))).length
  if n = 0 then s
  else
    let s := holdEntries (s.modField (fun f => { f with
      holds := (f.holds.zipIdx.filter (fun x => !runsInto r x)).map (·.1) })) r sel
    s.modField (fun f => { f with
      holds := f.holds ++ late.map (fun x => { x.1 with hold := r + BitVec.ofNat 64 (rUs n) }) })

/-- A conversion of the grid or of a cutoff is due within a time (R376). -/
def convSoon (s : State) (within_ : Nat) : Bool :=
  let any := fun (t : Nat) => (List.range 16).any (fun e => (seqCfg s e).trigger == t)
  let now := timeNow s
  let soon := fun (at_ : Nat) => decide (now < at_ ∧ at_ ≤ now + within_)
  (any 1 && soon (gridAt 14400 (gridIdx 14400 now + 1))) || (any 2 && soon (gridAt 4800 (gridIdx 4800 now + 1))) ||
    (any 3 && soon (tickInstant s + tickLen - rUs 8))

/-- The converter is powered while a conversion waits or is due within 10 µs, and wakes 2 µs, its start-up, before a grid or cutoff
hold; the field side is unpowered in COLD (R376, R454). -/
def powerConverter (s : State) : State :=
  let due := clocksRun s && s.ctl.mode != .cold && convSoon s (if s.field.awake then rUs 10 else rUs 2 + 640)
  s.modField (fun f => { f with awake := !f.holds.isEmpty || due })

/-- An injection is pending. -/
def injPending (s : State) : Bool := s.field.holds.any (fun h => h.entry.isNone)

/-- A result written to ADC_RESe (R380). -/
def SeqRes.write (r : SeqRes) (code : W16) : SeqRes := { r with code := code, isNew := true, lost := r.lost || r.isNew }

/-- A conversion's result goes to its register and, with its hold's NS32, to the event fabric (R374, R423). -/
def storeConversion (s : State) (h : HoldReq) (code : W16) : State :=
  let s := regulate (powerConverter (s.modField (fun f => { f with
    holds := f.holds.drop 1, codes := mset f.codes h.input code }))) h.input
  match h.entry with
  | none => s.modField (fun f => { f with injCode := code, injDone := true })
  | some e =>
    let c := seqCfg s e
    let ns := ns32Of (stampTime s h.hold)
    let s := s.modField (fun f => { f with
      codes := mset f.codes (32 + e) code, res := lupd f.res e (fun r => { r with ns := ns }) })
    let s := if c.toReg || c.toDma then s.modField (fun f => { f with res := lupd f.res e (fun r => r.write code) }) else s
    let s := if c.toDma then pulse s e ns else s
    seqConsume s (16 + e)

/-- A task of the converter that is queued into slack may start: the last one of its kind lies its period back (R377). -/
def slackTask (s : State) (last : Option W64) (period : Nat) : Bool :=
  clocksRun s && s.ctl.mode != .cold && s.cyc.phase == .slack && (last.isNone || past s last period)

/-- CONVERTER_CALIBRATION: once per interval of 0x1900:01, in slack, offsets and gains are taken, and a waiting cutoff conversion is
displaced (R377). -/
def execConverterCalibration (offsets gains : List Int) (s : State) : Res :=
  if !slackTask s s.field.calAt (rSec (setting s 0x1900 1 60)) then .next s else
  let cut := fun (h : HoldReq) => match h.entry with | some e => (seqCfg s e).trigger == 3 | none => false
  .next (s.modField (fun f => { f with
    offsets := offsets, gains := gains, lastCal := s.log.seconds, calAt := some s.time.raw,
    displaced := f.displaced ++ (f.holds.filter cut).map (·.input), holds := f.holds.filter (fun h => !cut h) }))

/-- REFERENCE_CHECK: every 1 s, in slack, the reference against 2.5 V ± 0.1 %, in µV (R377). -/
def execReferenceCheck (uv : Nat) (s : State) : Res :=
  if !slackTask s s.field.refAt (rSec 1) then .next s else
  let s := s.modField (fun f => { f with refAt := some s.time.raw })
  if 2497500 ≤ uv ∧ uv ≤ 2502500 then .next (s.modField (fun f => { f with refBad := false, refErr := false }))
  else
    let s := s.modField (fun f => { f with refBad := true, refErr := true, refFails := f.refFails.inc })
    .next (logField s 3 0 (uv / 500))

/-- The cutoff 8 µs before which the entries of trigger 3 of a task hold now: the next multiple of 250 µs, where the task is due
at that tick, its hold is reached and has not been made (R373). -/
def cutoffNear (s : State) (task : Nat) : Option Nat :=
  let m := tickInstant s + tickLen
  if m ≤ timeNow s + rUs 8 ∧ (dueAt s (s.cyc.tick.toNat + b2n (!s.cyc.firstTick))).getLsbD task = true ∧
      mget s.field.cutHeld task ≠ some m then some m
  else none

/-- CUTOFF_CONVERTER_HOLD: 8 µs before the cutoff of a task the entries of trigger 3 hold together, in entry order: those whose point
this task owns, and those of every other task due at the same cutoff (R373). -/
def execCutoffConverterHold (task : Nat) (s : State) : Res :=
  if !clocksRun s then .next s else
  match cutoffNear s task with
  | none => .next s
  | some m =>
    let due := (List.range 4).filter (fun t => cutoffNear s t == some m)
    .next (holdGroup (s.modField (fun f => { f with cutHeld := due.foldl (fun h t => mset h t m) f.cutHeld }))
      (fun _ c => c.trigger == 3 && c.boundTo == 2 && due.contains (descOf s.img c.number).task))

end Sys2Proof.Machine
end

