-- ==== Sys2Proof/Machine/Native.lean ====
section
/-!
DEFINITION. The native core pairs: memory map, MPU and target firewalls, violations, interrupt contexts, clocks, and the call context (14_native, 15_interrupts_dma).
-/

namespace Sys2Proof.Machine

/-- A core pair's record. -/
def cpOf (s : State) (c : Cp) : CpSt := match c with | .n0 => s.n0 | .n1 => s.n1

/-- A core pair's record changed. -/
def modCp (s : State) (c : Cp) (f : CpSt → CpSt) : State := match c with | .n0 => s.modN0 f | .n1 => s.modN1 f

/-- Number of a core pair. -/
def Cp.num : Cp → Nat
  | .n0 => 0 | .n1 => 1

/-- Owner code of a package value: 0 none, 1 N0, 2 N1. -/
def cpOfCode (n : Nat) : Option Cp := if n = 1 then some .n0 else if n = 2 then some .n1 else none

/-- The core pair that owns the DMA engine (R423). -/
def dmaOwner (s : State) : Option Cp := cpOfCode (pkgD s 0 (·.dmaOwner))

/-- The core pair that writes the ADC block (R380). -/
def adcWriter (s : State) : Option Cp := cpOfCode (pkgD s 0 (·.adcWriter))

/-- A core pair's frozen flag (MPU_FREEZE). -/
def Cp.frozen (s : State) (c : Cp) : Bool := (cpOf s c).frozen

/-- The core pair can run code: the PLL of its clock is locked, and it is released, not frozen and not halted (R404, R422, R448). -/
def coreReady (s : State) (c : Cp) : Bool :=
  pllOn s.ctl.mode && (cpOf s c).released && !(cpOf s c).frozen && !(cpOf s c).halted

/-- The core pair runs code: it can, and its clock is not stopped by a WFI (R416, R422). -/
def coreRuns (s : State) (c : Cp) : Bool := coreReady s c && !(cpOf s c).clk.asleep

/-! ### The memory map -/

/-- Bases of the peripheral blocks, in the order of their target numbers from 4 (table "Peripheral blocks"). -/
def blockBases : List Nat :=
  [0x40000000, 0x40010000, 0x40020000, 0x40028000, 0x40030000, 0x40040000, 0x40041000, 0x40050000, 0x40060000, 0x40070000,
   0x40080000, 0x40090000, 0x400A0000, 0x400B0000]

/-- Bytes of a core pair's DRAM share (R387). -/
def dramShare (s : State) (c : Cp) : Nat :=
  67108864 * (match c with | .n0 => pkgD s 0 (·.shareN0) | .n1 => pkgD s 0 (·.shareN1))

/-- Target of an address in a core pair's map; none where nothing is mapped (R386–R388). -/
def targetOf (s : State) (c : Cp) (a : Nat) : Option Nat :=
  if a < 0x200000 then some 0
  else if 0x10000000 ≤ a ∧ a < 0x10100000 then some 1
  else if 0x10100000 ≤ a ∧ a < 0x10200000 then some 2
  else if 0x20000000 ≤ a ∧ a < 0x20040000 then some 3
  else if 0x80000000 ≤ a ∧ a < 0x80000000 + dramShare s c then some 18
  else (List.range 14).findSome? (fun i =>
    let b := blockBases.getD i 0
    if b ≤ a ∧ a < b + 4096 then some (i + 4) else none)

/-- The core pair whose map a master uses: its own, the DMA engine's owner's, and N0's for the others. -/
def mapOf (s : State) (m : Master) : Cp :=
  match m with
  | .n0 => .n0
  | .n1 => .n1
  | .dma => (dmaOwner s).getD .n0
  | .dap | .mgmt => .n0

/-- Byte of a core pair's own memories. -/
def cpByte (s : State) (c : Cp) (a : Nat) : Byte :=
  let p := cpOf s c
  if a < 0x200000 then byteAt p.tcm a
  else if 0x20000000 ≤ a ∧ a < 0x20040000 then byteAt p.mram (a - 0x20000000)
  else byteAt p.dram (a - 0x80000000)

/-- A byte stored in a core pair's own memories. -/
def cpPut (s : State) (c : Cp) (a : Nat) (b : Byte) : State :=
  modCp s c (fun p =>
    if a < 0x200000 then { p with tcm := putByte p.tcm a b }
    else if 0x20000000 ≤ a ∧ a < 0x20040000 then { p with mram := putByte p.mram (a - 0x20000000) b }
    else { p with dram := putByte p.dram (a - 0x80000000) b })

/-- Bytes stored at rising addresses in a core pair's own memories. -/
def cpPutAll (s : State) (c : Cp) (a : Nat) : Bytes → State
  | [] => s
  | b :: t => cpPutAll (cpPut s c a b) c (a + 1) t

/-- Bytes read at rising addresses from a core pair's own memories. -/
def cpBytes (s : State) (c : Cp) (a n : Nat) : Bytes := (List.range n).map (fun i => cpByte s c (a + i))

/-! ### The MPU and the target firewalls -/

/-- Access kinds of MPU_FINFO.TYPE. -/
def kRead : Nat := 0
def kWrite : Nat := 1
def kFetch : Nat := 2

/-- A master's own MPU context (R396); the management cores' context is not native state. -/
def mpuCtx (s : State) (m : Master) : MpuCtx :=
  match m with
  | .n0 => s.mpu.ctx0 | .n1 => s.mpu.ctx1 | .dma => s.mpu.ctxD | .dap => s.mpu.ctxP | .mgmt => MpuCtx.reset

/-- A master's own MPU context changed. -/
def modCtx (s : State) (m : Master) (f : MpuCtx → MpuCtx) : State :=
  s.modMpu (fun x =>
    match m with
    | .n0 => { x with ctx0 := f x.ctx0 } | .n1 => { x with ctx1 := f x.ctx1 }
    | .dma => { x with ctxD := f x.ctxD } | .dap => { x with ctxP := f x.ctxP } | .mgmt => x)

/-- A region covers an address (R397). -/
def Region.covers (r : Region) (a : Nat) : Bool := decide (4 * r.start.toNat ≤ a ∧ a ≤ 4 * r.last.toNat + 3)

/-- A region grants a kind of access in a mode (R397, R407). -/
def Region.grants (r : Region) (kind : Nat) (priv : Bool) : Bool := r.attrs.getLsbD (1 + kind + (if priv then 3 else 0))

/-- The default map grants a kind of access to a target (table "Default map"). -/
def defaultGrants (t kind : Nat) : Bool :=
  if t = 0 ∨ t = 18 then true else if t = 2 then kind == kRead else kind != kFetch

/-- The enabled region that decides an access: the lowest-numbered one that covers it (R397). -/
def decider (x : MpuCtx) (a : Nat) : Option Nat :=
  (List.range 16).find? (fun i => let r := x.regions.getD i Region.reset; r.attrs.getLsbD 0 && r.covers a)

/-- A locked region of the N0, N1 or DMA context covers an address (R402). -/
def lockedAt (s : State) (a : Nat) : Bool :=
  [s.mpu.ctx0, s.mpu.ctx1, s.mpu.ctxD].any (fun x => x.regions.any (fun r => r.lock && r.covers a))

/-- The check at the initiator: none when the access passes, else the deciding region, 31 for none (R396–R402). -/
def mpuDenies (s : State) (m : Master) (t a kind : Nat) (priv : Bool) : Option Nat :=
  let x := mpuCtx s m
  let byDefault := if defaultGrants t kind then none else some 31
  if m == .mgmt then none
  else if m == .dap && lockedAt s a then some 31
  else if !x.enable then byDefault
  else
    match decider x a with
    | some i => if (x.regions.getD i Region.reset).grants kind priv then none else some i
    | none => if m == .dma || !priv then some 31 else byDefault

/-- The rule in FWL_TGTt for a master: read, write, user mode permitted (table "Target firewall rules"). -/
def fwlRule (s : State) (t : Nat) (m : Master) : Bool × Bool × Bool :=
  let owner := fun (o : Option Cp) => match m, o with | .n0, some .n0 => true | .n1, some .n1 => true | _, _ => false
  let canOwner := fun n => cpOfCode (pkgD s 0 (fun p => (p.can.getD n ⟨0, 0, 0, 0, true, 0, 0, 0, false, 0, 0⟩).owner))
  let uok := !(t == 4 || t == 5 || t == 6 || t == 7 || t == 13 || t == 15)
  let rw : Bool × Bool :=
    match m with
    | .n0 | .n1 =>
      if t = 2 ∨ t = 7 ∨ t = 8 then (true, false)
      else if t = 5 then (true, owner (dmaOwner s))
      else if t = 9 then (owner (canOwner 0), owner (canOwner 0))
      else if t = 10 then (owner (canOwner 1), owner (canOwner 1))
      else if t = 11 then (true, owner (adcWriter s))
      else (true, true)
    | .dma => if t = 0 ∨ t = 18 then (true, true) else if t = 11 ∨ t = 12 then (true, false) else (false, false)
    | .dap => (true, t == 0 || t == 3 || t == 6 || t == 18)
    | .mgmt => (true, true)
  if s.mpu.fwlSet || m == .mgmt then (rw.1, rw.2, uok) else (false, false, false)

/-- The check at the target: the access is denied (R403). -/
def fwlDenies (s : State) (m : Master) (t kind : Nat) (priv : Bool) : Bool :=
  let r := fwlRule s t m
  let core := m == .n0 || m == .n1
  !((if kind = kWrite then r.2.1 else r.1) && (!core || priv || r.2.2))

/-- Number of a master in MPU_FINFO. -/
def Master.num : Master → Nat
  | .n0 => 0 | .n1 => 1 | .dma => 2 | .dap => 3 | .mgmt => 4

/-- A master with its number in MPU_FINFO; 4 stands for the management cores. -/
def masterOf (n : Nat) : Master :=
  match n with | 0 => .n0 | 1 => .n1 | 2 => .dma | 3 => .dap | _ => .mgmt

/-- Both checks of an access: the violation it commits, if any (R397–R403). -/
def checkAccess (s : State) (m : Master) (a kind : Nat) (priv : Bool) : Option Violation :=
  match targetOf s (mapOf s m) a with
  | none => none
  | some t =>
    match mpuDenies s m t a kind priv with
    | some r => some ⟨m.num, BitVec.ofNat 32 a, kind, priv, r, false⟩
    | none => if fwlDenies s m t kind priv then some ⟨m.num, BitVec.ofNat 32 a, kind, priv, 31, true⟩ else none

/-- Every DMA channel stops in state 0 (R404, R428). -/
def DmaSt.stopAll (d : DmaSt) : DmaSt := { d with chans := d.chans.map (fun c => { c with state := 0, respend := false }) }

/-- The frozen bit of a master is set (MPU_FREEZE). -/
def isFrozen (s : State) (m : Master) : Bool :=
  match m with
  | .n0 => s.n0.frozen | .n1 => s.n1.frozen | .dma => s.mpu.frDma | .dap => s.mpu.frDap | .mgmt => false

/-- MPU_FADDR and MPU_FINFO take a violation; of two in one clock the lower master stands (R404, R406). -/
def recordViolation (s : State) (v : Violation) : State :=
  let t := (targetOf s (mapOf s (masterOf v.master)) v.addr.toNat).getD 0
  let keep := match s.mpu.lastAt with
    | some (r, m) => r == s.time.raw && decide (m < v.master)
    | none => false
  s.modMpu (fun x =>
    let x := if keep then x else { x with
      faddr := v.addr, fmaster := BitVec.ofNat 2 v.master, fcheck := v.firewall, ftype := BitVec.ofNat 2 v.kind,
      fpriv := v.priv, fregion := BitVec.ofNat 5 v.region, ftarget := if v.firewall then BitVec.ofNat 5 t else 0,
      lastAt := some (s.time.raw, v.master) }
    { x with fmulti := x.any, any := true })

/-- Unit code of a core pair (table "Integrity units"). -/
def Cp.unit : Cp → Nat
  | .n0 => 0x10 | .n1 => 0x11

/-- A violation's effect on its master and its records (R404, R405): a debug access to a locked region is counted and
logged with reason 0x12 (R450). What an NCALL running on a frozen core pair writes is the cycle's part. -/
def violate (s : State) (v : Violation) : State :=
  let m := masterOf v.master
  if isFrozen s m then s
  else
    let log := fun (s : State) (unit reason : Nat) => logEvent s ltInteg (integBody unit reason v.addr)
    match m with
    | .mgmt => enterSilent s 3 0x12 v.addr
    | .n0 => log (modCp (recordViolation s v) .n0 (fun c => { c with frozen := true })) 0x10 Config.violationReason.toNat
    | .n1 => log (modCp (recordViolation s v) .n1 (fun c => { c with frozen := true })) 0x11 Config.violationReason.toNat
    | .dma => log (((recordViolation s v).modMpu (fun x => { x with frDma := true })).modDma (·.stopAll)) 0
        Config.violationReason.toNat
    | .dap =>
      let s := (recordViolation s v).modMpu (fun x => { x with frDap := true })
      let s := s.modInteg (fun g => { g with dapSession := false })
      if lockedAt s v.addr.toNat then log (s.modInteg (fun g => { g with lockedHits := g.lockedHits.inc })) 0 0x12
      else log s 0 Config.violationReason.toNat

/-! ### Interrupt contexts -/

/-- Condition of a level source in a core pair's context (table "Interrupt sources"). -/
def levelNow (s : State) (c : Cp) (src : Nat) : Bool :=
  let p := cpOf s c
  let canLvl := fun n k => let x := canOf s n
    x.irqen.getLsbD k && (match k with
      | 0 => !x.pails.isEmpty | 1 => x.txdone != 0 | 3 => x.wake | _ => x.rxovf)
  let f := s.field
  match src with
  | 0 => p.call.isSome || !p.posted.isEmpty
  | 32 => p.dmb.done && p.dmb.irqen
  | 48 => canLvl 0 0 | 49 => canLvl 0 1 | 51 => canLvl 0 3 | 52 => canLvl 0 4
  | 53 => canLvl 1 0 | 54 => canLvl 1 1 | 56 => canLvl 1 3 | 57 => canLvl 1 4
  | 64 => f.dfault && f.irqen.getLsbD 0 | 65 => f.sag && f.irqen.getLsbD 1 | 66 => f.latch && f.irqen.getLsbD 2
  | 67 => f.wdt && f.irqen.getLsbD 3 | 68 => f.lfault && f.irqen.getLsbD 4
  | 69 => f.injDone && f.adcIrq.getLsbD 0 | 70 => f.res.any (·.isNew) && f.adcIrq.getLsbD 1
  | 71 => f.refErr && f.adcIrq.getLsbD 2
  | 96 => p.recr.done && p.recr.irqen
  | 112 => s.n0.frozen || s.n1.frozen || s.mpu.frDma || s.mpu.frDap
  | _ => false

/-- The pending bit of a source reads (R409, R410). -/
def srcPending (s : State) (c : Cp) (src : Nat) : Bool :=
  if levelSources.contains src then levelNow s c src else (cpOf s c).intc.pend.getLsbD src

/-- A source is held under R415. -/
def srcHeld (s : State) (c : Cp) (src : Nat) : Bool :=
  match mget (cpOf s c).intc.heldFrom src with
  | some (t, us) => within s (some t) (rUs us)
  | none => false

/-- A source is presented (R411). -/
def presented (s : State) (c : Cp) (src : Nat) : Bool :=
  let i := (cpOf s c).intc
  srcPending s c src && i.en.getLsbD src && !i.claimed.getLsbD src && !srcHeld s c src

/-- The lowest-numbered presented source other than 0. -/
def firstPresented (s : State) (c : Cp) : Option Nat := (List.range 128).find? (fun n => n != 0 && presented s c n)

/-- A context changed. -/
def modIntc (s : State) (c : Cp) (f : Intc → Intc) : State := modCp s c (fun p => { p with intc := f p.intc })

/-- A clock context changed. -/
def modClk (s : State) (c : Cp) (f : Clk → Clk) : State := modCp s c (fun p => { p with clk := f p.clk })

/-- INTERRUPT_EVENT: an edge of a source sets its pending bit; while the core pair's clock is stopped the AON latch catches the rise
of a level source, which wakes it under R416 even where the condition falls again (R410, R417). -/
def execInterruptEvent (c : Cp) (src : Nat) (s : State) : Res :=
  let i := (cpOf s c).intc
  if (cpOf s c).clk.asleep && levelSources.contains src && i.en.getLsbD src && !i.claimed.getLsbD src && !srcHeld s c src then
    .next (modClk s c (fun k => { k with latch := some src }))
  else .next (modIntc s c (fun i => i.edge src))

/-- HOLD_EXPIRE: a hold that has run ends, and its source is presented if it is pending, enabled and unclaimed (R415). -/
def execHoldExpire (c : Cp) (src : Nat) (s : State) : Res :=
  if !clocksRun s then .next s else
  match mget (cpOf s c).intc.heldFrom src with
  | none => .next s
  | some (t, us) =>
    if past s (some t) (rUs us) then
      let s := modIntc s c (fun i => { i with heldFrom := mdel i.heldFrom src })
      if (cpOf s c).clk.asleep && presented s c src then .next (modClk s c (fun k => { k with holdHit := some src }))
      else .next s
    else .next s

/-- A call is posted and not taken. -/
def callPosted (s : State) (c : Cp) : Bool := !(cpOf s c).posted.isEmpty

/-- Source 0 is presented: a call is posted to the core pair and not yet returned (R409, R411, R418). -/
def callOut (s : State) (c : Cp) : Bool := (cpOf s c).call.isSome || callPosted s c

/-- WFI: with CLK_CTRL.SLEEP set the clock stops, unless a source, source 0 among them, is presented (R416). -/
def execWfi (c : Cp) (s : State) : Res :=
  if !coreRuns s c then .next s else
  if (cpOf s c).clk.sleep && (firstPresented s c).isNone && !callOut s c then
    .next (modClk s c (fun k => { k with asleep := true, holdHit := none, latch := none }))
  else .next s

/-- The mstatus that a trap leaves: MIE is stacked and clear, and the mode is stacked (RISC-V privileged architecture, log entry
23). -/
def CpSt.trapped (p : CpSt) : W32 :=
  let st := setBit (setBit p.mstatus 7 (p.mstatus.getLsbD 3)) 3 false
  setBit (setBit st 11 p.machine) 12 p.machine

/-- The trap of the machine external interrupt, cause 11: to the base of mtvec, or 4 × 11 above it where mtvec is vectored. -/
def CpSt.interrupt (p : CpSt) : CpSt :=
  { p with mepc := p.pc, mcause := 0x8000000B, mtval := 0, mstatus := p.trapped, machine := true,
           pc := (p.mtvec &&& 0xFFFFFFFC) + (if p.mtvec.getLsbD 0 then 44 else 0) }

/-- A presented source traps at an instruction boundary when mstatus.MIE and mie.MEIE are both set, but not while a call runs or waits
(R393, R411, R416). -/
def takeInterrupt (s : State) (c : Cp) : State :=
  let p := cpOf s c
  if coreRuns s c && !callOut s c && p.mstatus.getLsbD 3 && p.mie.getLsbD 11 && (firstPresented s c).isSome then
    modCp s c CpSt.interrupt
  else s

/-- The clock of a sleeping core pair starts and CLK_WAKE records the cause; a presented source then traps (R416, R432). -/
def wakeCore (s : State) (c : Cp) : State :=
  let k := (cpOf s c).clk
  if !k.asleep then s
  else if callPosted s c then
    modClk s c (fun k => { k with
      asleep := false, src := 0, byHold := false, byCall := true, wakes := k.wakes.inc, holdHit := none, latch := none })
  else
    match (firstPresented s c).orElse (fun _ => k.latch) with
    | none => s
    | some n =>
      let n := match k.holdHit with | some h => if presented s c h then h else n | none => n
      takeInterrupt (modClk s c (fun k => { k with
        asleep := false, src := BitVec.ofNat 7 n, byHold := k.holdHit == some n, byCall := false, wakes := k.wakes.inc,
        holdHit := none, latch := none })) c

/-- CORE_WAKE: a presented source or a posted call restarts a sleeping core pair's clock (R416). -/
def execCoreWake (c : Cp) (s : State) : Res :=
  if !pllOn s.ctl.mode then .next s else .next (wakeCore s c)

/-! ### Calls -/

/-- NCALL_TRAP: a posted call is taken at the next instruction boundary; a sleeping core pair wakes for it (R418). -/
def execNcallTrap (c : Cp) (s : State) : Res :=
  let p := cpOf s c
  match p.posted with
  | [] => .next s
  | k :: rest =>
    if p.call.isSome || !coreReady s c then .next s
    else
      .next (modCp (wakeCore s c) c (fun p => { p with
        saved := ⟨p.pc, p.machine, p.mstatus, p.mepc, p.mcause, p.mtval, p.fcsr⟩,
        machine := true, mstatus := setBit p.mstatus 3 false, fcsr := 0, pc := p.vec.zeroExtend 32 <<< 2,
        call := some k, posted := rest, retv := 0, staging := 0 }))

/-- What was saved at entry is restored and the interrupted register file is in use again (R419). -/
def CpSt.resume (p : CpSt) : CpSt :=
  { p with call := none, pc := p.saved.pc, machine := p.saved.machine, mstatus := p.saved.mstatus, mepc := p.saved.mepc,
           mcause := p.saved.mcause, mtval := p.saved.mtval, fcsr := p.saved.fcsr }

/-- The package names the running NCALL instance as the point's writer (R390, R391). -/
def writerOk (s : State) (c : Cp) (point : Nat) : Bool :=
  match (cpOf s c).call with
  | none => false
  | some k => (descOf s.img point).source == srcNative && pkgD s false (fun p => p.writers.contains (point, k.inst))

/-! ### Exceptions of the core pairs -/

/-- A synchronous exception is taken in machine mode (RISC-V privileged architecture, log entry 23): mepc, mcause and
mtval are written, mstatus stacks MIE and the mode, and the pc goes to the base of mtvec. -/
def takeException (s : State) (c : Cp) (cause : Nat) (tval : W32) : State :=
  modCp s c (fun p =>
    { p with mepc := p.pc, mcause := BitVec.ofNat 32 cause, mtval := tval, mstatus := p.trapped, machine := true,
             pc := p.mtvec &&& 0xFFFFFFFC })

/-- MISALIGNED_ACCESS: the address-misaligned exception; the access is not performed. An address that is a multiple of 4 is misaligned
for no size (R383). -/
def execMisalignedAccess (c : Cp) (addr : W32) (store : Bool) (s : State) : Res :=
  if coreRuns s c && addr.toNat % 4 != 0 then .next (takeException s c (if store then 6 else 4) addr) else .next s

/-! ### Steps of the MPU -/

/-- A rule write takes effect in a context (R400). -/
def MpuCtx.apply (x : MpuCtx) (w : RuleWrite) : MpuCtx :=
  match w with
  | .start r v => { x with regions := lupd x.regions r (fun q => { q with start := v }) }
  | .last r v => { x with regions := lupd x.regions r (fun q => { q with last := v }) }
  | .attrs r v => { x with regions := lupd x.regions r (fun q => { q with attrs := v.truncate 7, lock := q.lock || v.getLsbD 7 }) }
  | .enable v => { x with enable := v }

/-- The oldest waiting rule write of a context becomes effective and counts for its writer (R400, MPU_SYNC.GEN). -/
def ruleEffective (s : State) (m : Master) : State :=
  match (mpuCtx s m).waiting with
  | [] => s
  | w :: rest =>
    let s := modCtx s m (fun x => { x.apply w with waiting := rest })
    let writer := match m, dmaOwner s with
      | .dma, some .n0 => Master.n0
      | .dma, some .n1 => Master.n1
      | m, _ => m
    modCtx s writer (fun x => { x with gen := x.gen + 1 })

/-- MPU_RULE_WRITE_EFFECTIVE: a pending region or MPU_CTRL write of a context becomes effective (R400). -/
def execMpuRuleWriteEffective (m : Master) (s : State) : Res :=
  if !clocksRun s then .next s else .next (ruleEffective s m)

/-- Every waiting rule write of a context becomes effective. -/
def allEffective (s : State) (m : Master) : State :=
  (List.range (mpuCtx s m).waiting.length).foldl (fun s _ => ruleEffective s m) s

/-- The master of a core pair. -/
def Cp.master : Cp → Master
  | .n0 => .n0 | .n1 => .n1

/-- The context a core pair writes: the DMA context while its MPU_SEL is 1 and its FWL rule lets it write the DMA block
(R396, R407). -/
def selectedCtx (s : State) (c : Cp) : Master :=
  let sel := match c with | .n0 => s.mpu.sel0 | .n1 => s.mpu.sel1
  if sel && dmaOwner s == some c && s.mpu.fwlSet then .dma else c.master

/-! ### Release of the core pairs -/

/-- One core pair released: memories wiped, images loaded, contexts reset, machine mode at the entry point (R385, R420,
R422). A join is no restart, so that it leaves a frozen pair frozen (R85, R405). -/
def releaseCp (p : CpSt) (image : List (Nat × Bytes)) (entry : W32) : CpSt :=
  let tcm := (image.filter (fun x => decide (x.1 < 0x200000))).foldl (fun m x => putBytes m x.1 x.2) []
  let dram := (image.filter (fun x => decide (0x80000000 ≤ x.1))).foldl (fun m x => putBytes m (x.1 - 0x80000000) x.2) []
  { CpSt.reset with released := true, pc := entry, mram := p.mram, tcm := tcm, dram := dram, dmb := p.dmb, recr := p.recr,
                    dbgArmed := p.dbgArmed, lockstep := p.lockstep, frozen := p.frozen,
                    cycleCsr := p.cycleCsr, timeCsr := p.timeCsr, instretCsr := p.instretCsr }

/-- MPU_CTRL.EN of both core pairs is clear at their release (R385). -/
def mpuOff (s : State) : State :=
  s.modMpu (fun x => { x with ctx0 := { x.ctx0 with enable := false }, ctx1 := { x.ctx1 with enable := false } })

/-- A module that restarts releases its frozen core pairs (R405). -/
def unfreeze (s : State) : State := (s.modN0 (fun c => { c with frozen := false })).modN1 (fun c => { c with frozen := false })

/-- Entry to a run mode: the management cores wipe the native memories, load the images, set the firewalls and release
the core pairs with MPU_CTRL.EN clear (R385). -/
def nativeRelease (s : State) : State :=
  match pkgOf s with
  | none => s
  | some p =>
    let s := modCp s .n0 (fun c => releaseCp c p.imageN0 p.entryN0)
    let s := modCp s .n1 (fun c => releaseCp c p.imageN1 p.entryN1)
    mpuOff (s.modMpu (fun x => { x with fwlSet := true }))

end Sys2Proof.Machine
end

