-- ==== Sys2Proof/Machine/Dma.lean ====
section
/-!
DEFINITION. The DMA engine and the event fabric (R423–R431).
-/

namespace Sys2Proof.Machine

/-- A DMA channel's record. -/
def dmaCh (s : State) (n : Nat) : DmaCh := s.dma.chans.getD n DmaCh.reset

/-- A DMA channel changed. -/
def modCh (s : State) (n : Nat) (f : DmaCh → DmaCh) : State := s.modDma (fun d => { d with chans := lupd d.chans n f })

/-- An event is pending at a channel's trigger (R431). -/
def trigPending (s : State) (n : Nat) : Bool := (mget s.evf.pend n).isSome

/-- The engine accepts a GO, a RESUME or a beat. -/
def dmaReady (s : State) : Bool := pllOn s.ctl.mode && s.dma.enable && !s.dma.busErr && !s.mpu.frDma

/-- The next free value (log entry 14). -/
def freeValue (s : State) : W64 × State := (Config.free s.dict.fresh, s.modDict (fun d => { d with fresh := d.fresh + 1 }))

/-- The destination bytes of a beat in flight are left open (R428). -/
def loseBeat (s : State) (n : Nat) : State :=
  let c := dmaCh s n
  let o := (dmaOwner s).getD .n0
  if c.state = 1 ∧ 0 < c.remain.toNat ∧ (targetOf s o c.dst.toNat = some 0 ∨ targetOf s o c.dst.toNat = some 18) then
    let v := freeValue s
    cpPutAll v.2 o c.dst.toNat (leBytes 8 v.1.toNat)
  else s

/-- CUR and REMAIN of a stopped channel are left open (R428). -/
def loseChannel (s : State) (n : Nat) : State :=
  let v := freeValue (loseBeat s n)
  modCh v.2 n (fun c => { c with
    state := 0, respend := false, cur := v.1.truncate 32, remain := (v.1 >>> 32).truncate 16 })

/-- Every channel is stopped at once and everything is dropped (R428). -/
def dmaDrop (s : State) : State :=
  let s := (List.range 16).foldl loseChannel s
  s.modEvf (fun e => { e with pend := e.pend.filter (fun x => decide (16 ≤ x.1)) })

/-- A bus error: every channel stops, and the channel and address are recorded (R429). -/
def busError (s : State) (ch : Nat) (addr : W32) : State :=
  (dmaDrop s).modDma (fun d => { d with busErr := true, errCh := BitVec.ofNat 4 ch, errAddr := addr })

/-- The state of a channel that has a descriptor: waiting where its next beat needs an event that is not there. -/
def runState (s : State) (n : Nat) (c : DmaCh) : BitVec 2 :=
  if c.trig && decide (0 < c.remain.toNat) && !trigPending s n then 2 else 1

/-- A channel with the fields of a descriptor (table "DMA descriptor"). -/
def DmaCh.load (c : DmaCh) (addr : W32) (b : Bytes) : DmaCh :=
  let w := fun i => leNat (slice b (4 * i) 4)
  { c with cur := addr, src := BitVec.ofNat 32 (w 0), dst := BitVec.ofNat 32 (w 1), remain := BitVec.ofNat 16 (w 2),
           sfix := (w 2).testBit 16, trig := (w 2).testBit 17, evt := (w 2).testBit 18, last := (w 3).testBit 0,
           next := BitVec.ofNat 28 (w 3 / 16) }

/-- Memory the engine reaches: its owner's tightly coupled SRAM and DRAM share. -/
def dmaMem (t : Option Nat) : Bool := t == some 0 || t == some 18

/-- The engine reads a descriptor in one atomic read; a bad address is a bus error, a denied one a violation (R399, R425,
R429). -/
def loadDesc (s : State) (n : Nat) (addr : W32) : State :=
  let o := (dmaOwner s).getD .n0
  if addr.toNat % 16 ≠ 0 ∨ targetOf s o addr.toNat = none then busError s n addr
  else
    match checkAccess s .dma addr.toNat kRead false with
    | some v => violate s v
    | none =>
      let b := if dmaMem (targetOf s o addr.toNat) then cpBytes s o addr.toNat 16 else List.replicate 16 0
      let s := modCh s n (fun c => c.load addr b)
      modCh s n (fun c => { c with state := runState s n c })

/-- A RESUME acts on a channel idle at END: the descriptor is read again without its beats (R427). -/
def resumeCh (s : State) (n : Nat) : State :=
  let c := dmaCh s n
  let s := modCh s n (fun c => { c with respend := false })
  let o := (dmaOwner s).getD .n0
  match checkAccess s .dma c.cur.toNat kRead false with
  | some v => violate s v
  | none =>
    if targetOf s o c.cur.toNat = none then busError s n c.cur
    else
      let w3 := leNat (cpBytes s o (c.cur.toNat + 12) 4)
      if w3.testBit 0 then s else loadDesc s n (BitVec.ofNat 32 (w3 / 16 * 16))

/-- Word of a register of the ADC or FIO block, with the read's effect: RC bits clear, but for those that hardware sets in the same
clock, which `held` gives by their places (R10, R379, R380, R423). -/
def peripheralRead (s : State) (a : Nat) (held : W32) : W32 × State :=
  let f := s.field
  let o := a % 4096
  let n : Nat × State :=
    if a / 4096 = 0x40050 then
      if o = 0 then (b2n f.awake + 2 * b2n (calRuns s || checkRuns s) + 4 * b2n f.injOvr + 8 * b2n f.refErr, s)
      else if o = 0x0C then
        (f.injCode.toNat + 65536 * b2n f.injDone, s.modField (fun f => { f with injDone := f.injDone && held.getLsbD 16 }))
      else if o = 0x10 then (f.adcIrq.toNat, s)
      else if 0x40 ≤ o ∧ o < 0x80 then
        let r := f.res.getD ((o - 0x40) / 4) SeqRes.reset
        (r.code.toNat + 65536 * b2n r.isNew + 131072 * b2n r.lost,
          s.modField (fun f => { f with res := lupd f.res ((o - 0x40) / 4) (fun r => { r with
            isNew := r.isNew && held.getLsbD 16, lost := r.lost && held.getLsbD 17 }) }))
      else (0, s)
    else if a / 4096 = 0x40060 then
      let mask := fun (g : DChan → Bool) => ((f.ds.zipIdx).map (fun x => b2n (g x.1) * 2 ^ x.2)).sum
      if o = 0 then (fieldStatus s, s)
      else if o = 4 then (f.irqen.toNat, s)
      else if o = 8 then (mask (·.level), s)
      else if o = 0x0C then (mask (·.command), s)
      else if o = 0x10 then (lplusMv s, s)
      else if 0x20 ≤ o ∧ o < 0x30 then
        let k := (o - 0x20) / 4
        let ua := loopUa s k
        ((if ua < 65536 then ua else (Config.lcurOver ua).toNat) + 65536 * (lChan s k).shareSt.code, s)
      else if 0x30 ≤ o ∧ o < 0x40 then ((lChan s ((o - 0x30) / 4)).commandUa, s)
      else (0, s)
    else (0, s)
  (BitVec.ofNat 32 n.1, n.2)

/-- The data of a beat: 8 bytes of memory, or a register word with the NS32 of its event (R423). -/
def beatData (s : State) (o : Cp) (c : DmaCh) (ns held : W32) : Bytes × State :=
  if dmaMem (targetOf s o c.src.toNat) then (cpBytes s o c.src.toNat 8, s)
  else
    let r := peripheralRead s c.src.toNat held
    (leBytes 4 r.1.toNat ++ leBytes 4 ns.toNat, r.2)

/-- The beat itself, both checks passed: its data moves, the addresses advance and the count falls (R423, R424). -/
def moveBeat (s : State) (n : Nat) (ns held : W32) : State :=
  let o := (dmaOwner s).getD .n0
  let c := dmaCh s n
  let d := beatData s o c ns held
  let s := if dmaMem (targetOf s o c.dst.toNat) then cpPutAll d.2 o c.dst.toNat d.1 else d.2
  let s := modCh s n (fun c => { c with
    src := if c.sfix then c.src else c.src + 8, dst := c.dst + 8, remain := c.remain - 1 })
  modCh s n (fun c => { c with state := runState s n c })

/-- DMA_BEAT: one beat of 8 bytes, after its trigger event where TRIG is set (R399, R423, R429); `held` are the RC bits of the
register it reads that hardware sets in the same clock (R10). -/
def execDmaBeat (ch : Nat) (s : State) (held : W32 := 0) : Res :=
  let o := (dmaOwner s).getD .n0
  let c := dmaCh s ch
  if ch < 16 ∧ dmaReady s = true ∧ (c.state = 1 ∨ c.state = 2) ∧ 0 < c.remain.toNat then
    match c.trig, mget s.evf.pend ch with
    | true, none => .next (modCh s ch (fun c => { c with state := 2 }))
    | t, ev =>
      let ns := if t then ev.getD 0 else ns32Of (timeNow s)
      let s := if t then s.modEvf (fun e => { e with pend := mdel e.pend ch }) else s
      let st := targetOf s o c.src.toNat
      let dt := targetOf s o c.dst.toNat
      let periph := decide (0x40000000 ≤ c.src.toNat ∧ c.src.toNat < 0x50000000)
      if st = none ∨ (periph = false ∧ c.src.toNat % 8 ≠ 0) then .next (busError s ch c.src)
      else if dt = none ∨ c.dst.toNat % 8 ≠ 0 then .next (busError s ch c.dst)
      else
        match checkAccess s .dma c.src.toNat kRead false, checkAccess s .dma c.dst.toNat kWrite false with
        | some v, _ => .next (violate s v)
        | none, some v => .next (violate s v)
        | none, none => .next (moveBeat s ch ns held)
  else .next s

/-- DMA_DESCRIPTOR_DONE: the last beat is done; DONE.COUNT rises, an event pulses if EVT is set, and NEXT or END follows
(R425–R427). -/
def execDmaDescriptorDone (ch : Nat) (s : State) : Res :=
  let c := dmaCh s ch
  if ch < 16 ∧ dmaReady s = true ∧ (c.state = 1 ∨ c.state = 2) ∧ c.remain = 0 then
    let s := modCh s ch (fun c => { c with done := c.done + 1 })
    let s := if c.evt then pulseNow s (16 + ch) else s
    if c.last then
      let s := modCh s ch (fun c => { c with state := 3 })
      .next (if c.respend then resumeCh s ch else s)
    else .next (loadDesc s ch (c.next.zeroExtend 32 <<< 4))
  else .next s

/-- DMA_BUS_ERROR: a bus error of a channel (R429). -/
def execDmaBusError (ch : Nat) (addr : W32) (s : State) : Res :=
  if dmaReady s && ((dmaCh s ch).state == 1 || (dmaCh s ch).state == 2) then .next (busError s ch addr) else .next s

/-! ### The event fabric -/

/-- EVENT_DELIVERY: a producer's pulse reaches its targets and becomes pending there, or is lost and counted; one of a sequencer
entry's result carries the NS32 of that conversion's hold (R423, R430, R431). -/
def execEventDelivery (producer : Nat) (s : State) : Res :=
  if !clocksRun s then .next s
  else if producer < 16 then .next (pulse s producer (s.field.res.getD producer SeqRes.reset).ns)
  else .next (pulseNow s producer)

end Sys2Proof.Machine
end

