-- ==== Sys2Proof/Machine/Can.lean ====
section
/-!
DEFINITION. The two CAN FD controllers and the Bell (11_can).
-/

namespace Sys2Proof.Machine

/-- Package values of a controller that the package leaves out. -/
def CanCfg.none : CanCfg := ⟨0, 0, 0, 0, true, 0xFFFFFFFF, 0xFFFFFFFF, 0xFFFFFFFF, false, 0xFFFFFFFF, 0x1FFFFFFF⟩

/-- Package values of a controller (R327). -/
def canCfg (s : State) (n : Nat) : CanCfg := pkgD s CanCfg.none (fun p => p.can.getD n CanCfg.none)

/-- Bytes a DLC code stands for in the FD format; the classical format holds at most 8. -/
def dlcLen (fdf : Bool) (dlc : Nat) : Nat :=
  if dlc ≤ 8 then dlc
  else if !fdf then 8
  else match dlc with
    | 9 => 12 | 10 => 16 | 11 => 20 | 12 => 24 | 13 => 32 | 14 => 48 | _ => 64

/-- Smallest DLC code of the FD format that holds a number of bytes. -/
def lenDlc (len : Nat) : Nat :=
  if len ≤ 8 then len else if len ≤ 12 then 9 else if len ≤ 16 then 10 else if len ≤ 20 then 11 else if len ≤ 24 then 12
  else if len ≤ 32 then 13 else if len ≤ 48 then 14 else 15

/-- The controller takes part in the bus: error active or passive (R326). -/
def canLive (s : State) (n : Nat) : Bool := (canOf s n).state == 0 || (canOf s n).state == 1

/-- State that the error counters give (ISO 11898-1, R318). -/
def errState (c : CanSt) : BitVec 3 := if 256 ≤ c.tec.toNat then 2 else if 128 ≤ c.tec.toNat ∨ 128 ≤ c.rxErr.toNat then 1 else 0

/-- The arbitration field of a frame as the number whose lowest value wins: 11 identifier bits, then RTR or SRR, IDE, the
18 further identifier bits and RTR (ISO 11898-1, R316). -/
def arbKey (f : CanFrame) : Nat :=
  let id := f.id.toNat
  if f.ide then (id / 2 ^ 18 % 2 ^ 11) * 2 ^ 21 + 2 ^ 20 + 2 ^ 19 + (id % 2 ^ 18) * 2 + b2n f.rtr
  else (id % 2 ^ 11) * 2 ^ 21 + b2n f.rtr * 2 ^ 20

/-- The slot that enters arbitration among those pending (R316). -/
def arbWinner (slots : List (Nat × Slot)) : Option Nat :=
  (slots.foldl (fun (best : Option (Nat × Slot)) x =>
    match best with
    | none => some x
    | some b =>
      if arbKey x.2.frame < arbKey b.2.frame ∨ (arbKey x.2.frame = arbKey b.2.frame ∧ x.2.order < b.2.order) then some x
      else best) none).map (·.1)

/-- The choice before a start of frame: the winner among the pending slots goes on the bus (R316). -/
def canArb (s : State) (n : Nat) : State :=
  if canLive s n && (canOf s n).onBus.isNone then modCan s n (fun c => { c with onBus := arbWinner c.slots }) else s

/-- A commanded sleep takes hold once the bus is idle, or at once in bus-off; transfers are aborted (R321). -/
def canSettle (s : State) (n : Nat) : State :=
  let c := canOf s n
  if c.sleep && c.onBus.isNone && c.state != 5 && c.state != 4 then abortTp (setCanState s n 4) n else canArb s n

/-- A frame put in a slot under the next submission number (R315, R316). -/
def putSlot (s : State) (n k : Nat) (f : CanFrame) : State :=
  canArb (modCan s n (fun c => { c with slots := mset c.slots k ⟨f, c.order⟩, order := c.order + 1 })) n

/-- The CAN Bells of a controller go on at the next multiple of their period (R325). -/
def bellAgain (s : State) (n : Nat) : State :=
  match s.bell.firstAt with
  | none => modCan s n (fun c => { c with bellK := 0 })
  | some t => modCan s n (fun c => { c with bellK := elapsed s t / rMs (setting s (0x1501 + n) 0x0A 1000) + 1 })

/-- A controller that is not off joins the bus (R310). -/
def canJoin (s : State) (n : Nat) : State :=
  if (canCfg s n).owner = 0 ∨ (canOf s n).state ≠ 5 then s
  else canArb (bellAgain (setCanState s n (errState (canOf s n))) n) n

/-- A package that takes over while the controllers may be on the bus: each leaves it, is programmed from the new values, and joins
again where its owner is not off and the mode lets it (R310). -/
def canReprogram (s : State) : State :=
  [0, 1].foldl (fun s n =>
    let s := if (canOf s n).state = 5 then s else canOff s n
    if s.ctl.mode.canOn then canJoin s n else s) s

/-- A slot leaves the pending ones and its cancel bit clears (R326). -/
def CanSt.leave (c : CanSt) (k : Nat) : CanSt := { c with slots := mdel c.slots k, cancel := setBit c.cancel k false }

/-! ### Transfers that the controller sends (ISO 15765-2, R300) -/

/-- A transport frame under the response identifier, padded to a DLC with 0xCC (log entry 21). -/
def tpFrame (s : State) (n : Nat) (d : Bytes) : CanFrame :=
  let dlc := lenDlc d.length
  let r := (canCfg s n).rspId
  ⟨r &&& 0x1FFFFFFF, r.getLsbD 29, true, true, false, false, dlc,
   d ++ List.replicate (dlcLen true dlc - d.length) 0xCC⟩

/-- A message starts over CAN as a single frame, or as a first frame that waits for flow control (R300). -/
def tpStart (s : State) (n : Nat) (msg : Bytes) : State :=
  if msg.length ≤ 7 then putSlot s n 29 (tpFrame s n (BitVec.ofNat 8 msg.length :: msg))
  else if msg.length ≤ 62 then putSlot s n 29 (tpFrame s n (0 :: BitVec.ofNat 8 msg.length :: msg))
  else
    let f := tpFrame s n (BitVec.ofNat 8 (0x10 + msg.length / 256) :: BitVec.ofNat 8 msg.length :: msg.take 62)
    putSlot (modCan s n (fun c => { c with tx := some ⟨0, false, msg.drop 62, 1, some 0, true, s.time.raw⟩ })) n 29 f

/-- The message that waited longest starts when the controller sends none (R300). -/
def tpTurn (s : State) (n : Nat) : State :=
  let c := canOf s n
  if c.tx.isSome || (mget c.slots 29).isSome then s
  else
    match c.tpq with
    | [] => s
    | m :: t => tpStart (modCan s n (fun c => { c with tpq := t })) n m

/-- The next consecutive frame of a response goes to slot 29. -/
def tpConsecOut (s : State) (n : Nat) (t : TpTx) : State :=
  let f := tpFrame s n (BitVec.ofNat 8 (0x20 + t.sn) :: t.rest.take 63)
  let t := { t with rest := t.rest.drop 63, sn := (t.sn + 1) % 16, credit := t.credit.map (· - 1), paced := false, atRaw := s.time.raw }
  putSlot (modCan s n (fun c => { c with tx := some t })) n 29 f

/-- The next consecutive frame of a response is sent while the client's flow control allows it: at once, or after the STmin
it asked for; after the last one the next message starts (R300, log entries 21, 108). -/
def tpNext (s : State) (n : Nat) : State :=
  match (canOf s n).tx with
  | none => tpTurn s n
  | some t =>
    if t.waiting then s
    else if t.rest.isEmpty then tpTurn (modCan s n (fun c => { c with tx := none })) n
    else if t.credit = some 0 then modCan s n (fun c => { c with tx := some { t with waiting := true, atRaw := s.time.raw } })
    else if t.gap = 0 then tpConsecOut s n t
    else modCan s n (fun c => { c with tx := some { t with paced := true, atRaw := s.time.raw } })

/-- The package names no response identifier: nothing is sent under it (R327). -/
def noResponse (s : State) (n : Nat) : Bool := (canCfg s n).rspId == 0xFFFFFFFF

/-- A message is sent over CAN after those that wait: one message in each direction at a time (R300, R327). -/
def tpSend (s : State) (n : Nat) (msg : Bytes) : State :=
  if noResponse s n then s else tpTurn (modCan s n (fun c => { c with tpq := c.tpq ++ [msg] })) n

/-! ### The steps of a controller -/

/-- A frame's identifier and format match an identifier word of the package (R327). -/
def idMatches (word : W32) (f : CanFrame) : Bool :=
  word != 0xFFFFFFFF && f.ide == word.getLsbD 29 && (f.id &&& 0x1FFFFFFF) == (word &&& 0x1FFFFFFF)

/-- A filter matches a frame (R312). -/
def filterMatches (c : CanSt) (f : CanFrame) (k : Nat) : Bool :=
  let fid := mgetD c.fid k 0
  let mask := mgetD c.fmask k 0
  fid.getLsbD 31 && fid.getLsbD 29 == f.ide && ((f.id ^^^ fid) &&& mask &&& 0x1FFFFFFF) == 0

/-- A good reception lowers the receive counter; above 127 it becomes a value of 119 to 127 that ISO 11898-1 leaves open
(log entry 14). -/
def rxGood (s : State) (n : Nat) : State :=
  let c := canOf s n
  if c.rxErr.toNat = 0 then s
  else if c.rxErr.toNat ≤ 127 then modCan s n (fun c => { c with rxErr := c.rxErr - 1 })
  else
    let v := 119 + (Config.free s.dict.fresh).toNat % 9
    (modCan s n (fun c => { c with rxErr := BitVec.ofNat 8 v })).modDict (fun d => { d with fresh := d.fresh + 1 })

/-- A frame that was on the bus lost the arbitration to a received one: cancelled slots leave, and the choice is made
again (R316, R317). -/
def arbLost (s : State) (n : Nat) : State :=
  let s := match (canOf s n).onBus with
    | some k => modCan s n (fun c => let c := if c.cancel.getLsbD k then c.leave k else c; { c with onBus := none })
    | none => s
  canSettle s n

/-- CAN_FRAME_RECEIVE: to the management cores, to a pail by the first matching filter, or discarded (R312–R314). -/
def execCanFrameReceive (n : Nat) (f : CanFrame) (s : State) : Res :=
  if 2 ≤ n then .next s
  else if !canLive s n then .next s
  else
    let s := rxGood s n
    let s := setCanState s n (errState (canOf s n))
    let s := arbLost s n
    if idMatches (canCfg s n).reqId f then .next s
    else
      let c := canOf s n
      match (List.range 32).find? (filterMatches c f) with
      | none => .next s
      | some k =>
        if 64 ≤ c.pails.length then .next (modCan s n (fun c => { c with rxovf := true, lost := c.lost.inc }))
        else
          let s := modCan s n (fun c => { c with pails := c.pails ++ [(f, k)], placed := c.placed.inc })
          .next (pulseNow s (44 + n))

/-- CAN_TX_COMPLETE: the frame on the bus completes; its slot is free and its TXDONE bit sets (R317). -/
def execCanTxComplete (n : Nat) (s : State) : Res :=
  if !clocksRun s then .next s else
  if 2 ≤ n then .next s
  else
    let c := canOf s n
    match c.onBus with
    | none => .next s
    | some k =>
      match mget c.slots k with
      | none => .next s
      | some x =>
        let s := send s (.can n x.frame)
        let s := modCan s n (fun c => { c.leave k with
          onBus := none, txdone := setBit c.txdone k true, sent := c.sent.inc,
          tec := if c.tec = 0 then 0 else c.tec - 1 })
        let s := setCanState s n (errState (canOf s n))
        let s := canSettle s n
        .next (if k = 29 then tpNext s n else s)

/-- The error counters after an error (ISO 11898-1, log entry 22). -/
def CanSt.error (c : CanSt) (e : CanErr) : CanSt :=
  let c := { c with errCode := e.code, errData := e.data }
  if e.transmitting then
    if e.arbStuff || (c.state == 1 && e.code == 3 && !e.dominant) then c
    else { c with tec := BitVec.ofNat 9 (min (c.tec.toNat + 8) 511) }
  else { c with rxErr := BitVec.ofNat 8 (min (c.rxErr.toNat + (if e.flag then 8 else 1)) 255) }

/-- Entry to bus-off: counted, transfers aborted, pending slots kept; recovery starts at once unless it is on command
(R319, R320). -/
def busOff (s : State) (n : Nat) : State :=
  let s := modCan s n (fun c => { c with busOffs := c.busOffs.inc, onBus := none })
  let s := abortTp s n
  if (canOf s n).sleep then canSettle s n
  else if setting s (0x1501 + n) 0x0B 0 = 0 then setCanState s n 3 else s

/-- CAN_BUS_ERROR: the error counters and the state change; a cancelled frame that met an error leaves (R317–R320). -/
def execCanBusError (n : Nat) (e : CanErr) (s : State) : Res :=
  if 2 ≤ n then .next s
  else if !canLive s n then .next s
  else
    let s := modCan s n (fun c => c.error e)
    let s := setCanState s n (errState (canOf s n))
    let s := match (canOf s n).onBus with
      | some k => modCan s n (fun c => let c := if c.cancel.getLsbD k then c.leave k else c; { c with onBus := none })
      | none => s
    .next (if (canOf s n).state = 2 then busOff s n else canSettle s n)

/-- CAN_RECOVERY_DONE: after 128 occurrences of 11 recessive bits the controller is error active again (R319). -/
def execCanRecoveryDone (n : Nat) (s : State) : Res :=
  if !clocksRun s then .next s else
  if 2 ≤ n ∨ (canOf s n).state ≠ 3 then .next s
  else .next (canSettle (setCanState (modCan s n (fun c => { c with tec := 0, rxErr := 0 })) n 0) n)

/-- The frame staged in CAN_TXBUF (R326). Remote frames exist in the classical format only (R307): RTR is not looked at where FDF
is set (DEDUCED, log entry 112). -/
def stagedFrame (c : CanSt) : CanFrame :=
  let w := fun k => mgetD c.txbuf k 0
  let fdf := (w 0).getLsbD 30
  let dlc := (w 1).toNat % 16
  let ide := (w 0).getLsbD 29
  let rtr := (w 1).getLsbD 4 && !fdf
  ⟨(if ide then w 0 &&& 0x1FFFFFFF else w 0 &&& 0x7FF), ide, fdf, (w 0).getLsbD 31, rtr, false, dlc,
   ((List.range 16).flatMap (fun i => leBytes 4 (w (i + 2)).toNat)).take (if rtr then 0 else dlcLen fdf dlc)⟩

/-- A submission is refused (R315). -/
def submitRefused (s : State) (n k : Nat) : Bool :=
  let c := canOf s n
  let f := stagedFrame c
  (mget c.slots k).isSome || decide (28 ≤ k) || (f.fdf && !(canCfg s n).fdAllowed) || (decide (8 < f.dlc) && !f.fdf)

/-- Level of CANn_STB: high while the controller is off the bus, and while it sleeps for a dominant edge; low on the bus and
while it sleeps for a wake frame (R310, R321). -/
def canStb (s : State) (n : Nat) : Bool :=
  (canOf s n).state == 5 || ((canOf s n).state == 4 && !(canCfg s n).wakeFrame)

/-- Level of CANn_TXD that the mode imposes: recessive while the controller is off the bus (R310). -/
def canTxdHeld (s : State) (n : Nat) : Bool := (canOf s n).state == 5

/-- A wake: WAKE sets, the wake is counted, and the controller joins the bus again (R323). -/
def canWake (s : State) (n : Nat) : State :=
  let s := modCan s n (fun c => { c with sleep := false, wake := true, wakes := c.wakes.inc, wokeAt := some s.time.raw })
  let s := bellAgain s n
  let s := setCanState s n (errState (canOf s n))
  if (canOf s n).state = 2 ∧ setting s (0x1501 + n) 0x0B 0 = 0 then setCanState s n 3 else canArb s n

/-- A wake cause reaches a controller with its wake source (R321, R322). -/
def wakes (k : CanCfg) (cause : CanWakeCause) : Bool :=
  match cause with
  | .dominant | .edge => !k.wakeFrame
  | .frame f =>
    k.wakeFrame && !f.fdf && !f.rtr && k.wakeId != 0xFFFFFFFF && f.ide == k.wakeId.getLsbD 29 &&
      ((f.id ^^^ k.wakeId) &&& k.wakeMask &&& 0x1FFFFFFF) == 0

/-- CAN_WAKE: a dominant level, an edge on WAKEn or a matching wake frame (R321–R323). -/
def execCanWake (n : Nat) (cause : CanWakeCause) (s : State) : Res :=
  if !clocksRun s then .next s else
  if 2 ≤ n then .next s
  else if (canOf s n).state = 4 ∧ wakes (canCfg s n) cause = true then .next (canWake s n) else .next s

/-! ### The Bell -/

/-- FAULT_N is asserted in SILENT, in DEBUG and while a latent fault stands (R455). -/
def faultAsserted (s : State) : Bool := s.ctl.mode == .silent || s.ctl.mode == .dbg || s.integ.latent

/-- FLAGS of a herd Bell (table "Herd Bell frame"). -/
def bellFlags (s : State) : Byte :=
  BitVec.ofNat 8 (b2n s.pair.ownOut + 2 * b2n (partnerAlive s) + 4 * b2n (!s.img.forces.isEmpty) +
    8 * b2n (faultAsserted s) + 16 * b2n s.integ.conflict)

/-- Payload of a herd Bell (table "Herd Bell frame"). -/
def bellPayload (s : State) : Bytes :=
  let body := [0x80, bellFlags s] ++ beBytes 2 (herdAddr s).toNat ++ beBytes 6 (moduleMac s).toNat ++
    [BitVec.ofNat 8 s.ctl.mode.code, BitVec.ofNat 8 s.ctl.life.code] ++ beBytes 4 s.bell.count.toNat
  body ++ beBytes 4 (crc32c body).toNat

/-- BELL_SEND_TIMER: the module's herd Bell every 1,000 ms (R324). -/
def execBellSendTimer (s : State) : Res :=
  if s.ctl.mode.canOn && (s.bell.lastAt.isNone || past s s.bell.lastAt (rMs 1000)) then
    let fl := bellFlags s
    let s := sourceFrame s false true true 0x03ED7240FFFF none (pkgD s 0x88B5 (·.etype)) (bellPayload s)
    .next (s.modBell (fun b => { b with
      count := b.count + 1, firstAt := b.firstAt.orElse (fun _ => some s.time.raw), lastAt := some s.time.raw,
      flags := fl, mode := BitVec.ofNat 8 s.ctl.mode.code }))
  else .next s

/-- CAN_BELL_SEND: at each multiple of its period a CAN Bell goes to slot 31, replacing one still pending; none goes out while the
package names no identifier for it (R325, R327). -/
def execCanBellSend (n : Nat) (s : State) : Res :=
  if 2 ≤ n then .next s
  else
    match s.bell.firstAt with
    | none => .next s
    | some t =>
      let c := canOf s n
      let period := rMs (setting s (0x1501 + n) 0x0A 1000)
      if setting s (0x1501 + n) 8 0 = 1 ∧ (canCfg s n).bellId ≠ 0xFFFFFFFF ∧ s.ctl.mode.canOn = true ∧ c.state ≠ 4 ∧ c.state ≠ 5 ∧
          c.bellK * period ≤ elapsed s t then
        let data := beBytes 2 (herdAddr s).toNat ++ [s.bell.mode, s.bell.flags] ++ beBytes 4 (s.bell.count - 1).toNat
        let f : CanFrame := ⟨(canCfg s n).bellId &&& 0x1FFFFFFF, true, false, false, false, false, 8, data⟩
        let s := putSlot s n 31 f
        .next (modCan s n (fun c => { c with bellK := elapsed s t / period + 1 }))
      else .next s

/-- Body of an address conflict in a network record: code 0 and the MAC seen (table "Event record types"). -/
def conflictBody (mac : W48) : Bytes := netBody 0 0 mac

/-- BELL_RECEIVE: a Bell with this module's herd address and another MAC is an address conflict; a module in a run mode
raises the conflict flag, one that has not reached a run mode notes it for its start (R19). R19 speaks of a module in STOP and of one
in a run mode; in every other mode, CATCHUP among them, the conflict is logged and noted, a catch-up in progress goes on, and the flag
rises with the next such Bell heard in a run mode (DESIGN CHOICE, log entry 121). -/
def execBellReceive (herd : W16) (mac : W48) (s : State) : Res :=
  if !clocksRun s then .next s else
  if herd = herdAddr s ∧ mac ≠ moduleMac s ∧ (pkgOf s).isSome = true then
    let s := logEvent s ltNet (conflictBody mac)
    if s.ctl.mode.run then .next (s.modInteg (fun g => { g with conflict := true }))
    else .next (s.modCtl (fun c => { c with conflictSeen := true }))
  else .next s

end Sys2Proof.Machine
end

