-- ==== Sys2Proof/Machine/Time.lean ====
section
/-!
DEFINITION. The time base: rate and steps, time states, the servo, the best master clock algorithm, peer delay, the transparent clock, reference input, pulses, alarm and forerunner (09_time).
-/

namespace Sys2Proof.Machine

/-! ### Rate, steps and time states -/

/-- A RATE write at this AON tick: TIME is re-anchored continuously (R248). -/
def writeRate (s : State) (rate : W32) : State :=
  let t := BitVec.ofNat 80 (timeNow s)
  s.modTime (fun x => { x with base := t, anchor := s.time.raw, rate := rate })

/-- Body of a time record (table "Event record types"). -/
def timeBody (code : Nat) (offset : Int) (st : TimeState) : Bytes :=
  [BitVec.ofNat 8 code] ++ beBytes 8 (offset % ((2 ^ 64 : Nat) : Int)).toNat ++ [BitVec.ofNat 8 st.code]

/-- A time event is logged. -/
def logTime (s : State) (code : Nat) (offset : Int) : State := logEvent s ltTime (timeBody code offset s.time.own)

/-- An armed alarm whose value TIME has reached fires (R271). -/
def alarmDue (s : State) : Bool :=
  s.time.almArm && decide (s.time.almEp.toNat * 2 ^ 32 + s.time.almNs.toNat ≤ timeNow s / 16 % 2 ^ 64)

/-- The alarm fires: FIRED, source 16 and its producer, whose NS32 is the alarm's exact value (R271, R520). -/
def fireAlarm (s : State) : State :=
  pulse (raiseIrq (s.modTime (fun t => { t with almArm := false, almFired := true })) 16) 43 s.time.almNs

/-- A running pair takes both sides' time from the owning side's ANNOUNCE (R250, R255). -/
def timeShared (s : State) : Bool := s.ctl.mode.run && partnerRuns s

/-- An ANNOUNCE decided on this side: kept for its tick, and sent to the partner under the next write sequence number until WACK
names that number (R210, R255; log entry 104). -/
def announce (s : State) (a : Announce) : State :=
  let s := s.modPair (fun p => { p with
    nextWsn := p.nextWsn + 1, annResend := p.annResend ++ [(p.nextWsn, a, s.time.raw)] })
  mjSend (s.modTime (fun t => { t with announced := t.announced ++ [a] })) (.announce a)

/-- The own state goes out to the partner for a named tick (R250). -/
def announceState (s : State) : State :=
  announce s ⟨targetTick s 150 4, false, true, s.time.own, 0, s.time.utc, s.time.leap⟩

/-- A change of the own state: logged, and carried to the agreed state as R250 gives. -/
def setOwnTime (s : State) (st : TimeState) : State :=
  if s.time.own = st then s
  else
    let s := s.modTime (fun t => { t with
      own := st, lockedAt := if st = .locked then some s.time.raw else t.lockedAt,
      holdAt := if st = .holdover then some s.time.raw else t.holdAt,
      holdovers := if st = .holdover then t.holdovers.inc else t.holdovers })
    let s := logTime s 1 s.time.lastOffset.toInt
    if !s.ctl.mode.run then setAgreed s st
    else if timeShared s && owns s then announceState s
    else s

/-- A step of TIME at a RAW value r of now or of the named tick, in 1/16 ns: BASE := TIME(r) + offset and ANCHOR := r; counted,
logged, STEPGEN raised, the tick after it told of it, and an alarm it passes fires (R58, R256, R271). The whole second in
which the stepped TIME lies is not acted on again, and the servo's offsets are kept against the stepped TIME. A first step ends
UNSET: the state is SLEWING with a master, else FREERUN (table "Time states"; log entry 106). -/
def applyStepAt (s : State) (r : W64) (offset : Int) : State :=
  let old := timeAt s.time r
  let t := BitVec.ofNat 80 ((((old : Int) + offset) % ((2 ^ 80 : Nat) : Int)).toNat)
  let s := s.modTime (fun x => { x with
    base := t, anchor := r, stepGen := x.stepGen + 1, steps := x.steps.inc, secDone := (t.toNat - 1) / 16000000000,
    syncs := x.syncs.map (fun y => { y with offsetNs := y.offsetNs + offset }),
    skips := if 0 < offset then (old, t.toNat) :: x.skips.take 3 else x.skips, stepAt := (old :: x.stepAt).take 128 })
  let s := s.modCyc (fun c => { c with
    stepped := true, paced := c.paced.map (fun x => { x with due := ((x.due : Int) + offset).toNat }) })
  let s := raiseIrq (logTime s 0 offset) 18
  let s := if s.time.own = .unset then setOwnTime s (if s.time.gm.isNone then .freerun else .slewing) else s
  if alarmDue s then fireAlarm s else s

/-- A step of TIME now (R255). -/
def applyStep (s : State) (offset : Int) : State := applyStepAt s s.time.raw offset

/-- RAW of the tick in progress, at which a named step applies; now, where RATE has been re-anchored since or no tick has
been taken (R248, R256). -/
def stepRaw (s : State) : W64 :=
  match s.cyc.lastTickRaw with
  | some r => if (r - s.time.anchor).toNat < 2 ^ 63 then r else s.time.raw
  | none => s.time.raw

/-- The agreed state at a tick with no partner running: it takes the own state at a due tick (R250). -/
def agreedAtTick (s : State) (due : BitVec 4) : State :=
  if !s.ctl.mode.run then setAgreed s s.time.own
  else if s.pair.noOwner then s
  else if timeShared s then s
  else if due = 0 then s
  else setAgreed s s.time.own

/-- One announcement takes effect at its tick; the agreed state does not change in a no-owner interval (R250, R255, R256). -/
def applyAnnounce (s : State) (a : Announce) : State :=
  let s := if a.step then applyStepAt s (stepRaw s) a.offset else s
  if a.change && !s.pair.noOwner then setAgreed (s.modTime (fun t => { t with utc := a.utc, leap := a.leap })) a.state else s

/-- The announcements whose tick has come take effect in order (R255, R256). -/
def applyAnnounced (s : State) : State :=
  let now := s.time.announced.filter (fun a => decide (a.tick.toNat ≤ s.cyc.cutTick.toNat))
  let s := s.modTime (fun t => { t with announced := t.announced.filter (fun a => !decide (a.tick.toNat ≤ s.cyc.cutTick.toNat)) })
  now.foldl applyAnnounce s

/-! ### Masters and the port in use -/

/-- Mean peer delay of a port in 1/16 ns (R263). -/
def peerDelay (s : State) (port : Nat) : Int :=
  let h := (s.time.pdelay.getD port Pdelay.reset).hist
  if h.isEmpty then 0 else h.sum / h.length

/-- Order of two masters by the dataset comparison of IEEE 1588-2019 (R264, log entry 24). -/
def masterKey (a : PtpAnnounce) : List Nat :=
  [a.prio1, a.clockClass, a.accuracy, a.variance, a.prio2, a.gm.toNat, a.steps]

/-- Lexical order of keys. -/
def keyLt : List Nat → List Nat → Bool
  | [], _ => false
  | _ :: _, [] => false
  | a :: s, b :: t => decide (a < b) || (a == b && keyLt s t)

/-- The best of the known masters. -/
def bestMaster (ms : List MasterRec) : Option PtpAnnounce :=
  ms.foldl (fun (b : Option PtpAnnounce) m =>
    match b with
    | none => some m.ann
    | some x => if keyLt (masterKey m.ann) (masterKey x) then some m.ann else some x) none

/-- The servo forgets its history; LOCKED becomes HOLDOVER; counted and logged (R251). -/
def masterChange (s : State) : State :=
  let s := s.modTime (fun t => { t with
    syncs := [], sinceChange := 0, inLimit := 0, overStep := 0, twoStep := none, masterChanges := t.masterChanges.inc })
  let s := logTime s 2 s.time.lastOffset.toInt
  if s.time.own = .locked then setOwnTime s .holdover else s

/-- The best master clock algorithm's choice takes effect (R261, R264). -/
def chooseMaster (s : State) : State :=
  match bestMaster s.time.masters with
  | none =>
    if s.time.gm.isNone then s
    else masterChange (s.modTime (fun t => { t with gm := none, portInUse := none, portSync := [], inaccuracy := 0xFFFFFFFF }))
  | some a =>
    let was := s.time.gm
    let s := s.modTime (fun t => { t with
      gm := some a.gm, inaccuracy := a.inaccuracy.getD 0xFFFFFFFF, utc := a.utc, leap := a.leap })
    if was = some a.gm then s
    else
      let s := s.modTime (fun t => { t with portInUse := none, portSync := [] })
      if was.isNone then s.modTime (fun t => { t with syncs := [], sinceChange := 0 }) else masterChange s

/-- The management cores run the PTP servo and the best master clock algorithm: in every mode but COLD, and SILENT, which holds
them in reset (R250, R444). -/
def ptpRuns (s : State) : Bool := clocksRun s && s.ctl.mode != .cold

/-- PTP_ANNOUNCE_RECEIVE: an Announce of the configured domain feeds the algorithm (R261, R264). -/
def execPtpAnnounceReceive (m : PtpAnnounce) (s : State) : Res :=
  if m.domain ≠ pkgD s 0 (·.ptpDomain) ∨ 4 ≤ m.port ∨ ptpRuns s = false then .next s
  else
    let keep := s.time.masters.filter (fun x => !(x.ann.srcPort == m.srcPort && x.ann.port == m.port))
    .next (chooseMaster (s.modTime (fun t => { t with masters := keep ++ [⟨m, s.time.raw⟩] })))

/-- ANNOUNCE_RECEIPT_TIMEOUT: no Announce of the selected grandmaster within 3 intervals (R251, R261). -/
def execAnnounceReceiptTimeout (s : State) : Res :=
  let live := s.time.masters.filter (fun x => decide (elapsed s x.atRaw < 3 * rNs x.ann.intervalNs))
  match s.time.gm with
  | none => .next s
  | some g =>
    if !ptpRuns s || live.any (fun x => x.ann.gm == g) then .next s
    else .next (chooseMaster (s.modTime (fun t => { t with masters := live })))

/-- Port order of 0x1300:09 (R272). -/
def portOrder (s : State) : List Nat :=
  let v := setting s 0x1300 9 0x0123
  [v / 4096 % 16, v / 256 % 16, v / 16 % 16, v % 16]

/-- The first port in order that delivered the grandmaster's Sync within 3 intervals and has a peer delay (R264). -/
def choosePort (s : State) : Option Nat :=
  (portOrder s).find? (fun p =>
    within s (mget s.time.portSync p) (3 * s.time.syncInterval + 1) &&
      !(s.time.pdelay.getD p Pdelay.reset).hist.isEmpty)

/-- The port in use after a Sync; a change of port is a change of master (R264). -/
def settlePort (s : State) : State :=
  let p := choosePort s
  if p = s.time.portInUse then s
  else
    let was := s.time.portInUse
    let s := s.modTime (fun t => { t with portInUse := p })
    if was.isNone then s else masterChange s

/-! ### The servo -/

/-- A signed value saturated to 32 bits (TIME_OFFSET). -/
def sat32 (i : Int) : W32 := BitVec.ofInt 32 (max (-2147483647) (min 2147483647 i))

/-- Policy 0x1300:0E permits a step in the present mode (R254). -/
def stepAllowed (s : State) : Bool := !s.ctl.mode.run || setting s 0x1300 0x0E 1 == 1

/-- A step decided now: at once outside the run modes, at a named tick in them, by ANNOUNCE in a running pair (R255). -/
def decideStep (s : State) (offset : Int) : State :=
  if !s.ctl.mode.run then applyStep s offset
  else
    let a : Announce := ⟨targetTick s 150 4, true, false, s.time.own, offset, s.time.utc, s.time.leap⟩
    if timeShared s then (if owns s then announce s a else s)
    else s.modTime (fun t => { t with announced := t.announced ++ [a] })

/-- RATE that the servo writes for an offset in 1/16 ns, clamped to the slew limit (R252). -/
def servoRate (s : State) (o : Int) (hist : List (Int × W64)) : W32 :=
  let tau : Int := setting s 0x1300 0x11 4
  let lim : Int := (setting s 0x1300 0x10 200000 * 2 ^ 40 / 1000000000 : Nat)
  let q := (Q.ofInt (Config.frequency hist)).sub (Q.mk' (o * ((2 ^ 40 : Nat) : Int)) (16000000000 * tau.toNat))
  BitVec.ofInt 32 (max (-lim) (min lim q.round))

/-- A step is armed for a named tick (TIME_STATUS.STEPPEND). -/
def stepPending (s : State) : Bool := s.time.announced.any (·.step)

/-- RATE follows the partner's ticks, not the Syncs of this side (R204). -/
def followsPartner (s : State) : Bool := timeShared s && !owns s && s.pair.following

/-- The servo decides a step at this Sync: at first synchronisation, or after three Syncs beyond the threshold where the policy
permits it; none is decided while one is armed, or by a side of a running pair that does not own (R204, R254, R255). -/
def servoSteps (s : State) : Bool :=
  !stepPending s && !(timeShared s && !owns s) &&
    (s.time.own == .unset || (decide (3 ≤ s.time.overStep) && stepAllowed s))

/-- The own state after an accepted Sync (table "Time states"); UNSET lasts until the first step. -/
def servoState (s : State) (inLim : Bool) : State :=
  if s.time.own = .unset then s
  else if 4 ≤ s.time.inLimit then setOwnTime s .locked
  else if !inLim || s.time.own == .slewing then setOwnTime s .slewing
  else s

/-- The servo at an accepted Sync with its offset in 1/16 ns: it may step, and it writes RATE at every Sync it acts on (R249,
R251, R252, R254). -/
def servo (s : State) (o : Int) (ingress : W64) : State :=
  let inLim := decide (-16000 ≤ o ∧ o ≤ 16000)
  let thr : Int := 16000 * (setting s 0x1300 0x0F 1000 : Nat)
  let far := decide (thr < o ∨ o < -thr)
  let s := s.modTime (fun t => { t with
    lastOffset := sat32 (o / 16), syncs := lastN 8 (t.syncs ++ [⟨o, ingress⟩]), sinceChange := t.sinceChange + 1,
    inLimit := if inLim then t.inLimit + 1 else 0, overStep := if far then t.overStep + 1 else 0,
    lastSync := some s.time.raw })
  if s.time.sinceChange < 2 then s
  else
    let s := if servoSteps s then (decideStep s (-o)).modTime (fun t => { t with overStep := 0 }) else s
    let s := if followsPartner s then s else writeRate s (servoRate s o (s.time.syncs.map (fun x => (x.offsetNs, x.raw))))
    servoState s inLim

/-- Offset of a Sync in 1/16 ns: TIME at ingress less origin, correction and peer delay (R252). Origin is in ns, the
correction in 2⁻¹⁶ ns. -/
def syncOffset (s : State) (m : PtpSync) (origin : Nat) (correction : Int) : Int :=
  (stampTime s m.ingress : Int) - (16 * (origin : Int) + correction / 4096 + peerDelay s m.port)

/-- A Sync of the selected grandmaster on a port: its stamp held with the two low bits zero, noted, and served on the port in use
(R246, R252, R264). -/
def takeSync (s : State) (given : PtpSync) : State :=
  let m := { given with ingress := quarter given.ingress }
  let s := s.modTime (fun t => { t with
    syncInterval := rNs m.interval, portSync := mset t.portSync m.port s.time.raw })
  let s := settlePort s
  if s.time.portInUse ≠ some m.port then s
  else if m.twoStep then s.modTime (fun t => { t with twoStep := some m })
  else servo s (syncOffset s m m.origin m.correction) m.ingress

/-- PTP_SYNC_RECEIVE (R252, R264). -/
def execPtpSyncReceive (m : PtpSync) (s : State) : Res :=
  if m.domain = pkgD s 0 (·.ptpDomain) ∧ m.port < 4 ∧ s.time.gm = some m.gm ∧ ptpRuns s = true then .next (takeSync s m)
  else .next s

/-- PTP_FOLLOW_UP_RECEIVE: completes a two-step Sync (R252). -/
def execPtpFollowUpReceive (srcPort : W80) (seq : W16) (origin : Nat) (correction : Int) (s : State) : Res :=
  match s.time.twoStep with
  | none => .next s
  | some m =>
    if m.srcPort = srcPort ∧ m.seq = seq ∧ ptpRuns s = true then
      let s := s.modTime (fun t => { t with twoStep := none })
      .next (servo s (syncOffset s m origin (m.correction + correction)) m.ingress)
    else .next s

/-- SYNC_LOSS_TIMER: no Sync for 3 intervals: LOCKED becomes HOLDOVER, SLEWING becomes FREERUN, and the servo discards its history
until 2 Syncs have come again (R251, table "Time states"). -/
def execSyncLossTimer (s : State) : Res :=
  if ptpRuns s && past s s.time.lastSync (3 * s.time.syncInterval) then
    let s := s.modTime (fun t => { t with syncs := [], sinceChange := 0, inLimit := 0, overStep := 0, twoStep := none })
    match s.time.own with
    | .locked => .next (setOwnTime s .holdover)
    | .slewing => .next (setOwnTime s .freerun)
    | .unset | .holdover | .freerun => .next s
  else .next s

/-- Holdover limit in s: 10 on the TCXO, 1,000 on REF_IN (R253, 0x1300:13). -/
def holdLimit (s : State) : Nat := if s.time.onRef then 1000 else 10

/-- HOLDOVER_LIMIT_EXPIRE (R253). -/
def execHoldoverLimitExpire (s : State) : Res :=
  if ptpRuns s = true ∧ s.time.own = .holdover ∧ past s s.time.holdAt (rSec (holdLimit s)) = true then .next (setOwnTime s .freerun)
  else .next s

/-! ### Peer delay and the transparent clock -/

/-- A peer-delay record changed. -/
def modPd (s : State) (port : Nat) (f : Pdelay → Pdelay) : State :=
  s.modTime (fun t => { t with pdelay := lupd t.pdelay port f })

/-- PTP message types (IEEE 1588-2019). -/
def ptpSync : Nat := 0
def ptpPdelayReq : Nat := 2
def ptpPdelayResp : Nat := 3
def ptpFollowUp : Nat := 8
def ptpPdelayRespFollowUp : Nat := 10

/-- Link state of a PTP port 0–3: P0, P1, S0, S1. -/
def ptpUp (s : State) (port : Nat) : Bool := decide (port < 4) && (s.net.ports.getD port PortSt.reset).link

/-- The Ethernet port of a PTP port 0–3. -/
def ptpPort (port : Nat) : Port := match port with | 0 => .p0 | 1 => .p1 | 2 => .s0 | _ => .s1

/-- A PTP message of the module's own leaves on a port under the module MAC, without tag, trailer or sequence number (R242,
R262). -/
def ptpSend (s : State) (port kind : Nat) (seq : W16) (correction : Int) : State :=
  let p := ptpPort port
  if (portOf s p).broken then
    (modPort s p (fun q => { q with broken := false })).modInteg (fun g => { g with parity := g.parity.inc })
  else send (modPort s p (fun q => { q with tx := q.tx.inc })) (.ptp (moduleMac s) port kind seq correction)

/-- PDELAY_REQ_RECEIVE: answered as a one-step responder with the turnaround in correctionField (R263). -/
def execPdelayReqReceive (port : Nat) (seq : W16) (correction : Int) (ingress egress : W64) (s : State) : Res :=
  if ownTraffic s && ptpUp s port then
    .next (ptpSend s port ptpPdelayResp seq (correction + 4096 * ((quarter egress - quarter ingress).toNat : Int)))
  else .next s

/-- PDELAY_RESP_RECEIVE: a completed exchange enters the port's last 8 (R263). -/
def execPdelayRespReceive (port : Nat) (seq : W16) (ingress : W64) (turnaround : Int) (s : State) : Res :=
  let p := s.time.pdelay.getD port Pdelay.reset
  match p.sentAt with
  | none => .next s
  | some t1 =>
    if port < 4 ∧ p.seq = seq ∧ p.answered = false then
      let d := (((quarter ingress - t1).toNat : Int) - turnaround / 4096) / 2
      .next (modPd s port (fun p => { p with answered := true, hist := lastN 8 (p.hist ++ [d]) }))
    else .next s

/-- PDELAY_REQ_TIMER: once per second each port that is up sends Pdelay_Req; `egress` gives the interpolated egress stamp of each
port (R246, R263). -/
def execPdelayReqTimer (s : State) (egress : List W64 := []) : Res :=
  if !ownTraffic s then .next s
  else
    .next ((List.range 4).foldl (fun s port =>
      let p := s.time.pdelay.getD port Pdelay.reset
      if ptpUp s port && (p.askedAt.isNone || past s p.askedAt (rSec 1)) then
        let s := modPd s port (fun p => { p with
          seq := p.seq + 1, askedAt := some s.time.raw, sentAt := some (stampAt s (egress.getD port s.time.raw)), answered := false })
        ptpSend s port ptpPdelayReq (p.seq + 1) 0
      else s) s)

/-- Entries of the forward record not yet forgotten: 400 ms, or 1 s for a two-step Sync that awaits its Follow_Up
(R265). -/
def tcLive (s : State) : List TcEntry :=
  s.time.tcs.filter (fun e => decide (elapsed s e.atRaw < rMs 400) || (e.awaits && decide (elapsed s e.atRaw ≤ rSec 1)))

/-- A message was already forwarded in a direction (R265). -/
def tcSeen (s : State) (toP1 : Bool) (srcPort : W80) (kind : Nat) (seq : W16) : Bool :=
  s.time.tcs.any (fun e => e.toP1 == toP1 && e.srcPort == srcPort && e.kind == kind && e.seq == seq &&
    decide (elapsed s e.atRaw < rMs 400))

/-- The forward record of 1,024 entries a direction takes an entry; the oldest gives way (R265). -/
def tcAdd (s : State) (e : TcEntry) : State :=
  let same := (tcLive s).filter (fun x => x.toP1 == e.toP1)
  let other := (tcLive s).filter (fun x => x.toP1 != e.toP1)
  s.modTime (fun t => { t with tcs := other ++ lastN 1024 (same ++ [e]) })

/-- The messages that the transparent clock forwards: Sync, Follow_Up, Announce, Signaling and Management (R265). -/
def tcForwards (kind : Nat) : Bool := kind == ptpSync || kind == ptpFollowUp || kind == 11 || kind == 12 || kind == 13

/-- PTP_TC_FORWARD: a message from one ring port leaves once on the other, its correction updated; only what was sent enters the
record (R262, R265). -/
def execPtpTcForward (m : PtpFwd) (s : State) : Res :=
  let toP1 := !m.fromP1
  let outp := if toP1 then Port.p1 else Port.p0
  if s.ctl.mode = .cold ∨ tcForwards m.kind = false then .next s
  else if tcSeen s toP1 m.srcPort m.kind m.seq then .next (s.modTime (fun t => { t with discarded := t.discarded.inc }))
  else
    let residence : Int := (stampTime s (quarter m.egress) : Int) - (stampTime s (quarter m.ingress) : Int)
    let add := 4096 * (residence + peerDelay s (if m.fromP1 then 1 else 0))
    let go := fun (s : State) (c : Int) (e : TcEntry) =>
      if (portOf s outp).link then
        let s := modPort (tcAdd s e) outp (fun q => { q with fwd := q.fwd.inc })
        send (s.modTime (fun t => { t with forwarded := t.forwarded.inc })) (.ptpForward (moduleMac s) toP1 m.kind m.srcPort m.seq c)
      else s
    if m.kind = ptpSync then
      .next (go s (if m.twoStep then m.correction else m.correction + add)
        ⟨toP1, m.srcPort, m.kind, m.seq, s.time.raw, add, m.twoStep⟩)
    else if m.kind = ptpFollowUp then
      match s.time.tcs.find? (fun e => e.toP1 == toP1 && e.srcPort == m.srcPort && e.kind == ptpSync && e.seq == m.seq &&
          e.awaits && decide (elapsed s e.atRaw ≤ rSec 1)) with
      | none => .next (s.modTime (fun t => { t with discarded := t.discarded.inc }))
      | some e => .next (go s (m.correction + e.add) ⟨toP1, m.srcPort, m.kind, m.seq, s.time.raw, 0, false⟩)
    else .next (go s m.correction ⟨toP1, m.srcPort, m.kind, m.seq, s.time.raw, 0, false⟩)

/-- PTP_TC_ENTRY_EXPIRE (R265). -/
def execPtpTcEntryExpire (s : State) : Res := .next (s.modTime (fun t => { t with tcs := tcLive s }))

/-! ### Reference input and pulses -/

/-- The AON clock takes the source that 0x1300:12 and the qualification give; RATE takes the measured difference at a
switch (R258, R259): the TCXO's rate over REF_IN's, as a fraction, is added on going to REF_IN and taken off on going back, so
that the rate of TIME stays (log entry 42). -/
def refSwitch (s : State) : State :=
  let want := s.time.refQ && setting s 0x1300 0x12 1 == 1
  if want = s.time.onRef then s
  else
    let d := if want then s.time.refDiff else - s.time.refDiff
    (writeRate s (s.time.rate + BitVec.ofInt 32 d)).modTime (fun t => { t with onRef := want })

/-- REF_IN loses its qualification: source 21, counted and logged (R258, R259). -/
def refLose (s : State) : State :=
  if s.time.refQ then
    let s := s.modTime (fun t => { t with refQ := false, refLosses := t.refLosses.inc })
    refSwitch (logTime (raiseIrq s 21) 3 s.time.lastOffset.toInt)
  else s

/-- 5 ppm in units of 2⁻⁴⁰ (R258). -/
def ppm5 : Int := 5497558

/-- REF_IN_QUALIFY: three seconds of measurement, as a fractional difference in 2⁻⁴⁰, positive where the TCXO runs faster than
REF_IN (R258, R259, log entry 42). -/
def execRefInQualify (diff : Int) (s : State) : Res :=
  let s := s.modTime (fun t => { t with refDiff := diff })
  if diff < -ppm5 ∨ ppm5 < diff then .next (refLose s)
  else
    let was := s.time.refQ
    let s := s.modTime (fun t => { t with refQ := true })
    .next (refSwitch (if was then s else raiseIrq s 21))

/-- REF_IN_LOSS: a missing edge (R258, R259). -/
def execRefInLoss (s : State) : Res := .next (refLose s)

/-- Offset of an instant from the nearest whole second, in ns (R260). -/
def secondOffset (t : Nat) : Int :=
  let r : Int := (t % 16000000000 : Nat)
  (if r < 8000000000 then r else r - 16000000000) / 16

/-- PPS_IN_EDGE: the edge is captured at its interpolated RAW (R246, R260). -/
def execPpsInEdge (s : State) (at_ : W64 := 0) : Res :=
  let t := stampTime s (stampAt s at_)
  .next (raiseIrq (s.modTime (fun x => { x with
    ppsCap := BitVec.ofNat 80 t, ppsAt := some s.time.raw, ppsOffset := BitVec.ofInt 32 (secondOffset t) })) 19)

/-- PPS_OUT is driven: by its mode, from STOP onward except SILENT (R260, R455). -/
def ppsDriven (s : State) : Bool :=
  let modeOk := match s.ctl.mode with
    | .cold | .bootwait | .verify | .selftest | .silent => false
    | .stop | .alone | .catchup | .twin | .lead | .test | .dbg => true
  modeOk && (match setting s 0x1300 0x14 1 with
    | 0 => false
    | 1 => s.time.own == .locked || s.time.own == .holdover
    | _ => true)

/-- PPS_OUT: its level where it is driven, none where it is high-impedance (R260). -/
def ppsPin (s : State) : Option Bool := if ppsDriven s then some s.time.ppsOut else none

/-- WHOLE_SECOND: TIME has reached a whole second that has not been acted on; PPS_OUT rises where it is driven, source 20 and
producer 42 (R260, R520). -/
def execWholeSecond (s : State) : Res :=
  let sec := timeNow s / 16000000000
  if sec ≤ s.time.secDone then .next s
  else
    let s := s.modTime (fun t => { t with secDone := sec })
    let s := if ppsDriven s then s.modTime (fun t => { t with ppsOut := true, ppsRoseAt := some s.time.raw }) else s
    .next (pulse (raiseIrq s 20) 42 (ns32Of (sec * 16000000000)))

/-- PPS_OUT_FALL: 100 ms after it rose (R260). -/
def execPpsOutFall (s : State) : Res :=
  if s.time.ppsOut && past s s.time.ppsRoseAt (rMs 100) then .next (s.modTime (fun t => { t with ppsOut := false }))
  else .next s

/-! ### Alarm, registers and forerunner -/

/-- TIME_ALARM_FIRE: in every mode, for nothing stops the TIME block (R271, R444). -/
def execTimeAlarmFire (s : State) : Res :=
  if alarmDue s then .next (fireAlarm s) else .next s

/-- TIME_ALARM_ARM (R271). -/
def execTimeAlarmArm (s : State) : Res :=
  if !clocksRun s then .next s else .next (s.modTime (fun t => { t with almArm := true }))

/-- TIME_ALARM_DISARM (R270). -/
def execTimeAlarmDisarm (s : State) : Res :=
  if !clocksRun s then .next s else .next (s.modTime (fun t => { t with almArm := false }))

/-- RATE_WRITE (R248). -/
def execRateWrite (rate : W32) (s : State) : Res :=
  if !clocksRun s then .next s else .next (writeRate s rate)

/-- TIME_STATUS (R270). -/
def timeStatus (s : State) : Nat :=
  let t := s.time
  t.own.code + 8 * b2n t.own.free + 16 * t.agreed.code + 128 * b2n t.refQ + 256 * b2n t.onRef + 512 * b2n (stepPending s) +
    1024 * b2n (within s t.ppsAt (rSec 2)) + 65536 * t.stepGen.toNat

/-- What a read of a TIME register returns, and the latches it leaves: the first word of a group latches the rest of it (R266,
R270, table "TIME register map"). -/
def timeRead (s : State) (o : Nat) : W32 × State :=
  let t := s.time
  let cut := fun {n : Nat} (v : BitVec n) (k : Nat) => v.extractLsb' (32 * k) 32
  match o with
  | 0x000 => (BitVec.ofNat 32 (timeStatus s), s)
  | 0x004 => (BitVec.ofNat 32 (b2n t.fren), s)
  | 0x010 => let x : W80 := BitVec.ofNat 80 (timeNow s); (cut x 0, s.modTime (fun t => { t with latNow := x }))
  | 0x014 => (cut t.latNow 1, s)
  | 0x018 => (cut t.latNow 2, s)
  | 0x01C => (ns32Of t.latNow.toNat, s)
  | 0x020 => (epochOf t.latNow.toNat, s)
  | 0x030 => (cut t.raw 0, s.modTime (fun t => { t with latRaw := t.raw }))
  | 0x034 => (cut t.latRaw 1, s)
  | 0x040 => (cut t.base 0, s)
  | 0x044 => (cut t.base 1, s)
  | 0x048 => (cut t.base 2, s)
  | 0x050 => (cut t.anchor 0, s)
  | 0x054 => (cut t.anchor 1, s)
  | 0x058 => (t.rate, s)
  | 0x05C => (t.lastOffset, s)
  | 0x070 => (cut t.ppsCap 0, s.modTime (fun t => { t with latPps := t.ppsCap }))
  | 0x074 => (cut t.latPps 1, s)
  | 0x078 => (cut t.latPps 2, s)
  | 0x080 => (t.almNs, s)
  | 0x084 => (t.almEp, s)
  | 0x088 => (BitVec.ofNat 32 (b2n t.almArm + 2 * b2n t.almFired), s)
  | 0x090 => (t.frinc, s)
  | 0x094 => (cut t.frCount 0, s.modTime (fun t => { t with latFr := t.frCount }))
  | 0x098 => (cut t.latFr 1, s)
  | _ => (0, s)

/-- FORERUNNER_LOAD: a write of TIME_FR1 loads the count and clears the fraction (R269). -/
def execForerunnerLoad (v : W32) (s : State) : Res :=
  if !clocksRun s then .next s else
  .next (s.modTime (fun t => { t with frCount := v ++ t.fr0, frFrac := 0 }))

/-- The counter CSRs of core pair `n` over one AON tick: 32 clocks of 800 MHz, whether or not it sleeps or runs a call, and the
instructions that it retires while it runs (R394, R404, R416). -/
def CpSt.count (c : CpSt) (n : Nat) (r : W64) (runs : Bool) : CpSt :=
  { c with cycleCsr := c.cycleCsr + 32, timeCsr := c.timeCsr + Config.timeCsrStep,
           instretCsr := if runs then c.instretCsr + Config.retiredIn n r else c.instretCsr }

/-- The counters of one AON tick: RAW and, while it runs, the forerunner counter (R245, R269). -/
def advanceTime (s : State) : State :=
  s.modTime (fun t =>
    let n := t.frCount.toNat * 2 ^ 24 + t.frFrac.toNat + t.frinc.toNat
    let t := { t with raw := t.raw + 640 }
    if t.fren then { t with frCount := BitVec.ofNat 64 (n / 2 ^ 24), frFrac := BitVec.ofNat 24 n } else t)

/-- The counter CSRs of both core pairs over one AON tick (R394). -/
def countCores (s : State) : State :=
  if clocksRun s then
    (s.modN0 (fun c => c.count 0 s.time.raw (coreRuns s .n0))).modN1 (fun c => c.count 1 s.time.raw (coreRuns s .n1))
  else s

/-- One AON tick with nothing waiting: the counters advance; holds that wait for the converter's start-up begin, and its power follows
what is due; the core pairs take presented interrupts; and a bit of 0x1200:0C that time changes raises source 38 (R245, R269, R376,
R394, R409, R416, R431). Paced publications whose instant has come leave (R185). -/
def aonTick (s : State) : State :=
  let t := pacedNow (powerConverter (holdsBegin (advanceTime (countCores s))))
  notePair s (takeInterrupt (takeInterrupt t .n0) .n1)

end Sys2Proof.Machine
end

