-- ==== Sys2Proof/Machine/Channels.lean ====
section
/-!
DEFINITION. Sampled-value streams and channel engines: reception, agreement of samples, resampling, analysis, results (05_channels).
-/

namespace Sys2Proof.Machine

/-! ### Grids -/

/-- Rate of a grid (R140). -/
def gridFs (fast : Bool) : Nat := if fast then 14400 else 4800

/-! ### Records -/

/-- Package values of a channel that has a source (R135). -/
def chCfg (s : State) (n : Nat) : Option ChannelCfg :=
  match mget (pkgD s [] (·.channels)) n with
  | some c => if c.source = 0 then none else some c
  | none => none

/-- A channel's record. -/
def chSt (s : State) (n : Nat) : ChSt := mgetD s.chans n ChSt.reset

/-- A channel's record changed. -/
def modChan (s : State) (n : Nat) (f : ChSt → ChSt) : State := s.modChans (fun m => mupd m n ChSt.reset f)

/-- A stream's record. -/
def stSt (s : State) (k : Nat) : StreamSt := mgetD s.streams k StreamSt.reset

/-- A stream's record changed. -/
def modStream (s : State) (k : Nat) (f : StreamSt → StreamSt) : State := s.modStreams (fun m => mupd m k StreamSt.reset f)

/-- A status bit of a channel; any change raises source 80 (R163, table "Interrupt sources"). -/
def setChBit (s : State) (n bit : Nat) (v : Bool) : State :=
  if (chSt s n).status.getLsbD bit = v then s
  else raiseIrq (modChan s n (fun c => { c with status := setBit c.status bit v })) 80

/-! ### Source samples -/

/-- A usable source sample joins a channel's taps (R149). -/
def addTap (s : State) (n inst : Nat) (w : TWord) : State :=
  let s := modChan s n (fun c => { c with taps := lastN 1024 (c.taps ++ [⟨inst, w⟩]), missing := 0, lastGood := some w })
  setChBit s n 0 true

/-- Word that replaces a missing sample, the k-th in succession (R146). Before any usable sample of the element it is made from
the unused word, zero (DESIGN CHOICE, log entry 25: the manual names the last usable value only). -/
def missingWord (good : Option TWord) (k : Nat) : TWord :=
  let g := good.getD TWord.unused
  if k ≤ 3 then ⟨worsen (g.tag ||| tSUB) 1, g.val⟩ else ⟨worsen (g.tag ||| tSUB ||| tSTL) 2, g.val⟩

/-- A missing source sample is replaced and counted (R146). -/
def addMissing (s : State) (n inst : Nat) : State :=
  let c := chSt s n
  let w := missingWord c.lastGood (c.missing + 1)
  let s := modChan s n (fun c => { c with
    taps := lastN 1024 (c.taps ++ [⟨inst, w⟩]), missing := c.missing + 1, nMissing := c.nMissing.inc,
    nReplaced := c.nReplaced.inc })
  setChBit s n 0 false

/-! ### Streams -/

/-- The stream fields of a channel (R136). -/
def streamKey (c : ChannelCfg) : W48 × Nat × Nat × Bytes × W32 := (c.dst, c.vlan, c.appid, c.svId, c.confRev)

/-- Elements kept once, in order of first appearance. -/
def distinct {α : Type} [DecidableEq α] : List α → List α
  | [] => []
  | a :: t => a :: (distinct t).filter (fun x => decide (x ≠ a))

/-- The streams in the order the package declares them (R136, R194). -/
def streamsOf (s : State) : List (W48 × Nat × Nat × Bytes × W32) :=
  distinct (((pkgD s [] (·.channels)).filter (fun x => x.2.source == 1)).map (fun x => streamKey x.2))

/-- The channels of a stream. -/
def streamChans (s : State) (k : Nat) : List (Nat × ChannelCfg) :=
  match (streamsOf s)[k]? with
  | none => []
  | some key => (pkgD s [] (·.channels)).filter (fun x => x.2.source == 1 && decide (streamKey x.2 = key))

/-- Rate, arrival limit in 1/16 ns and first channel of a stream. Of channels that share a stream and are set apart in their
limit 0x0D, local-clock choice 0x0E or nominal delay 0x0F, the first governs the stream (DESIGN CHOICE, log entry 99: R142 to
R144 give each channel these entries and each stream one of each). -/
def streamFs (s : State) (k : Nat) : Nat := match streamChans s k with | x :: _ => gridFs x.2.fast | [] => 4800
def streamLim (s : State) (k : Nat) : Nat := match streamChans s k with | x :: _ => rUs x.2.limitUs | [] => 0
def streamFirst (s : State) (k : Nat) : Nat := match streamChans s k with | x :: _ => x.1 | [] => 0

/-- A frame's stream is synchronised (R142), by entry 0x0E of the stream's first channel (DESIGN CHOICE, log entry 99). -/
def syncFor (s : State) (k : Nat) (f : SvFrame) : Bool :=
  let y := match f.asdus with | a :: _ => a.smpSynch | [] => 0
  y == 2 || ((y == 1 || (5 ≤ y && y ≤ 254)) && setting s (0x2000 + streamFirst s k) 0x0E 0 == 1)

/-- Instant S + smpCnt/fs, the latest not after the arrival (R141). -/
def syncInst (fs arrival smpCnt : Nat) : Nat :=
  let off := smpCnt * 16000000000 / fs
  let t := arrival / 16000000000 * 16000000000 + off
  if t ≤ arrival then t else t - 16000000000

/-- Tracked instant of the last ASDU of an unsynchronised frame (R143): the nominal delay is that of the stream's first channel
(DESIGN CHOICE, log entry 99), and the prediction lies a whole number of frames after the previous frame, that nearest to the
estimate, so that lost frames do not move it (DEDUCED, log entry 114). -/
def trackLast (s : State) (k arrival m : Nat) : Nat :=
  let est : Int := (arrival : Int) - rUs (setting s (0x2000 + streamFirst s k) 0x0F 0)
  match (stSt s k).lastInst with
  | none => est.toNat
  | some l =>
    let step : Int := (m * 16000000000 / streamFs s k : Nat)
    let j := (2 * (est - l) + step) / (2 * step)
    let pred : Int := l + j * m * 16000000000 / streamFs s k
    (pred + (est - pred) / 64).toNat

/-- Instant of ASDU i of a frame that arrived at a TIME (R141, R143). -/
def asduInst (s : State) (k : Nat) (f : SvFrame) (arrival i : Nat) : Nat :=
  let fs := streamFs s k
  if syncFor s k f then syncInst fs arrival ((f.asdus[i]?.map (·.smpCnt)).getD 0)
  else trackLast s k arrival f.asdus.length - (f.asdus.length - 1 - i) * 16000000000 / fs

/-- The frame conditions of R137 for a stream. -/
def svFits (s : State) (k : Nat) (f : SvFrame) : Bool :=
  match (streamsOf s)[k]? with
  | none => false
  | some (_, vlan, _, svId, rev) =>
    let fs := streamFs s k
    let maxEl := (streamChans s k).foldl (fun a x => max a x.2.element) 0
    f.wellFormed && f.etype == 0x88BA && f.vlan == vlan && decide (0x4000 ≤ f.appid ∧ f.appid ≤ 0x7FFF) &&
      decide (1 ≤ f.asdus.length ∧ f.asdus.length ≤ 8) &&
      f.asdus.all (fun a =>
        a.svId == svId && (rev == 0 || a.confRev == rev) && decide (a.smpCnt < fs) &&
          (match a.smpRate with | none => true | some r => r == fs) &&
          decide (maxEl < a.elems.length ∧ a.elems.length ≤ 24))

/-- A frame discarded under R137 is noted for status bit 4 of the stream's channels (R163). -/
def svDiscard (s : State) (k : Nat) : State :=
  (streamChans s k).foldl (fun s x =>
    setChBit (modChan s x.1 (fun c => { c with
      discards := s.time.raw :: c.discards.filter (fun t => decide (elapsed s t < rSec 1)) })) x.1 4 true) s

/-- Simulated frames stand for the stream's real ones (R138). -/
def simulating (s : State) (k : Nat) : Bool := inTest s && (stSt s k).simulated

/-- ASDUs of a frame that came after their deadline (R144). -/
def lateAsdus (s : State) (k : Nat) (f : SvFrame) (arrival : Nat) : Nat :=
  ((List.range f.asdus.length).filter (fun i => decide (asduInst s k f arrival i + streamLim s k < arrival))).length

/-- A frame that passed R137 and R138 is held with the TIME of its port stamp for its samples' deadlines, its late samples counted
(R144, R246). -/
def svHold (s : State) (k : Nat) (f : SvFrame) (arrival : Nat) : State :=
  let late := lateAsdus s k f arrival
  let lat := (arrival - asduInst s k f arrival 0) / 16000
  let s := (streamChans s k).foldl (fun s x => modChan s x.1 (fun c => { c with
    nLate := c.nLate.add late,
    longest := if syncFor s k f && decide (c.longest.toNat < lat) then BitVec.ofNat 32 (min lat 0xFFFFFFFF) else c.longest })) s
  if late = f.asdus.length then s
  else modStream s k (fun x => { x with held := lastN 64 (x.held ++ [⟨f, arrival, false⟩]) })

/-- Modes in which channels and loops work: the modes that execute, and CATCHUP. -/
def enginesRun (s : State) : Bool := s.ctl.mode.executes || s.ctl.mode == .catchup

/-- The engines work on samples as they come: in the modes that execute, and from the cutoff of the tick that verifies a
catch-up; before it a joining side's engines replay what was logged (R214). -/
def enginesLive (s : State) : Bool :=
  s.ctl.mode.executes || (s.ctl.mode == .catchup && s.pair.phase == 5 && s.cyc.phase != .slack)

/-- SV_FRAME_RECEIVE: a frame is checked against its stream, stamped and held, or discarded and counted (R137, R138,
R144); `at_` is its port's interpolated ingress stamp (R246). The data plane takes it in every mode except COLD (R12). -/
def execSvFrameReceive (f : SvFrame) (s : State) (at_ : W64 := 0) : Res :=
  let arrival := stampTime s (stampAt s at_)
  match (streamsOf s).findIdx? (fun key => key.1 == f.dst && key.2.2.1 == f.appid) with
  | none => .next s
  | some k =>
    if s.ctl.mode == .cold then .next s
    else if !svFits s k f then .next (svDiscard s k)
    else if f.sim && !inTest s then .next s
    else if f.sim then
      .next (svHold ((streamChans s k).foldl (fun s x => setChBit s x.1 5 true)
        (modStream s k (fun x => { x with simulated := true }))) k f arrival)
    else if simulating s k then .next s
    else .next (svHold s k f arrival)

/-! ### Agreement of samples -/

/-- Spacing of a stream's samples. -/
def streamTs (s : State) (k : Nat) : Nat := 16000000000 / streamFs s k

/-- Two instants are those of one sample of a stream: less than half its spacing apart. -/
def sameSample (s : State) (k t x : Nat) : Bool := decide (2 * (max x t - min x t) < streamTs s k)

/-- The held frame and ASDU that carry the sample of an instant; an ASDU that came after its limit is not used (R144). -/
def findSample (s : State) (k t : Nat) : Option (HeldSv × Nat) :=
  (stSt s k).held.findSome? (fun h =>
    ((List.range h.frame.asdus.length).find? (fun i =>
      let x := asduInst s k h.frame h.arrival i
      sameSample s k t x && decide (h.arrival ≤ x + streamLim s k))).map (fun i => (h, i)))

/-- The next sample instant of a stream whose set is not fixed (R145): on the grid after the last one of a synchronised stream,
one spacing later in an unsynchronised one. Before its first frame a stream counts as synchronised. -/
def nextSample (s : State) (k : Nat) : Option Nat :=
  let x := stSt s k
  x.lastT.map (fun t => if x.sync then gridAt (streamFs s k) (gridIdx (streamFs s k) t + 1) else t + streamTs s k)

/-- Word of an element of an ASDU: the quality tag, SGL, TST for a simulated frame, QUESTIONABLE when unsynchronised (R138,
R139, R143, R145). -/
def sampleWord (s : State) (k : Nat) (f : SvFrame) (i element : Nat) (sgl : Bool) : TWord :=
  let e := ((f.asdus[i]?.map (·.elems)).getD []).getD element (0, 0)
  let t := qualityTag e.2 ||| tIf sgl tSGL ||| tIf (f.sim || inTest s) tTST
  ⟨worsen t (b2n (!syncFor s k f)), e.1⟩

/-- The partner's SAMPLE for an instant. -/
def peerFor (s : State) (k t : Nat) : Option SampleMsg := (stSt s k).peers.find? (fun m => sameSample s k t (nearTime t m.inst))

/-- CRC of a held frame (R194). -/
def svCrc (h : HeldSv) : W32 := crc32c h.frame.bytes

/-- The partner holds other contents for a sample than this side does (R145). -/
def sampleDiffers (s : State) (k t : Nat) : Bool :=
  match findSample s k t, peerFor s k t with
  | some o, some m => m.holds && m.crc != svCrc o.1
  | _, _ => false

/-- The smpCnt of the sample of an instant that no frame is held for: a synchronised stream's follows from the instant, an
unsynchronised one's from that of the sample before it (R137, R140, R194). -/
def countAt (s : State) (k t : Nat) : Nat :=
  let fs := streamFs s k
  if (stSt s k).sync then gridIdx fs t % fs else ((stSt s k).cnt + 1) % fs

/-- SAMPLE of this side for an instant (R194). -/
def ownSample (s : State) (k t : Nat) : SampleMsg :=
  match findSample s k t with
  | none => ⟨k, false, false, countAt s k t, BitVec.ofNat 64 t, 0, 0⟩
  | some (h, i) =>
    ⟨k, true, syncFor s k h.frame, (h.frame.asdus[i]?.map (·.smpCnt)).getD 0,
      BitVec.ofNat 64 (asduInst s k h.frame h.arrival i), BitVec.ofNat 64 h.arrival, svCrc h⟩

/-- A stream's channels take the sample that ASDU i of a frame carries for an instant (R145). Status bit 1 follows the stream; a
point or converter source has none, and its channel keeps the bit 0 (DESIGN CHOICE, log entry 116). The tracking filter holds
instants of unsynchronised frames only: a stream that turns unsynchronised starts from its own estimate, with the step of R143. -/
def useSample (s : State) (k : Nat) (f : SvFrame) (i inst : Nat) (sgl : Bool) : State :=
  let y := syncFor s k f
  let s := (streamChans s k).foldl (fun s c =>
    setChBit (addTap s c.1 inst (sampleWord s k f i c.2.element sgl)) c.1 1 y) s
  modStream s k (fun q => { q with
    sync := y, lastInst := if y then none else if i + 1 = f.asdus.length then some inst else q.lastInst })

/-- No side holds the sample of an instant: each channel of the stream takes a replacement (R146). -/
def missSample (s : State) (k t : Nat) : State := (streamChans s k).foldl (fun s c => addMissing s c.1 t) s

/-- An instant of a stream is done with; the sample of it lay at `inst` and had the smpCnt `cnt`. -/
def endSample (s : State) (k inst cnt : Nat) : State :=
  let past := inst + streamTs s k / 2
  modStream s k (fun q => { q with
    lastT := some inst, pendT := none, cnt := cnt,
    peers := q.peers.filter (fun m => decide (past < nearTime inst m.inst)),
    held := q.held.filter (fun h => decide (past < asduInst s k h.frame h.arrival (h.frame.asdus.length - 1))) })

/-- The agreed set of an instant is fixed: each channel of the stream takes its sample or a replacement (R145, R146). The
agreed arrival stamp is the earlier of the two sides', or that of the one side that received the frame (R141); SGL is set on
what one side only received, and on the LEAD's copy of what differs. -/
def fixSample (s : State) (k t : Nat) : State :=
  let m := peerFor s k t
  match findSample s k t with
  | none =>
    let o := { ownSample s k t with holds := false }
    endSample (logItems (missSample s k t) s.cyc.tick [.sampleSet o none]) k t o.smpCnt
  | some (h, i) =>
    let both := match m with | some m => m.holds | none => !sharing s
    let arr := match m with
      | some m => if m.holds then min (nearTime h.arrival m.arrival) h.arrival else h.arrival
      | none => h.arrival
    let inst := asduInst s k h.frame arr i
    let msg := { ownSample s k t with inst := BitVec.ofNat 64 inst }
    let s := useSample s k h.frame i inst (h.single || !both || sampleDiffers s k t)
    endSample (logItems s s.cyc.tick [.sampleSet msg (some h.frame)]) k inst msg.smpCnt

/-- Both sides' parts of an instant are here (R145): what this side lacks has been supplied, and where contents differ the LEAD's
copy is here. -/
def sampleReady (s : State) (k t : Nat) : Bool :=
  match peerFor s k t with
  | none => false
  | some m => if (findSample s k t).isNone then !m.holds else ownerPart s || !sampleDiffers s k t

/-- A held frame changed. -/
def modHeld (s : State) (k : Nat) (h : HeldSv) (f : HeldSv → HeldSv) : State :=
  modStream s k (fun x => { x with held := x.held.map (fun y => if y = h then f y else y) })

/-- A counter of every channel of a stream changed. -/
def countStream (s : State) (k : Nat) (f : ChSt → ChSt) : State := (streamChans s k).foldl (fun s c => modChan s c.1 f) s

/-- The frames the partner lacks, and the LEAD's copy where contents differ, are supplied (R145). A frame that one side only
received, or whose contents differed, gives SGL to all its samples; each mismatch is counted once. -/
def supplySample (s : State) (k t : Nat) : State :=
  match findSample s k t, peerFor s k t with
  | some o, some m =>
    let differs := sampleDiffers s k t
    let s := if !m.holds || (differs && ownerPart s) then mjSend s (.svsupply k o.1.frame) else s
    let s := if differs && !o.1.single then countStream s k (fun q => { q with nMismatch := q.nMismatch.inc }) else s
    if !m.holds || differs then modHeld s k o.1 (fun h => { h with single := true }) else s
  | _, _ => s

/-- Instants that a forward step passed over are missing, one after another (R257). -/
def skipSamples : Nat → State → Nat → State
  | 0, s, _ => s
  | fuel + 1, s, k =>
    match nextSample s k with
    | none => s
    | some t =>
      if s.time.skips.any (fun x => decide (x.1 < t ∧ t ≤ x.2)) && decide (t + streamLim s k ≤ timeNow s) then
        skipSamples fuel (endSample (missSample s k t) k t (countAt s k t)) k
      else s

/-- SAMPLE_DEADLINE: at t + L the side sends SAMPLE, whether or not it holds the sample, and the set is fixed, at once without a
partner (R145, R194). -/
def execSampleDeadline (k : Nat) (s : State) : Res :=
  if !enginesLive s then .next s
  else
    let s := skipSamples 40000 s k
    match nextSample s k with
    | none => .next s
    | some t =>
      if timeNow s < t + streamLim s k then .next s
      else if !sharing s then .next (fixSample s k t)
      else
        let s := if (stSt s k).pendT = some t then s
          else
            let s := modStream (mjSend s (.sample (ownSample s k t))) k (fun x => { x with pendT := some t })
            supplySample s k t
        if sampleReady s k t then .next (fixSample s k t) else .next s

/-- The partner's SAMPLE (R145): kept, answered by a supplied frame, and used when it completes the set. -/
def takePeerSample (s : State) (m : SampleMsg) : State :=
  let k := m.stream
  let s := modStream s k (fun x => { x with peers := lastN 64 (x.peers ++ [m]) })
  match (stSt s k).pendT with
  | none => s
  | some t =>
    let s := supplySample s k t
    if sampleReady s k t then fixSample s k t else s

/-- Two frames of a stream carry the same samples. -/
def sameAsdus (a b : SvFrame) : Bool := a.asdus.map (·.smpCnt) == b.asdus.map (·.smpCnt)

/-- A supplied frame (R145): it takes the place of this side's copy where the two differ, and has the arrival stamp of the
partner's SAMPLE. -/
def takeSvSupply (s : State) (k : Nat) (f : SvFrame) : State :=
  let stamp := ((stSt s k).peers.find? (fun m => m.holds && f.asdus.any (fun a => a.smpCnt == m.smpCnt))).map
    (fun m => nearTime (timeNow s) m.arrival)
  let arrival := stamp.getD (timeNow s)
  let s := match (stSt s k).held.find? (fun h => sameAsdus h.frame f) with
    | some h => modHeld s k h (fun h => ⟨f, min h.arrival arrival, true⟩)
    | none =>
      countStream (modStream s k (fun x => { x with held := lastN 64 (x.held ++ [⟨f, arrival, true⟩]) })) k
        (fun q => { q with nSupplied := q.nSupplied.inc })
  match (stSt s k).pendT with
  | none => s
  | some t => if sampleReady s k t then fixSample s k t else s

/-- Sets whose time t + L + 10 µs is over are fixed with what is here (R145). -/
def forceSamples (s : State) : State :=
  (List.range (streamsOf s).length).foldl (fun s k =>
    match (stSt s k).pendT with
    | some t => if t + streamLim s k + rUs 10 ≤ timeNow s then fixSample s k t else s
    | none => s) s

/-! ### Converter and point sources -/

/-- A converter sample of a channel: the code as its I32 sample, which waits for its deadline t + L (R14, R148, R372). SIDEIN
carries a code and no tag, so that the word has the tag of a good value on both sides (DEDUCED from R11, log entry 113). -/
def converterTap (s : State) (n inst : Nat) (code : W32) : State :=
  match chCfg s n with
  | some c =>
    if c.source = 3 ∧ (chSt s n).convNext.getD 0 ≤ gridIdx (gridFs c.fast) inst then
      modChan s n (fun q => { q with conv := lastN 64 (q.conv ++ [⟨inst, ⟨0, code⟩⟩]) })
    else s
  | none => s

/-- The converter samples whose deadline has come enter their channel, and a missing one is replaced 10 µs after it (R145, R146,
R148). A channel of an absent side has every sample missing. -/
def takeConverter : Nat → State → Nat → ChannelCfg → State
  | 0, s, _, _ => s
  | fuel + 1, s, n, c =>
    let fs := gridFs c.fast
    match (chSt s n).convNext with
    | none => s
    | some g =>
      let go := fun (s : State) => takeConverter fuel (modChan s n (fun q => { q with
        convNext := some (g + 1), conv := q.conv.filter (fun x => decide (g < gridIdx fs x.inst)) })) n c
      match (chSt s n).conv.find? (fun x => gridIdx fs x.inst == g) with
      | some x => if x.inst + rUs c.limitUs ≤ timeNow s then go (addTap s n x.inst x.word) else s
      | none => if gridAt fs g + rUs c.limitUs + rUs 10 ≤ timeNow s then go (addMissing s n (gridAt fs g)) else s

/-- The samples of a converter channel up to now. -/
def forceConverter (s : State) (n : Nat) (c : ChannelCfg) : State := if c.source = 3 then takeConverter 40000 s n c else s

/-- CONVERSION_DONE: the oldest hold's result is stored under the interpolated stamp `at_` of its hold; a channel bound to its
entry takes it as a sample and the partner is sent it (R148, R246, R374). -/
def execConversionDone (code : W16) (s : State) (at_ : W64 := 0) : Res :=
  if !clocksRun s then .next s else
  match s.field.holds with
  | [] => .next s
  | h :: _ =>
    let h := { h with hold := stampNear h.hold at_ }
    let s := storeConversion s h code
    match h.entry with
    | none => .next s
    | some e =>
      let c := seqCfg s e
      if c.boundTo = 1 then
        let inst := stampTime s h.hold
        let v := BitVec.ofNat 32 code.toNat
        let s := converterTap s c.number inst v
        let x : SideItem := ⟨1, h.input, c.number, v, BitVec.ofNat 64 inst⟩
        let s := logItems s s.cyc.tick [.side x]
        if sharing s then .next (mjSend s (.sidein [x])) else .next s
      else .next s

/-- The word a point had at the end of the agreement of the latest cycle of its task cut off at or before an instant
(R147). -/
def histWord (s : State) (p t : Nat) : TWord :=
  let task := (descOf s.img p).task
  match s.img.hist.find? (fun h => h.1 == task && decide (h.2.1 ≤ t)) with
  | some h => mgetD h.2.2 p (pointWord s.img p)
  | none => pointWord s.img p

/-- No cutoff of a point's task at or before an instant still waits for its agreement (R147, R180). -/
def histReady (s : State) (p t : Nat) : Bool :=
  !(s.cyc.phase == .agreeing && s.cyc.cutDue.getLsbD (descOf s.img p).task && decide (s.cyc.cutTime.toNat ≤ t))

/-! ### Resampling -/

/-- binary64 of a rational constant. -/
def fconst (n : Int) (d : Nat) : F64 := f64 (Q.mk' n d)

/-- 4-tap cubic Lagrange interpolation at u (R149). -/
def lagrange (u x0 x1 x2 x3 : F64) : F64 :=
  if fIsZero u then x1
  else
    let um1 := fsub u (fconst 1 1)
    let um2 := fsub u (fconst 2 1)
    let up1 := fadd u (fconst 1 1)
    let c0 := fneg (fdiv (fmul (fmul u um1) um2) (fconst 6 1))
    let c1 := fdiv (fmul (fmul up1 um1) um2) (fconst 2 1)
    let c2 := fneg (fdiv (fmul (fmul up1 u) um2) (fconst 2 1))
    let c3 := fdiv (fmul (fmul up1 u) um1) (fconst 6 1)
    fadd (fadd (fadd (fmul c0 x0) (fmul c1 x1)) (fmul c2 x2)) (fmul c3 x3)

/-- Interpolation at t of a rising list of (instant, value, tag): the four points around t, where they are all there. -/
def interp (l : List (Nat × F64 × Byte)) (t : Nat) : Option (F64 × Byte) :=
  let k := (l.filter (fun x => decide (x.1 ≤ t))).length
  if k < 2 then none
  else
    match l.drop (k - 2) with
    | a :: b :: c :: d :: _ =>
      let u := fdiv (fint (t - b.1 : Nat)) (fint (c.1 - b.1 : Nat))
      some (lagrange u a.2.1 b.2.1 c.2.1 d.2.1, tagMerge [a.2.2, b.2.2, c.2.2, d.2.2])
    | _ => none

/-- The I32 word of a grid sample: rounded to nearest, ties to even, LIM where it saturates (R150). What is not a number has a
free value (log entry 25). -/
def gridWord (y : F64) (tag : Byte) : TWord :=
  let i := (fq y).round
  if fIsNan y then ⟨tag, Config.nanSample⟩
  else if (fIsInf y && fSign y) || decide (i < -2147483648) then ⟨tag ||| tLIM, 0x80000000⟩
  else if fIsInf y || decide (2147483647 < i) then ⟨tag ||| tLIM, 0x7FFFFFFF⟩
  else ⟨tag, BitVec.ofInt 32 i⟩

/-- A binary32 word widened to binary64, an infinity and not-a-number kept. -/
def f64OfF32 (v : W32) : F64 :=
  if isNan32 v then fnan else if isInf32 v then finf (v.getLsbD 31) else f64 (f32q v)

/-- A point word as binary64 in its own units: an F32 widened, an X32 with its scale, any other type as an integer (DESIGN
CHOICE, log entry 25: the manual gives no source units to a point). -/
def pointF64 (s : State) (p : Nat) (w : TWord) : F64 :=
  let d := descOf s.img p
  if d.typ = tyF32 then f64OfF32 w.val
  else if d.typ = tyX32 then f64 ((Q.ofInt w.val.toInt).scale d.scale)
  else if d.typ = tyI32 then fint w.val.toInt
  else fint w.val.toNat

/-- The grid sample of a channel at a grid instant, when its taps are here: the tag follows R32 over them (R147, R149). -/
def gridSample (s : State) (n : Nat) (c : ChannelCfg) (t : Nat) : Option (F64 × Byte) :=
  let out := fun (y : F64) (tag : Byte) => (y, tagMerge [tag] ||| tIf (inTest s) tTST)
  if c.source = 2 then
    if t + rUs c.limitUs ≤ timeNow s && histReady s c.point t then
      let w := histWord s c.point t
      some (out (pointF64 s c.point w) w.tag)
    else none
  else (interp ((chSt s n).taps.map (fun x => (x.inst, fint x.word.val.toInt, x.word.tag))) t).map (fun x => out x.1 x.2)

/-- The first grid instant of a channel that has none yet: the first at or after its second tap (log entry 25). -/
def firstGrid (s : State) (n : Nat) (c : ChannelCfg) : Option Nat :=
  let fs := gridFs c.fast
  if c.source = 2 then some (gridIdx fs (timeNow s))
  else
    match (chSt s n).taps with
    | _ :: b :: _ => let g := gridIdx fs b.inst; some (if gridAt fs g < b.inst then g + 1 else g)
    | _ => none

/-- A grid instant lies in what a forward step passed over; the number of the last such instant (R257). -/
def skipped (s : State) (fs g : Nat) : Option Nat :=
  (s.time.skips.find? (fun x => decide (x.1 < gridAt fs g ∧ gridAt fs g ≤ x.2))).map (fun x => gridIdx fs x.2)

/-- A grid sample enters the channel and, where the channel is recorded, the recorder; it follows on its predecessor where the
instants are next to each other and no step of TIME lies between them (R150, R337, R338). -/
def takeGrid (s : State) (n g t : Nat) (c : ChannelCfg) (y : F64) (tag : Byte) : State :=
  let w := gridWord y tag
  let fs := gridFs c.fast
  let follows := match (chSt s n).grid.getLast? with
    | some l => gridIdx fs l.1 + 1 == g && !s.time.stepAt.any (fun x => decide (l.1 ≤ x ∧ x < t))
    | none => false
  let s := modChan s n (fun q => { q with lastGrid := some g, grid := lastN 512 (q.grid ++ [(t, y, w)]) })
  let s := if c.source = 2 then setChBit s n 0 true else s
  if s.ctl.mode.run && (recCfgOf s).channels.contains n then recSample s 0 false n (b2n c.fast) 0 t w follows else s

/-- Grid samples of a channel that can be formed now, at most `fuel` (R149). -/
def formGrid : Nat → State → Nat → ChannelCfg → State
  | 0, s, _, _ => s
  | fuel + 1, s, n, c =>
    let fs := gridFs c.fast
    let next := match (chSt s n).lastGrid with | some l => some (l + 1) | none => firstGrid s n c
    match next with
    | none => s
    | some g =>
      match skipped s fs g with
      | some last => formGrid fuel (modChan s n (fun q => { q with lastGrid := some last })) n c
      | none =>
        match gridSample s n c (gridAt fs g) with
        | none => s
        | some (y, tag) => formGrid fuel (takeGrid s n g (gridAt fs g) c y tag) n c

/-! ### Analysis -/

/-- Highest harmonic of a rate (R153). -/
def hLimit (fast : Bool) : Nat := if fast then 50 else 15

/-- N₀ = fs / f₀ (R152). -/
def nZero (c : ChannelCfg) : Nat := gridFs c.fast / max c.f0 1

/-- Scale 0x2000:10 + n as REAL32, with its default by the channel's quantity (R163). -/
def scaleBits (s : State) (n : Nat) (c : ChannelCfg) : Nat :=
  setting s (0x2000 + n) 0x10 (if c.quantity = 0 then 0x3A83126F else if c.quantity = 1 then 0x3C23D70A else 0x3F800000)

/-- Scale 0x2000:10 + n as binary64 (R163). -/
def chScale (s : State) (n : Nat) (c : ChannelCfg) : F64 := f64 (f32q (BitVec.ofNat 32 (scaleBits s n c)))

/-- Threshold 0x2000:12 + n as binary64. -/
def chThreshold (s : State) (n : Nat) : F64 := f64 (f32q (BitVec.ofNat 32 (setting s (0x2000 + n) 0x12 0)))

/-- ROCOF periods 0x2000:13 + n. -/
def chPeriods (s : State) (n : Nat) : Nat := setting s (0x2000 + n) 0x13 10

/-- Magnitude of a sum. -/
def fmag (x : F64 × F64) : F64 := fsqrt (fadd (fmul x.1 x.1) (fmul x.2 x.2))

/-- Sum h of a channel. -/
def chSum (q : ChSt) (h : Nat) : F64 × F64 := q.sums.getD h (0, 0)

/-- The tracked frequency f̂; f₀ before anything is measured (R154). -/
def fHat (q : ChSt) (c : ChannelCfg) : F64 := if q.fhat = 0 then fint c.f0 else q.fhat

/-- |X₁| in primary units stands below a channel's threshold, as the threshold stood at the last frequency measurement (R154,
R157, R162). -/
def belowThr (s : State) (n : Nat) (c : ChannelCfg) : Bool :=
  flt (fmul (fmag (chSum (chSt s n) 1)) (chScale s n c)) (chSt s n).thr

/-- Factor of sum h: √2/N₀, or 1/N₀ for h = 0 (R153). -/
def sumFactor (n0 h : Nat) : F64 :=
  if h = 0 then fdiv (fint 1) (fint n0) else fdiv (fsqrt (fint 2)) (fint n0)

/-- The recursive update of sum h at analysis sample m by the change of its window (R153). -/
def sumStep (n0 h m : Nat) (old : F64 × F64) (dy : F64) : F64 × F64 :=
  let k := fmul (sumFactor n0 h) dy
  (fadd old.1 (fmul k (cosTurn n0 (h * m % n0))), fsub old.2 (fmul k (sinTurn n0 (h * m % n0))))

/-- Sum h computed in full over a window that ends at analysis sample m (R153). -/
def sumFull (n0 h m : Nat) (win : List (F64 × Byte)) : F64 × F64 :=
  let len := win.length
  (win.zipIdx).foldl (fun acc x => sumStep n0 h (m + n0 - (len - 1 - x.2)) acc x.1.1) (0, 0)

/-- 2π and π in binary64. -/
def twoPi : F64 := 0x401921FB54442D18
def piF : F64 := 0x400921FB54442D18

/-- A phase wrapped to (−π, π] in steps of 2π. -/
def wrapPi (x : F64) : F64 :=
  if flt piF x then fsub x twoPi else if fle x (fneg piF) then fadd x twoPi else x

/-- arg of a sum; that of zero is a free value (R154, R155, log entry 10). -/
def sumArg (x : F64 × F64) : F64 := if fIsZero x.1 && fIsZero x.2 then Config.argOfZero else fatan2 x.2 x.1

/-- A frequency clamped to 0.8 f₀ to 1.2 f₀ (R154). -/
def clampF (c : ChannelCfg) (f : F64) : F64 :=
  let lo := fdiv (fmul (fint 8) (fint c.f0)) (fint 10)
  let hi := fdiv (fmul (fint 12) (fint c.f0)) (fint 10)
  if flt f lo then lo else if flt hi f then hi else f

/-- ROCOF over K periods, each of which lasted 1/f̂ (R156): f_m and the tracked frequencies that were set with them, newest
first. -/
def rocof (fms fhs : List F64) (K : Nat) : F64 :=
  let dur := ((List.range K).map (fun i => fdiv (fint 1) (fhs.getD (i + 1) 0))).foldl fadd 0
  fdiv (fsub (fms.getD 0 0) (fms.getD K 0)) dur

/-- What a channel holds of a frequency measurement of its reference: the threshold and K as they stand, f_m and ROCOF over the
periods that the reference had measured, `skip` of them since (R154, R156, R162). -/
def latchMeasure (s : State) (n : Nat) (r : ChSt) (skip : Nat) : State :=
  let K := chPeriods s n
  modChan s n (fun q => { q with
    thr := chThreshold s n, kper := K, freq := (r.fms.drop skip).getD 0 0, roc := rocof (r.fms.drop skip) (r.fhs.drop skip) K,
    periods := r.periods - skip })

/-- Frequency measurement of a reference at the end of N₀ analysis samples (R154): f_m is measured in every period, and below
the threshold f̂ holds its last value. -/
def measure (s : State) (n : Nat) (c : ChannelCfg) : State :=
  let s := modChan s n (fun q => { q with thr := chThreshold s n })
  let q := chSt s n
  let arg := sumArg (chSum q 1)
  let s := modChan s n (fun q => { q with psi := arg })
  let s := if q.filled < 2 * nZero c then s
    else
      let f := fHat q c
      let fm := fmul f (fadd (fint 1) (fdiv (wrapPi (fsub arg q.psi)) twoPi))
      let fc := if belowThr s n c then f else clampF c fm
      let cl := if belowThr s n c then q.clamped else fc != fm
      modChan s n (fun q => { q with
        fhat := fc, clamped := cl, fms := (fm :: q.fms).take 51, fhs := (fc :: q.fhs).take 51, periods := q.periods + 1 })
  latchMeasure s n (chSt s n) 0

/-- The tracked frequency of a reference whose |X₁| has been below the threshold for 2 s at its analysis instant a is f₀ (R154): the
2 s run from analysis instant to analysis instant, which both sides share (R11). -/
def trackingLost (s : State) (n a : Nat) (c : ChannelCfg) : State :=
  match (chSt s n).belowSince with
  | none => s
  | some b => if b + rSec 2 ≤ a then modChan s n (fun q => { q with fhat := fint c.f0, clamped := false }) else s

/-- A reference after an analysis sample at a: its threshold status, the measurement, the loss of its signal, and the record of the
instant (R152, R154). -/
def trackRef (s : State) (n a : Nat) (c : ChannelCfg) : State :=
  let n0 := nZero c
  let q := chSt s n
  let s := if q.m % n0 = 0 ∧ n0 ≤ q.filled then measure s n c else s
  let low := belowThr s n c
  let s := modChan s n (fun q => { q with belowSince := if low then q.belowSince.orElse (fun _ => some a) else none })
  let s := trackingLost s n a c
  let q := chSt s n
  let psi := fadd (fdiv (sumArg (chSum q 1)) twoPi) (fdiv (fint (q.m % n0 : Nat)) (fint n0))
  let e : AInst := ⟨q.m, a, fHat q c, q.clamped, low, psi⟩
  modChan s n (fun q => { q with cur := e, insts := (e :: q.insts).take 400 })

/-- A channel that tracks another takes what the reference held at the same instant; at a frequency measurement of the
reference it takes the measurement (R152, R154, R155). -/
def followRef (s : State) (n a : Nat) (c : ChannelCfg) : State :=
  let r := chSt s c.refCh
  match r.insts.find? (fun e => e.at_ == a) with
  | none => s
  | some e =>
    let s := modChan s n (fun q => { q with cur := e })
    let n0 := nZero c
    if e.idx % n0 = 0 ∧ n0 ≤ e.idx then latchMeasure s n r (r.m / n0 - e.idx / n0) else s

/-- One analysis sample enters a channel's window and sums (R153). -/
def takeAnalysis (s : State) (n a : Nat) (c : ChannelCfg) (y : F64) (tag : Byte) : State :=
  let n0 := nZero c
  let q := chSt s n
  let m := q.m + 1
  let old := if n0 ≤ q.window.length then ((q.window.head?.map (·.2.1)).getD 0) else 0
  let win := lastN n0 (q.window ++ [(a, y, tag)])
  let dy := fsub y old
  let sums := (List.range (hLimit c.fast + 1)).map (fun h =>
    if m % n0 = 0 then sumFull n0 h m (win.map (·.2)) else sumStep n0 h m (chSum q h) dy)
  let s := modChan s n (fun q => { q with m := m, filled := q.filled + 1, lastA := a, window := win, sums := sums })
  let s := setChBit s n 6 (decide ((chSt s n).filled < n0))
  let s := if c.refCh = n then trackRef s n a c else followRef s n a c
  setChBit (setChBit s n 2 (!(chSt s n).cur.low)) n 3 (chSt s n).cur.clamped

/-- Step between analysis instants: 1/(N₀ f̂) in 1/16 ns (R152). -/
def analysisStep (c : ChannelCfg) (f : F64) : Nat :=
  ((Q.ofInt 16000000000).div ((Q.ofInt (nZero c)).mul (fq f))).round.toNat

/-- The next analysis instant of a channel: its own, or its reference's after the last one taken (R152). The first lies at or
after the second grid sample of the channel, the first for which it has the four grid samples of R149 (DESIGN CHOICE, log
entry 25). -/
def nextAnalysis (s : State) (n : Nat) (c : ChannelCfg) : Option Nat :=
  let second := ((chSt s n).grid[1]?).map (·.1)
  if c.refCh = n then (if (chSt s n).next ≠ 0 then some (chSt s n).next else second)
  else
    match second with
    | none => none
    | some g =>
      (((chSt s c.refCh).insts.map (·.at_)).filter (fun x => decide ((chSt s n).lastA < x ∧ g ≤ x))).foldl
        (fun (b : Option Nat) x => match b with | none => some x | some y => some (min x y)) none

/-! ### Results -/

/-- Degrees of a phase in turns × 360 wrapped to (−180, 180] (R155). -/
def wrapDeg (x : F64) : F64 :=
  let q := fq x
  let d := q.sub ⟨false, 180, 1⟩
  let k : Int := - ((- d.snum) / (360 * (max d.den 1) : Nat))
  f64 (q.sub (Q.ofInt (360 * k)))

/-- F32 of a binary64 result, rounded once (R156). -/
def toF32 (x : F64) : W32 :=
  if fmt64.isNan x.toNat then nan32
  else if fmt64.isInf x.toNat then inf32 (fmt64.sign x.toNat)
  else f32 (fmt64.toQ x.toNat)

/-- A phase in turns carried from an analysis instant to another instant by the frequency then in force (R155). -/
def carryPhase (turns : F64) (h a p : Nat) (f : F64) : F64 :=
  fadd turns (fmul (fmul (fint h) f) (fdiv (fint ((p : Int) - a)) (fint 16000000000)))

/-- ψₕ(p): the phase of harmonic h carried from the latest analysis instant, in turns (R153, R155). -/
def phaseAt (q : ChSt) (n0 h p : Nat) (f : F64) : F64 :=
  carryPhase (fadd (fdiv (sumArg (chSum q h)) twoPi) (fdiv (fint (h * q.m % n0 : Nat)) (fint n0))) h q.lastA p f

/-- f₀ p in turns, less whole turns: only the fraction of the second counts (R155). -/
def nominalTurns (f0 p : Nat) : F64 := fdiv (fint (f0 * (p % 16000000000) : Nat)) (fint 16000000000)

/-- The window holds grid instants from both sides of a step of TIME (R257). -/
def windowStepped (s : State) (q : ChSt) (fs : Nat) : Bool :=
  match q.window.head?, q.window.getLast? with
  | some a, some b =>
    s.time.stepAt.any (fun t => decide (gridAt fs (gridIdx fs a.1 - 1) ≤ t ∧ t < gridAt fs (gridIdx fs b.1 + 2)))
  | _, _ => false

/-- Tag of what a window gives: R32 over its samples, INVALID until it is full, QUESTIONABLE across a step (R157, R257). -/
def windowTag (s : State) (q : ChSt) (c : ChannelCfg) : Byte :=
  worsen (tagMerge (q.window.map (·.2.2)) ||| tIf (inTest s) tTST)
    (if q.filled < nZero c then 2 else b2n (windowStepped s q (gridFs c.fast)))

/-- The results of grid sample (t, y, w) of a channel, before the scale (R155–R159). -/
def resultVals (s : State) (n : Nat) (c : ChannelCfg) (t : Nat) (y : F64) (w : TWord) : List ChVal :=
  let q := chSt s n
  let rc := (chCfg s c.refCh).getD c
  let n0 := nZero c
  let p := t - 2 * 16000000000 / gridFs c.fast
  let f := q.cur.fhat
  let base := windowTag s q c
  let phasor := worsen base (b2n q.cur.clamped)
  let ftag := worsen (windowTag s (chSt s c.refCh) rc) (if q.periods < q.kper + 1 ∨ q.cur.low = true then 2 else 0)
  let low := worsen phasor (if belowThr s n c then 2 else 0)
  let psi1 := phaseAt q n0 1 p f
  let ang1 := wrapDeg (fmul (fint 360) (fsub psi1 (nominalTurns c.f0 p)))
  let rms := fsqrt (fdiv ((q.window.map (fun x => fmul x.2.1 x.2.1)).foldl fadd 0) (fint n0))
  let hs := (List.range (hLimit c.fast + 1)).filter (fun h => decide (2 ≤ h))
  let mag := fun h => fmag (chSum q h)
  let thd := fdiv (fmul (fint 100) (fsqrt ((hs.map (fun h => fmul (mag h) (mag h))).foldl fadd 0))) (mag 1)
  let harm := (List.range (c.hout + 1)).filter (fun h => decide (2 ≤ h))
  [⟨y, worsen w.tag (if q.filled < n0 then 2 else 0), 1⟩, ⟨mag 1, phasor, 1⟩,
   ⟨ang1, worsen phasor (b2n s.time.agreed.free), 0⟩, ⟨q.freq, ftag, 0⟩, ⟨q.roc, ftag, 0⟩, ⟨rms, base, 1⟩,
   ⟨(chSum q 0).1, base, 1⟩, ⟨thd, low, 0⟩, ⟨(ns32Of p).zeroExtend 64, base, 2⟩] ++
  harm.map (fun h => ⟨mag h, phasor, 1⟩) ++
  (if c.angles then harm.map (fun h =>
      ⟨wrapDeg (fmul (fint 360) (fsub (phaseAt q n0 h p f) (fmul (fint h) psi1))), low, 0⟩)
   else [])

/-- A result as it is written, with the scale (R156, R159). -/
def ChVal.word (x : ChVal) (sc : F64) : TWord :=
  if x.kind = 2 then ⟨x.tag, x.val.truncate 32⟩
  else normWord tyF32 ⟨x.tag, toF32 (if x.kind = 1 then fmul x.val sc else x.val)⟩

/-- Where the stretch that the latest analysis instant of a channel stands for ends: at its next one, which for a channel that has
taken every instant of its reference is the reference's next (R152, R155). -/
def stretchEnd (s : State) (n : Nat) (c : ChannelCfg) : Option Nat :=
  match nextAnalysis s n c with
  | some a => some a
  | none =>
    let r := chSt s c.refCh
    if c.refCh ≠ n ∧ r.next ≠ 0 ∧ (chSt s n).lastA = r.lastA then some r.next else none

/-- The grid samples without results yet whose phasor instant the analysis has reached get them (R155). -/
def settleResults (s : State) (n : Nat) (c : ChannelCfg) : State :=
  let q := chSt s n
  match stretchEnd s n c with
  | none => s
  | some a =>
    let back := 2 * 16000000000 / gridFs c.fast
    let done := match q.results.getLast? with | some r => r.inst | none => 0
    let todo := q.grid.filter (fun x => decide (done < x.1 ∧ x.1 - back < a ∧ q.lastA ≤ x.1 - back ∧ 0 < q.m))
    let res := todo.map (fun x => (⟨x.1, resultVals s n c x.1 x.2.1 x.2.2⟩ : ChResult))
    modChan s n (fun q => { q with results := lastN 256 (q.results ++ res) })

/-- The next analysis sample of a channel, where its grid samples are here; none otherwise (R152–R155). What the instant before it
gives results to gets them first. -/
def analyse (s : State) (n : Nat) (c : ChannelCfg) : Option State :=
  match nextAnalysis s n c with
  | none => none
  | some a =>
    match interp ((chSt s n).grid.map (fun x => (x.1, x.2.1, x.2.2.tag))) a with
    | none => none
    | some (y, tag) =>
      let s := takeAnalysis (settleResults s n c) n a c y tag
      let s := if c.refCh = n then modChan s n (fun q => { q with next := a + analysisStep c (fHat q c) }) else s
      some (settleResults s n c)

/-- ANALYSIS_INSTANT (R152–R155). -/
def execAnalysisInstant (n : Nat) (s : State) : Res :=
  match chCfg s n with
  | none => .next s
  | some c => if !enginesLive s then .next s else .next ((analyse s n c).getD s)

/-! ### Pulse counts of loops -/

/-- A loop's record. -/
def loopSt (s : State) (n : Nat) : LoopSt := mgetD s.loops n LoopSt.reset

/-- A loop's record changed. -/
def modLoop (s : State) (n : Nat) (f : LoopSt → LoopSt) : State := s.modLoops (fun m => mupd m n LoopSt.reset f)

/-- A pulse count of a loop at an update instant (R173, R186). -/
def putPulse (s : State) (n inst : Nat) (cnt : W32) : State :=
  modLoop s n (fun l => { l with pulses := ((inst, cnt) :: l.pulses).take 4100 })

/-- At an update instant of a loop with a pulse-rate set-point the side with the D channel latches the count and sends it
(R173). -/
def latchPulses (s : State) (g : Nat) : State :=
  (pkgD s [] (·.loops)).foldl (fun s x =>
    let c := x.2
    let idx := if c.fast then g else g / 3
    if c.spSource = 3 ∧ (c.fast = true ∨ g % 3 = 0) ∧ idx % max c.dv 1 = 0 ∧ (dCfg s c.spRef).func = 3 then
      let inst := gridAt (gridFs c.fast) idx
      let cnt := (dChan s c.spRef).count
      let s := putPulse s x.1 inst cnt
      let item : SideItem := ⟨2, c.spRef, x.1, cnt, BitVec.ofNat 64 inst⟩
      let s := logItems s s.cyc.tick [.side item]
      if sharing s then mjSend s (.sidein [item]) else s
    else s) s

/-- The channels of the package that have a source. -/
def channelsOn (s : State) : List (Nat × ChannelCfg) := (pkgD s [] (·.channels)).filter (fun x => x.2.source != 0)

/-- One analysis sample of every channel that has one, references first; none where no channel has. -/
def analyseRound (s : State) : Option State :=
  let cs := channelsOn s
  let cs := cs.filter (fun x => x.2.refCh == x.1) ++ cs.filter (fun x => x.2.refCh != x.1)
  let r := cs.foldl (fun (r : State × Bool) x => match analyse r.1 x.1 x.2 with | some t => (t, true) | none => r) (s, false)
  if r.2 then some r.1 else none

/-- Analysis goes on as far as the grid samples allow. -/
def analyseAll : Nat → State → State
  | 0, s => s
  | fuel + 1, s => match analyseRound s with | some t => analyseAll fuel t | none => s

/-- The channel engines do all that the agreed samples allow: grid samples, analysis and results (R149, R152, R155). -/
def channelsNow (s : State) : State :=
  let cs := channelsOn s
  let s := cs.foldl (fun s x => settleResults (formGrid 1024 (forceConverter s x.1 x.2) x.1 x.2) x.1 x.2) s
  let s := analyseAll 1024 s
  cs.foldl (fun s x => settleResults s x.1 x.2) s

/-- Status bit 4 of the channels falls a second after the last frame discarded under R137, in whatever mode (R163). -/
def discardsAge (s : State) : State :=
  (channelsOn s).foldl (fun s x => setChBit s x.1 4 ((chSt s x.1).discards.any (fun t => decide (elapsed s t < rSec 1)))) s

/-- GRID_INSTANT: converter holds and producers 40 and 41 act in every mode that is powered and not SILENT, and in the modes whose
engines work every grid sample whose taps are agreed is formed (R140, R149, R163, R257, R373). -/
def execGridInstant (s : State) : Res :=
  if !clocksRun s || s.ctl.mode == .cold then .next s
  else
    let g := gridIdx 14400 (timeNow s)
    let fresh := match s.time.gridDone with | some d => decide (d < g) | none => true
    let slow := g % 3 == 0
    let s := if fresh then
        let s := s.modTime (fun t => { t with gridDone := some g })
        let s := holdGroup s (fun _ c => c.trigger == 1 || (slow && c.trigger == 2))
        let ns := ns32Of (gridAt 14400 g)
        let s := if slow then pulse s 40 ns else s
        let s := pulse s 41 ns
        if enginesLive s then latchPulses s g else s
      else s
    let s := discardsAge s
    if !enginesLive s then .next s
    else
      let s := forceSamples s
      .next ((channelsOn s).foldl (fun s x => settleResults (formGrid 64 (forceConverter s x.1 x.2) x.1 x.2) x.1 x.2) s)

/-- TRACKING_LOSS_TIMER: f̂ is f₀ once the latest analysis instant lies 2 s after the first one below the threshold (R154). The
analysis applies the same rule at each instant, so that a replay without this command holds the same f̂ (R11). -/
def execTrackingLossTimer (n : Nat) (s : State) : Res :=
  match chCfg s n with
  | none => .next s
  | some c =>
    if !enginesRun s then .next s
    else
      let s := trackingLost s n (chSt s n).lastA c
      .next (setChBit s n 3 (chSt s n).clamped)

/-! ### Landing and start -/

/-- A channel's delay D_ch in 1/16 ns (R160). -/
def chDelay (c : ChannelCfg) : Nat := rUs c.limitUs + 2 * 16000000000 / gridFs c.fast + rUs 20

/-- The result points of the due tasks' channels at a cutoff instant, each channel's scale given (R160, R162). A result that landed at
an earlier cutoff and is still the latest lands again and counts as a refresh (DESIGN CHOICE, log entry 115: R41 asks for a new
word, R160 lands the latest at each cutoff). -/
def channelInputs (s : State) (scale : Nat → ChannelCfg → F64) (due : BitVec 4) (cut : Nat) : List (Nat × TWord) :=
  (pkgD s [] (·.channels)).flatMap (fun x =>
    if x.2.source = 0 ∨ due.getLsbD x.2.task = false then []
    else
      match ((chSt s x.1).results.filter (fun r => decide (r.inst + chDelay x.2 ≤ cut))).getLast? with
      | none => []
      | some r => (r.vals.zipIdx).map (fun w => (x.2.base + w.2, w.1.word (scale x.1 x.2))))

/-- Every channel and stream starts anew, its counters and settings standing (R157): a stream's samples and the converter's are
expected from the next grid instant on (R145, R146, R148). -/
def channelsStart (s : State) : State :=
  let s := s.modChans (fun m => m.map (fun x => (x.1, { ChSt.reset with
    status := x.2.status, nMissing := x.2.nMissing, nLate := x.2.nLate, nReplaced := x.2.nReplaced,
    nSupplied := x.2.nSupplied, nMismatch := x.2.nMismatch, longest := x.2.longest, discards := x.2.discards })))
  let s := (List.range (streamsOf s).length).foldl (fun s k =>
    let fs := streamFs s k
    modStream s k (fun x => { StreamSt.reset with
      held := x.held, simulated := x.simulated, sync := true, lastT := some (gridAt fs (gridIdx fs (timeNow s))),
      cnt := gridIdx fs (timeNow s) % fs })) s
  (pkgD s [] (·.channels)).foldl (fun s x =>
    if x.2.source = 0 then s
    else setChBit (modChan s x.1 (fun q => { q with
      thr := chThreshold s x.1, kper := chPeriods s x.1,
      convNext := some (gridIdx (gridFs x.2.fast) (timeNow s) + 1) })) x.1 6 true) s

end Sys2Proof.Machine
end

