-- ==== Sys2Proof/Machine/Loops.lean ====
section
/-!
DEFINITION. Loop engines: inputs, control law, repetitive controller, banks, modes, late updates and outputs (06_loops).
-/

namespace Sys2Proof.Machine

/-! ### Values of a loop -/

/-- Package values of a loop (R164). -/
def loopCfg (s : State) (n : Nat) : Option LoopCfg := mget (pkgD s [] (·.loops)) n

/-- Default of a loop entry that is not zero, by sub-index (R187). -/
def loopDflt (sub : Nat) : Nat :=
  match sub with
  | 0x0C | 0x11 | 0x30 | 0x35 => 0x3F800000
  | 0x13 => 3
  | 0x16 => 1
  | _ => 0

/-- Value of a loop entry as the engine holds it (R176). -/
def loopPar (s : State) (n sub : Nat) : Nat := mgetD (loopSt s n).par sub (setting s (0x2100 + n) sub (loopDflt sub))

/-- A REAL32 entry widened to binary64 (R168). -/
def loopReal (s : State) (n sub : Nat) : F64 := f64 (f32q (BitVec.ofNat 32 (loopPar s n sub)))

/-- Sub-index of a coefficient of a bank, 0 Kp to 7 Kff (R187). -/
def bankSub (bank i : Nat) : Nat := 0x1C + 8 * bank + i

/-- A loop's status bit; sources 81 and 82 rise with bits 0 and 6 (R187, table "Interrupt sources"). -/
def setLoopBit (s : State) (n bit : Nat) (v : Bool) : State :=
  if (loopSt s n).status.getLsbD bit = v then s
  else
    let s := modLoop s n (fun l => { l with status := setBit l.status bit v })
    if v && bit == 0 then raiseIrq s 81 else if v && bit == 6 then raiseIrq s 82 else s

/-- Update period T, rounded once (R164, R168). -/
def loopT (c : LoopCfg) : F64 := fdiv (fint c.dv) (fint (gridFs c.fast))

/-! ### Inputs -/

/-- An input as an update takes it: its value and its word. A value that is not finite is marked. -/
structure LoopIn where
  val : F64
  word : TWord
  bad : Bool
deriving DecidableEq, Repr, Inhabited

/-- An F32 word as an input. -/
def inOfF32 (w : TWord) : LoopIn := ⟨f64OfF32 w.val, w, !fmt32.finite w.val.toNat⟩

/-- A channel's value at the latest grid instant not after t, when it is ready (R165). -/
def chInput (s : State) (n kind t : Nat) : Option LoopIn :=
  match chCfg s n with
  | none => none
  | some c =>
    let fs := gridFs c.fast
    let x := gridAt fs (gridIdx fs t)
    if kind = 0 then
      ((chSt s n).grid.find? (fun g => g.1 == x)).map (fun g =>
        let v := fmul (fint g.2.2.val.toInt) (chScale s n c)
        ⟨v, ⟨g.2.2.tag, toF32 v⟩, fIsNan v || fIsInf v⟩)
    else
      ((chSt s n).results.find? (fun r => r.inst == x)).map (fun r =>
        match r.vals[if kind = 1 then 1 else if kind = 2 then 3 else 5]? with
        | some x => inOfF32 (x.word (chScale s n c))
        | none => inOfF32 TWord.unused)

/-- A point's value under the rule of R147, when the agreement of the cycle it is taken from is complete (R165, R180). -/
def ptInput (s : State) (p t : Nat) : Option LoopIn :=
  if histReady s p t then
    let w := histWord s p t
    let v := pointF64 s p w
    some ⟨v, ⟨w.tag, toF32 v⟩, fIsNan v || fIsInf v⟩
  else none

/-- The pulse-rate set-point (R173). -/
def pulseInput (s : State) (n : Nat) (c : LoopCfg) (g t : Nat) : Option LoopIn :=
  let l := loopSt s n
  let own := (dCfg s c.spRef).func == 3
  if !own && !sharing s && s.ctl.mode != .catchup then
    some ⟨l.spVal, ⟨worsen (l.spWord.tag ||| tSTL) 2, l.spWord.val⟩, fIsNan l.spVal || fIsInf l.spVal⟩
  else
    let t0 := gridAt (gridFs c.fast) (g - c.gate * c.dv)
    match l.pulses.find? (fun x => x.1 == t), l.pulses.find? (fun x => x.1 == t0) with
    | some a, some b =>
      let v := fmul (fdiv (fint (a.2 - b.2).toNat) (fmul (fint c.gate) (loopT c))) (loopReal s n 0x0C)
      some ⟨v, ⟨0, toF32 v⟩, fIsNan v || fIsInf v⟩
    | _, _ => none

/-- PV (R165). -/
def pvInput (s : State) (c : LoopCfg) (t : Nat) : Option LoopIn :=
  if c.pvPoint then ptInput s c.pvPt t else chInput s c.pvCh c.pvKind t

/-- Set-point (R173). -/
def spInput (s : State) (n : Nat) (c : LoopCfg) (g t : Nat) : Option LoopIn :=
  match c.spSource with
  | 0 => some (inOfF32 ⟨0, BitVec.ofNat 32 (loopPar s n 0x0A)⟩)
  | 1 => chInput s (c.spRef % 128) (c.spRef / 256 % 4) t
  | 2 => ptInput s c.spRef t
  | _ => pulseInput s n c g t

/-! ### The repetitive controller -/

/-- Cell i modulo M (R171). -/
def cell (cells : List (Nat × F64)) (M : Nat) (i : Int) : F64 := mgetD cells ((i % (M : Int)).toNat) 0

/-- q(i) (R171). -/
def qCell (cells : List (Nat × F64)) (M : Nat) (q1 : F64) (i : Int) : F64 :=
  fadd (fadd (fmul q1 (cell cells M (i - 1))) (fmul (fsub (fint 1) (fmul (fint 2) q1)) (cell cells M i)))
    (fmul q1 (cell cells M (i + 1)))

/-- Floor of a binary64 number. -/
def ffloor (x : F64) : Int := let q := fq x; q.snum / (max q.den 1 : Nat)

/-- rc_read(φ) (R171). -/
def rcRead (cells : List (Nat × F64)) (M : Nat) (q1 phi : F64) (lead : Nat) : F64 :=
  let pos := fadd (fmul phi (fint M)) (fint lead)
  let j := ffloor pos
  let w := fsub pos (fint j)
  fadd (fmul (fsub (fint 1) w) (qCell cells M q1 j)) (fmul w (qCell cells M q1 (j + 1)))

/-- A value clamped to ±limit. -/
def clampAbs (lim v : F64) : F64 := if flt lim v then lim else if flt v (fneg lim) then fneg lim else v

/-- rc_write(φ, e) with the cells and whether one was clamped (R172). -/
def rcWrite (cells : List (Nat × F64)) (M : Nat) (q1 kr rmax phi e : F64) : List (Nat × F64) × Bool :=
  let pos := fmul phi (fint M)
  let j := ffloor pos
  let w := fsub pos (fint j)
  let a := fadd (qCell cells M q1 j) (fmul (fmul (fsub (fint 1) w) kr) e)
  let b := fadd (qCell cells M q1 (j + 1)) (fmul (fmul w kr) e)
  let a' := clampAbs rmax a
  let b' := clampAbs rmax b
  let put := fun (m : List (Nat × F64)) (i : Int) v => mset m ((i % (M : Int)).toNat) v
  (put (put cells j a') (j + 1) b', a' != a || b' != b)

/-- φ: the phase of the reference's fundamental at t in turns, in [0, 1), carried from its latest analysis instant at or before t
(R155, R171). -/
def loopPhi (s : State) (c : LoopCfg) (t : Nat) : F64 :=
  match (chSt s c.refCh).insts.find? (fun e => decide (e.at_ ≤ t)) with
  | none => 0
  | some e =>
    let x := carryPhase e.psi 1 e.at_ t e.fhat
    fsub x (fint (ffloor x))

/-- The reference is below its threshold or its f̂ is at a clamp (R172). -/
def refUntracked (s : State) (c : LoopCfg) : Bool :=
  !(chSt s c.refCh).status.getLsbD 2 || (chSt s c.refCh).status.getLsbD 3

/-! ### The control law -/

/-- The terms p, d, r and f of a bank (R167). -/
def loopTerms (s : State) (n : Nat) (c : LoopCfg) (bank : Nat) (e x xp phi ff : F64) : F64 × F64 × F64 × F64 :=
  let l := loopSt s n
  let co := fun i => loopReal s n (bankSub bank i)
  let t := loopT c
  let tf := co 3
  let a := if fIsZero tf then 0 else fdiv tf (fadd tf t)
  let p := fmul (co 0) e
  let d := fadd (fmul a l.d) (fdiv (fmul (fmul (fsub (fint 1) a) (co 2)) (fsub x xp)) t)
  let r := rcRead l.cells c.cells (co 5) phi (loopPar s n (bankSub bank 6))
  let f := fmul (co 7) ff
  (p, d, r, f)

/-- Sum in the order R167 writes. -/
def sum5 (p i d r f : F64) : F64 := fadd (fadd (fadd (fadd p i) d) r) f

/-- Writes that take effect at an update at instant t: those of cutoffs at or before it (R176, R178). -/
def takeWants (s : State) (n t : Nat) : State :=
  let now := (loopSt s n).wants.filter (fun w => decide (w.1 ≤ t))
  modLoop s n (fun l => { l with
    wants := l.wants.filter (fun w => !decide (w.1 ≤ t)),
    par := now.foldl (fun m w => mset m w.2.1 w.2.2) l.par })

/-- The bank an update is to use (R176). -/
def wantedBank (s : State) (n : Nat) (c : LoopCfg) (t : Nat) : Nat :=
  match c.bankPoint with
  | none => loopPar s n 0x1A % 2
  | some p => (histWord s p t).val.toNat % 2

/-- A mode change at an update: a loop that leaves OFF starts from zeros; one that enters it is neither in MANUAL nor learning, and
no fail value is in force (R170, R179, R187). -/
def takeMode (s : State) (n : Nat) : State :=
  let m := loopPar s n 1
  let l := loopSt s n
  if m = l.mode then s
  else if l.mode = 0 then
    modLoop s n (fun l => { l with mode := m, i := 0, d := 0, x := 0, first := true, cells := [], lateRun := 0 })
  else
    let s := modLoop s n (fun l => { l with mode := m })
    if m = 0 then [5, 6, 8].foldl (fun s b => setLoopBit s n b false) s else s

/-- The bank of a loop changes: the integrator takes the step that keeps the raw sum, the swap is counted and shown (R177, R187). -/
def swapBank (s : State) (n bank : Nat) (step : F64) : State :=
  if bank = (loopSt s n).bank then s
  else
    let s := modLoop s n (fun l => { l with bank := bank, i := fadd l.i step, nSwaps := l.nSwaps.inc })
    raiseIrq (setLoopBit s n 4 (bank == 1)) 83

/-- A commanded clear of the repetitive memory (R172, R178). -/
def takeClear (s : State) (n : Nat) : State :=
  if loopPar s n 0x2F = 1 then modLoop s n (fun l => { l with cells := [], par := mset l.par 0x2F 0 }) else s

/-- Clamped to [lo, hi]. -/
def fclamp (lo hi v : F64) : F64 := let v := if flt hi v then hi else v; if flt v lo then lo else v

/-- Current of a bound output in 0.5 µA (R184). -/
def loopCurrent (s : State) (n : Nat) (u : F64) : Nat :=
  let lo := fq (loopReal s n 0x34)
  let hi := fq (loopReal s n 0x35)
  let span := hi.sub lo
  if span.num = 0 then 8000
  else
    let ma := (⟨false, 4, 1⟩ : Q).add (((⟨false, 16, 1⟩ : Q).mul ((fq u).sub lo)).div span)
    (max 7600 (min 41000 (ma.mul ⟨false, 2000, 1⟩).round)).toNat

/-- The bound current output is driven (R184); TEST holds it, and with drive mode 1 only the LEAD drives. -/
def driveLoop (s : State) (c : LoopCfg) (ua : Nat) : State :=
  match c.output with
  | none => s
  | some o =>
    if !s.ctl.mode.run || inTest s then s
    else setLoopUa s o ua

/-- A side whose OWN_OUT falls no longer drives the loops of drive mode 1 (R184, R208, R219). -/
def undrive (s : State) : State :=
  if !isPaired s then s
  else (pkgD s [] (·.loops)).foldl (fun s x =>
    match x.2.output with
    | some o => if x.2.leadOnly then modL s o (fun l => { l with sourceUa := 0, shareSt := .off }) else s
    | none => s) s

/-- Words of a paced publication: the points it names, which are results of this loop (R185, R234). -/
def pacedWords (c : LoopCfg) (pc : PubCfg) (ws : List TWord) : List TWord := (ws.drop (pc.first - c.base)).take pc.count

/-- Results of an update, written at tₖ + Δ; the paced publication waits for that instant with them (R182, R185, R230). -/
def putResults (s : State) (n : Nat) (c : LoopCfg) (t : Nat) (ws : List TWord) : State :=
  let k := (loopSt s n).k
  let ws := ws.take 6 ++ [⟨(ws.getD 0 TWord.unused).tag, (loopSt s n).status.zeroExtend 32⟩, ⟨(ws.getD 0 TWord.unused).tag, k⟩]
  let s := modLoop s n (fun l => { l with
    last := ws, results := lastN 1024 (l.results ++ [⟨t + rUs c.deadlineUs, k, ws⟩]) })
  match c.pacedPub with
  | none => s
  | some pn =>
    match mget (pkgD s [] (·.pubs)) pn with
    | none => s
    | some pc =>
      if k.toNat % max c.pacing 1 != 0 then s
      else s.modCyc (fun y => { y with paced := pacedInsert ⟨t + rUs c.deadlineUs, n, pn, k, t, pacedWords c pc ws⟩ y.paced })

/-- A late or held update: the output and every state variable stand, and the results show it (R174, R180, R183, R187). With the
fail value in force the output and what carries its tag are INVALID. -/
def lateUpdate (s : State) (n : Nat) (c : LoopCfg) (t : Nat) (invalid : Bool) : State :=
  let s := [(0, !invalid), (7, invalid), (5, false)].foldl (fun s b => setLoopBit s n b.1 b.2) s
  let s := modLoop s n (fun l => { l with lateRun := l.lateRun + 1, nLate := l.nLate.inc })
  let l := loopSt s n
  let old := if l.last.isEmpty then List.replicate 6 TWord.unused else l.last
  let late := fun (w : TWord) (sev : Nat) => (⟨worsen (w.tag ||| tIf (inTest s) tTST) sev, w.val⟩ : TWord)
  if loopPar s n 0x13 ≤ l.lateRun ∧ loopPar s n 0x14 = 1 then
    let s := setLoopBit s n 6 true
    let fv := loopReal s n 0x15
    let tag := (late (old.getD 0 TWord.unused) 2).tag
    let ws := [(⟨tag, toF32 fv⟩ : TWord)] ++ ((old.drop 1).take 2).map (fun w => late w 1) ++
      (old.drop 3).map (fun w => ⟨tag, w.val⟩)
    driveLoop (putResults s n c t ws) c (loopCurrent s n fv)
  else driveLoop (putResults s n c t (old.map (fun w => late w 1))) c (loopCurrent s n l.u)

/-- The part of an update that evaluates R167, or R179 in MANUAL, with the results' words (R167–R183). -/
def runUpdate (s : State) (n : Nat) (c : LoopCfg) (t bank : Nat) (pv sp : LoopIn) (ff : Option LoopIn) : State :=
  let s := modLoop s n (fun l => { l with spWord := sp.word, spVal := sp.val })
  let ffv := (ff.map (·.val)).getD 0
  let e := if loopPar s n 0x0E = 0 then fsub sp.val pv.val else fsub pv.val sp.val
  let x := if loopPar s n 0x0F = 1 then e
    else if loopPar s n 0x0E = 0 then fsub 0 pv.val else pv.val
  let xp := if (loopSt s n).first then x else (loopSt s n).x
  let phi := loopPhi s c t
  let old := (loopSt s n).bank
  let tm := fun b => loopTerms s n c b e x xp phi ffv
  let sum4 := fun (q : F64 × F64 × F64 × F64) => fadd (fadd (fadd q.1 q.2.1) q.2.2.1) q.2.2.2
  let s := swapBank s n bank (if (loopSt s n).first then 0 else fsub (sum4 (tm old)) (sum4 (tm bank)))
  let s := takeMode s n
  let s := takeClear s n
  let l := loopSt s n
  let xp := if l.first then x else xp
  let (p, d, r, f) := loopTerms s n c bank e x xp phi ffv
  let umin := loopReal s n 0x10
  let umax := loopReal s n 0x11
  let raw := sum5 p l.i d r f
  let manual := l.mode == 1
  let frozen := !manual && (flt umax raw || flt raw umin)
  let ki := loopReal s n (bankSub bank 1)
  let uMan := fclamp umin umax (loopReal s n 0x17)
  let i := if manual then fsub (fsub (fsub (fsub uMan p) d) r) f
    else if frozen then l.i else fadd l.i (fmul (fmul ki (loopT c)) e)
  let uRaw := if manual then loopReal s n 0x17 else sum5 p i d r f
  let u := fclamp umin umax uRaw
  let kr := loopReal s n (bankSub bank 4)
  let untracked := refUntracked s c
  let learn := !manual && !frozen && loopPar s n 0x2C == 1 && !fIsZero kr && !untracked
  let wr := if learn then rcWrite l.cells c.cells (loopReal s n (bankSub bank 5)) kr (loopReal s n 0x30) phi e
    else (l.cells, false)
  let s := modLoop s n (fun l => { l with
    i := i, d := d, x := x, first := false, cells := wr.1, lateRun := 0,
    nFrozen := if frozen then l.nFrozen.inc else l.nFrozen })
  let bits := [(0, false), (1, flt umax uRaw), (2, flt uRaw umin), (3, frozen), (5, learn), (6, false), (7, false),
    (8, manual), (9, untracked)]
  let s := bits.foldl (fun s b => setLoopBit s n b.1 b.2) s
  let s := modLoop s n (fun l => { l with u := u })
  let tags := if manual then [(0 : Byte)] else [pv.word.tag, sp.word.tag] ++ (ff.map (fun y => y.word.tag)).toList
  let tag := resTag (inTest s) tags (u != uRaw || wr.2) (b2n untracked)
  let w := fun v => normWord tyF32 ⟨tag, toF32 v⟩
  let used := fun (x : LoopIn) => normWord tyF32 (TWord.orTag x.word (tIf (inTest s) tTST))
  let s := putResults s n c t [w u, used pv, used sp, w e, w i, w r]
  driveLoop s c (loopCurrent s n u)

/-- The point that selects a loop's bank has its agreed word of an instant (R165, R176). -/
def bankReady (s : State) (c : LoopCfg) (t : Nat) : Bool := match c.bankPoint with | some p => histReady s p t | none => true

/-- The update at which a loop changes to OFF: a bank swap due at it comes before the mode change and a clear after it (R178, R179). -/
def turnOff (s : State) (n : Nat) (c : LoopCfg) (t : Nat) : State :=
  takeClear (takeMode (if bankReady s c t then swapBank s n (wantedBank s n c t) 0 else s) n) n

/-- An update at instant t of a loop that is not OFF: late, held, or evaluated (R174, R180). -/
def updateLoop (s : State) (n : Nat) (c : LoopCfg) (g t : Nat) : State :=
  let ready := match c.ffPt with | some p => histReady s p t | none => true
  let ready := ready && bankReady s c t
  match pvInput s c t, spInput s n c g t with
  | some pv, some sp =>
    let ff := c.ffPt.bind (fun p => ptInput s p t)
    let bad := pv.bad || sp.bad || (ff.map (·.bad)).getD false
    let inv := loopPar s n 0x16 == 1 && (tagSev pv.word.tag == 2 || tagSev sp.word.tag == 2)
    if !ready then lateUpdate s n c t false
    else if bad || inv then lateUpdate s n c t true
    else runUpdate s n c t (wantedBank s n c t) pv sp ff
  | _, _ => lateUpdate s n c t false

/-- The next update's grid number: the one after the last; before the first one, the first at or after an instant (R164). -/
def firstUpdate (c : LoopCfg) (t : Nat) : Nat :=
  let fs := gridFs c.fast
  let dv := max c.dv 1
  let g := if gridAt fs (gridIdx fs t) < t then gridIdx fs t + 1 else gridIdx fs t
  (g + dv - 1) / dv * dv
def nextUpdate (s : State) (n : Nat) (c : LoopCfg) : Nat :=
  match (loopSt s n).nextG with
  | some g => g
  | none => firstUpdate c (timeNow s)

/-- Update k at tₖ + Δ − 2 µs; none before it (R164–R185). An OFF loop counts the update and holds its output at 4.0 mA. -/
def loopStep (s : State) (n : Nat) (c : LoopCfg) : Option State :=
  let fs := gridFs c.fast
  let g := nextUpdate s n c
  match skipped s fs g with
  | some last => some (modLoop s n (fun l => { l with nextG := some (last / max c.dv 1 * max c.dv 1 + max c.dv 1) }))
  | none =>
    let t := gridAt fs g
    if timeNow s < t + rUs c.deadlineUs - rUs 2 then none
    else
      let s := modLoop s n (fun l => { l with k := l.k + 1, nextG := some (g + max c.dv 1) })
      let s := takeWants s n t
      if loopPar s n 1 = 0 ∧ (loopSt s n).mode = 0 then some (driveLoop s c 8000)
      else if loopPar s n 1 = 0 then some (driveLoop (turnOff s n c t) c 8000)
      else if (loopSt s n).mode = 0 then some (updateLoop (takeMode s n) n c g t)
      else some (updateLoop s n c g t)

/-- LOOP_UPDATE (R164–R185). -/
def execLoopUpdate (n : Nat) (s : State) : Res :=
  match loopCfg s n with
  | none => .next s
  | some c => if !enginesLive s then .next s else .next (pacedNow ((loopStep s n c).getD s))

/-- The results of a loop that land at a cutoff instant: those of the latest update with tₖ + Δ ≤ I. In OFF the points age, so that
only an update that has not landed yet lands (R179, R182); in the other modes the latest lands at every cutoff and counts as a
refresh (DESIGN CHOICE, log entry 115). -/
def loopLands (l : LoopSt) (cut : Nat) : Option LoopRes :=
  match (l.results.filter (fun r => decide (r.due ≤ cut))).getLast? with
  | none => none
  | some r => if l.mode = 0 ∧ r.due ≤ l.landed then none else some r

/-- The result points of the due tasks' loops at a cutoff instant (R179, R182). -/
def loopInputs (s : State) (due : BitVec 4) (cut : Nat) : List (Nat × TWord) :=
  (pkgD s [] (·.loops)).flatMap (fun x =>
    if due.getLsbD x.2.task = false then []
    else
      match loopLands (loopSt s x.1) cut with
      | none => []
      | some r => (r.words.zipIdx).map (fun w => (x.2.base + w.2, w.1)))

/-- What landed is noted in each loop of the due tasks (R182). -/
def loopsLanded (s : State) (due : BitVec 4) (cut : Nat) : State :=
  (pkgD s [] (·.loops)).foldl (fun s x =>
    if due.getLsbD x.2.task = false then s
    else
      match loopLands (loopSt s x.1) cut with
      | none => s
      | some r => modLoop s x.1 (fun l => { l with landed := r.due })) s

/-- A loop's state cleared at a restart, its mode and bank as its entries give them; its updates are counted from the first
instant of the run mode on (R164, R170). -/
def loopsStart (s : State) : State :=
  (pkgD s [] (·.loops)).foldl (fun s x =>
    let n := x.1
    modLoop s n (fun l => { LoopSt.reset with
      nextG := some (firstUpdate x.2 (timeNow s)),
      mode := setting s (0x2100 + n) 1 0, bank := setting s (0x2100 + n) 0x1A 0 % 2,
      status := if setting s (0x2100 + n) 0x1A 0 % 2 = 1 then 16 else 0,
      nLate := l.nLate, nFrozen := l.nFrozen, nSwaps := l.nSwaps })) s

/-- A PAIR write of a loop entry at a boundary: it reaches the engine at the cutoff (R176). -/
def loopWrite (s : State) (n sub old new : Nat) : State :=
  modLoop s n (fun l => { l with
    par := match mget l.par sub with | some _ => l.par | none => mset l.par sub old,
    wants := l.wants ++ [(s.cyc.cutTime.toNat, sub, new)] })

end Sys2Proof.Machine
end

