-- ==== Sys2Proof/Machine/Integ.lean ====
section
/-!
DEFINITION. Lockstep, memory errors, run-time tests, the watchdog and monitors, automatic restart and debug (16_integrity), and access faults (R388).
-/

namespace Sys2Proof.Machine

/-- Unit codes that carry a comparator: Churn lanes, N0, N1, M and the loop engines (tables "Compared units" and
"Integrity units"). -/
def comparedUnit (u : Nat) : Bool := (1 ≤ u && u ≤ 8) || (0x10 ≤ u && u ≤ 0x12) || (0x20 ≤ u && u ≤ 0x3F)

/-- The unit's comparator is armed: a debugged core pair's is not, and one that is not released compares nothing (R447). -/
def comparatorArmed (s : State) (u : Nat) : Bool :=
  if u = 0x10 then s.n0.lockstep && s.n0.released
  else if u = 0x11 then s.n1.lockstep && s.n1.released
  else comparedUnit u

/-- LOCKSTEP_MISMATCH: a difference latches, and the module goes SILENT with reason 0x01 (R433, R443, R444). -/
def execLockstepMismatch (unit : Nat) (detail : W32) (s : State) : Res :=
  if comparatorArmed s unit = false then .next s
  else if s.ctl.mode = .selftest then
    .next (enterSilent (s.modInteg (fun g => { g with stPassed := false, stResult := 2, stUnit := unit })) 4 unit detail)
  else .next (enterSilent s 1 unit detail)

/-- Unit code of a memory (table "Integrity units"). -/
def EccPlace.unit : EccPlace → Nat
  | .image => 0x40
  | .desc => 0x41
  | .tcm n1 => if n1 then 0x43 else 0x42
  | .dram _ | .ring => 0x44
  | .mram => 0x45
  | .flash => 0x46
  | .frame _ => 0

/-- A place whose code corrects errors; the frame paths only carry parity (R434, R436). -/
def EccPlace.corrects : EccPlace → Bool
  | .frame _ => false
  | .image | .desc | .tcm _ | .dram _ | .mram | .flash | .ring => true

/-- The ring block that holds a byte, by its place in the ring from the oldest block on. -/
def ringIndex : List Curd → Nat → Option Nat
  | [], _ => none
  | c :: t, a => if a < c.bytes.length then some 0 else (ringIndex t (a - c.bytes.length)).map (· + 1)

/-- An uncorrectable error in the pre-trigger ring: the Curd block is dropped, every open record whose window it meets
lacks it and has flag bit 3, and the error is counted in 0x1701:07 (R436). -/
def ringError (s : State) (word : Nat) : State :=
  let s := s.modInteg (fun g => { g with uRing := g.uRing.inc })
  match ringIndex s.dist.ring (8 * word) with
  | none => s
  | some i =>
    match s.dist.ring[i]? with
    | none => s
    | some c =>
      s.modDist (fun d => { d with
        ring := d.ring.eraseIdx i,
        openRecs := d.openRecs.map (fun r => if c.meets r.start r.stop then { r with flags := r.flags ||| 8 } else r) })

/-- A change of a byte that is not known, and is one (R436). -/
def unlike (v : W64) : Byte := BitVec.ofNat 8 (1 + v.toNat % 255)

/-- One byte of what is stored changed by a value that is not known, so that its CRC fails (R436, flash row). -/
def breakByte (b : Bytes) (i : Nat) (v : W64) : Bytes := lupd b i (· + unlike v)

/-- The byte of a stored object at place `a` that an error at place `word` changes. -/
def hitAt (a len word : Nat) : Option Nat := if a ≤ word ∧ word < a + len then some (word - a) else none

/-- A committed record whose bytes start at a place, with the one that an error at `word` changes; and the place after it. -/
def hurtRecord (word : Nat) (v : W64) (r : DRec) (a : Nat) : DRec × Nat :=
  let broken := fun (b : Bytes) (a : Nat) => match hitAt a b.length word with | some i => breakByte b i v | none => b
  let bs := r.blocks.foldl (fun (x : List Curd × Nat) c => (x.1 ++ [{ c with bytes := broken c.bytes x.2 }], x.2 + c.bytes.length))
    ([], a + r.header.length)
  ({ r with header := broken r.header a, blocks := bs.1 }, bs.2)

/-- A log record whose bytes start at a place, with the one that an error at `word` changes; MARK is not the one. -/
def hurtLog (word : Nat) (v : W64) (r : LogRec) (a : Nat) : LogRec :=
  match hitAt a r.len word with
  | some i => { r with hurt := some (max i 2, unlike v) }
  | none => r

/-- An uncorrectable error in MRAM: words 0–7 stand for the two retained copies of each task, the others for the log ring
from its lowest address (log entry 30). A bad copy is uncommitted, and a bad record fails its CRC (R436). -/
def mramError (s : State) (word : Nat) : State :=
  if word < 8 then s.modImg (fun i => { i with copies := mdel i.copies word })
  else
    let f := freeValue s
    f.2.modLog (fun l => { l with recs := l.recs.map (fun r => hurtLog (8 * (word - 8)) f.1 r r.pos) })

/-- An uncorrectable error in flash: what is stored there reads otherwise than it was written, so that the Curd block or the record fails
its CRC, and the erase block is retired (R436). Places count the bytes of the committed records and then of the log's mirror, in order;
a retired erase block is held by the place that retired it (log entry 30). -/
def flashError (s : State) (word : Nat) : State :=
  let f := freeValue s
  let ds := s.dist.recs.foldl (fun (x : List DRec × Nat) r => let h := hurtRecord word f.1 r x.2; (x.1 ++ [h.1], h.2)) ([], 0)
  let ls := s.log.mirror.foldl (fun (x : List LogRec × Nat) r => (x.1 ++ [hurtLog word f.1 r x.2], x.2 + r.len)) ([], ds.2)
  (f.2.modDist (fun d => { d with recs := ds.1, retired := d.retired ++ [word] })).modLog (fun l => { l with mirror := ls.1 })

/-- UNCORRECTABLE_ERROR: SILENT with reason 0x02, or the lesser consequence of the memory's row (R35, R436). -/
def execUncorrectableError (m : EccPlace) (detail : W32) (s : State) : Res :=
  match m with
  | .image | .desc | .tcm _ | .dram _ => .next (enterSilent s 2 m.unit detail)
  | .ring => .next (ringError s detail.toNat)
  | .mram => .next (mramError s detail.toNat)
  | .flash => .next (flashError s detail.toNat)
  | .frame p => .next (modPort s p (fun q => { q with broken := true }))

/-- CORRECTED_ERROR: written back and counted in the memory's entry, with source 113 (R35, R436, R452). -/
def execCorrectedError (m : EccPlace) (s : State) : Res :=
  if m.corrects = false then .next s else
  let s := s.modInteg (fun g =>
    let g := { g with lastUnit := m.unit }
    match m with
    | .image => { g with cImage := g.cImage.inc }
    | .desc => { g with cDesc := g.cDesc.inc }
    | .tcm _ => { g with cTcm := g.cTcm.inc }
    | .dram _ | .ring => { g with cDram := g.cDram.inc }
    | .mram => { g with cMram := g.cMram.inc }
    | .flash => { g with cFlash := g.cFlash.inc }
    | .frame _ => g)
  .next (raiseIrq s 113)

/-- MANAGEMENT_WATCHDOG: no ALIVE permit for 5 ms in a mode of the list of R188 puts the module in SILENT (R443). -/
def execManagementWatchdog (s : State) : Res :=
  if s.ctl.mode.aliveList && past s s.pair.permitAt (rMs 5) then .next (enterSilent s 5 0x51 0) else .next s


/-- SUPPLY_CLOCK_FAULT: bit 0 of the operand a PLL out of lock where R422 keeps it locked, bit 1 a core supply out of its
limits (R443, R451). -/
def execSupplyClockFault (unit : Nat) (s : State) : Res :=
  let pll := unit % 2 == 1 && pllOn s.ctl.mode
  let d := b2n pll + unit / 2 % 2 * 2
  if d = 0 then .next s else .next (enterSilent s 6 0x50 (BitVec.ofNat 32 d))

/-- SCRUB_STEP: words of a memory are scrubbed; with no word of on-chip SRAM left, a full pass has ended and 0x1701:0C
takes the operating seconds (R437, R438). -/
def execScrubStep (m : EccPlace) (words : Nat) (s : State) : Res :=
  if !clocksRun s then .next s else
  let inSlack := s.cyc.phase == .slack
  match m with
  | .image | .desc | .tcm _ =>
    if inSlack && words == 0 then .next (s.modInteg (fun g => { g with lastPass := s.log.seconds })) else .next s
  | .dram _ | .mram | .flash | .ring | .frame _ => .next s

/-- A run-time test failed: a latent fault, counted and logged with reason 0x10; its detail is not given (R442). -/
def latentFault (s : State) (unit : Nat) : State :=
  let f := freeValue s
  let s := f.2.modInteg (fun g => { g with latent := true, latentUnit := unit, testFails := g.testFails.inc })
  logEvent s ltInteg (integBody unit 0x10 (f.1.truncate 32))

/-- Slack left: the time before the next tick at which a task is due (table of the phases of a cycle, R441). -/
def slackLeft (s : State) : Nat :=
  let n := s.cyc.tick.toNat
  (nextDue s (n + 1) 4 - n) * tickLen - timeNow s % tickLen

/-- A loop engine stands in a gap between its updates, outside the 2 µs before tₖ + Δ in which it evaluates (R166, R441). -/
def loopGap (s : State) (n : Nat) : Bool :=
  match loopCfg s n with
  | none => true
  | some c =>
    let fs := gridFs c.fast
    let g := nextUpdate s n c
    decide (gridAt fs (g - max c.dv 1) + rUs c.deadlineUs ≤ timeNow s ∧ timeNow s + rUs 2 < gridAt fs g + rUs c.deadlineUs)

/-- A comparator may be tested now: the next lane, once per slack period and with 5 µs of it left, or a loop engine in a gap between its
updates (R441). -/
def testAllowed (s : State) (unit : Nat) : Bool :=
  s.ctl.mode.run &&
    (if 1 ≤ unit ∧ unit ≤ 8 then
      unit == s.integ.laneNext + 1 && s.cyc.phase == .slack && s.integ.laneAt != some s.cyc.lastRelease &&
        decide (rUs 5 ≤ slackLeft s)
    else 0x20 ≤ unit && unit ≤ 0x3F && loopGap s (unit - 0x20))

/-- RUNTIME_COMPARATOR_TEST: the unit counts as tested, and the 40th of them completes a rotation (R441, R442). -/
def execRuntimeComparatorTest (unit : Nat) (pass : Bool) (s : State) : Res :=
  if !testAllowed s unit then .next s
  else
    let s := s.modInteg (fun g =>
      let t := if g.tested.contains unit then g.tested else g.tested ++ [unit]
      { g with laneNext := if unit ≤ 8 then (g.laneNext + 1) % 8 else g.laneNext,
               laneAt := if unit ≤ 8 then some s.cyc.lastRelease else g.laneAt,
               tested := if t.length = 40 then [] else t,
               rotations := if t.length = 40 then g.rotations.inc else g.rotations })
    if pass then .next s else .next (latentFault s unit)

/-- ECC_DECODER_TEST: a decoder that fails its test word is a latent fault (R441, R442). -/
def execEccDecoderTest (unit : Nat) (pass : Bool) (s : State) : Res :=
  let last := mget s.integ.eccAt unit
  if s.ctl.mode.run && (last.isNone || past s last (rSec 1)) then
    let s := s.modInteg (fun g => { g with eccAt := mset g.eccAt unit s.time.raw })
    .next (if pass then s else latentFault s unit)
  else .next s

/-- Automatic restarts within the last 3,600 operating seconds (0x1700:07). -/
def recentRestarts (s : State) : List W32 :=
  s.integ.restarts.filter (fun t => decide (s.log.seconds.toNat - t.toNat < 3600))

/-- AUTOMATIC_RESTART: 10 s after the latch, for the reasons and as often as R445 allows, with cause 4 (R445). -/
def execAutomaticRestart (s : State) : Res :=
  let g := s.integ
  let cause := g.reason == 1 || g.reason == 2 || g.reason == 5 || g.reason == 6
  if s.ctl.mode == .silent && setting s 0x1700 6 0 == 1 && cause && past s g.latchedAt (rSec 10) &&
      decide ((recentRestarts s).length < 3) then
    .next (resetModule (s.modInteg (fun g => { g with restarts := recentRestarts s ++ [s.log.seconds] })) 4)
  else .next s

/-! ### Debug -/

/-- The debug access port is enabled (R446). -/
def dapEnabled (s : State) : Bool :=
  match s.ctl.life with
  | .blank | .decommissioned => true
  | .provisioned | .commissioned => setting s 0x1700 9 0 == 1

/-- The debug access port completes transactions: enabled and not frozen (R404, R446). -/
def dapOpen (s : State) : Bool := dapEnabled s && !s.mpu.frDap

/-- Modes from which a broken lockstep leads to DEBUG (table "Mode transitions"). -/
def debugFrom : Mode → Bool
  | .stop | .alone | .catchup | .twin | .lead | .test => true
  | .cold | .bootwait | .verify | .selftest | .dbg | .silent => false

/-- DEBUG_LOCKED_ACCESS: a debug access in a locked region is a violation that freezes the port (R402, R405, R450). -/
def execDebugLockedAccess (addr : W32) (_region : Nat) (s : State) : Res :=
  if dapOpen s && lockedAt s addr.toNat then .next (violate s ⟨3, addr, kRead, true, 31, false⟩) else .next s

/-- DEBUG_RESET: the port's own reset releases it and ends the debug session (R405). -/
def execDebugReset (s : State) : Res :=
  .next ((s.modMpu (fun x => { x with frDap := false })).modInteg (fun g => { g with dapSession := false }))

/-- MANAGEMENT_DEBUG_OP: reached in DECOMMISSIONED only, and replayed on the checker copy, so that nothing of the module
changes with it (R446, R449). -/
def execManagementDebugOp (s : State) : Res :=
  if s.ctl.life == .decommissioned && dapOpen s then .next (s.modInteg (fun g => { g with dapSession := true })) else .next s

/-- ACCESS_FAULT: an unmapped address raises the access-fault exception, stops the DMA engine or gives the debug port an
error (R388). -/
def execAccessFault (m : Master) (addr : W32) (type : Nat) (ch : Nat) (s : State) : Res :=
  if (targetOf s (mapOf s m) addr.toNat).isSome then .next s
  else
    let cause := if type = kRead then 5 else if type = kWrite then 7 else 1
    match m with
    | .n0 => if coreRuns s .n0 then .next (takeException s .n0 cause addr) else .next s
    | .n1 => if coreRuns s .n1 then .next (takeException s .n1 cause addr) else .next s
    | .dma => .next (busError s ch addr)
    | .dap => if dapOpen s then .next (send s .debugError) else .next s
    | .mgmt => .next s

end Sys2Proof.Machine
end

