-- ==== Sys2Proof/Machine/Recorder.lean ====
section
/-!
DEFINITION. The event log's writer, the operating seconds, disturbance triggers and records, and the REC registers' requests (12_recording).
-/

namespace Sys2Proof.Machine

/-! ### The event log -/

/-- A REC request was written: its number is reported (R336, R353). -/
def RecReg.wrote (r : RecReg) (n : W32) : RecReg := { r with busy := false, done := true, num := n }

/-- LOG_RECORD_WRITE: the writer takes the oldest record of the queue; after losses it writes the overflow record first
(R331–R333). The management cores that serve the queue stand in reset in SILENT (R444). -/
def execLogRecordWrite (s : State) : Res :=
  if s.ctl.mode == .silent || !s.pins.pgood then .next s
  else if 0 < s.log.lostSince then
    let n := s.log.lostSince
    let s := s.modLog (fun l => { l with lostSince := 0 })
    .next (writeLog s (mkLog s ltOverflow 1 (beBytes 4 n) none))
  else
    match s.log.queue with
    | [] => .next s
    | r :: rest =>
      let s := writeLog (s.modLog (fun l => { l with queue := rest })) r
      match r.app with
      | none => .next s
      | some c => .next (modCp s c (fun p => { p with recr := p.recr.wrote (s.log.next - 1) }))

/-- Bytes of the mirror ring (R334). -/
def mirrorBytes : Nat := 1073741824

/-- The oldest records of the mirror give way (R334). -/
def mirrorTrim : Nat → List LogRec → List LogRec
  | 0, r => r
  | n + 1, r => if mirrorBytes < (r.map (·.len)).sum then mirrorTrim n (r.drop 1) else r

/-- LOG_MIRROR_COPY: every 10 s, or after 256 records, the log is copied to the flash mirror (R334). -/
def execLogMirrorCopy (s : State) : Res :=
  if s.ctl.mode == .silent || !s.pins.pgood || !(decide (rSec 10 ≤ elapsed s s.log.mirrorAt) || decide (256 ≤ s.log.sinceMirror)) then .next s
  else
    .next (s.modLog (fun l =>
      let fresh := l.recs.filter (fun r => !l.mirror.any (fun x => x.number == r.number))
      let m := l.mirror ++ fresh
      { l with mirror := mirrorTrim m.length m, sinceMirror := 0, mirrorAt := s.time.raw }))

/-- OPERATING_SECOND: each 16 × 10⁹ units of RAW since power-on add one to the operating seconds, which hold at their
limit (R328, R329). -/
def execOperatingSecond (s : State) : Res :=
  if elapsed s s.log.secRaw < rSec 1 ∨ s.pins.pgood = false then .next s
  else
    .next (s.modLog (fun l =>
      let c := Ctr.inc ⟨l.seconds, l.secondsSat⟩
      { l with seconds := c.n, secondsSat := c.sat, secRaw := l.secRaw + BitVec.ofNat 64 (rSec 1) }))

/-! ### Disturbance triggers -/

/-- Default of an entry of 0x1A10 that a setting may hold (R354). -/
def recDefault (sub : Nat) : Nat := match sub with | 1 => 1 | 2 => 10000 | 3 => 20000 | 4 => 600 | _ => 0

/-- Pre-trigger, post-trigger and longest times in ms (R354). -/
def preMs (s : State) : Nat := setting s 0x1A10 2 10000
def postMs (s : State) : Nat := setting s 0x1A10 3 20000
def longestMs (s : State) : Nat := 1000 * setting s 0x1A10 4 600

/-- Channels part of a record header (R351). -/
def hdrChannels (s : State) : Bytes :=
  (recCfgOf s).channels.flatMap (fun n =>
    match mget (pkgD s [] (·.channels)) n with
    | none => []
    | some c =>
      [BitVec.ofNat 8 n, BitVec.ofNat 8 (b2n c.fast), BitVec.ofNat 8 c.f0, BitVec.ofNat 8 c.quantity,
       BitVec.ofNat 8 ((recCfgOf s).exps.getD n 0), 0, 0, 0] ++ beBytes 4 (scaleBits s n c))

/-- Points part of a record header (R351). -/
def hdrPoints (s : State) : Bytes :=
  (recCfgOf s).points.flatMap (fun p =>
    let d := descOf s.img p
    beBytes 4 p ++ [BitVec.ofNat 8 d.typ, BitVec.ofInt 8 d.scale] ++ beBytes 2 (periodOf s d.task))


/-- A record prepared at its trigger, with the window and the settings in force then (R340, R351). -/
def prepare (s : State) (inst : Nat) (tick : W64) (source : W16) : DRec where
  number := 0
  tick := tick
  trigger := inst
  stamp := fullStamp s.time.own inst
  quality := s.time.own
  source := source
  start := inst - rMs (preMs s)
  stop := inst + rMs (postMs s)
  flags := if inTest s then 16 else 0
  pre := preMs s
  post := postMs s
  utc := s.time.utc
  ids := beBytes 2 (pairAddr s).toNat ++ beBytes 2 (herdAddr s).toNat
  chans := hdrChannels s
  points := hdrPoints s
  oldest := s.dist.gone
  blocks := []
  header := []

/-- A trigger's instant lies inside a record's window (R340). -/
def DRec.holds (r : DRec) (inst : Nat) : Bool := decide (r.start ≤ inst ∧ inst ≤ r.stop)

/-- A record's window extended by a later trigger, up to the longest record from its start (R340). -/
def DRec.extend (r : DRec) (stop longest : Nat) : DRec :=
  let stop' := min (max r.stop stop) (r.start + longest)
  { r with stop := stop', post := (stop' - r.trigger) / rMs 1, flags := r.flags ||| 4 }

/-- A trigger no owner can number is held, up to 16 of them; a further one is lost and logged with code 4 (R341). -/
def holdTrigger (s : State) (d : DRec) : State :=
  if 16 ≤ s.dist.heldT.length then logEvent s ltDist (distBody 4 0)
  else s.modDist (fun x => { x with heldT := x.heldT ++ [d] })

/-- Record starts that are sequenced and not yet opened. -/
def startsPending (s : State) : Nat :=
  (s.pair.seqs.filter (fun i => match i.msg.body with
    | .recordStart _ _ _ => true
    | .request _ | .activate _ | .refuseChange _ => false)).length

/-- A record start: kept for its opening, and numbered and sequenced by the owning side (R341). -/
def startRecord (s : State) (d : DRec) : State :=
  let n := s.dist.next + BitVec.ofNat 32 (startsPending s)
  let s := s.modDist (fun x => { x with wanted := x.wanted ++ [d] })
  if owns s || !isPaired s then sequenceOwn s (.recordStart n d.tick d.source) else s

/-- A trigger takes its place: it extends the window it falls in, or starts a record, whose window begins where the one
before it ends when the longest record forbids the extension (R340, R341). Each trigger that the limit keeps from extending a record
starts one of its own (DEDUCED, log entry 110). -/
def placeTrigger (s : State) (d : DRec) : State :=
  let long := rMs (longestMs s)
  match (s.dist.openRecs ++ s.dist.wanted).find? (·.holds d.trigger) with
  | none => if s.pair.noOwner then holdTrigger s d else startRecord s d
  | some r =>
    if r.stop < r.start + long ∨ d.stop ≤ r.stop then
      let ext := fun (x : DRec) => if x.tick = r.tick ∧ x.source = r.source then x.extend d.stop long else x
      s.modDist (fun x => { x with openRecs := x.openRecs.map ext, wanted := x.wanted.map ext })
    else
      let d := { d with start := r.stop, pre := (d.trigger - r.stop) / rMs 1 }
      if s.pair.noOwner then holdTrigger s d else startRecord s d

/-- A trigger while recording is on (R339, 0x1A10:01). -/
def trigger (s : State) (source : W16) : State :=
  if setting s 0x1A10 1 1 = 0 || !s.ctl.mode.run then s
  else placeTrigger s (prepare s s.cyc.cutTime.toNat s.cyc.cutTick source)

/-- The triggers of a release: each trigger point of a due task that reads 1 and read 0 at that task's previous release
(R339). -/
def detectTriggers (s : State) (due : BitVec 4) : State :=
  ((recCfgOf s).triggers.zipIdx).foldl (fun s x =>
    if due.getLsbD (descOf s.img x.1).task = false then s
    else
      let now := (pointWord s.img x.1).val == 1
      let before := mgetD s.dist.prev x.2 true
      let s := s.modDist (fun d => { d with prev := mset d.prev x.2 now })
      if now && !before then trigger s (BitVec.ofNat 16 x.2) else s) s

/-- The held triggers take their places once an owner exists, in order of their instants: the new owning side sequences
them (R341). -/
def placeHeld (s : State) : State :=
  let h := s.dist.heldT
  h.foldl placeTrigger (s.modDist (fun d => { d with heldT := [] }))

/-- Point samples of a skipped tick: the word of the previous release with STL set follows on (R338). -/
def recordSkip (s : State) (k : SkipRec) : State :=
  ((recCfgOf s).points.zipIdx).foldl (fun s x =>
    let t := (descOf s.img x.1).task
    match mget s.dist.lastWords x.2 with
    | none => s
    | some w =>
      if k.due.getLsbD t then recSample s k.gen true x.2 2 (periodOf s t) k.inst (TWord.orTag w tSTL) true else s) s

/-- Point samples of a release: each recorded point of a due task (R337); its word is kept for the ticks that are skipped, and those
skipped since its cutoff follow it (R338). -/
def recordPoints (s : State) (due : BitVec 4) : State :=
  if !s.ctl.mode.run then s
  else
    let kept := ((recCfgOf s).points.zipIdx).filterMap (fun x =>
      if due.getLsbD (descOf s.img x.1).task then some (x.2, pointWord s.img x.1) else none)
    let s := s.modDist (fun d => { d with lastWords := kept.foldl (fun m x => mset m x.1 x.2) d.lastWords })
    let s := ((recCfgOf s).points.zipIdx).foldl (fun s x =>
      let t := (descOf s.img x.1).task
      if due.getLsbD t then recSample s s.cyc.cutGen true x.2 2 (periodOf s t) s.cyc.cutTime.toNat (pointWord s.img x.1) true else s) s
    s.dist.skips.foldl recordSkip (s.modDist (fun d => { d with skips := [] }))

/-- A tick is skipped: its point samples stand at once, or after those of the cycle in progress, whose release comes first (R338). -/
def recordSkipped (s : State) (due : BitVec 4) (waits : Bool) : State :=
  let k : SkipRec := ⟨due, tickInstant s, s.time.stepGen⟩
  if !s.ctl.mode.run then s
  else if waits then s.modDist (fun d => { d with skips := d.skips ++ [k] })
  else recordSkip s k

/-! ### Records -/

/-- The record that a sequenced start names, as this side prepared it, or as its settings give it where it saw no trigger. -/
def startedRec (s : State) (tick : W64) (source : W16) : DRec :=
  match s.dist.wanted.find? (fun d => d.tick == tick && d.source == source) with
  | some d => d
  | none =>
    let back := (s.cyc.tick - tick).toNat * tickLen
    prepare s (s.cyc.cutTime.toNat - back) tick source

/-- A record opened: it takes the blocks of the ring that meet its window; flag bit 0 where a block of the window has been overwritten in
the ring, bit 1 where this side's ring never reached back to the window's start, bit 3 where a block was overwritten between the trigger
and the copy (R341, R342, R344). -/
def openRecord (s : State) (number : W32) (tick : W64) (source : W16) : State :=
  let d := startedRec s tick source
  let joined := decide (d.start < s.dist.ringFrom) || !s.ctl.mode.run
  let short := decide (0 < s.dist.gone ∧ d.start ≤ s.dist.gone)
  let missing := short && decide (d.oldest < s.dist.gone)
  let flags := d.flags ||| BitVec.ofNat 8 (b2n short + 2 * b2n joined + 8 * b2n missing)
  let r := { d with number := number, flags := flags, blocks := s.dist.ring.filter (fun c => c.meets d.start d.stop) }
  let rises := s.dist.openRecs.isEmpty
  let s := s.modDist (fun x => { x with
    openRecs := x.openRecs ++ [r], next := number + 1,
    wanted := x.wanted.filter (fun w => decide (d.trigger < w.trigger) || (w.trigger == d.trigger && !(w.source == source))),
    truncated := if missing then x.truncated.inc else x.truncated })
  let s := if missing then logEvent s ltDist (distBody 1 number) else s
  if rises then raiseIrq s 97 else s

/-- RECORD_START: at its target tick, or at the first later one that is not skipped, a sequenced record start opens the record on
this side (R72, R341, R342). -/
def execRecordStart (s : State) : Res :=
  if !clocksRun s then .next s else
  let isStart := fun (i : SeqItem) => match i.msg.body with
    | .recordStart _ _ _ => s.cyc.confirmed && decide (i.msg.target.toNat ≤ s.cyc.cutTick.toNat)
    | .request _ | .activate _ | .refuseChange _ => false
  match s.pair.seqs.find? isStart with
  | none => .next s
  | some i =>
    let s := s.modPair (fun p => { p with seqs := p.seqs.erase i })
    match i.msg.body with
    | .recordStart n t src => .next (openRecord s n t src)
    | .request _ | .activate _ | .refuseChange _ => .next s

/-- Full stamp with the quality of the record's trigger, which the rule does not fix for FIRST and LAST (R351; log entry
110). -/
def DRec.stampOf (r : DRec) (t : Nat) : Bytes := fullStamp r.quality t

/-- Header of a committed record (R351). -/
def recordHeader (r : DRec) : Bytes :=
  let len := 88 + r.chans.length + r.points.length + 4
  let first := r.blocks.foldl (fun a c => min a c.first) (match r.blocks.head? with | some c => c.first | none => r.trigger)
  let last := r.blocks.foldl (fun a c => max a c.lastAt) (match r.blocks.head? with | some c => c.lastAt | none => r.trigger)
  let body :=
    beBytes 4 0x47424452 ++ [0x01, r.flags] ++ beBytes 2 len ++ beBytes 4 r.number.toNat ++ r.ids ++ beBytes 8 r.tick.toNat ++
    padTo 12 r.stamp ++ beBytes 2 r.source.toNat ++ (leInt 2 r.utc).reverse ++ beBytes 4 r.pre ++ beBytes 4 r.post ++
    r.stampOf first ++ r.stampOf last ++ beBytes 8 ((r.blocks.map (fun c => c.bytes.length)).sum) ++
    beBytes 4 r.blocks.length ++ [BitVec.ofNat 8 (r.chans.length / 12), BitVec.ofNat 8 (r.points.length / 8), 0, 0] ++
    r.chans ++ r.points
  body ++ beBytes 4 (crc32c body).toNat

/-- Bytes of a committed record (R351). -/
def DRec.bytes (r : DRec) : Bytes := r.header ++ r.blocks.flatMap (·.bytes)

/-- Bytes of the records area (R343). -/
def recordsArea : Nat := 60129542144

/-- The records area or its index would overflow (R343). -/
def recordsFull (rs : List DRec) : Bool :=
  decide (4096 < rs.length) || decide (recordsArea < (rs.map (fun r => r.header.length + (r.blocks.map (fun c => c.bytes.length)).sum)).sum)

/-- The oldest committed records are deleted for room, each logged with code 3 and counted (R343). -/
def makeRoom (s : State) : Nat → State
  | 0 => s
  | n + 1 =>
    if recordsFull s.dist.recs then
      match s.dist.recs with
      | [] => s
      | r :: rest =>
        let s := s.modDist (fun d => { d with recs := rest, deleted := d.deleted.inc })
        makeRoom (logEvent s ltDist (distBody 3 r.number)) n
    else s

/-- A record may be committed: its window has passed and no block that meets it is still being filled (R342). -/
def commitReady (s : State) (r : DRec) : Bool :=
  decide (r.stop < timeNow s) && !s.dist.accs.any (fun a => decide (a.first ≤ r.stop))

/-- RECORD_COMMIT: the record with its header enters the records area; the commit is logged and raises source 98
(R342–R344). -/
def execRecordCommit (number : W32) (s : State) : Res :=
  if !clocksRun s then .next s else
  match s.dist.openRecs.find? (fun r => r.number == number && commitReady s r && s.ctl.mode != .cold) with
  | none => .next s
  | some r =>
    let r' := { r with header := recordHeader r }
    let s := s.modDist (fun d => { d with openRecs := d.openRecs.filter (fun x => x.number != number), recs := d.recs ++ [r'] })
    let s := makeRoom s (s.dist.recs.length)
    .next (raiseIrq (logEvent s ltDist (distBody 0 number)) 98)

/-- Every committed record of this side is deleted and logged with code 3 (0x1A20:0F, R354). -/
def deleteRecords (s : State) : State :=
  let rs := s.dist.recs
  rs.foldl (fun s r => logEvent s ltDist (distBody 3 r.number)) (s.modDist (fun d => { d with recs := [] }))

end Sys2Proof.Machine
end

