-- ==== Sys2Proof/Machine/Read.lean ====
section
/-!
DEFINITION. What a read of a dictionary entry returns: the entry an index and sub-index name, and its present value in the encoding of its type (R273–R281, R291, R293, and the entry tables of the chapters).
-/

namespace Sys2Proof.Machine

/-! ### Finding an entry -/

/-- A count entry. -/
def countRow (n : Nat) : EntryRow := ⟨0, 6, .const, 0, n, .none⟩

/-- Row of a table by its sub-index. -/
def rowOf (rows : List EntryRow) (sub : Nat) : Option EntryRow := rows.find? (fun r => r.sub == sub)

/-- Point of a point-window entry (R8). -/
def windowPoint (index sub : Nat) : Nat := 16 * (index - 0x4000) + (sub - 1)

/-- The row a point-window entry has: PAIR for the operator where its SOURCE is dictionary (table "Point window entries"). -/
def windowRow (s : State) (index sub : Nat) : EntryRow :=
  let d := descOf s.img (windowPoint index sub)
  let pers := if d.retain then Persist.mram else Persist.none
  if d.source = srcDict then ⟨sub, 12, .pair, 1, 0, pers⟩ else ⟨sub, 12, .ro, 0, 0, pers⟩

/-- The application-named entry of an index and sub-index (R280). -/
def appEntry (s : State) (index sub : Nat) : Option AppEntry :=
  (pkgD s [] (·.apps)).find? (fun a => a.index == index && a.sub == sub)

/-- Number of the sub-indices of an application index: the highest that the package names, 0 where it names none (R8). -/
def appCount (s : State) (index : Nat) : Nat :=
  (((pkgD s [] (·.apps)).filter (fun a => a.index == index)).map (·.sub)).foldl max 0

/-- Persistence that an application entry's package record gives (R280). -/
def appPersist (n : Nat) : Persist :=
  match n with | 1 => .package | 2 => .mram | 3 => .flash | 4 => .fixed | _ => .none

/-- Entry tables indexed by their range. -/
def tableOf (index : Nat) : Option EntryTable := entryTables.find? (fun t => decide (t.first ≤ index ∧ index ≤ t.last))

/-- The vendor service answers only in DECOMMISSIONED (R281). -/
def vendorOpen (s : State) : Bool := s.ctl.life == .decommissioned

/-- The entry of an index and sub-index, if any table of the manual or of the package defines it (R279). -/
def findEntry (s : State) (index sub : Nat) : Option EntryRow :=
  if 0x4000 ≤ index ∧ index ≤ 0x5FFF then
    (if sub = 0 then some (countRow 16) else if sub ≤ 16 then some (windowRow s index sub) else none)
  else if 0x6000 ≤ index ∧ index ≤ 0xEFFF then
    (if sub = 0 then (if appCount s index = 0 then none else some (countRow (appCount s index)))
     else (appEntry s index sub).map (fun a => ⟨sub, a.typ, if a.pair then .pair else .ro, a.role, a.dflt, appPersist a.pers⟩))
  else if 0xF000 ≤ index then
    (if vendorOpen s ∧ index = 0xF000 ∧ sub = 0 then some (countRow 2)
     else if vendorOpen s ∧ index = 0xF000 ∧ sub = 1 then some ⟨1, 15, .ro, 0, 0, .none⟩
     else if vendorOpen s ∧ index = 0xF000 ∧ sub = 2 then some ⟨2, 15, .wo, 0, 0, .none⟩
     else none)
  else if 0x3400 ≤ index ∧ index ≤ 0x3BFF then
    (if sub = 0 then some (countRow 64)
     else if 64 ≤ sub then none
     else (tableOf index).bind (fun t => rowOf t.rows (sub % 16)))
  else (tableOf index).bind (fun t => rowOf t.rows sub)

/-- Length of a fixed-length type; none for VSTRING, OCTETS and ARRAY (table "Entry types"). -/
def typLen (typ : Nat) : Option Nat :=
  match typ with
  | 1 | 2 | 6 => some 1
  | 3 | 7 => some 2
  | 4 | 8 | 10 => some 4
  | 5 | 9 | 11 | 13 => some 8
  | 12 => some 5
  | _ => none

/-- Saturation flags of counters, the first in bit 0 (R52). -/
def satFlags (cs : List Ctr) : Nat := (cs.zipIdx.map (fun x => b2n x.1.sat * 2 ^ x.2)).sum

/-- A signed value as its type holds it. -/
def twos (w : Nat) (v : Int) : Nat := (v % (2 ^ w : Nat)).toNat

/-! ### Numeric values, index by index -/

/-- 0x1000 and 0x1001 (R302). -/
def num1000 (s : State) (index sub d : Nat) : Nat :=
  match index, sub with
  | 0x1000, 5 => s.ident.computeClass.toNat
  | 0x1000, 6 => s.ident.hwRev.toNat
  | 0x1000, 7 => s.pins.pos.toNat
  | 0x1000, 8 => b2n s.pins.sideB
  | 0x1000, 9 => pkgD s 255 (fun p => p.slot.getD 255)
  | 0x1001, 1 => (loaderVersion s).toNat
  | 0x1001, 3 => (fwVersion s).toNat
  | 0x1001, 5 => (match s.boot.fw with | some f => f.pclass.toNat | none => 0)
  | 0x1001, 8 => (match s.boot.running with | some r => r.man.generation.toNat | none => 0)
  | 0x1002, 2 => pkgD s 24 (·.netLen)
  | _, _ => d

/-- Counters of 0x1010:04–0x09. -/
def ctrs1010 (s : State) : List Ctr :=
  [s.dict.badTag, s.dict.discarded, s.dict.roleRef, s.dict.served, s.dict.canAborts, s.dict.dmbDisc]

/-- The counter at a position of a list of counters. -/
def ctrAt (cs : List Ctr) (i : Nat) : Nat := (cs.getD i Ctr.reset).n.toNat

/-- 0x1010 (R302). -/
def num1010 (s : State) (sub d : Nat) : Nat :=
  if 4 ≤ sub ∧ sub ≤ 9 then ctrAt (ctrs1010 s) (sub - 4)
  else
    match sub with
    | 0x01 => s.dict.sessions.length
    | 0x0A => satFlags (ctrs1010 s)
    | 0x0C => pkgD s 0 (·.roleN0)
    | 0x0D => pkgD s 0 (·.roleN1)
    | _ => d

/-- 0x1100 (R466). -/
def num1100 (s : State) (sub d : Nat) : Nat :=
  match sub with
  | 0x01 => s.ctl.mode.code
  | 0x02 => s.ctl.prevMode.code
  | 0x03 => s.ctl.reason.toNat
  | 0x05 => b2n s.ctl.testWanted
  | 0x06 => s.ctl.life.code
  | 0x08 => (match s.ctl.lifePending with | some l => l.code | none => 255)
  | 0x09 => s.ctl.lifeChanges.n.toNat
  | 0x0A => elapsed s s.ctl.modeSince / rSec 1
  | 0x0B => s.ctl.changes.n.toNat
  | 0x0C => b2n s.ctl.changes.sat
  | 0x0E => if s.ctl.mode = .stop then startHold s else 0
  | _ => d

/-- Counters of 0x1200:19–0x24. -/
def ctrs1200 (s : State) : List Ctr :=
  let p := s.pair
  [p.nDead, p.nHandover, p.nMismatch, p.nDone, p.nFailed, p.nSuppTo, p.nSuppBy, p.nContent, p.nCrc, p.nLoss, p.nWithdraw,
   p.nWiring]

/-- Partner state 0x1200:0A. -/
def partnerState (s : State) : Nat :=
  if s.pair.pSilent then 3
  else if s.pair.dead then 4
  else if partnerAlive s then (if s.pair.ownIn then 2 else 1)
  else 0

/-- 0x1200 (R222). -/
def num1200 (s : State) (sub d : Nat) : Nat :=
  let p := s.pair
  if 0x19 ≤ sub ∧ sub ≤ 0x24 then ctrAt (ctrs1200 s) (sub - 0x19)
  else
    match sub with
    | 0x01 => pkgD s 0 (·.pairNo)
    | 0x02 => b2n (isPaired s)
    | 0x03 => b2n s.pins.sideB
    | 0x04 => (herdAddr s).toNat
    | 0x05 => (pairAddr s).toNat
    | 0x07 => (pairClass s).toNat
    | 0x08 => (match p.hello with | some h => h.pairClass.toNat | none => 0)
    | 0x0A => partnerState s
    | 0x0B => p.pMode
    | 0x0C => pairStatus s
    | 0x0D => b2n p.lane0 + 2 * b2n p.lane1 + 4 * b2n p.link
    | 0x0E => p.delayNs.toNat
    | 0x0F => p.offset.toNat
    | 0x10 => setting s 0x1200 0x10 d
    | 0x12 => p.phase
    | 0x13 => p.cBytes.toNat
    | 0x14 => p.cDuration.toNat
    | 0x15 => p.cReason
    | 0x17 => p.lastWsn.toNat
    | 0x18 => p.seqTick.toNat
    | 0x25 => satFlags (ctrs1200 s)
    | _ => d

/-- Counters of 0x1300:16–0x1B. -/
def ctrs1300 (s : State) : List Ctr :=
  let t := s.time
  [t.forwarded, t.discarded, t.steps, t.masterChanges, t.holdovers, t.refLosses]

/-- 0x1300 (R272). -/
def num1300 (s : State) (sub d : Nat) : Nat :=
  let t := s.time
  if 0x16 ≤ sub ∧ sub ≤ 0x1B then ctrAt (ctrs1300 s) (sub - 0x16)
  else
    match sub with
    | 0x01 => pkgD s 0 (·.ptpDomain)
    | 0x02 => t.own.code
    | 0x03 => t.agreed.code
    | 0x05 => t.rate.toNat
    | 0x06 => t.lastOffset.toNat
    | 0x07 => (match t.portInUse with | some p => (peerDelay s p / 16).toNat | none => 0)
    | 0x08 => t.portInUse.getD 255
    | 0x0B => t.inaccuracy.toNat
    | 0x0C => twos 16 t.utc
    | 0x0D => t.leap.toNat
    | 0x13 => holdLimit s
    | 0x15 => t.ppsOffset.toNat
    | 0x1C => satFlags (ctrs1300 s)
    | _ => setting s 0x1300 sub d

/-- The port of 0x1401–0x1405. -/
def portIdx (s : State) (i : Nat) : PortSt := s.net.ports.getD i PortSt.reset

/-- Counters of 0x1401–0x1405. -/
def ctrsPort (p : PortSt) : List Ctr := [p.losses, p.rx, p.tx, p.fwd, p.fcs, p.disc]

/-- Counters of 0x1410:02–0x04 and 0x07–0x08. -/
def ctrs1410 (s : State) : List Ctr := [s.net.dups, s.net.evictions, s.net.returning, s.net.toPair, s.net.wrongLan]

/-- The 0x1400 range (R242). -/
def num1400 (s : State) (index sub d : Nat) : Nat :=
  if index = 0x1400 then
    (match sub with
     | 1 => pkgD s d (fun p => p.etype.toNat)
     | 3 => pkgD s d (·.prio)
     | _ => d)
  else if index = 0x1410 then
    (match sub with
     | 2 => s.net.dups.n.toNat
     | 3 => s.net.evictions.n.toNat
     | 4 => s.net.returning.n.toNat
     | 5 => s.net.pairSeq.toNat
     | 6 => s.net.modSeq.toNat
     | 7 => s.net.toPair.n.toNat
     | 8 => s.net.wrongLan.n.toNat
     | 9 => satFlags (ctrs1410 s)
     | _ => d)
  else
    let p := portIdx s (index - 0x1401)
    if 3 ≤ sub ∧ sub ≤ 8 then ctrAt (ctrsPort p) (sub - 3)
    else
      match sub with
      | 1 => p.medium
      | 2 => b2n p.link
      | 9 => satFlags (ctrsPort p)
      | _ => d

/-- Counters of 0x1501 and 0x1502. -/
def ctrsCan (c : CanSt) : List Ctr := [c.busOffs, c.placed, c.lost, c.sent, c.wakes]

/-- The 0x1500 range (R327). -/
def num1500 (s : State) (index sub d : Nat) : Nat :=
  let n := index - 0x1501
  let c := canOf s n
  let k := (pkgD s [] (·.can)).getD n CanCfg.none
  if index = 0x1500 then d
  else if 0x12 ≤ sub ∧ sub ≤ 0x16 then ctrAt (ctrsCan c) (sub - 0x12)
  else
    match sub with
    | 0x01 => k.owner
    | 0x02 => k.nbt.toNat
    | 0x03 => k.dbt.toNat
    | 0x04 => k.tdc.toNat
    | 0x05 => b2n k.fdAllowed
    | 0x06 => k.reqId.toNat
    | 0x07 => k.rspId.toNat
    | 0x09 => k.bellId.toNat
    | 0x0C => b2n k.wakeFrame
    | 0x0D => k.wakeId.toNat
    | 0x0E => k.wakeMask.toNat
    | 0x0F => c.state.toNat
    | 0x10 => c.tec.toNat
    | 0x11 => c.rxErr.toNat
    | 0x17 => satFlags (ctrsCan c)
    | _ => setting s index sub d

/-- Role keys present: bit 4r + j (0x1600:0A). -/
def keysPresent (s : State) : Nat :=
  ((List.range 16).map (fun b => b2n (roleKey s.boot.roles (b / 4) (b % 4)).isSome * 2 ^ b)).sum

/-- 0x1600 (R497). -/
def num1600 (s : State) (sub d : Nat) : Nat :=
  match sub with
  | 0x04 => s.boot.revoked.toNat
  | 0x05 => s.boot.minLoader
  | 0x06 => s.boot.minFw
  | 0x0A => keysPresent s
  | 0x0F => s.boot.attState
  | _ => d

/-- Integrity status 0x1700:01 (R452). -/
def integStatus (s : State) : Nat :=
  let g := s.integ
  b2n g.latent + 2 * b2n g.debugged + 4 * b2n g.conflict + 8 * b2n g.stPassed + 16 * b2n (dapEnabled s) +
    32 * b2n s.mpu.frDap

/-- Counters of 0x1701:01–0x08. -/
def ctrs1701 (s : State) : List Ctr :=
  let g := s.integ
  [g.cImage, g.cDesc, g.cTcm, g.cDram, g.cMram, g.cFlash, g.uRing, g.discards]

/-- Counters of 0x1702:03, 0x04, 0x06 and 0x07. -/
def ctrs1702 (s : State) : List Ctr := [s.integ.rotations, s.integ.testFails, s.integ.lockedHits, s.integ.parity]

/-- The 0x1700 range (R452). -/
def num1700 (s : State) (index sub d : Nat) : Nat :=
  let g := s.integ
  match index, sub with
  | 0x1700, 1 => integStatus s
  | 0x1700, 2 => g.reason
  | 0x1700, 3 => g.unit
  | 0x1700, 4 => g.detail.toNat
  | 0x1700, 5 => g.powerAt.toNat
  | 0x1700, 7 => (recentRestarts s).length
  | 0x1700, _ => setting s 0x1700 sub d
  | 0x1701, 9 => g.lastUnit
  | 0x1701, 0x0A => satFlags (ctrs1701 s)
  | 0x1701, 0x0C => g.lastPass.toNat
  | 0x1701, 0 => d
  | 0x1701, n => ctrAt (ctrs1701 s) (n - 1)
  | _, 1 => g.stResult
  | _, 2 => g.stUnit
  | _, 3 => g.rotations.n.toNat
  | _, 4 => g.testFails.n.toNat
  | _, 5 => g.latentUnit
  | _, 6 => g.lockedHits.n.toNat
  | _, 7 => g.parity.n.toNat
  | _, 8 => satFlags (ctrs1702 s)
  | _, _ => d

/-- A point number, or 0xFFFF_FFFF for none (R381). -/
def pointOr (p : Option Nat) : Nat := p.getD 0xFFFFFFFF

/-- Counters of 0x1800:04–0x07. -/
def ctrs1800 (s : State) : List Ctr := [s.field.sags, s.field.latchOffs, s.field.trips, s.field.wdTrips]

/-- The 0x1800 range (R381). -/
def num1800 (s : State) (index sub d : Nat) : Nat :=
  if index = 0x1800 then
    (match sub with
     | 1 => (f32 (Q.mk' (lplusMv s) 1000)).toNat
     | 2 => fieldStatus s + 64 * b2n (calRuns s)
     | 4 => s.field.sags.n.toNat
     | 5 => s.field.latchOffs.n.toNat
     | 6 => s.field.trips.n.toNat
     | 7 => s.field.wdTrips.n.toNat
     | 8 => satFlags (ctrs1800 s)
     | 0x0A => pointOr (fieldCfg s).statusPoint
     | _ => d)
  else if index ≤ 0x1810 then
    let n := index - 0x1801
    let c := dCfg s n
    let x := dChan s n
    (match sub with
     | 1 => c.func
     | 2 => b2n c.paired
     | 3 => pointOr c.input
     | 4 => pointOr c.command
     | 5 => pointOr c.readback
     | 8 => b2n x.terminal
     | 9 => b2n x.command
     | 0x0A => x.count.toNat
     | _ => setting s index sub d)
  else
    let n := index - 0x1811
    let c := loopIo s n
    let x := lChan s n
    (match sub with
     | 1 => c.func
     | 2 => b2n c.paired
     | 3 => pointOr c.input
     | 4 => pointOr c.command
     | 5 => pointOr c.readback
     | 7 => (uaF32 (loopUa s n)).toNat
     | 8 => (uaF32 x.commandUa).toNat
     | 9 => x.shareSt.code
     | 0x0A => x.fullEntries.n.toNat
     | 0x0B => x.shortfalls.n.toNat
     | 0x0C => satFlags [x.fullEntries, x.shortfalls]
     | _ => setting s index sub d)

/-- The 0x1900 range (R382). -/
def num1900 (s : State) (index sub d : Nat) : Nat :=
  if index = 0x1900 then
    (match sub with
     | 2 => s.field.lastCal.toNat
     | 5 => s.field.injections.n.toNat
     | 6 => s.field.refFails.n.toNat
     | 7 => satFlags [s.field.injections, s.field.refFails]
     | 9 => pkgD s 0 (·.adcWriter)
     | _ => setting s 0x1900 sub d)
  else
    match (fieldCfg s).seq[index - 0x1901]?, sub with
    | some c, 1 => c.input
    | some c, 2 => c.trigger
    | some c, 3 => b2n c.toReg + 2 * b2n c.toDma
    | some c, 4 => c.boundTo
    | some c, 5 => if c.boundTo = 0 then 0xFFFFFFFF else c.number
    | _, 6 => (mgetD s.field.codes (32 + (index - 0x1901)) 0).toNat
    | _, _ => d

/-- Lowest and highest record numbers of a part of the log; 0 when it is empty. -/
def logEnds (rs : List LogRec) : Nat × Nat :=
  match rs.head?, rs.getLast? with
  | some a, some b => (a.number.toNat, b.number.toNat)
  | _, _ => (0, 0)

/-- Span of TIME the pre-trigger ring holds, in ms (0x1A20:05). -/
def ringSpan (s : State) : Nat :=
  match s.dist.ring.head? with
  | none => 0
  | some c => ((s.dist.ring.map Curd.lastAt).foldl max 0 - c.first) / 16000000

/-- Numbers of the oldest and the newest record held (0x1A20:02, 0x03). -/
def recEnds (s : State) : Nat × Nat :=
  match s.dist.recs.head?, s.dist.recs.getLast? with
  | some a, some b => (a.number.toNat, b.number.toNat)
  | _, _ => (0, 0)

/-- The 0x1A00 range (R354). -/
def num1A00 (s : State) (index sub d : Nat) : Nat :=
  let l := s.log
  let r := s.dist
  match index, sub with
  | 0x1A00, 2 => l.power.toNat
  | 0x1A00, 3 => l.seconds.toNat
  | 0x1A00, 4 => (logEnds l.recs).1
  | 0x1A00, 5 => (logEnds l.recs).2
  | 0x1A00, 6 => (logEnds l.mirror).1
  | 0x1A00, 7 => (logEnds l.mirror).2
  | 0x1A00, 0x0A => l.lost.n.toNat
  | 0x1A00, 0x0B => l.bad.n.toNat
  | 0x1A00, 0x0C => b2n l.powerSat + 2 * b2n l.secondsSat + 4 * b2n l.lost.sat + 8 * b2n l.bad.sat
  | 0x1A20, 1 => r.recs.length
  | 0x1A20, 2 => (recEnds s).1
  | 0x1A20, 3 => (recEnds s).2
  | 0x1A20, 4 => r.next.toNat
  | 0x1A20, 5 => ringSpan s
  | 0x1A20, 9 => min 255 r.heldT.length
  | 0x1A20, 0x0A => r.truncated.n.toNat
  | 0x1A20, 0x0B => r.discarded.n.toNat
  | 0x1A20, 0x0C => r.deleted.n.toNat
  | 0x1A20, 0x0D => satFlags [r.truncated, r.discarded, r.deleted]
  | _, _ => setting s index sub d

/-- 0x1B00 (R498). -/
def num1B00 (s : State) (sub d : Nat) : Nat :=
  let b := s.boot
  match sub with
  | 0x02 => b.sPkg.state
  | 0x06 => b.olderFmt
  | 0x08 => (match stagedPackage s with | some i => i.man.generation.toNat | none => 0)
  | 0x0B => b.refusal.toNat
  | 0x0C => b.sLoader.state
  | 0x0F => b.ts.toNat
  | 0x10 => setting s 0x1B00 0x10 0
  | 0x11 => b.switchTick.toNat
  | _ => d

/-- Counters of 0x2000:1A–0x1E + n. -/
def ctrsCh (q : ChSt) : List Ctr := [q.nMissing, q.nLate, q.nReplaced, q.nSupplied, q.nMismatch]

/-- Package values of a channel, as entries (R163). -/
def numChPkg (c : ChannelCfg) (sub d : Nat) : Nat :=
  match sub with
  | 0x01 => c.source
  | 0x02 => b2n c.fast
  | 0x03 => c.f0
  | 0x04 => c.quantity
  | 0x06 => c.vlan
  | 0x07 => c.appid
  | 0x09 => c.confRev.toNat
  | 0x0A => c.element
  | 0x0B => c.point
  | 0x0C => c.convInput + 128 * b2n c.convSideB
  | 0x0D => c.limitUs
  | 0x11 => c.refCh
  | 0x14 => c.base
  | 0x15 => c.hout
  | 0x16 => b2n c.angles
  | 0x17 => chDelay c / 16
  | _ => d

/-- 0x2000 + n (R163). -/
def num2000 (s : State) (n sub d : Nat) : Nat :=
  let q := chSt s n
  let c := mget (pkgD s [] (·.channels)) n
  if 0x1A ≤ sub ∧ sub ≤ 0x1E then ctrAt (ctrsCh q) (sub - 0x1A)
  else
    match sub, c with
    | 0x10, some c =>
      setting s (0x2000 + n) 0x10 (if c.quantity = 0 then 0x3A83126F else if c.quantity = 1 then 0x3C23D70A else 0x3F800000)
    | 0x10, none => setting s (0x2000 + n) 0x10 0x3A83126F
    | 0x18, _ => q.status.toNat
    | 0x19, some c => (toF32 (fHat (chSt s c.refCh) c)).toNat
    | 0x19, none => 0x42480000
    | 0x1F, _ => q.longest.toNat
    | 0x20, _ => satFlags (ctrsCh q)
    | 0x11, none => n
    | 0x0E, _ | 0x0F, _ | 0x12, _ | 0x13, _ => setting s (0x2000 + n) sub d
    | _, some c => numChPkg c sub d
    | _, none => d

/-- Package values of a loop, as entries (R187). -/
def numLpPkg (c : LoopCfg) (sub d : Nat) : Nat :=
  match sub with
  | 0x02 => b2n c.fast
  | 0x03 => c.dv
  | 0x04 => b2n c.pvPoint
  | 0x05 => c.pvCh
  | 0x06 => c.pvKind
  | 0x07 => c.pvPt
  | 0x08 => c.spSource
  | 0x09 => c.spRef
  | 0x0B => c.gate
  | 0x0D => pointOr c.ffPt
  | 0x12 => c.deadlineUs
  | 0x18 => b2n c.bankPoint.isSome
  | 0x19 => c.bankPoint.getD 0
  | 0x2D => c.refCh
  | 0x2E => c.cells
  | 0x31 => c.base
  | 0x32 => c.output.getD 255
  | 0x33 => b2n c.leadOnly
  | 0x36 => c.pacedPub.getD 65535
  | 0x37 => c.pacing
  | _ => d

/-- Entries of a loop that come with the package (R187). -/
def lpPkgSubs : List Nat :=
  [0x02, 0x03, 0x04, 0x05, 0x06, 0x07, 0x08, 0x09, 0x0B, 0x0D, 0x12, 0x18, 0x19, 0x2D, 0x2E, 0x31, 0x32, 0x33, 0x36, 0x37]

/-- 0x2100 + n (R187). -/
def num2100 (s : State) (n sub d : Nat) : Nat :=
  let q := loopSt s n
  match sub with
  | 0x1B => q.bank
  | 0x2F => d
  | 0x38 => q.status.toNat
  | 0x39 => q.k.toNat
  | 0x3A => q.nLate.n.toNat
  | 0x3B => q.nFrozen.n.toNat
  | 0x3C => q.nSwaps.n.toNat
  | 0x3D => satFlags [q.nLate, q.nFrozen, q.nSwaps]
  | _ =>
    if lpPkgSubs.contains sub then (match loopCfg s n with | some c => numLpPkg c sub d | none => d)
    else setting s (0x2100 + n) sub d

/-- A task (table "Tasks, program, forcing and on-line change entries"). -/
def taskSt (s : State) (t : Nat) : TaskSt := s.cyc.tasks.getD t TaskSt.reset

/-- The 0x2200 range (R89). -/
def num2200 (s : State) (index sub d : Nat) : Nat :=
  if index = 0x2200 then
    (match sub with
     | 2 => pkgD s 0 blockCount
     | 3 => pkgD s 0 rankCount
     | 4 => pkgD s 0 programW
     | 5 => setting s 0x2200 5 d
     | 7 => s.cyc.restart
     | 8 => s.cyc.tick.toNat
     | _ => d)
  else if index ≤ 0x2204 then
    let t := index - 0x2201
    let x := taskSt s t
    (match sub with
     | 1 => periodOf s t
     | 2 => x.cycle.toNat
     | 3 => pkgD s 0 (fun p => taskW p t)
     | 4 => x.lastNs.toNat
     | 5 => x.longestNs.toNat
     | 6 => x.late.n.toNat
     | 7 => x.overruns.n.toNat
     | 8 => x.skipped.n.toNat
     | 9 => satFlags [x.late, x.overruns, x.skipped]
     | _ => d)
  else if index = 0x2210 then
    (match sub with
     | 1 => s.img.forces.length
     | 5 => setting s 0x2210 5 d
     | _ => d)
  else
    match sub with
    | 1 => s.cyc.change.state
    | 5 => s.cyc.change.tick.toNat
    | 6 => s.cyc.change.reason.toNat
    | 7 => s.cyc.change.dropped.toNat
    | _ => d

/-- 0x3000 + n (R243). -/
def num3000 (s : State) (n sub d : Nat) : Nat :=
  match sub, mget (pkgD s [] (·.pubs)) n with
  | 0x10, _ => (pubSt s n).sent.n.toNat
  | 0x11, _ => (pubSt s n).last.toNat
  | 0x00, _ => d
  | 1, some c => c.kind
  | 2, some c => c.task
  | 3, some c => c.first
  | 4, some c => c.count
  | 6, some c => c.vlan
  | 7, some c => c.prio
  | 8, some c => b2n c.ring + 2 * b2n c.station
  | 0x0C, some c => if c.kind = 2 then c.appid else 0
  | 0x0D, some c => if c.kind = 2 then c.confRev.toNat else 0
  | 0x0E, some c => if c.kind = 2 then c.tminMs else 0
  | 0x0F, some c => if c.kind = 2 then c.tmaxMs else 0
  | 7, none => pkgD s 4 (·.prio)
  | x, none => if 0x0C ≤ x then 0 else d
  | _, some _ => d

/-- Slot of an index of 0x3400–0x3BFF and a sub-index (R244). -/
def slotOf (index sub : Nat) : Nat := 4 * (index % 0x400) + sub / 16

/-- A slot in use: one whose kind is not 0 (R244). -/
def usedSlot (s : State) (slot : Nat) : Option SubCfg :=
  match mget (pkgD s [] (·.subs)) slot with
  | none => none
  | some c => if c.kind = 0 then none else some c

/-- 0x3400–0x37FF: every numeric entry of an unused slot reads 0, and the GOOSE ones of every other kind too (R244). -/
def num3400 (s : State) (slot j d : Nat) : Nat :=
  match usedSlot s slot with
  | none => 0
  | some c =>
    match j with
    | 1 => c.kind
    | 2 => c.task
    | 3 => c.first
    | 4 => c.count
    | 5 => c.pair.toNat
    | 6 => c.pub
    | 8 => if c.kind = 2 then c.appid else 0
    | 0x0B => if c.kind = 2 then c.confRev.toNat else 0
    | _ => d

/-- 0x3800–0x3BFF; an unused slot reads 0 throughout (R244). -/
def num3800 (s : State) (slot j d : Nat) : Nat :=
  let x := if (usedSlot s slot).isSome then subSt s slot else SubSt.reset
  match j with
  | 1 => if (usedSlot s slot).isSome then max 1 x.state else 0
  | 2 => x.nHeld.n.toNat
  | 3 => x.nDisc.n.toNat
  | 4 => x.nOld.n.toNat
  | 5 => x.shown.toNat
  | 6 => satFlags [x.nHeld, x.nDisc, x.nOld]
  | _ => d

/-- Value of an entry of a fixed-length type (R293). -/
def readNum (s : State) (index sub : Nat) (r : EntryRow) : Nat :=
  let d := r.dflt
  if sub = 0 then d
  else if index ≤ 0x1002 then num1000 s index sub d
  else if index = 0x1010 then num1010 s sub d
  else if index = 0x1100 then num1100 s sub d
  else if index = 0x1200 then num1200 s sub d
  else if index = 0x1300 then num1300 s sub d
  else if index ≤ 0x1410 then num1400 s index sub d
  else if index ≤ 0x1502 then num1500 s index sub d
  else if index = 0x1600 then num1600 s sub d
  else if index ≤ 0x1702 then num1700 s index sub d
  else if index ≤ 0x1814 then num1800 s index sub d
  else if index ≤ 0x1910 then num1900 s index sub d
  else if index ≤ 0x1A20 then num1A00 s index sub d
  else if index = 0x1B00 then num1B00 s sub d
  else if index ≤ 0x207F then num2000 s (index - 0x2000) sub d
  else if index ≤ 0x211F then num2100 s (index - 0x2100) sub d
  else if index ≤ 0x2218 then num2200 s index sub d
  else if index ≤ 0x33FF then num3000 s (index - 0x3000) sub d
  else if index ≤ 0x37FF then num3400 s (slotOf index sub) (sub % 16) d
  else if index ≤ 0x3BFF then num3800 s (slotOf index sub) (sub % 16) d
  else d

/-! ### Byte strings -/

/-- Key identifiers (0x1600:0B). -/
def keyIds (s : State) : Bytes :=
  (List.range 16).flatMap (fun b =>
    match roleKey s.boot.roles (b / 4) (b % 4) with
    | some k => (hmac k (ascii "GB7240 key id")).take 8
    | none => List.replicate 8 0)

/-- The log record of a number: the MRAM copy while the ring holds it, and the mirror's otherwise (R334). -/
def logRecord (s : State) (n : Nat) : Option LogRec :=
  match s.log.recs.find? (fun r => r.number.toNat == n) with
  | some r => some r
  | none => s.log.mirror.find? (fun r => r.number.toNat == n)

/-- The committed disturbance record at the cursor (R352). -/
def cursorRecord (s : State) : Option DRec :=
  let n := setting s 0x1A20 6 0
  s.dist.recs.find? (fun r => r.number.toNat == n)

/-- Force at the cursor, as the last publication left it; 13 zero bytes beyond the last (R13, R89). -/
def forceAtCursor (s : State) : Bytes :=
  match s.img.pubForces[setting s 0x2210 5 0]? with
  | some f => beBytes 3 f.point ++ TWord.bytes f.forced ++ TWord.bytes f.shadow
  | none => List.replicate 13 0

/-- Digest of the running program (0x2200:01). -/
def programDigest (s : State) : Bytes :=
  match s.boot.running with | some r => r.prog | none => List.replicate 32 0

/-- Recorded channels as a bit string (R354). -/
def recChannels (s : State) : Bytes :=
  (List.range 16).map (fun i => BitVec.ofNat 8
    ((List.range 8).map (fun b => b2n ((recCfgOf s).channels.contains (8 * i + b)) * 2 ^ b)).sum)

/-- A MAC address as bytes. -/
def macBytes (m : W48) : Bytes := beBytes 6 m.toNat

/-- Byte strings of the fixed indices. -/
def bytesFixed (s : State) (index sub : Nat) : Bytes :=
  let z := List.replicate 32 (0 : Byte)
  match index, sub with
  | 0x1000, 1 => ascii "Edirzia"
  | 0x1000, 2 => ascii "GB7240"
  | 0x1000, 3 => s.ident.serial
  | 0x1000, 4 => macBytes s.ident.mac
  | 0x1001, 2 => (match s.boot.loader with | some m => m.digest | none => z)
  | 0x1001, 4 => (match s.boot.fw with | some m => m.digest | none => z)
  | 0x1001, 6 => packageDigest s
  | 0x1001, 7 => pkgD s [] (·.name)
  | 0x1002, 1 => beBytes 4 (pkgD s 0 (fun p => if s.pins.sideB then p.ipB else p.ipA)).toNat
  | 0x1002, 3 => beBytes 4 (pkgD s 0 (·.gateway)).toNat
  | 0x1002, 5 => [169, 254, 72, 40]
  | 0x1200, 6 => macBytes (pairMac s)
  | 0x1200, 9 => (match s.pair.hello with | some h => h.digest | none => z)
  | 0x1300, 4 => stampNow s
  | 0x1300, 0x0A => beBytes 8 (match s.time.gm with | some g => g.toNat | none => 0)
  | 0x1500, 1 => (pkgD s [] (·.canWritable)).flatMap (fun x => beBytes 4 (x.1 * 256 + x.2))
  | 0x1600, 1 => s.ident.moduleCert
  | 0x1600, 2 => s.ident.issuingCert
  | 0x1600, 3 => rootKeyId
  | 0x1600, 8 => s.boot.a0.getD []
  | 0x1600, 9 => s.boot.a1.getD []
  | 0x1600, 0x0B => keyIds s
  | 0x1600, 0x10 => s.boot.attReport
  | 0x1600, 0x11 => anchors s
  | 0x1900, 3 => s.field.offsets.flatMap (fun i => beBytes 2 (twos 16 i))
  | 0x1900, 4 => s.field.gains.flatMap (fun i => beBytes 4 (twos 32 i))
  | 0x1A10, 5 => recChannels s
  | 0x1A10, 6 => (List.range 128).map (fun i => BitVec.ofNat 8 ((recCfgOf s).exps.getD i 0))
  | 0x1A10, 7 => (recCfgOf s).points.flatMap (beBytes 4)
  | 0x1A10, 8 => (recCfgOf s).triggers.flatMap (beBytes 4)
  | 0x1B00, 7 => (match stagedPackage s with | some i => i.man.digest | none => z)
  | 0x1B00, 9 => (match s.boot.previous with | some i => i.man.digest | none => z)
  | 0x2200, 1 => programDigest s
  | 0x2210, 6 => forceAtCursor s
  | 0x2218, 2 => changeDigest s
  | 0x2218, 3 => (match stagedChange s with | some m => m.base | none => z)
  | 0xF000, 1 => s.dict.nonce
  | _, _ => []

/-- Byte strings of channels, publications and subscriptions (R163, R243, R244). -/
def bytesPkg (s : State) (index sub : Nat) : Bytes :=
  if index ≤ 0x207F then
    (match sub, mget (pkgD s [] (·.channels)) (index - 0x2000) with
     | 5, some c => macBytes c.dst
     | 8, some c => c.svId
     | 5, none => List.replicate 6 0
     | _, _ => [])
  else if index ≤ 0x33FF then
    (match sub, mget (pkgD s [] (·.pubs)) (index - 0x3000) with
     | 5, some c => macBytes c.dst
     | 5, none => [0x03, 0xED, 0x72, 0x40] ++ beBytes 2 (pairAddr s).toNat
     | 9, some c => if c.kind = 2 then c.gocbRef else []
     | 0x0A, some c => if c.kind = 2 then c.datSet else []
     | 0x0B, some c => if c.kind = 2 then c.goId else []
     | _, _ => [])
  else
    match sub % 16, mget (pkgD s [] (·.subs)) (slotOf index sub) with
    | 7, some c => if c.kind = 2 then macBytes c.dst else []
    | 9, some c => if c.kind = 2 then c.gocbRef else []
    | 0x0A, some c => if c.kind = 2 then c.datSet else []
    | _, _ => []

/-- Value of a VSTRING, OCTETS or ARRAY entry. -/
def readBytes (s : State) (index sub : Nat) : Bytes :=
  if (0x2000 ≤ index ∧ index ≤ 0x207F) ∨ (0x3000 ≤ index ∧ index ≤ 0x37FF) then bytesPkg s index sub
  else bytesFixed s index sub

/-! ### Reading an entry -/

/-- A point's word as it stood after the last completed output publication of its owning task (R51). -/
def publishedWord (s : State) (p : Nat) : TWord :=
  if (descOf s.img p).source = srcUnused then TWord.unused else mgetD s.img.published p TWord.unused

/-- Encoding of a point's value in an application entry's type (R280). -/
def appBytes (typ : Nat) (w : TWord) : Bytes :=
  match typ with
  | 1 => [BitVec.ofNat 8 (w.val.toNat % 2)]
  | 12 => TWord.bytes w
  | _ => beBytes 4 w.val.toNat

/-- The value of an entry that a table defines, or the error its chapter gives (R51, R280, R293, R352, R495). -/
def readValue (s : State) (index sub : Nat) (r : EntryRow) : Nat × Bytes :=
  if 0x4000 ≤ index ∧ index ≤ 0x5FFF then
    (if sub = 0 then (0, [16])
     else if s.ctl.mode = .catchup then (0x0301, [])
     else (0, TWord.bytes (publishedWord s (windowPoint index sub))))
  else if 0x6000 ≤ index ∧ index ≤ 0xEFFF then
    (if sub = 0 then (0, [BitVec.ofNat 8 r.dflt]) else
     match appEntry s index sub with
     | some a => (0, appBytes a.typ (publishedWord s a.point))
     | none => (0x0201, []))
  else if index = 0x1600 ∧ sub = 0x10 ∧ s.boot.attState = 1 then (0x0302, [])
  else if index = 0x1A00 ∧ sub = 9 then
    (match logRecord s (setting s 0x1A00 8 0) with
     | some r => (0, logBytes r)
     | none => (0x0201, []))
  else if index = 0x1A20 ∧ (sub = 7 ∨ sub = 8) then
    (match cursorRecord s with
     | some r => (0, if sub = 7 then r.header else r.bytes)
     | none => (0x0201, []))
  else
    match typLen r.typ with
    | some n => (0, beBytes n (readNum s index sub r))
    | none => (0, readBytes s index sub)

/-- A role may do what an entry's role asks: reader, operator and engineer are ordered, and the security officer stands
apart (R276). -/
def roleAllows (have_ need : Nat) (write : Bool) : Bool :=
  if need = 3 then have_ == 3
  else if have_ = 3 then !write && need == 0
  else decide (need ≤ have_)

/-- Every request for the vendor service in DECOMMISSIONED is refused with the role error until the unlock, but a read of the nonce in
0xF000:01 and a write to 0xF000:02 (R281). -/
def vendorRefused (s : State) (index sub : Nat) (write : Bool) : Bool :=
  vendorOpen s && decide (0xF000 ≤ index) && !s.dict.unlocked && !(index == 0xF000 && sub == (if write then 2 else 1))

/-- Entries served on port H in BOOTWAIT (R282, R497, R498). -/
def bootEntry (s : State) (index sub : Nat) : Bool :=
  (decide (0x1000 ≤ index ∧ index ≤ 0x10FF)) || (index == 0x1600 && decide (1 ≤ sub ∧ sub ≤ 4)) ||
    (index == 0x1B00 && (decide (1 ≤ sub ∧ sub ≤ 4) || (sub == 0x0A && s.boot.lastKind ≤ 1)))

/-- One item of a READ by a role: its status and, when it is served, its type and data (R276, R279, R282, R291). -/
def readItem (s : State) (role index sub : Nat) : Nat × Nat × Bytes :=
  if vendorRefused s index sub false then (0x0102, 0, [])
  else
    match findEntry s index sub with
    | none => (0x0201, 0, [])
    | some r =>
      let need := if r.access = .ro ∨ r.access = .const then r.role else 0
      if s.ctl.mode = .bootwait ∧ bootEntry s index sub = false then (0x0301, r.typ, [])
      else if r.access = .wo then (0x0202, r.typ, [])
      else if roleAllows role need false = false then (0x0102, r.typ, [])
      else
        let v := readValue s index sub r
        (v.1, r.typ, v.2)

end Sys2Proof.Machine
end

