-- ==== Sys2Proof/Machine/Reply.lean ====
section
/-!
DEFINITION. Dictionary messages as bytes, sessions, and the answers the module sends: by port, over CAN and through the mailbox (R282–R292, R295, R297, R299).
-/

namespace Sys2Proof.Machine

/-! ### Messages -/

/-- The header of the table "Message header". -/
def dictHead (type len : Nat) (sid ctr : W32) (reqid : W64) : Bytes :=
  [0x01, BitVec.ofNat 8 type] ++ beBytes 2 len ++ beBytes 4 sid.toNat ++ beBytes 4 ctr.toNat ++ beBytes 8 reqid.toNat

/-- The tag of a message under a session key (R286). -/
def dictTag (key m : Bytes) : Bytes := (hmac key m).take 16

/-- A whole message: header, body, and the tag inside a session (R289). -/
def dictMsg (key : Option Bytes) (type : Nat) (sid ctr : W32) (reqid : W64) (body : Bytes) : Bytes :=
  let m := dictHead type body.length sid ctr reqid ++ body
  match key with
  | none => m
  | some k => m ++ dictTag k m

/-- Message types (table "Message types"). -/
def mtOpen : Nat := 0x01
def mtChallenge : Nat := 0x02
def mtClose : Nat := 0x03
def mtRead : Nat := 0x10
def mtReadResp : Nat := 0x11
def mtWrite : Nat := 0x20
def mtWriteResp : Nat := 0x21
def mtError : Nat := 0x30

/-- Longest body of a transport (R289). -/
def bodyLimit : Via → Nat
  | .port _ => 1400
  | .can _ => 4059
  | .mailbox _ => 1024

/-- One module-own frame of a payload length on the port pair a request came in by: in both directions of the ring, on both LANs of the
station ports, or on port H, under the module MAC with the module counter's number, and what it carries on each port where it leaves
(R17, R223, R225, R228, R229, R283). -/
def ownFrame (s : State) (p : Port) (payload : Nat) : Source × State :=
  if p = .h then sourceOn s [.h] (moduleMac s) 0 0
  else
    let r := takeSeq s false
    sourceOn r.2 (sourcePorts p.ring !p.ring) (moduleMac s) r.1 (lsduSize 0 payload)

/-- A message leaves by the way its request came in (R283, R300). -/
def dictOut (s : State) (via : Via) (msg : Bytes) : State :=
  match via with
  | .port p => let o := ownFrame s p (28 + msg.length); send o.2 (.dict via (some o.1) msg)
  | .can n => tpSend s n msg
  | .mailbox _ => s

/-- The dictionary is served by a transport in the present mode (table "Dictionary service by mode"). -/
def dictServed (s : State) (via : Via) : Bool :=
  match s.ctl.mode, via with
  | .bootwait, .port p => p == .h
  | .cold, _ | .verify, _ | .selftest, _ | .silent, _ | .bootwait, _ => false
  | _, .port p => p != .h
  | _, .can n => decide (n < 2) && canLive s n
  | _, .mailbox _ => true

/-! ### Sessions -/

/-- The session of an identifier. -/
def findSession (s : State) (sid : W32) : Option Session := s.dict.sessions.find? (fun x => x.sid == sid)

/-- A session's record changed. -/
def modSession (s : State) (sid : W32) (f : Session → Session) : State :=
  s.modDict (fun d => { d with sessions := d.sessions.map (fun x => if x.sid = sid then f x else x) })

/-- A session ends (R287). -/
def endSession (s : State) (sid : W32) : State :=
  s.modDict (fun d => { d with sessions := d.sessions.filter (fun x => x.sid != sid) })

/-- A session closes when either counter has reached 0xFFFF_FFFF (R286). -/
def closeFull (s : State) (sid : W32) : State :=
  match findSession s sid with
  | none => s
  | some x => if x.rxCtr = 0xFFFFFFFF ∨ x.txCtr = 0xFFFFFFFF then endSession s sid else s

/-- An answer inside a session: the next counter and the tag; it is stored for a retransmission of the last accepted
request (R286). -/
def answerSession (s : State) (via : Via) (sid ctr : W32) (reqid : W64) (type : Nat) (body : Bytes) : State :=
  match findSession s sid with
  | none => s
  | some x =>
    let m := dictMsg (some x.key) type sid (x.txCtr + 1) reqid body
    let s := modSession s sid (fun y =>
      let y := { y with txCtr := y.txCtr + 1 }
      if ctr = y.rxCtr then { y with stored := some m, pending := false } else y)
    closeFull (dictOut s via m) sid

/-- An answer to a client: tagged inside a session, and untagged with session ID and counter 0 outside one (R284). -/
def answerClient (s : State) (c : Client) (type : Nat) (body : Bytes) : State :=
  if c.sid = 0 then dictOut s c.via (dictMsg none type 0 0 c.reqid body)
  else answerSession s c.via c.sid c.ctr c.reqid type body

/-- ERROR with a status (table "Message types"). -/
def answerError (s : State) (c : Client) (status : Nat) : State := answerClient s c mtError (beBytes 2 status ++ [0, 0])

/-- Requests answered OK and refused for their role are counted (0x1010:06, 0x1010:07). -/
def countStatus (s : State) (status : Nat) : State :=
  if status = 0 then s.modDict (fun d => { d with served := d.served.inc })
  else if status = 0x0102 then s.modDict (fun d => { d with roleRef := d.roleRef.inc })
  else s

/-- The answer of a mailbox request is ready for DONE (R304). -/
def dmbReady (s : State) (c : Cp) (status : Nat) (data : Bytes) (more : Bool) (tick : W64) : State :=
  modCp s c (fun p => { p with dmb := { p.dmb with answer := some (status, data, more, tick) } })

/-- The answer to a WRITE: WRITERESP, or the end of a mailbox request (R290, R295, R304). -/
def answerWrite (s : State) (c : Client) (index sub status : Nat) (wsn : W32) (tick : W64) : State :=
  let s := countStatus s status
  match c.via with
  | .mailbox cp => dmbReady s cp status [] false tick
  | .port _ | .can _ =>
    answerClient s c mtWriteResp (beBytes 2 index ++ [BitVec.ofNat 8 sub, 0] ++ beBytes 2 status ++ beBytes 4 wsn.toNat ++
      beBytes 8 tick.toNat)

/-- The client of a request that waits. -/
def FwdReq.client (f : FwdReq) : Client := ⟨f.via, f.sid, f.ctr, f.req.reqid, f.req.role⟩

/-- The answer to a request that waits. -/
def answerFwd (s : State) (f : FwdReq) (status : Nat) (wsn : W32) (tick : W64) : State :=
  answerWrite s f.client f.req.index f.req.sub status wsn tick

/-- A reply held for the end of a release is sent (R295). -/
def sendReply (s : State) (r : Reply) : State :=
  answerWrite s ⟨r.via, r.sid, r.ctr, r.req.reqid, r.req.role⟩ r.req.index r.req.sub r.status.toNat r.wsn r.tick

/-- The request a sequenced command carries. -/
def SeqBody.request? : SeqBody → Option PairReq
  | .request r => some r
  | .activate _ | .refuseChange _ | .recordStart _ _ _ => none

/-- The answer to the client whose request was sequenced, on the side that holds its session. -/
def answerSeq (s : State) (i : SeqItem) (status : Nat) : State :=
  match i.own, i.msg.body.request? with
  | true, some r => answerWrite s ⟨i.via, i.sid, i.ctr, r.reqid, r.role⟩ r.index r.sub status 0 noTick
  | _, _ => s

/-- The requests a side holds when it stops or enters CATCHUP: those forwarded or sequenced get the unknown-outcome error,
those still in its queue the state error (R297, R459). -/
def dropRequests (s : State) : State :=
  let p := s.pair
  let s := s.modPair (fun p => { p with
    forwarded := [], seqs := [], resend := [], replies := [], heldReplies := [], queue := [],
    repeats := p.repeats.map (fun r => { r with waits := [] }) })
  let s := p.forwarded.foldl (fun s f => answerFwd s f 0x0303 0 noTick) s
  let s := p.seqs.foldl (fun s i => answerSeq s i 0x0303) s
  let s := p.replies.foldl (fun s r => sendReply s { r with status := 0x0303, wsn := 0, tick := noTick }) s
  let s := p.heldReplies.foldl (fun s r => sendReply s { r with status := 0x0303, wsn := 0, tick := noTick }) s
  let s := (p.repeats.flatMap (·.waits)).foldl (fun s f => answerFwd s f 0x0303 0 noTick) s
  p.queue.foldl (fun s f => answerFwd s f 0x0301 0 noTick) s

/-! ### Receiving a message -/

/-- What becomes of a message inside a session (R286). -/
inductive Received where
  /-- No such session: answered with the no-session error (R299). -/
  | unknown
  /-- Discarded, or answered with the stored reply, and already dealt with. -/
  | ended (s : State)
  /-- Accepted, with the client it stands for. -/
  | accepted (c : Client) (s : State)

/-- A message inside a session is checked: its tag, then its counter (R286). -/
def receive (s : State) (h : MsgHdr) (type : Nat) (body : Bytes) : Received :=
  match findSession s h.sid with
  | none => .unknown
  | some x =>
    let m := dictHead type body.length h.sid h.ctr h.reqid ++ body
    if h.tag ≠ dictTag x.key m then .ended (s.modDict (fun d => { d with badTag := d.badTag.inc }))
    else if x.rxCtr.toNat < h.ctr.toNat then
      .accepted ⟨h.via, h.sid, h.ctr, h.reqid, x.role⟩
        (modSession s h.sid (fun y => { y with
          established := true, lastAt := s.time.raw, rxCtr := h.ctr, reqid := h.reqid, stored := none, pending := true }))
    else if x.established ∧ h.ctr = x.rxCtr ∧ h.reqid = x.reqid then
      let s := modSession s h.sid (fun y => { y with lastAt := s.time.raw })
      match x.stored with
      | some r => .ended (dictOut s h.via r)
      | none => .ended s
    else .ended (s.modDict (fun d => { d with discarded := d.discarded.inc }))

/-- The client of a message without a session. -/
def MsgHdr.stranger (h : MsgHdr) : Client := ⟨h.via, 0, 0, h.reqid, 0⟩

end Sys2Proof.Machine
end

