-- ==== Sys2Proof/Machine/Start.lean ====
section
/-!
DEFINITION. Starting, stopping and joining: ownership requests, restarts, and the entries to STOP, CATCHUP, TEST and the run modes that several events cause (R85–R88, R190, R191, R213–R219, R457–R460).
-/

namespace Sys2Proof.Machine

/-! ### Ownership -/

/-- Ownership is lowered; firmware lowers OWN_OUT at any time (R190). -/
def lowerOwn (s : State) : State :=
  changePair (undrive s) (fun p => { p with ownOut := false, ownReq := false, ownHighSince := none })

/-- Ownership is requested, in STOP and the run modes, unless a partner not declared dead reports that it holds OWN (R191, R454). -/
def requestOwn (s : State) : State :=
  if (s.pair.pOwn && !s.pair.dead) || !(s.ctl.mode == .stop || s.ctl.mode.run) then s
  else s.modPair (fun p => { p with ownReq := true })

/-! ### The program at a start -/

/-- Two streams of one destination MAC and APPID differ, or there are more than 64 (R136). -/
def streamsClash (p : Package) : Bool :=
  let ks := distinct ((p.channels.filter (fun x => x.2.source == 1)).map (fun x => streamKey x.2))
  decide (64 < ks.length) ||
    ks.any (fun a => ks.any (fun b => decide (a ≠ b) && a.1 == b.1 && a.2.2.1 == b.2.2.1))

/-- A channel's tracking reference does not reference itself (R152). -/
def referencesChain (p : Package) : Bool :=
  p.channels.any (fun x => match mget p.channels x.2.refCh with | some c => c.refCh != x.2.refCh | none => true)

/-- A subscribed GOOSE dataset holds a member of another type than the table "GOOSE member types" has (R239). -/
def gooseUnfit (p : Package) : Bool := p.subs.any (fun x => x.2.memberTypes.any (fun t => !memberTypeOk t))

/-- The program and the declarations of the running package are checked; a program refused leaves its reason in 0x2218:06 (R75, R136,
R152, R239). -/
def checkProgram (s : State) : State :=
  match pkgOf s with
  | none => s
  | some p =>
    match programCheck p with
    | some k =>
      (s.modBoot (fun b => { b with refusedPkg := true })).modCyc (fun c => { c with
        change := { c.change with reason := BitVec.ofNat 16 k } })
    | none =>
      if streamsClash p || referencesChain p || gooseUnfit p then s.modBoot (fun b => { b with refusedPkg := true }) else s

/-! ### HELLO -/

/-- The HELLO that this side sends (R193). -/
def ownHello (s : State) : Hello :=
  ⟨pkgD s 0 (·.pairNo), herdAddr s, moduleMac s, s.ctl.mode.code, pairClass s, packageDigest s⟩

/-- A DELAY request leaves on each lane that is up (R199). -/
def measureDelay (s : State) : State :=
  (lanesUp s).foldl (fun s l => mjSendOn s [l] (.delay false s.time.raw 0))
    (s.modPair (fun p => { p with delayReq := some s.time.raw }))

/-- The link is up once a lane is up and HELLO has gone both ways since it was last down; its delay is measured at once (R198, R199). -/
def raiseLink (s : State) : State :=
  if s.pair.link || s.pair.hello.isNone || !s.pair.saidHello || !(s.pair.lane0 || s.pair.lane1) then s
  else measureDelay (changePair s (fun p => { p with link := true }))

/-- HELLO goes out from STOP on once the package is settled, unless R459 keeps the side silent after a stop. -/
def sayHello (s : State) : State :=
  if isPaired s && s.boot.settled && s.ctl.mode.aliveList && s.ctl.stoppedAt.isNone then
    let s := mjSend s (.hello (ownHello s))
    raiseLink (if (lanesUp s).isEmpty then s else s.modPair (fun p => { p with saidHello := true }))
  else s

/-- A mode change that the partner learns by HELLO: the manual does not say when HELLO is sent while the link is up
(log entry 60). -/
def changeMode (s : State) (m : Mode) (reason : Nat) : State := sayHello (setMode s m reason)

/-! ### Abandoning what runs -/

/-- No step and no change of the agreed state that was named for a tick outlives the run of this side: outside the run modes a step is
taken at once and the agreed state is the own one (R250, R255). -/
def dropAnnounced (s : State) : State :=
  (s.modTime (fun t => { t with announced := [] })).modPair (fun p => { p with annResend := [] })

/-- The cycle in progress ends without a release, and calls end with it. -/
def clearCycle (s : State) : State :=
  let s := s.modCyc (fun c => { c with
    phase := .slack, todo := [], nextBlock := 0, calls := [], released := true, partnerOut := none, partnerTick := none,
    supplies := [], suppliesG := [], paced := [] })
  let drop := fun (p : CpSt) => if p.call.isSome then { p.resume with posted := [] } else { p with posted := [] }
  (s.modN0 drop).modN1 drop

/-- Results carry TST no longer: the streams and the slots leave simulation (R241), and status bit 5 of their channels falls (R138, R163, R458). -/
def leaveTest (s : State) : State :=
  let s := s.modStreams (fun m => m.map (fun x => (x.1, { x.2 with simulated := false })))
  let s := s.modNet (fun n => { n with subs := n.subs.map (fun x => (x.1, { x.2 with simulated := false })) })
  (s.chans.map (·.1)).foldl (fun s n => setChBit s n 5 false) s

/-! ### Restarts -/

/-- A block instance whose state is retained: an opcode without state ignores RETAIN (R44, R91). -/
def retainsState (w : W128) : Bool := dRetain w && !dNull w && statefulOp (dOpcode w)

/-- Tasks that own retained points or RETAIN block instances (R44). -/
def retainTasks (s : State) : List Nat :=
  (List.range 4).filter (fun t =>
    s.img.descs.any (fun d => d.2.retain && d.2.task == t) ||
      (pkgD s [] (fun p => p.blocks.getD t [])).any (fun b => retainsState b.word))

/-- The newest committed copy of a task's retained set (R44, R45). -/
def newestCopy (s : State) (t : Nat) : Option RetCopy :=
  match mget s.img.copies (2 * t), mget s.img.copies (2 * t + 1) with
  | some a, some b => some (if newer b.tick a.tick then b else a)
  | some a, none => some a
  | none, b => b

/-- The restart is warm (R85). A life-cycle change has wiped every copy. -/
def warmRestart (s : State) : Bool :=
  setting s 0x2200 5 0 == 0 && !s.ctl.coldNext &&
    (retainTasks s).all (fun t => match newestCopy s t with | some c => c.digest == packageDigest s | none => false)

/-- The word of R40 that a point starts with. -/
def initialWord (s : State) (d : PointDesc) : TWord :=
  match d.init with
  | some k => normWord d.typ (constWord s.img k)
  | none => TWord.unused

/-- The word a point restarts with: its retained word on a warm restart, as its TYPE stores it, else that of R40 (R28, R30, R31, R45,
R88). -/
def restartWord (s : State) (warm : Bool) (p : Nat) (d : PointDesc) : TWord :=
  if warm && d.retain then
    (match newestCopy s d.task with
     | some c => normWord d.typ (mgetD c.points p (initialWord s d))
     | none => initialWord s d)
  else initialWord s d

/-- Block state after a restart: RETAIN slots restored when it is warm, every other slot at its initial state (R88). -/
def restartSlots (s : State) (warm : Bool) : List (Nat × W64) :=
  if warm then
    (retainTasks s).flatMap (fun t => match newestCopy s t with | some c => c.slots | none => []) |>.foldl
      (fun m x => mset m x.1 x.2) []
  else []

/-- The forces through a restart: on a warm one each keeps its forced word, as its point's TYPE now stores it, over the
point's restarted word; a cold one ends them, and their points keep their R40 words (R30, R31, R50, R88). -/
def restartForces (s : State) (warm : Bool) : State :=
  if warm then
    let w := fun (f : Force) => normWord (descOf s.img f.point).typ { f.forced with tag := forcedTag s f.forced.tag }
    s.modImg (fun i => { i with
      forces := i.forces.map (fun f => { f with forced := w f, shadow := pointWord i f.point }),
      points := i.forces.foldl (fun m f => mset m f.point (w f)) i.points })
  else clearForces s

/-- Tick and cycle counts resume at the last committed values plus 2, or start at 0; the first tick is the next multiple of
250 µs that TIME reaches (R54, R87). -/
def restartCounts (s : State) : State :=
  let base := fun (n : Nat) => if s.img.committedTick.isSome then n + 2 else 0
  s.modCyc (fun c => { c with
    tick := BitVec.ofNat 64 (base (s.img.committedTick.getD 0).toNat),
    tasks := (c.tasks.zipIdx).map (fun x => { x.1 with
      cycle := BitVec.ofNat 32 (base (s.img.committedCycles.getD x.2 0).toNat), firstCycle := true }),
    firstTick := true, lastTickRaw := none, lastTick := some (tickInstant s), stepped := false, confirmed := false })

/-- A change that was being checked or was scheduled is abandoned when what it was to change restarts or is replaced: it stands as
staged again where its slot is complete, and can be activated anew (DESIGN CHOICE, log entry 118: R75 and R79 do not say). -/
def ChangeSt.abandon (c : ChangeSt) (staged : Bool) : ChangeSt :=
  if c.active then
    { c with active := false, own := none, partner := none, tick := noTick, state := if staged then 1 else 0 }
  else c

/-- A restart in the process image and the counts (R85–R88). -/
def restart (s : State) : State :=
  let warm := warmRestart s
  let kind := if s.img.committedTick.isNone then 0 else if warm then 1 else 2
  let s := clearCycle (loadProgram s)
  let s := restartCounts s
  let pts := s.img.descs.filterMap (fun d => if d.2.source = srcUnused then none else some (d.1, restartWord s warm d.1 d.2))
  let sl := restartSlots s warm
  let s := s.modImg (fun i => { i with points := pts, slots := sl, misses := [], hist := [] })
  let s := restartForces s warm
  let s := s.modImg (fun i => { i with published := i.points, pubForces := i.forces })
  let s := if warm then s else (s.modN0 (fun c => { c with mram := [] })).modN1 (fun c => { c with mram := [] })
  let s := s.modCyc (fun c => { c with
    restart := kind, revert := [], change := c.change.abandon (s.boot.sChange.state == 2) })
  (loopsStart (channelsStart s)).modCtl (fun c => { c with coldNext := false })

/-- What every entry to a run mode does: native cores released, the field side commanded, CAN joined (R310, R370, R385). -/
def enterRun (s : State) (m : Mode) (reason : Nat) : State :=
  let s := changeMode s m reason
  let s := s.modCtl (fun c => { c with startsAt := none })
  canJoin (canJoin (fieldRun (nativeRelease (unfreeze s))) 0) 1

/-- The owning side stops serving a catch-up. -/
def stopServing (s : State) : State := s.modPair (fun p => { p with serving := 0, log := [], stored := [], unacked := [] })

/-- TEST is entered: the outputs are held at their present values (R458). -/
def enterTest (s : State) : State :=
  let alone := s.ctl.mode == .alone
  let s := changeMode (if s.pair.serving = 0 then s else stopServing s) .test 0x000C
  s.modCtl (fun c => { c with aloneAtTest := alone })

/-- TEST is left: the owning side enters LEAD, or ALONE where it was alone at entry and has no partner in TEST; the
other side enters TWIN (R458). -/
def exitTest (s : State) : State :=
  let partnerTest := isPaired s && s.pair.pMode == 9 && s.pair.link && !s.pair.dead
  let m := if owns s || !isPaired s then (if (s.ctl.aloneAtTest && !partnerTest) || !isPaired s then Mode.alone else .lead) else .twin
  leaveTest ((changeMode s m 0x000C).modCtl (fun c => { c with testLeft := true }))

/-- TEST follows the entry 0x1100:05 in a run mode (R458, R466). -/
def followTest (s : State) : State :=
  if s.ctl.testWanted && s.ctl.mode.run && s.ctl.mode != .test then enterTest s
  else if !s.ctl.testWanted && s.ctl.mode == .test then exitTest s
  else s

/-! ### Entries to STOP, CATCHUP and the run modes -/

/-- Entry to STOP: what the side holds is answered, OWN and ALIVE go low, the outputs go to their SILENT values (R454,
R459); the owning side of a switchover keeps OWN_OUT high (R486). -/
def enterStopAs (s : State) (reason : Nat) (keepOwn : Bool) : State :=
  let s := clearCycle (dropRequests s)
  let s := if keepOwn then s else lowerOwn s
  let s := changePair s (fun p => { p with
    aliveOut := false, toggledAt := none, phase := 0, serving := 0, noOwner := false, handover := none, startWaitFrom := none })
  let s := setMode s .stop reason
  let s := s.modCtl (fun c => { c with stoppedAt := some s.time.raw, stopPending := none })
  leaveTest (fieldOff (dropAnnounced s))

/-- Entry to STOP with OWN_OUT low. -/
def enterStop (s : State) (reason : Nat) : State := enterStopAs s reason false

/-- The joining side begins phase 1, announced by CATCH (R196, R214). -/
def beginPhase1 (s : State) : State :=
  let s := s.modPair (fun p => { p with
    phase := 1, cRetryAt := none, cBytes := 0, cStart := some s.time.raw, pass := 0, snapTick := noTick, stored := [],
    log := [] })
  mjSend s (.catchMsg 1 noTick none)

/-- The snapshot tick that a CATCH shows: all ones until phase 3 has fixed it (R196). -/
def shownSnap (s : State) (fixed : Bool) : W64 := if fixed then s.pair.snapTick else noTick

/-- A catch-up fails: counted, recorded and logged; the next one begins after 10 s, and the third failure in a row gives
up (R215). -/
def catchFail (s : State) (reason : Nat) : State :=
  let snap := shownSnap s (decide (3 ≤ s.pair.phase))
  let s := logPair s 5 (BitVec.ofNat 32 reason)
  let s := s.modPair (fun p => { p with
    nFailed := p.nFailed.inc, cReason := reason, cFails := p.cFails + 1, stored := [], log := [], snapTick := noTick })
  if 3 ≤ s.pair.cFails then
    mjSend (s.modPair (fun p => { p with phase := 6, cRetryAt := none })) (.catchMsg 6 snap none)
  else
    mjSend (s.modPair (fun p => { p with phase := 0, cRetryAt := some s.time.raw })) (.catchMsg 0 snap (some reason))

/-- Entry to CATCHUP: pending requests are answered, sourcing stops, the outputs go off; a digest mismatch counts as a
failed catch-up, every other entry begins phase 1 (R63, R215, R216, R297). -/
def enterCatchup (s : State) (reason : Nat) (mismatch : Bool) : State :=
  let stop := s.ctl.stopPending
  let s := clearCycle (dropRequests s)
  let s := lowerOwn s
  let s := changePair s (fun p => { p with serving := 0, noOwner := false, handover := none, twinSince := none, farTicks := 0,
                                           following := false, startWaitFrom := none })
  let s := changeMode s .catchup reason
  let s := s.modCtl (fun c => { c with startsAt := none, stopPending := none })
  let s := leaveTest (fieldOff (dropAnnounced s))
  let s := canJoin (canJoin s 0) 1
  let s := if mismatch then catchFail (s.modPair (fun p => { p with cMismatch := true })) 5 else beginPhase1 s
  match stop with
  | some r => enterStop s r
  | none => s

/-- A side in a run mode that does not own leaves for CATCHUP (R63, R199, R204, R210, R218, R255). -/
def leaveForCatchup (s : State) (reason : Nat) (mismatch : Bool) : State :=
  if s.ctl.mode = .twin ∨ (s.ctl.mode = .test ∧ owns s = false ∧ isPaired s = true) then enterCatchup s reason mismatch else s

/-- OWN_OUT has risen on a running side: it enters LEAD, or stays in TEST, announces its own time state where the agreed one
differs, and numbers the held triggers (R209, R217, R219, R250, R341, R458). -/
def gainOwner (s : State) (reason : Nat) : State :=
  let s := if s.ctl.mode = .twin then changeMode s .lead reason else s
  let s := ownerChanged (changePair s (fun p => { p with noOwner := false, handover := none, following := false }))
  let s := if timeShared s && s.time.own != s.time.agreed then announceState s else s
  placeHeld s

/-- ALONE: the side restarts and runs as the owning side, in TEST where TEST was asked for in STOP (R85, R213, R298). -/
def enterAlone (s : State) (reason : Nat) : State :=
  let s := restart s
  let s := enterRun s .alone reason
  let s := ownerChanged s
  followTest (placeHeld s)

end Sys2Proof.Machine
end

