-- ==== Sys2Proof/Machine/Stage.lean ====
section
/-!
DEFINITION. Staging, keys, attestation and life-cycle commands as the dictionary entries of 0x1600, 0x1B00 and 0x1100:07 bring them about (R462–R464, R479–R496).
-/

namespace Sys2Proof.Machine

/-! ### Staging slots -/

/-- The slot of an image kind (R480). -/
def slotOfKind (s : State) (kind : Nat) : SlotSt :=
  if kind = 1 then s.boot.sLoader else if kind = 3 then s.boot.sPkg else if kind = 4 then s.boot.sChange else SlotSt.reset

/-- The slot of an image kind changed. -/
def modSlot (s : State) (kind : Nat) (f : SlotSt → SlotSt) : State :=
  s.modBoot (fun b =>
    if kind = 1 then { b with sLoader := f b.sLoader } else if kind = 3 then { b with sPkg := f b.sPkg }
    else if kind = 4 then { b with sChange := f b.sChange } else b)

/-- A slot emptied: a prepared package is no longer prepared, and an on-line change is no longer staged. -/
def emptySlot (s : State) (kind state : Nat) : State :=
  let s := modSlot s kind (fun _ => { SlotSt.reset with state := state })
  let s := if kind = 3 then s.modBoot (fun b => { b with prepared := none }) else s
  if kind = 4 then s.modCyc (fun c => { c with change := { c.change with state := 0 } }) else s

/-- An on-line change is being checked or is scheduled, so that its slot stands (R75). -/
def changeStands (s : State) (kind : Nat) : Bool := kind == 4 && s.cyc.change.active

/-- BEGIN_STAGING: the write names the kind and empties its slot (R480). In BOOTWAIT only kind 1 is served (R498). -/
def beginStaging (s : State) (kind : Nat) : Nat × State :=
  if kind ≠ 1 ∧ kind ≠ 3 ∧ kind ≠ 4 then (0x0204, s)
  else if (s.ctl.mode = .bootwait ∧ kind ≠ 1) ∨ changeStands s kind = true then (0x0301, s)
  else (0, (emptySlot s kind 1).modBoot (fun b => { b with lastKind := kind }))

/-- Every byte of the manifest and of the image is here (R480). -/
def slotWhole (x : SlotSt) : Bool :=
  let m := parseManifest (bytesOf x.man)
  decide (64 ≤ x.man.length) && x.man.length == manifestLen m.chunks && x.img.length == m.length &&
    x.man.zipIdx.all (fun e => e.1.1 == e.2) && x.img.zipIdx.all (fun e => e.1.1 == e.2)

/-- A slot whose bytes are all here becomes complete; an on-line change then reads as staged (R480). -/
def completeSlot (s : State) (kind : Nat) : State :=
  if slotWhole (slotOfKind s kind) then
    let s := modSlot s kind (fun x => { x with state := 2 })
    if kind = 4 then s.modCyc (fun c => { c with change := { c.change with state := 1 } }) else s
  else s

/-- Bytes a stream may take, where the manifest says it already (R468, R480). -/
def streamLimit (x : SlotSt) (image : Bool) : Option Nat :=
  let hdr := bytesAt x.man 0 24
  let known := (List.range 24).all (fun i => (mget x.man i).isSome)
  if !known then none else some (if image then beNat (slice hdr 20 4) else manifestLen (beNat (slice hdr 18 2)))

/-- MANIFEST_STREAM_WRITE and IMAGE_STREAM_WRITE: a piece is written at its offset; one beyond the end is refused with the
segment error (R292, R480). -/
def streamWrite (s : State) (image : Bool) (off : Nat) (data : Bytes) : Nat × State :=
  let kind := s.boot.lastKind
  let x := slotOfKind s kind
  if x.state ≠ 1 ∨ (s.ctl.mode = .bootwait ∧ kind ≠ 1) then (0x0301, s)
  else if (match streamLimit x image with | some n => decide (n < off + data.length) | none => false) then (0x0206, s)
  else
    let s := modSlot s kind (fun x =>
      if image then { x with img := putListed x.img off data } else { x with man := putListed x.man off data })
    (0, completeSlot s kind)

/-- DISCARD_SLOT: the slot of the last staged kind is emptied (0x1B00:0A). -/
def discardSlot (s : State) : Nat × State :=
  let kind := s.boot.lastKind
  if changeStands s kind then (0x0301, s) else (0, emptySlot s kind 0)

/-- ONLINE_CHANGE_DISCARD: the staged change is discarded unless it is being activated (R75, 0x2218:08). -/
def discardChange (s : State) : Nat × State :=
  if s.cyc.change.active then (0x0301, s) else (0, emptySlot s 4 0)

/-- CONFIRM_SETTINGS: every settings format but the present one is released (R483). -/
def confirmSettings (s : State) : State := s.modBoot (fun b => { b with formats := [], olderFmt := 0 })

/-- PREPARE_SWITCHOVER at its boundary: the side checks its complete staged package and preloads it (R485). -/
def prepareSwitch (s : State) : State :=
  match stagedPackage s with
  | none => s
  | some i =>
    let code := imageCheck s i.man i.image 3 true
    if code = 0 then
      s.modBoot (fun b => { b with
        sPkg := { b.sPkg with state := 3 }, prepared := some i, ts := BitVec.ofNat 32 (5000 + 125 * i.pkg.nativeMib) })
    else refuseImage (modSlot s 3 (fun x => { x with state := 4 })) code

/-! ### Keys -/

/-- A wrapped role key is taken: its tag passes under security officer key number 0 (R491, R492). -/
def wrappedOk (s : State) (data : Bytes) : Bool :=
  let w := parseWrapped data
  decide (w.role < 4) && decide (w.num < 4) &&
    (match roleKey s.boot.roles 3 0 with | some so => wrapGood so w | none => false)

/-- WRAPPED_ROLE_KEY_WRITE: one key is added or replaced (R492). -/
def takeWrapped (s : State) (data : Bytes) : State :=
  match roleKey s.boot.roles 3 0 with
  | none => s
  | some so =>
    let k := unwrap so (parseWrapped data)
    keyChanged (s.modBoot (fun b => { b with roles := putRole b.roles k })) k.role k.num

/-- A value of 0x1600:0D names a role key that may be removed (R492). -/
def removeOk (v : Nat) : Bool := decide (v / 16 < 4) && decide (v % 16 < 4) && v != 0x30

/-- REMOVE_ROLE_KEY (R492). -/
def removeRole (s : State) (v : Nat) : State :=
  if (roleKey s.boot.roles (v / 16) (v % 16)).isNone then s
  else keyChanged (s.modBoot (fun b => { b with
    roles := b.roles.filter (fun x => !(x.role == v / 16 && x.num == v % 16)) })) (v / 16) (v % 16)

/-- PACKAGE_KEY_A1_WRITE: 32 bytes set the key and none remove it (R497). -/
def putA1 (s : State) (data : Bytes) : State :=
  s.modBoot (fun b => { b with a1 := if data.isEmpty then none else some data })

/-- RAISE_MINIMUM_SVN: each minimum rises to the SVN of the image now running, in fuses of 63 steps (R496). -/
def raiseSvn (s : State) : State :=
  let up := fun (old : Nat) (m : Option Manifest) => match m with | some m => max old (min 63 m.svn) | none => old
  s.modBoot (fun b => { b with minLoader := up b.minLoader b.loaderRun, minFw := up b.minFw b.fw })

/-! ### Attestation -/

/-- Digest of an image that may be absent; zeros when it is. -/
def digestOr (m : Option Manifest) : Bytes := match m with | some m => m.digest | none => List.replicate 32 0

/-- Bytes 0–199 of an attestation report (table "Attestation report"). -/
def reportBody (s : State) : Bytes :=
  let flags := b2n s.pins.sideB + 2 * b2n s.integ.debugged + 4 * b2n s.integ.latent + 8 * b2n s.boot.fetched +
    16 * b2n (s.boot.olderFmt != 0)
  let gen := match s.boot.running with | some r => r.man.generation.toNat | none => 0
  beBytes 4 0x47424152 ++ [0x01, BitVec.ofNat 8 s.ctl.life.code, BitVec.ofNat 8 s.ctl.mode.code, BitVec.ofNat 8 flags] ++
    beBytes 6 (moduleMac s).toNat ++ beBytes 2 (if (pkgOf s).isSome then (herdAddr s).toNat else 0xFFFF) ++
    padTo 32 s.boot.attNonce ++ digestOr s.boot.loaderRun ++ digestOr s.boot.fw ++ packageDigest s ++ beBytes 4 gen ++
    beBytes 4 s.log.power.toNat ++ beBytes 4 s.log.seconds.toNat ++ padTo 12 (stampNow s) ++ anchors s

/-- ATTESTATION_NONCE: the nonce is accepted and a report starts; while one is being signed a further nonce is busy
(R495). -/
def startReport (s : State) (nonce : Bytes) (host : Option (W48 × W32)) : Nat × State :=
  if s.boot.attState = 1 then (0x0302, s)
  else (0, s.modBoot (fun b => { b with attState := 1, attNonce := nonce, attHost := host }))

/-! ### Life-cycle commands -/

/-- Pending change to a life-cycle state with the keys of that state (R464, R490). -/
def pendLife (s : State) (target : Life) (keys : PendKeys) : State :=
  (s.modCtl (fun c => { c with lifePending := some target })).modBoot (fun b => { b with pendKeys := some keys })

/-- What a life-cycle command asks for is allowed in the present state; the status it is answered with (R463, R490). -/
def lifeCheck (s : State) (v : Nat) : Nat :=
  let code := v % 256
  let life := s.ctl.life
  let macOk := v / 256 == (moduleMac s).toNat % 2 ^ 24
  if !macOk || code = 0 || decide (3 < code) then 0x0204
  else if s.ctl.mode ≠ .stop ∨ s.ctl.lifePending.isSome = true then 0x0301
  else if code = 1 then
    (match stagedPackage s with
     | some i =>
       let sig := match manifestKey s i.man with
         | some k => i.man.marked && Config.verify128s k i.man.header i.man.signature
         | none => false
       if life ≠ .provisioned ∨ sig = false then 0x0301 else if keysGood s i.pkg.keys then 0 else 0x0204
     | none => 0x0301)
  else if life = .provisioned ∨ life = .commissioned then 0 else 0x0301

/-- A life-cycle command is recorded as pending (R464, R490). -/
def lifeCommand (s : State) (v : Nat) : State :=
  match v % 256 with
  | 1 =>
    let ks := match stagedPackage s with | some i => unwrapAll s i.pkg.keys | none => []
    pendLife s .commissioned ⟨ks, s.boot.a0, s.boot.a1⟩
  | 2 => pendLife s .blank ⟨[], none, none⟩
  | _ => pendLife s .decommissioned ⟨[], none, none⟩

end Sys2Proof.Machine
end

