-- ==== Sys2Proof/Machine/Change.lean ====
section
/-!
DEFINITION. The on-line change: its check, the owning side's decision, and its application at a boundary (R74–R79).
-/

namespace Sys2Proof.Machine

/-- Contents of the staged change (R74). -/
def changeContents (s : State) : Option Change :=
  (stagedChange s).map (fun m => Config.changeOf m s.boot.sChange.img)

/-- The package with the change's blocks, constants and point descriptors in place (R74). -/
def Package.changed (p : Package) (c : Change) : Package := { p with blocks := c.blocks, consts := c.consts, points := c.points }

/-- Points in use of a descriptor table. -/
def usedPoints (d : List (Nat × PointDesc)) : Nat := (d.filter (fun x => x.2.source != srcUnused)).length

/-- A SOURCE that no on-line change may touch (R74). -/
def fixedSource (n : Nat) : Bool := n == srcSub || n == srcChannel || n == srcLoop

/-- The change is structural (R74). -/
def structuralChange (p : Package) (c : Change) : Bool :=
  c.structural || usedPoints p.points != usedPoints c.points ||
    p.points.any (fun x => fixedSource x.2.source && (mgetD c.points x.1 PointDesc.unused).source != x.2.source) ||
    c.points.any (fun x => fixedSource x.2.source && (mgetD p.points x.1 PointDesc.unused).source != x.2.source)

/-- The staged change's manifest verifies under its key (row 1). -/
def changeSigned (s : State) (m : Manifest) : Bool :=
  match manifestKey s m with
  | none => false
  | some k => m.marked && Config.verify128s k m.header m.signature

/-- Outcome of the check of the staged change: the first row that fails in the order 11, 1, 10, 2, 3, 7, 4, 5, 6, or 0
(R75). -/
def checkChange (s : State) : Nat :=
  match stagedChange s, pkgOf s with
  | none, _ => 11
  | some _, none => 11
  | some m, some p =>
    let c := Config.changeOf m s.boot.sChange.img
    let whole := chunksGood m s.boot.sChange.img && m.kind == 4 && lengthFits m && (m.cclass == 0xFFFF || m.cclass == s.ident.computeClass)
    if !changeSigned s m then 1
    else if !whole || !c.valid then 10
    else if m.base ≠ programDigest s then 2
    else if structuralChange p c then 3
    else if slotMoved p.blocks c.blocks then 7
    else (programCheck (p.changed c)).getD 0

/-- Body of a TYPE 0x0011 record. -/
def changeBody (outcome reason dropped : Nat) (digest : Bytes) : Bytes :=
  [BitVec.ofNat 8 outcome] ++ beBytes 2 reason ++ beBytes 2 dropped ++ padTo 32 digest

/-- The replies that waited for a change to settle go out with the next release (R79). -/
def settleReplies (s : State) : State :=
  let tick := s.cyc.cutTick
  s.modPair (fun p => { p with replies := p.replies ++ p.heldReplies.map (fun r => { r with tick := tick }), heldReplies := [] })

/-- The change is refused on this side with a reason: nothing else changes (R75). -/
def refuseChange (s : State) (reason : Nat) : State :=
  let s := s.modCyc (fun c => { c with change := { c.change with
    state := 4, reason := BitVec.ofNat 16 reason, active := false, own := none, partner := none, tick := noTick } })
  settleReplies (logEvent s ltChange (changeBody 1 reason 0 (changeDigest s)))

/-- Reason of a refusal on this side: its own first failing row, 9 for digests that differ, 8 when only the partner failed
(R75). -/
def refusalReason (s : State) (differ : Bool) : Nat :=
  match s.cyc.change.own with
  | some o => if o.outcome ≠ 0 then o.outcome else if differ then 9 else 8
  | none => 8

/-- A decision of this change is on its way. -/
def changeDecided (s : State) : Bool :=
  s.cyc.change.tick != noTick || s.pair.seqs.any (fun i => match i.msg.body with
    | .activate _ | .refuseChange _ => true
    | .request _ | .recordStart _ _ _ => false)

/-- The activation tick is fixed (R75, 0x2218:05). -/
def scheduleChange (s : State) (tick : W64) : State :=
  s.modCyc (fun c => { c with change := { c.change with tick := tick } })

/-- First tick at which a task is due, at least 8 ticks from now (R75). -/
def activationTick (s : State) : W64 := BitVec.ofNat 64 (nextDue s (s.cyc.tick.toNat + 8) 4)

/-- The owning side decides once its own outcome, and that of a partner that runs, are known, and sequences what it decides (R75, R208);
while the partner is in CATCHUP it refuses with reason 8 (R215). While no side owns, the decision waits for an owner (R208). -/
def decideChange (s : State) : State :=
  if !s.cyc.change.active || changeDecided s || !(owns s || !isPaired s) then s
  else
    match s.cyc.change.own with
    | none => s
    | some o =>
      let catchup := isPaired s && s.pair.link && !s.pair.dead && s.pair.pCatchup
      let sched := fun (s : State) => let t := activationTick s; scheduleChange (sequenceOwn s (.activate t)) t
      if !partnerRuns s then (if o.outcome = 0 ∧ catchup = false then sched s else sequenceOwn s (.refuseChange false))
      else
        match s.cyc.change.partner with
        | none => s
        | some q =>
          if o.outcome = 0 ∧ q.outcome = 0 ∧ o.digest = q.digest then sched s
          else sequenceOwn s (.refuseChange (o.outcome == 0 && q.outcome == 0))

/-- An activation write applies at its boundary: the side checks its staged change, and a side that does not own reports its
outcome; a CHECK of the partner for this boundary may have come first, and counts (R75). -/
def startCheck (s : State) : State :=
  let r := checkChange s
  let d := changeDigest s
  let s := s.modCyc (fun c => { c with change := { c.change with
    state := if s.boot.sChange.state = 2 then 2 else c.change.state, tick := noTick, active := true,
    own := some ⟨r, d, c.cutTick⟩,
    partner := match c.change.partner with | some q => if q.tick = c.cutTick then some q else none | none => none } })
  if owns s || !isPaired s then decideChange s else mjSend s (.check s.cyc.cutTick r d)

/-- The outcome of a check that no decision has followed goes to a partner that has become the owning side (R75, R209). -/
def tellCheck (s : State) : State :=
  match s.cyc.change.own with
  | some o => if s.cyc.change.active && !changeDecided s then mjSend s (.check o.tick o.outcome o.digest) else s
  | none => s

/-- A point keeps its word across a change: TYPE, SCALE and SOURCE stand (R77). -/
def keepsWord (old new : List (Nat × PointDesc)) (p : Nat) : Bool :=
  match mget old p, mget new p with
  | some a, some b => a.typ == b.typ && a.scale == b.scale && a.source == b.source && a.source != srcUnused
  | _, _ => false

/-- Block state slots across a change: those of the stateful instances that keep their ID and opcode (R76). -/
def keptSlots (old new : List (List BlockInst)) (slots : List (Nat × W64)) : List (Nat × W64) :=
  new.flatten.foldl (fun m b =>
    match instOf old b.id with
    | none => m
    | some o =>
      if dOpcode o.word = dOpcode b.word ∧ statefulOp (dOpcode b.word) = true then
        (match mget slots (dSlot b.word) with | some v => mset m (dSlot b.word) v | none => m)
      else m) []

/-- A committed copy across a change: the words of points that change TYPE, SCALE or SOURCE and the state of instances that start
anew leave it, so that no restart brings them back (R45, R76, R77). -/
def RetCopy.across (c : RetCopy) (oldD newD : List (Nat × PointDesc)) (oldB newB : List (List BlockInst)) : RetCopy :=
  { c with points := c.points.filter (fun x => keepsWord oldD newD x.1), slots := keptSlots oldB newB c.slots }

/-- A force dropped at activation is logged with its point and the activation tick (R78). -/
def dropForce (s : State) (p : Nat) : State := logEvent s ltDropped (beBytes 3 p ++ beBytes 8 s.cyc.cutTick.toNat)

/-- The new program replaces the old one (R74–R78). -/
def applyChange (s : State) : State :=
  match s.boot.running, stagedChange s with
  | some r, some m =>
    let c := Config.changeOf m s.boot.sChange.img
    let old := s.img.descs
    let stays := fun (f : Force) => keepsWord old c.points f.point && (mgetD c.points f.point PointDesc.unused).forceable
    let gone := s.img.forces.filter (fun f => !stays f)
    let word := fun (i : Img) (p : Nat) (d : PointDesc) =>
      if keepsWord old c.points p then
        (if gone.any (fun f => f.point == p) then ownWord i p else mgetD i.points p TWord.unused)
      else match d.init with | some k => normWord d.typ (mgetD (storedConsts c.consts) k TWord.zero) | none => TWord.unused
    let pts := c.points.filterMap (fun x => if x.2.source = srcUnused then none else some (x.1, word s.img x.1 x.2))
    let slots := keptSlots r.pkg.blocks c.blocks s.img.slots
    let s := s.modImg (fun i => { i with
      descs := c.points, consts := storedConsts c.consts, points := pts, slots := slots, forces := i.forces.filter stays,
      copies := i.copies.map (fun x => (x.1, x.2.across old c.points r.pkg.blocks c.blocks)),
      published := i.published.filter (fun x => (mget c.points x.1).isSome) })
    let s := s.modBoot (fun b => { b with running := some { r with pkg := r.pkg.changed c, prog := m.digest } })
    let s := (gone.map (·.point)).foldl dropForce s
    let n := gone.length
    let s := s.modCyc (fun x => { x with change := { x.change with
      state := 3, dropped := BitVec.ofNat 16 n, active := false, own := none, partner := none } })
    settleReplies (raiseIrq (logEvent s ltChange (changeBody 0 0 n m.digest)) 12)
  | _, _ => s

/-- Step 1 of a boundary: an on-line change scheduled for this tick, or for one that was skipped (R72, R73). -/
def boundaryChange (s : State) : State :=
  let c := s.cyc.change
  if c.active && c.tick != noTick && decide (c.tick.toNat ≤ s.cyc.cutTick.toNat) then applyChange s else decideChange s

end Sys2Proof.Machine
end

