-- ==== Sys2Proof/Machine/Apply.lean ====
section
/-!
DEFINITION. What a written value must be and what a write does: ranges and conditions of every writable entry, the PAIR entries at their boundary, the RW entries, and the clearing writes (R46–R51, R274, R280, R295 and the entry tables of the chapters).
-/

namespace Sys2Proof.Machine

/-! ### Ranges and conditions -/

/-- A REAL32 that is neither NaN nor infinite (R274). -/
def finite32 (n : Nat) : Bool := let v := BitVec.ofNat 32 n; !isNan32 v && !isInf32 v

/-- A finite REAL32 within [lo, hi]. -/
def real32In (n : Nat) (lo hi : Q) : Bool := finite32 n && lo.le (f32q (BitVec.ofNat 32 n)) && (f32q (BitVec.ofNat 32 n)).le hi

/-- A finite REAL32 above zero. -/
def real32Pos (n : Nat) : Bool := finite32 n && (Q.mk' 0 1).lt (f32q (BitVec.ofNat 32 n))

/-- A number of a list of values. -/
def within3 (v lo hi : Nat) : Bool := decide (lo ≤ v ∧ v ≤ hi)

/-- Entries whose name says "write 1" (R274). -/
def writeOne (index sub : Nat) : Bool :=
  (match index, sub with
   | 0x2210, 4 | 0x2218, 4 | 0x2218, 8 | 0x1200, 0x11 | 0x1200, 0x16 | 0x1200, 0x26 | 0x1410, 0x0A | 0x1300, 0x1D
   | 0x1010, 0x0B | 0x1A00, 0x0D | 0x1A10, 9 | 0x1A20, 0x0E | 0x1A20, 0x0F | 0x1800, 3 | 0x1800, 9 | 0x1900, 8
   | 0x1700, 8 | 0x1700, 0x0A | 0x1701, 0x0B | 0x1702, 9 | 0x1100, 0x0D | 0x1600, 7 | 0x1B00, 5 | 0x1B00, 0x0A
   | 0x1B00, 0x0D | 0x1B00, 0x0E | 0x1B00, 0x10 => true
   | _, _ => false) ||
    (decide (0x1401 ≤ index ∧ index ≤ 0x1405) && sub == 0x0A) || ((index == 0x1501 || index == 0x1502) && sub == 0x18) ||
    (decide (0x2000 ≤ index ∧ index ≤ 0x207F) && sub == 0x21) ||
    (decide (0x2100 ≤ index ∧ index ≤ 0x211F) && (sub == 0x2F || sub == 0x3E)) ||
    (decide (0x3000 ≤ index ∧ index ≤ 0x33FF) && sub == 0x12) || (decide (0x3800 ≤ index ∧ index ≤ 0x3BFF) && sub % 16 == 7) ||
    (decide (0x1811 ≤ index ∧ index ≤ 0x1814) && sub == 0x0D)

/-- Range of a loop entry (R187). -/
def loopRange (s : State) (n sub v : Nat) : Bool :=
  let par := fun k => f32q (BitVec.ofNat 32 (loopPar s n k))
  let x := f32q (BitVec.ofNat 32 v)
  match sub with
  | 0x01 => decide (v ≤ 2)
  | 0x0E | 0x0F | 0x14 | 0x16 | 0x1A | 0x2C => decide (v ≤ 1)
  | 0x10 => finite32 v && x.lt (par 0x11)
  | 0x11 => finite32 v && (par 0x10).lt x
  | 0x13 => within3 v 1 65535
  | 0x1F | 0x27 => finite32 v && (Q.mk' 0 1).le x
  | 0x21 | 0x29 => real32In v (Q.mk' 0 1) (Q.mk' 1 4)
  | 0x22 | 0x2A => decide (v < (match loopCfg s n with | some c => c.cells | none => 256))
  | 0x30 => real32Pos v
  | 0x34 => finite32 v && decide (f32eq (BitVec.ofNat 32 v) (BitVec.ofNat 32 (loopPar s n 0x35)) = false)
  | 0x35 => finite32 v && decide (f32eq (BitVec.ofNat 32 v) (BitVec.ofNat 32 (loopPar s n 0x34)) = false)
  | _ => finite32 v

/-- Range of a channel entry (R163). -/
def chanRange (s : State) (n sub v : Nat) : Bool :=
  match sub with
  | 0x0E => decide (v ≤ 1)
  | 0x0F => decide (v < (match mget (pkgD s [] (·.channels)) n with | some c => max c.limitUs 1 | none => 1))
  | 0x13 => within3 v 1 50
  | _ => finite32 v

/-- Range of an entry of the ranges below 0x2000. -/
def lowRange (s : State) (index sub v : Nat) : Bool :=
  match index, sub with
  | 0x1100, 4 => within3 v 1 3
  | 0x1100, 5 => decide (v ≤ 1)
  | 0x1200, 0x10 => decide (v ≤ 60000)
  | 0x1300, 9 => [v / 4096 % 16, v / 256 % 16, v / 16 % 16, v % 16].all (fun p => decide (p ≤ 3))
  | 0x1300, 0x0E | 0x1300, 0x12 => decide (v ≤ 1)
  | 0x1300, 0x0F => within3 v 10 1000000
  | 0x1300, 0x10 => within3 v 1000 1000000
  | 0x1300, 0x11 => within3 v 1 64
  | 0x1300, 0x14 => decide (v ≤ 2)
  | 0x1700, 6 | 0x1700, 9 => decide (v ≤ 1)
  | 0x1900, 1 => within3 v 10 3600
  | 0x1A10, 1 => decide (v ≤ 1)
  | 0x1A10, 2 => within3 v 100 300000 && decide (v + setting s 0x1A10 3 20000 ≤ 1000 * setting s 0x1A10 4 600)
  | 0x1A10, 3 => within3 v 100 300000 && decide (v + setting s 0x1A10 2 10000 ≤ 1000 * setting s 0x1A10 4 600)
  | 0x1A10, 4 => within3 v 1 600 && decide (setting s 0x1A10 2 10000 + setting s 0x1A10 3 20000 ≤ 1000 * v)
  | 0x1B00, 1 => v == 1 || v == 3 || v == 4
  | 0x1501, 8 | 0x1502, 8 | 0x1501, 0x0B | 0x1502, 0x0B => decide (v ≤ 1)
  | 0x1501, 0x0A | 0x1502, 0x0A => within3 v 100 10000 && (v % 1000 == 0 || 1000 % v == 0)
  | 0x1600, 0x0D => removeOk v
  | _, _ =>
    if 0x1801 ≤ index ∧ index ≤ 0x1810 then (if sub = 7 then decide (v ≤ 1) else decide (v ≤ 255))
    else if 0x1811 ≤ index ∧ index ≤ 0x1814 then decide (v ≤ 2)
    else true

/-- A numeric value lies in the range that its entry's name states (R274). -/
def rangeOk (s : State) (index sub typ v : Nat) : Bool :=
  if writeOne index sub then v == 1
  else if typ = 1 ∧ 1 < v then false
  else if index < 0x2000 then lowRange s index sub v
  else if index ≤ 0x207F then chanRange s (index - 0x2000) sub v
  else if 0x2100 ≤ index ∧ index ≤ 0x211F then loopRange s (index - 0x2100) sub v
  else if index = 0x2200 then (if sub = 6 then within3 v 1 2 else decide (v ≤ 1))
  else if index = 0x2210 ∧ sub = 5 then decide (v ≤ 4095)
  else if 0x6000 ≤ index ∧ typ = 10 then finite32 v
  else true

/-- Point and VAL of a set-force request (R89). -/
def forcePoint (d : Bytes) : Nat := beNat (d.take 3)

/-- A set-force request is laid out as R89 gives: reserved bits are zero. Bit 17 of the reference names a constant (R7), which is
turned away for that and not for its layout (DEDUCED from R46 and code 0x0401, log entry 97). -/
def forceLaid (d : Bytes) : Bool := decide (forcePoint d < 262144) && (d.getD 3 0).toNat % 64 == 0

/-- Force sets that are sequenced on points not forced, each point once (R46). -/
def forcesPending (s : State) : List Nat :=
  (s.pair.seqs.filterMap (fun i => match i.msg.body with
    | .request r => if r.index = 0x2210 ∧ r.sub = 2 then some (forcePoint r.data) else none
    | .activate _ | .refuseChange _ | .recordStart _ _ _ => none)).foldl
      (fun l p => if l.contains p || (forceOn s.img p).isSome then l else l ++ [p]) []

/-- A set-force request against the program as it stands (R46, R73); `counted` asks for the limit. A constant has no point
descriptor, so that it is refused as an unused point is. -/
def forceCheck (s : State) (d : Bytes) (counted : Bool) : Nat :=
  let p := forcePoint d
  if !forceLaid d then 0x0204
  else if (descOf s.img p).source = srcUnused then 0x0401
  else if (descOf s.img p).forceable = false then 0x0402
  else if counted && (forceOn s.img p).isNone && !(forcesPending s).contains p &&
      decide (4096 ≤ s.img.forces.length + (forcesPending s).length) then 0x0403
  else 0

/-- A release-force request against the program as it stands (R46): a set that is still to apply counts as a force. -/
def releaseCheck (s : State) (p : Nat) (counted : Bool) : Nat :=
  if 131072 ≤ p ∨ (descOf s.img p).source = srcUnused then 0x0401
  else if (forceOn s.img p).isSome || (counted && (forcesPending s).contains p) then 0 else 0x0404

/-- The bank that a loop's engine uses, and the one that a commanded swap it has yet to take selects (R175, R176). -/
def busyBanks (s : State) (n : Nat) : List Nat :=
  let ahead := ((loopSt s n).wants.filter (fun w => w.2.1 == 0x1A)).getLast?
  let point := (match loopCfg s n with | some c => c.bankPoint.isSome | none => false)
  (loopSt s n).bank :: (match ahead with | some w => if point then [] else [w.2.2 % 2] | none => [])

/-- A loop coefficient of the active bank, which no write may change (R175); that of a bank about to become active counts as one
(DEDUCED from R73, log entry 100). -/
def activeCoeff (s : State) (index sub : Nat) : Bool :=
  if 0x2100 ≤ index ∧ index ≤ 0x211F ∧ 0x1C ≤ sub ∧ sub ≤ 0x2B then
    (busyBanks s (index - 0x2100)).contains ((sub - 0x1C) / 8)
  else false

/-- An entry that holds its value for one cycle (R211). -/
def operateOnce (s : State) (index sub : Nat) : Bool :=
  (index == 0x1A10 && sub == 9) || (index == 0x1B00 && sub == 0x10) || (pkgD s [] (·.operateOnce)).contains (index, sub)

/-- The owning side's conditions of a PAIR write, the value's range first (R46, R175, R215, R219, R295, R485, R492). -/
def pairCheck (s : State) (r : PairReq) : Nat :=
  let v := beNat r.data
  if r.index = 0x2210 ∧ r.sub = 2 then forceCheck s r.data true
  else if r.index = 0x2210 ∧ r.sub = 3 then releaseCheck s v true
  else if activeCoeff s r.index r.sub then 0x0202
  else if r.index = 0x1600 ∧ r.sub = 0x0C then (if wrappedOk s r.data then 0 else 0x0204)
  else if (typLen r.typ).isSome ∧ r.typ ≠ 12 ∧ rangeOk s r.index r.sub r.typ v = false then 0x0204
  else if r.index = 0x2218 ∧ r.sub = 4 then (if s.cyc.change.state = 1 then 0 else 0x0301)
  else if r.index = 0x1200 ∧ r.sub = 0x11 then (if s.pair.pMode = 7 ∧ partnerRuns s = true then 0 else 0x0301)
  else if r.index = 0x1B00 ∧ r.sub = 0x10 then (if s.boot.sPkg.state = 3 then 0 else 0x0301)
  else 0

/-! ### The PAIR entries at their boundary -/

/-- A dictionary point takes a written word: VAL, SUB and TST as written, the other tag bits clear (R51). -/
def writePoint (s : State) (p : Nat) (w : TWord) : State := produce s srcDict p { w with tag := w.tag &&& 0xD8 }

/-- A retained dictionary point written in STOP reaches its task's newest copy before the reply (R277, R298). -/
def keepPoint (s : State) (p : Nat) : State :=
  let d := descOf s.img p
  if s.ctl.mode ≠ .stop ∨ d.retain = false then s
  else
    match newestCopy s d.task with
    | none => s
    | some c =>
      s.modImg (fun i => { i with copies := i.copies.map (fun x =>
        if x.1 / 2 = d.task ∧ x.2 = c then (x.1, { c with points := mset c.points p (ownWord i p) }) else x) })

/-- The word of a value written to an application-named entry (R280). -/
def appWord (typ : Nat) (data : Bytes) : TWord :=
  if typ = 12 then ⟨data.getD 0 0, BitVec.ofNat 32 (beNat (data.drop 1))⟩ else ⟨0, BitVec.ofNat 32 (beNat data)⟩

/-- Task at whose next cycle an operate-once entry takes its default again; 4 for any task (R211). -/
def entryTask (s : State) (index sub : Nat) : Nat :=
  if 0x4000 ≤ index ∧ index ≤ 0x5FFF then (descOf s.img (windowPoint index sub)).task
  else if 0x6000 ≤ index ∧ index ≤ 0xEFFF then
    (match appEntry s index sub with | some a => (descOf s.img a.point).task | none => 4)
  else if 0x2000 ≤ index ∧ index ≤ 0x207F then
    (match mget (pkgD s [] (·.channels)) (index - 0x2000) with | some c => c.task | none => 4)
  else if 0x2100 ≤ index ∧ index ≤ 0x211F then
    (match mget (pkgD s [] (·.loops)) (index - 0x2100) with | some c => c.task | none => 4)
  else 4

/-- Owning task of a request: a force has that of its point (R89, R210, introduction of "Forcing"). -/
def reqTask (s : State) (r : PairReq) : Nat :=
  if r.index = 0x2210 ∧ r.sub = 2 then (descOf s.img (forcePoint r.data)).task
  else if r.index = 0x2210 ∧ r.sub = 3 then (descOf s.img (beNat r.data)).task
  else entryTask s r.index r.sub

/-- An operate-once entry is to take its default at a later boundary (R211). -/
def markRevert (s : State) (index sub : Nat) : State :=
  if operateOnce s index sub then
    s.modCyc (fun c => { c with revert := c.revert ++ [(entryKey index sub, entryTask s index sub)] })
  else s

/-- A kept value takes its new value; a loop entry of a running program reaches its engine at the cutoff, and recorder
settings close the blocks being filled (R176, R338). -/
def writeSetting (s : State) (index sub v : Nat) : State :=
  if 0x2100 ≤ index ∧ index ≤ 0x211F then
    let n := index - 0x2100
    let old := loopPar s n sub
    let s := if sub = 0x2F then s else putSetting s index sub v
    if s.ctl.mode = .stop then s else loopWrite s n sub old v
  else if index = 0x1A10 ∧ sub ≤ 4 ∧ setting s 0x1A10 sub (recDefault sub) ≠ v then putSetting (closeAll s) index sub v
  else putSetting s index sub v

/-- The force list is read as the last publication left it; between cycles a change of it shows at once (R13, R89). -/
def showForces (s : State) : State :=
  if s.cyc.phase = .slack then s.modImg (fun i => { i with pubForces := i.forces }) else s

/-- A sequenced or local PAIR write takes effect: its status, a condition that no longer holds giving the error, and the
state after it (R73, R210, R295, R298). -/
def applyPair (s : State) (r : PairReq) : Nat × State :=
  let v := beNat r.data
  if r.index = 0x2210 ∧ r.sub = 2 then
    let e := forceCheck s r.data false
    if e ≠ 0 then (e, s)
    else if (forceOn s.img (forcePoint r.data)).isNone ∧ 4096 ≤ s.img.forces.length then (0x0403, s)
    else (0, showForces
      (applyForce s (forcePoint r.data) ((r.data.getD 3 0).toNat / 64) (BitVec.ofNat 32 (beNat (r.data.drop 4)))))
  else if r.index = 0x2210 ∧ r.sub = 3 then
    let e := releaseCheck s v false
    if e ≠ 0 then (e, s) else (0, showForces (releaseForce s v))
  else if r.index = 0x2210 ∧ r.sub = 4 then (0, showForces (releaseAll s))
  else if 0x4000 ≤ r.index ∧ r.index ≤ 0x5FFF then
    let p := windowPoint r.index r.sub
    if (descOf s.img p).source ≠ srcDict then (0x0202, s)
    else (0, markRevert (keepPoint (writePoint s p (appWord 12 r.data)) p) r.index r.sub)
  else if 0x6000 ≤ r.index then
    (match appEntry s r.index r.sub with
     | none => (0x0201, s)
     | some a =>
       if (descOf s.img a.point).source ≠ srcDict then (0x0202, s)
       else (0, markRevert (keepPoint (writePoint s a.point (appWord a.typ r.data)) a.point) r.index r.sub))
  else
    if activeCoeff s r.index r.sub then (0x0202, s) else
    match r.index, r.sub with
    | 0x1100, 5 => (0, followTest (s.modCtl (fun c => { c with testWanted := v == 1 })))
    | 0x1200, 0x11 => (0, s.modPair (fun p => { p with handReq := true }))
    | 0x2218, 4 => if s.cyc.change.active then (0x0301, s) else (0, startCheck s)
    | 0x1A10, 9 => (0, markRevert (trigger (putSetting s 0x1A10 9 1) 0xFFFE) 0x1A10 9)
    | 0x1600, 9 => (0, putA1 s r.data)
    | 0x1600, 0x0C => (0, takeWrapped s r.data)
    | 0x1600, 0x0D => (0, removeRole s v)
    | 0x1B00, 5 => (0, confirmSettings s)
    | 0x1B00, 0x0E => (0, prepareSwitch s)
    | 0x1B00, 0x10 =>
      (0, markRevert ((putSetting s 0x1B00 0x10 1).modBoot (fun b => { b with switchAt := some s.cyc.cutTick })) 0x1B00 0x10)
    | _, _ =>
      if r.index = 0x1A10 ∧ lowRange s 0x1A10 r.sub v = false then (0x0204, s)
      else (0, markRevert (writeSetting s r.index r.sub v) r.index r.sub)

/-- One operate-once entry takes its default (R211). -/
def revertEntry (s : State) (key : Nat) : State :=
  let index := key / 256
  let sub := key % 256
  let back := fun (s : State) (p : Nat) =>
    if (descOf s.img p).source = srcDict then s.modImg (fun i => i.store p (initialWord s (descOf s.img p))) else s
  if 0x4000 ≤ index ∧ index ≤ 0x5FFF then back s (windowPoint index sub)
  else if 0x6000 ≤ index then
    (match appEntry s index sub with
     | some a => s.modImg (fun i => i.store a.point (appWord a.typ (beBytes (if a.typ = 12 then 5 else 4) a.dflt)))
     | none => s)
  else if (0x1A10 ≤ index ∧ index ≤ 0x1B00) then s.modDict (fun d => { d with settings := mdel d.settings key })
  else writeSetting s index sub (match findEntry s index sub with | some r => r.dflt | none => 0)

/-- The operate-once entries whose task is due take their defaults at this boundary (R211). -/
def boundaryRevert (s : State) : State :=
  let due := fun (x : Nat × Nat) => if x.2 < 4 then s.cyc.cutDue.getLsbD x.2 else s.cyc.cutDue != 0
  let now := s.cyc.revert.filter due
  let s := s.modCyc (fun c => { c with revert := c.revert.filter (fun x => !due x) })
  (now.map (·.1)).foldl revertEntry s

/-! ### Clearing writes -/

/-- The counters that a Clear entry names go to zero with their flags (R52, R89, R163, R187, R222, R242, R243, R244, R272,
R302, R327, R354, R381, R382, R452, R466). -/
def clearEntry (s : State) (index sub v : Nat) : State :=
  let z := Ctr.reset
  match index, sub with
  | 0x1010, 0x0B => s.modDict (fun d => { d with badTag := z, discarded := z, roleRef := z, served := z, canAborts := z, dmbDisc := z })
  | 0x1100, 0x0D => s.modCtl (fun c => { c with changes := z })
  | 0x1200, 0x26 => s.modPair (fun p => { p with
      nDead := z, nHandover := z, nMismatch := z, nDone := z, nFailed := z, nSuppTo := z, nSuppBy := z, nContent := z,
      nCrc := z, nLoss := z, nWithdraw := z, nWiring := z })
  | 0x1300, 0x1D => s.modTime (fun t => { t with
      forwarded := z, discarded := z, steps := z, masterChanges := z, holdovers := z, refLosses := z })
  | 0x1410, 0x0A => s.modNet (fun n => { n with dups := z, evictions := z, returning := z, toPair := z, wrongLan := z })
  | 0x1A00, 0x0D => s.modLog (fun l => { l with lost := z, bad := z })
  | 0x1A20, 0x0E => s.modDist (fun d => { d with truncated := z, discarded := z, deleted := z })
  | 0x1800, 9 => s.modField (fun f => { f with sags := z, latchOffs := z, trips := z, wdTrips := z })
  | 0x1900, 8 => s.modField (fun f => { f with injections := z, refFails := z })
  | 0x1701, 0x0B => s.modInteg (fun g => { g with
      cImage := z, cDesc := z, cTcm := z, cDram := z, cMram := z, cFlash := z, uRing := z, discards := z, lastUnit := 0 })
  | 0x1702, 9 => s.modInteg (fun g => { g with rotations := z, testFails := z, lockedHits := z, parity := z })
  | _, _ =>
    if 0x1401 ≤ index ∧ index ≤ 0x1405 ∧ sub = 0x0A then
      s.modNet (fun n => { n with ports := lupd n.ports (index - 0x1401) (fun p => { p with
        losses := z, rx := z, tx := z, fwd := z, fcs := z, disc := z }) })
    else if (index = 0x1501 ∨ index = 0x1502) ∧ sub = 0x18 then
      modCan s (index - 0x1501) (fun c => { c with busOffs := z, placed := z, lost := z, sent := z, wakes := z })
    else if 0x1811 ≤ index ∧ index ≤ 0x1814 ∧ sub = 0x0D then
      modL s (index - 0x1811) (fun l => { l with fullEntries := z, shortfalls := z })
    else if 0x2000 ≤ index ∧ index ≤ 0x207F ∧ sub = 0x21 then
      modChan s (index - 0x2000) (fun q => { q with
        nMissing := z, nLate := z, nReplaced := z, nSupplied := z, nMismatch := z, longest := 0 })
    else if 0x2100 ≤ index ∧ index ≤ 0x211F ∧ sub = 0x3E then
      modLoop s (index - 0x2100) (fun l => { l with nLate := z, nFrozen := z, nSwaps := z })
    else if 0x2201 ≤ index ∧ index ≤ 0x2204 ∧ sub = 0x0A ∧ v = 1 then
      s.modCyc (fun c => { c with tasks := lupd c.tasks (index - 0x2201) (fun t => { t with
        longestNs := 0, late := z, overruns := z, skipped := z }) })
    else if 0x3000 ≤ index ∧ index ≤ 0x33FF ∧ sub = 0x12 then modPub s (index - 0x3000) (fun p => { p with sent := z })
    else if 0x3800 ≤ index ∧ index ≤ 0x3BFF ∧ sub % 16 = 7 then
      modSub s (slotOf (index - 0x400) sub) (fun x => { x with nHeld := z, nDisc := z, nOld := z, shown := 0 })
    else s

/-- An entry whose write clears counters. -/
def isClear (index sub : Nat) : Bool :=
  (match index, sub with
   | 0x1010, 0x0B | 0x1100, 0x0D | 0x1200, 0x26 | 0x1300, 0x1D | 0x1410, 0x0A | 0x1A00, 0x0D | 0x1A20, 0x0E | 0x1800, 9
   | 0x1900, 8 | 0x1701, 0x0B | 0x1702, 9 => true
   | _, _ => false) ||
    (decide (0x1401 ≤ index ∧ index ≤ 0x1405) && sub == 0x0A) || ((index == 0x1501 || index == 0x1502) && sub == 0x18) ||
    (decide (0x2000 ≤ index ∧ index ≤ 0x207F) && sub == 0x21) || (decide (0x2100 ≤ index ∧ index ≤ 0x211F) && sub == 0x3E) ||
    (decide (0x2201 ≤ index ∧ index ≤ 0x2204) && sub == 0x0A) || (decide (0x3000 ≤ index ∧ index ≤ 0x33FF) && sub == 0x12) ||
    (decide (0x3800 ≤ index ∧ index ≤ 0x3BFF) && sub % 16 == 7) || (decide (0x1811 ≤ index ∧ index ≤ 0x1814) && sub == 0x0D)

/-! ### RW entries -/

/-- An RW entry written on the module that receives it (R294); a change of reference acts at once (R258). -/
def writeLocal (s : State) (index sub v : Nat) : State :=
  let s := putSetting s index sub v
  if index = 0x1300 ∧ sub = 0x12 then refSwitch s
  else if index = 0x1300 ∧ sub = 0x14 ∧ v = 0 then s.modTime (fun t => { t with ppsOut := false })
  else if (index = 0x1501 ∨ index = 0x1502) ∧ (sub = 8 ∨ sub = 0x0A) then bellAgain s (index - 0x1501)
  else s

end Sys2Proof.Machine
end

