-- ==== Sys2Proof/Machine/Serve.lean ====
section
/-!
DEFINITION. Serving a write: the checks of the side that holds the session, the commands, and the way of a PAIR write to its sequencing (R209–R211, R274–R276, R292–R298, R301, R459, R463).
-/

namespace Sys2Proof.Machine

/-! ### Commands -/

/-- A stop of the running module at the end of the release of its cycle, or at once in slack and in CATCHUP (R459). -/
def stopAtRelease (s : State) : State :=
  if s.ctl.mode.run then
    (if s.cyc.phase = .slack then enterStop s 0x000B else s.modCtl (fun c => { c with stopPending := some 0x000B }))
  else if s.ctl.mode = .catchup then enterStop s 0x000B
  else s

/-- A commanded stop stands (R459). -/
def commandStop (s : State) : State :=
  let s := s.modCtl (fun c => { c with commandedStop := true })
  if s.ctl.mode = .stop then
    let s := (lowerOwn s).modCtl (fun c => { c with stoppedAt := some s.time.raw })
    s.modPair (fun p => { p with aliveOut := false })
  else stopAtRelease s

/-- A commanded stop is lifted (R459). -/
def liftStop (s : State) : State := s.modCtl (fun c => { c with commandedStop := false })

/-- A restart through 0x2200:06: through STOP, without a reset and with no stop left standing (R85, R459). -/
def commandRestart (s : State) (cold : Bool) : State :=
  stopAtRelease (s.modCtl (fun c => { c with coldNext := c.coldNext || cold }))

/-- RETRY_CATCHUP: a side in CATCHUP begins phase 1 again, its failures forgotten (R215, 0x1200:16). -/
def retryCatchup (s : State) : State :=
  if s.ctl.mode = .catchup then beginPhase1 (s.modPair (fun p => { p with cFails := 0 })) else s

/-- The service unlock: a signature under an image key that is not revoked, over the string, the serial number and the
nonce; a new nonce follows every attempt (R281). -/
def unlockService (s : State) (sig : Bytes) : Nat × State :=
  let msg := ascii "GB7240 service" ++ s.ident.serial ++ s.dict.nonce
  let good := (List.range 4).any (fun k => !s.boot.revoked.getLsbD k && Config.verify128s (Config.imageKey k) msg sig)
  let d := draw s 32
  let s := d.2.modDict (fun x => { x with nonce := d.1, unlocked := x.unlocked || good })
  (if good then 0 else 0x0102, s)

/-- A write to a WO entry that is answered after its effect (R294): its status and the state after it. -/
def runCommand (s : State) (index sub v : Nat) (data : Bytes) : Nat × State :=
  match index, sub with
  | 0x1100, 4 => (0, if v = 1 then commandStop s else if v = 2 then liftStop s else s)
  | 0x1200, 0x16 => (0, retryCatchup s)
  | 0x1600, 7 => (0, raiseSvn s)
  | 0x1600, 0x0E => startReport s data none
  | 0x1700, 8 => (0, s.modInteg (fun g => { g with debugged := false }))
  | 0x1700, 0x0A => (0, s.modInteg (fun g => { g with latent := false, conflict := false }))
  | 0x1800, 3 => (0, s.modField (fun f => { f with dfault := false }))
  | 0x1A20, 0x0F => (0, deleteRecords s)
  | 0x1B00, 1 => beginStaging s v
  | 0x1B00, 0x0A => discardSlot s
  | 0x1B00, 0x0D => (0, s.modBoot (fun b => { b with runPrev := true }))
  | 0x2200, 6 => if s.ctl.mode = .dbg then (0x0301, s) else (0, commandRestart s (v == 2))
  | 0x2218, 8 => discardChange s
  | 0xF000, 2 => unlockService s data
  | _, _ => (0, clearEntry s index sub v)

/-- A write to a WO entry: life-cycle commands and a commanded reset are answered before the reset (R459, R464). -/
def serveCommand (s : State) (c : Client) (index sub typ : Nat) (data : Bytes) : State :=
  let v := beNat data
  let ans := fun (s : State) (st : Nat) => answerWrite s c index sub st 0 noTick
  if index = 0x1100 ∧ sub = 7 then
    let e := lifeCheck s v
    if e ≠ 0 then ans s e else resetModule (ans (lifeCommand s v) 0) 2
  else if (typLen typ).isSome ∧ rangeOk s index sub typ v = false then ans s 0x0204
  else if index = 0x1100 ∧ sub = 4 ∧ v = 3 then resetModule (ans s 0) 2
  else
    let r := runCommand s index sub v data
    ans r.2 r.1

/-! ### PAIR writes -/

/-- Writes that act only on a running program or a running pair (R298). -/
def runningOnly (index sub : Nat) : Bool :=
  (index == 0x2218 && sub == 4) || (index == 0x1200 && sub == 0x11) || (index == 0x1A10 && sub == 9) ||
    (index == 0x1B00 && sub == 0x10)

/-- Accepted writes that are still remembered (R211, R296). -/
def liveRepeats (s : State) : List Repeat := s.pair.repeats.filter (fun r => decide (elapsed s r.atRaw < rSec 10))

/-- The accepted write that a request repeats: same role and request identifier (R296). -/
def repeatOf (s : State) (r : PairReq) : Option Repeat :=
  (liveRepeats s).find? (fun x => match x.msg.body with
    | .request q => q.role == r.role && q.reqid == r.reqid
    | .activate _ | .refuseChange _ | .recordStart _ _ _ => false)

/-- An accepted write is remembered for 10 s with its outcome to come. -/
def remember (s : State) (m : WriteMsg) : State :=
  s.modPair (fun p => { p with repeats := liveRepeats s ++ [⟨m, none, s.time.raw, []⟩] })

/-- A repeat on this side gets the first outcome, or waits for it (R296). -/
def answerRepeat (s : State) (x : Repeat) (f : FwdReq) : State :=
  match x.outcome with
  | some o => answerFwd s f o.1.toNat x.msg.wsn o.2
  | none =>
    s.modPair (fun p => { p with repeats := p.repeats.map (fun y => if y.msg.wsn = x.msg.wsn then { y with waits := y.waits ++ [f] } else y) })

/-- A second operate-once write for one boundary (R211). -/
def onceBusy (s : State) (r : PairReq) : Bool :=
  let t := targetTick s 150 (reqTask s r)
  operateOnce s r.index r.sub && s.pair.seqs.any (fun i => match i.msg.body with
    | .request q => q.index == r.index && q.sub == r.sub && i.msg.target == t
    | .activate _ | .refuseChange _ | .recordStart _ _ _ => false)

/-- The owning side's answer to a request it does not accept, 0 where it accepts it (R210, R211, R295). -/
def ownerRefuses (s : State) (r : PairReq) : Nat :=
  let e := pairCheck s r
  if e ≠ 0 then e else if onceBusy s r then 0x0302 else 0

/-- The owning side sequences a request of its own session (R210, R296). -/
def ownerTake (s : State) (f : FwdReq) : State :=
  match repeatOf s f.req with
  | some x => answerRepeat s x f
  | none =>
    let e := ownerRefuses s f.req
    if e ≠ 0 then answerFwd s f e 0 noTick
    else
      let n := s.pair.nextWsn
      let t := targetTick s 150 (reqTask s f.req)
      let m : WriteMsg := ⟨n, t, s.pins.sideB, f.fwd, .request f.req⟩
      sequence (remember s m) (.request f.req) (reqTask s f.req) s.pins.sideB f.fwd true f.sid f.via f.ctr

/-- The side queues a request while no side owns, or refuses it as busy (R209). -/
def queueReq (s : State) (f : FwdReq) : State :=
  if 256 ≤ s.pair.queue.length then answerFwd s f 0x0302 0 noTick
  else s.modPair (fun p => { p with queue := p.queue ++ [f] })

/-- A request forwarded to the owning partner (R210). -/
def forwardReq (s : State) (f : FwdReq) : State :=
  let n := s.pair.nextFwd
  let f := { f with fwd := n }
  mjSend (s.modPair (fun p => { p with nextFwd := p.nextFwd + 1, forwarded := p.forwarded ++ [f] })) (.forward n f.req)

/-- A PAIR write that has passed the checks of the side holding the session (R209, R210, R282, R295, R298). -/
def servePair (s : State) (c : Client) (r : PairReq) : State :=
  let f : FwdReq := ⟨0, r, c.sid, c.via, c.ctr⟩
  let ans := fun (s : State) (st : Nat) => answerFwd s f st 0 noTick
  if s.ctl.mode = .stop then
    if runningOnly r.index r.sub then ans s 0x0301
    else
      let e := pairCheck s r
      if e ≠ 0 then ans s e
      else
        let a := applyPair s r
        ans a.2 a.1
  else if !s.ctl.mode.run then ans s 0x0301
  else if owns s || !isPaired s then ownerTake s f
  else if s.pair.noOwner || s.pair.dead || !s.pair.link then queueReq s f
  else forwardReq s f

/-! ### A whole value written -/

/-- Length that an OCTETS entry asks of its value (R274). -/
def octetsFit (index sub len : Nat) : Bool :=
  match index, sub with
  | 0x2210, 2 => len == 8
  | 0x1600, 9 => len == 0 || len == 32
  | 0x1600, 0x0C => len == 68
  | 0x1600, 0x0E => len == 32
  | 0xF000, 2 => len == 7856
  | _, _ => decide (len ≤ 65535)

/-- The checks of the side that holds the session, in order: entry, mode, role, access, CAN and type (R274–R276, R279,
R282, R295, R301): the first error, or 0 with the entry. -/
def writeCheck (s : State) (c : Client) (index sub typ len : Nat) : Nat × Option EntryRow :=
  if vendorRefused s index sub true then (0x0102, none)
  else
    match findEntry s index sub with
    | none => (0x0201, none)
    | some r =>
      let canBad := match c.via with
        | .can _ => !(pkgD s [] (·.canWritable)).contains (index, sub)
        | .port _ | .mailbox _ => false
      let lenOk := match typLen r.typ with | some n => len == n | none => octetsFit index sub len
      if s.ctl.mode = .bootwait ∧ bootEntry s index sub = false then (0x0301, none)
      else if roleAllows c.role r.role true = false ∧ index < 0xF000 then (0x0102, none)
      else if r.access = .ro ∨ r.access = .const then (0x0202, none)
      else if canBad then (0x0205, none)
      else if typ ≠ r.typ ∨ lenOk = false then (0x0203, none)
      else (0, some r)

/-- A whole value written to an entry (R294, R295). -/
def serveWrite (s : State) (c : Client) (index sub typ : Nat) (data : Bytes) : State :=
  match writeCheck s c index sub typ data.length with
  | (e, none) => answerWrite s c index sub e 0 noTick
  | (_, some r) =>
    match r.access with
    | .pair => servePair s c ⟨c.role, c.reqid, index, sub, typ, data⟩
    | .wo => serveCommand s c index sub typ data
    | .rw =>
      if rangeOk s index sub typ (beNat data) then
        answerWrite (writeLocal s index sub (beNat data)) c index sub 0 0 noTick
      else answerWrite s c index sub 0x0204 0 noTick
    | .ro | .const => s

/-- A stream entry, whose pieces are written directly (R292, R480). -/
def isStream (index sub : Nat) : Bool := index == 0x1B00 && (sub == 3 || sub == 4)

/-- A piece of a stream entry (R292, R480). -/
def serveStream (s : State) (c : Client) (sub typ off : Nat) (data : Bytes) : State :=
  match writeCheck s c 0x1B00 sub typ data.length with
  | (e, none) => answerWrite s c 0x1B00 sub e 0 noTick
  | (_, some _) =>
    let r := streamWrite s (sub == 4) off data
    answerWrite r.2 c 0x1B00 sub r.1 0 noTick

/-- Role of a core pair's mailbox, which the package gives (R304). -/
def mailboxRole (s : State) : Cp → Nat
  | .n0 => pkgD s 0 (·.roleN0)
  | .n1 => pkgD s 0 (·.roleN1)

/-- The client stands in the role it acts in: its session's, or its mailbox's (R282, R299, R304). -/
def knownClient (s : State) (c : Client) : Bool :=
  match c.via with
  | .mailbox k => c.role == mailboxRole s k
  | .port _ | .can _ => (match findSession s c.sid with | some x => x.role == c.role | none => false)

/-- A write of one row of the table: served where the dictionary is, to a client whose session stands (R282, R299). -/
def rowWrite (s : State) (c : Client) (index sub typ : Nat) (data : Bytes) : State :=
  if !dictServed s c.via then s
  else if !knownClient s c then dictOut s c.via (dictMsg none mtError 0 0 c.reqid (beBytes 2 0x0101 ++ [0, 0]))
  else serveWrite s c index sub typ data

end Sys2Proof.Machine
end

