-- ==== Sys2Proof/Machine/Dict.lean ====
section
/-!
DEFINITION. The steps of the dictionary service: sessions, reads, writes, transfers over CAN and the mailboxes (R281–R306).
-/

namespace Sys2Proof.Machine

/-! ### Sessions -/

/-- A session identifier that is not zero and not in use, drawn from the TRNG, at most `n` draws. -/
def drawSid : Nat → State → Option W32 × State
  | 0, s => (none, s)
  | n + 1, s =>
    let d := draw s 4
    let v := BitVec.ofNat 32 (beNat d.1)
    if v = 0 ∨ (findSession d.2 v).isSome = true then drawSid n d.2 else (some v, d.2)

/-- An error outside a session. -/
def strangerError (s : State) (h : MsgHdr) (status : Nat) : State := answerError s h.stranger status

/-- Sessions over CAN. -/
def canSessions (s : State) : Nat :=
  (s.dict.sessions.filter (fun x => match x.via with | .can _ => true | .port _ | .mailbox _ => false)).length

/-- A session would exceed the module's 16, or the 2 that run over CAN (R285, R300). -/
def sessionsFull (s : State) (via : Via) : Bool :=
  decide (16 ≤ s.dict.sessions.length) ||
    (match via with | .can _ => decide (2 ≤ canSessions s) | .port _ | .mailbox _ => false)

/-- OPEN: a session ID and a nonce are drawn, the session key derived, and CHALLENGE sent (R285). -/
def serveOpen (s : State) (h : MsgHdr) (body : Bytes) : State :=
  let role := (body.getD 0 0).toNat
  let num := (body.getD 1 0).toNat
  if body.length ≠ 20 then strangerError s h 0x0502
  else
    match (if role < 4 ∧ num < 4 then roleKey s.boot.roles role num else none) with
    | none => strangerError s h 0x0104
    | some k =>
      if sessionsFull s h.via then strangerError s h 0x0103
      else
        let r := drawSid 8 s
        match r.1 with
        | none => r.2
        | some sid =>
          let d := draw r.2 16
          let s := d.2
          let addr : W16 := if (pkgOf s).isSome then herdAddr s else 0xFFFF
          let ks := hmac k (slice body 4 16 ++ d.1 ++ beBytes 4 sid.toNat ++ beBytes 2 addr.toNat ++ [BitVec.ofNat 8 role])
          let x : Session := ⟨sid, role, num, ks, h.via, false, s.time.raw, s.time.raw, 0, 0, 0, none, false, [], none⟩
          let s := s.modDict (fun e => { e with sessions := e.sessions ++ [x] })
          let s := logSec s 0 role sid
          dictOut s h.via (dictMsg (some ks) mtChallenge sid 0 h.reqid (d.1 ++ beBytes 2 addr.toNat ++ beBytes 6 (moduleMac s).toNat))

/-- A session closed and logged (R287). -/
def closeSession (s : State) (sid : W32) : State :=
  match findSession s sid with
  | none => s
  | some x => logSec (endSession s sid) 1 x.role sid

/-- A message inside a session: what becomes of it when it is accepted (R286, R299). -/
def inSession (s : State) (h : MsgHdr) (type : Nat) (body : Bytes) (f : Client → State → State) : State :=
  match receive s h type body with
  | .unknown => strangerError s h 0x0101
  | .ended s => s
  | .accepted c s => f c s

/-- CLOSE (R287). -/
def serveClose (s : State) (h : MsgHdr) : State :=
  if h.sid = 0 then strangerError s h 0x0101 else inSession s h mtClose [] (fun _ s => closeSession s h.sid)

/-! ### Reads -/

/-- Body of READ as it was received (table "Message types"): `rsv` holds its reserved bytes in order, the header's first; they
are ignored, but the tag covers them (R6, R286). -/
def readBody (items : List ReadItem) (rsv : Bytes) : Bytes :=
  [BitVec.ofNat 8 items.length, rsv.getD 0 0] ++
    items.zipIdx.flatMap (fun i =>
      beBytes 2 i.1.index ++ [BitVec.ofNat 8 i.1.sub, rsv.getD (i.2 + 1) 0] ++ beBytes 4 i.1.offset)

/-- Entries served outside a session (R284). -/
def unauthentic (s : State) (index sub : Nat) : Bool :=
  decide (0x1000 ≤ index ∧ index ≤ 0x100F) || (index == 0x1600 && decide (1 ≤ sub ∧ sub ≤ 4)) ||
    (vendorOpen s && index == 0xF000 && sub == 1)

/-- One item as READ asks for it, by a role or by no session; in DECOMMISSIONED the service entries are asked for without one
(R281, R284, R291). -/
def itemFor (s : State) (role : Option Nat) (i : ReadItem) : Nat × Nat × Bytes :=
  match role with
  | some r => readItem s r i.index i.sub
  | none =>
    if unauthentic s i.index i.sub || (vendorOpen s && decide (0xF000 ≤ i.index)) then readItem s 0 i.index i.sub
    else (0x0101, 0, [])

/-- One item of READRESP with at most `space` bytes of data (R291). -/
def respItem (i : ReadItem) (x : Nat × Nat × Bytes) (space : Nat) : Bytes :=
  let data := if x.1 = 0 then (x.2.2.drop i.offset).take space else []
  let total := if x.1 = 0 then x.2.2.length else 0
  beBytes 2 i.index ++ [BitVec.ofNat 8 i.sub, BitVec.ofNat 8 x.2.1] ++ beBytes 2 x.1 ++ beBytes 4 total ++
    beBytes 2 data.length ++ data

/-- The items of READRESP in request order within the space of the message (R291). -/
def respItems (s : State) (role : Option Nat) : List ReadItem → Nat → Bytes
  | [], _ => []
  | i :: t, space =>
    let b := respItem i (itemFor s role i) space
    b ++ respItems s role t (space - (b.length - 12))

/-- Body of READRESP. -/
def respBody (s : State) (role : Option Nat) (via : Via) (items : List ReadItem) : Bytes :=
  [BitVec.ofNat 8 items.length, 0] ++ respItems s role items (bodyLimit via - 2 - 12 * items.length)

/-- Items refused for their role are counted one by one (0x1010:06). -/
def countItems (s : State) (role : Option Nat) (items : List ReadItem) : State :=
  items.foldl (fun t i => if (itemFor s role i).1 = 0x0102 then countStatus t 0x0102 else t) s

/-- READ, inside or outside a session; `body` is its body as received (R284, R291, R293, R302). -/
def serveRead (s : State) (h : MsgHdr) (items : List ReadItem) (body : Bytes) : State :=
  let bad := items.isEmpty || decide (32 < items.length)
  let done := fun (s : State) (c : Client) (role : Option Nat) =>
    if bad then answerError s c 0x0502
    else answerClient (countStatus (countItems s role items) 0) c mtReadResp (respBody s role h.via items)
  if h.sid = 0 then done s h.stranger none
  else inSession s h mtRead body (fun c s => done s c (some c.role))

/-! ### Writes -/

/-- Body of WRITE as it was received (table "Message types"): `rsv` holds flag bits 7:1 in its first byte and the three
reserved bytes after it (R6, R286). -/
def writeBody (w : WritePiece) (rsv : Bytes) : Bytes :=
  beBytes 2 w.index ++ [BitVec.ofNat 8 w.sub, BitVec.ofNat 8 w.typ, (rsv.getD 0 0 &&& 0xFE) ||| BitVec.ofNat 8 (b2n w.more),
    rsv.getD 1 0, rsv.getD 2 0, rsv.getD 3 0] ++ beBytes 4 w.offset ++ beBytes 2 w.data.length ++ w.data

/-- A piece collected: the buffer with it, or none where it leaves a gap or overflows (R292). -/
def collect (buf : Bytes) (same : Bool) (w : WritePiece) : Option Bytes :=
  let b := if w.offset = 0 then [] else if same then buf else []
  if w.offset = b.length ∧ b.length + w.data.length ≤ 65535 then some (b ++ w.data) else none

/-- WRITE inside a session: a stream piece, a piece that is collected, or a whole value (R292). -/
def sessionWrite (s : State) (c : Client) (w : WritePiece) : State :=
  let x := (findSession s c.sid).map (fun x => (x.buf, x.bufReq == some c.reqid))
  let b := x.getD ([], false)
  let put := fun (s : State) (d : Bytes) (r : Option W64) => modSession s c.sid (fun y => { y with buf := d, bufReq := r })
  if bodyLimit c.via < 14 + w.data.length then answerError s c 0x0501
  else if isStream w.index w.sub then serveStream s c w.sub w.typ w.offset w.data
  else
    match collect b.1 b.2 w with
    | none => answerWrite (put s [] none) c w.index w.sub 0x0206 0 noTick
    | some d =>
      if w.more then answerWrite (put s d (some c.reqid)) c w.index w.sub 0 0 noTick
      else serveWrite (put s [] none) c w.index w.sub w.typ d

/-- A write without a session: a piece of the service unlock, another service entry, or one that needs a session (R281,
R284, R292). -/
def strangerWrite (s : State) (h : MsgHdr) (w : WritePiece) : State :=
  let c := h.stranger
  let put := fun (s : State) (b : Bytes) (r : Option W64) => s.modDict (fun d => { d with unlockBuf := b, unlockReq := r })
  if !vendorOpen s || decide (w.index < 0xF000) then strangerError s h 0x0101
  else if bodyLimit h.via < 14 + w.data.length then strangerError s h 0x0501
  else if w.index != 0xF000 || w.sub != 2 then serveWrite s c w.index w.sub w.typ w.data
  else
    match collect s.dict.unlockBuf (s.dict.unlockReq == some h.reqid) w with
    | none => answerWrite (put s [] none) c w.index w.sub 0x0206 0 noTick
    | some d =>
      if w.more then answerWrite (put s d (some h.reqid)) c w.index w.sub 0 0 noTick
      else serveWrite (put s [] none) c w.index w.sub w.typ d

/-- WRITE; `body` is its body as received (R284, R286, R292). -/
def serveWriteMsg (s : State) (h : MsgHdr) (w : WritePiece) (body : Bytes) : State :=
  if h.sid = 0 then strangerWrite s h w else inSession s h mtWrite body (fun c s => sessionWrite s c w)

/-- A message of unknown type, or whose body does not match its layout (R284, R290). -/
def serveMalformed (s : State) (h : MsgHdr) (type : Nat) (body : Bytes) : State :=
  let e := if bodyLimit h.via < body.length then 0x0501 else 0x0502
  if h.sid = 0 then strangerError s h (if type = mtOpen ∨ type = mtRead then e else 0x0101)
  else inSession s h type body (fun c s => answerError s c e)

/-! ### A message as bytes -/

/-- Items of READ from a body. -/
def parseItems (b : Bytes) : List ReadItem :=
  (List.range (b.getD 0 0).toNat).map (fun i =>
    let x := slice b (2 + 8 * i) 8
    ⟨beNat (x.take 2), (x.getD 2 0).toNat, beNat (x.drop 4)⟩)

/-- WRITE from a body. -/
def parseWrite (b : Bytes) : WritePiece :=
  ⟨beNat (b.take 2), (b.getD 2 0).toNat, (b.getD 3 0).toNat, (b.getD 4 0).getLsbD 0, beNat (slice b 8 4), b.drop 14⟩

/-- A whole message served by its type; another version, or a length that is not the message's, is discarded (R289, R290). -/
def dictMessage (s : State) (via : Via) (m : Bytes) : State :=
  let type := (m.getD 1 0).toNat
  let len := beNat (slice m 2 2)
  let sid := BitVec.ofNat 32 (beNat (slice m 4 4))
  let body := slice m 20 len
  let h : MsgHdr := ⟨via, sid, BitVec.ofNat 32 (beNat (slice m 8 4)), BitVec.ofNat 64 (beNat (slice m 12 8)), m.drop (20 + len)⟩
  if m.getD 0 0 ≠ 1 ∨ !dictServed s via then s
  else if body.length ≠ len ∨ m.length < 20 then serveMalformed s h type body
  else if type = mtOpen ∧ sid = 0 then serveOpen s h body
  else if type = mtClose ∧ len = 0 then serveClose s h
  else if type = mtRead ∧ 2 ≤ len ∧ len = 2 + 8 * (body.getD 0 0).toNat then serveRead s h (parseItems body) body
  else if type = mtWrite ∧ 14 ≤ len ∧ len = 14 + beNat (slice body 12 2) then serveWriteMsg s h (parseWrite body) body
  else serveMalformed s h type body

/-! ### Steps of the service -/

/-- SESSION_OPEN (R285). -/
def execSessionOpen (h : MsgHdr) (body : Bytes) (s : State) : Res :=
  if !dictServed s h.via then .next s
  else if h.sid = 0 then .next (serveOpen s h body)
  else .next (serveMalformed s h mtOpen body)

/-- SESSION_SETUP_TIMEOUT: a session not established within 5 s is discarded (R285). -/
def execSessionSetupTimeout (sid : W32) (s : State) : Res :=
  match findSession s sid with
  | none => .next s
  | some x => if !x.established && past s (some x.openedAt) (rSec 5) then .next (endSession s sid) else .next s

/-- SESSION_IDLE_TIMEOUT: no message from the client for 60 s ends the session (R287). -/
def execSessionIdleTimeout (sid : W32) (s : State) : Res :=
  match findSession s sid with
  | none => .next s
  | some x => if x.established && past s (some x.lastAt) (rSec 60) then .next (closeSession s sid) else .next s

/-- SESSION_CLOSE (R287). -/
def execSessionClose (h : MsgHdr) (s : State) : Res :=
  if dictServed s h.via then .next (serveClose s h) else .next s

/-- DICT_READ; `rsv` are the reserved bytes of the message in order of appearance (R6, R291, R293). -/
def execDictRead (h : MsgHdr) (items : List ReadItem) (s : State) (rsv : Bytes := []) : Res :=
  if dictServed s h.via then .next (serveRead s h items (readBody items rsv)) else .next s

/-- DICT_WRITE; `rsv` are flag bits 7:1 and the reserved bytes of the message (R6, R292, R294, R295). -/
def execDictWrite (h : MsgHdr) (w : WritePiece) (s : State) (rsv : Bytes := []) : Res :=
  if dictServed s h.via then .next (serveWriteMsg s h w (writeBody w rsv)) else .next s

/-- DICT_MALFORMED (R284, R290). -/
def execDictMalformed (h : MsgHdr) (type : Nat) (body : Bytes) (s : State) : Res :=
  if dictServed s h.via then .next (serveMalformed s h type body) else .next s

/-- SERVICE_UNLOCK: the whole signature has been written to 0xF000:02 (R281). -/
def execServiceUnlock (c : Client) (data : Bytes) (s : State) : Res :=
  if !dictServed s c.via then .next s
  else if vendorOpen s then .next (serveWrite s { c with sid := 0 } 0xF000 2 15 data)
  else .next (answerError s { c with sid := 0 } 0x0101)

/-! ### Transfers over CAN -/

/-- A transfer being received is given up and counted (0x1010:08). -/
def abortRx (s : State) (n : Nat) : State :=
  if (canOf s n).rx.isNone then s
  else (modCan s n (fun c => { c with rx := none })).modDict (fun d => { d with canAborts := d.canAborts.inc })

/-- A transfer being sent is given up and counted (0x1010:08). -/
def abortTx (s : State) (n : Nat) : State :=
  if (canOf s n).tx.isNone then s
  else tpTurn ((modCan s n (fun c => { c with tx := none })).modDict (fun d => { d with canAborts := d.canAborts.inc })) n

/-- Flow control that the module sends: clear to send, block size 16, STmin 0, in slot 30 (R300, R315). -/
def sendFlow (s : State) (n : Nat) : State := if noResponse s n then s else putSlot s n 30 (tpFrame s n [0x30, 0x10, 0x00])

/-- A single frame. -/
def tpSingle (s : State) (n : Nat) (d : Bytes) : State :=
  let b0 := (d.getD 0 0).toNat
  let m := if b0 = 0 then (d.drop 2).take (d.getD 1 0).toNat else (d.drop 1).take b0
  let len := if b0 = 0 then (d.getD 1 0).toNat else b0
  if len = 0 ∨ m.length ≠ len then s else dictMessage (abortRx s n) (.can n) m

/-- Shortest message that a first frame of so many bytes may announce: one that no single frame of that size holds
(ISO 15765-2, log entry 21). -/
def tpLeast (n : Nat) : Nat := if n ≤ 8 then n else n - 1

/-- A first frame: at most 4,095 bytes, no length escape (R300). -/
def tpFirst (s : State) (n : Nat) (d : Bytes) : State :=
  let total := (d.getD 0 0).toNat % 16 * 256 + (d.getD 1 0).toNat
  if d.length < 8 ∨ total < tpLeast d.length then s
  else sendFlow (modCan (abortRx s n) n (fun c => { c with rx := some ⟨total, d.drop 2, 1, 0, s.time.raw⟩ })) n

/-- A consecutive frame; one out of order ends the transfer (ISO 15765-2). -/
def tpConsec (s : State) (n : Nat) (d : Bytes) : State :=
  match (canOf s n).rx with
  | none => s
  | some r =>
    if (d.getD 0 0).toNat % 16 ≠ r.sn then abortRx s n
    else
      let data := (r.data ++ d.drop 1).take r.total
      if data.length = r.total then dictMessage (modCan s n (fun c => { c with rx := none })) (.can n) data
      else
        let r' : TpRx := { r with data := data, sn := (r.sn + 1) % 16, block := (r.block + 1) % 16, atRaw := s.time.raw }
        let s := modCan s n (fun c => { c with rx := some r' })
        if r'.block = 0 then sendFlow s n else s

/-- STmin of a flow control in RAW units: 0 to 127 ms, or 100 to 900 µs; any other code counts as 127 ms (ISO 15765-2, log
entry 21). -/
def stMin (b : Byte) : Nat :=
  if b.toNat ≤ 0x7F then rMs b.toNat
  else if 0xF1 ≤ b.toNat ∧ b.toNat ≤ 0xF9 then rUs (100 * (b.toNat - 0xF0))
  else rMs 127

/-- The client's flow control: its block size and its STmin are kept (R300). -/
def tpFlow (s : State) (n : Nat) (d : Bytes) : State :=
  match (canOf s n).tx with
  | none => s
  | some t =>
    let bs := (d.getD 1 0).toNat
    match (d.getD 0 0).toNat % 16 with
    | 0 =>
      if !t.waiting then s
      else
        let t := { t with credit := if bs = 0 then none else some bs, waiting := false, gap := stMin (d.getD 2 0) }
        tpConsecOut s n t
    | 1 => if t.waiting then modCan s n (fun c => { c with tx := some { t with atRaw := s.time.raw } }) else s
    | _ => if t.waiting then abortTx s n else s

/-- CAN_TP_FRAME: a frame under the request identifier of a controller (R300). -/
def execCanTpFrame (n : Nat) (f : CanFrame) (s : State) : Res :=
  if 2 ≤ n ∨ !idMatches (canCfg s n).reqId f ∨ !dictServed s (.can n) then .next s
  else
    match (f.data.getD 0 0).toNat / 16 with
    | 0 => .next (tpSingle s n f.data)
    | 1 => .next (tpFirst s n f.data)
    | 2 => .next (tpConsec s n f.data)
    | 3 => .next (tpFlow s n f.data)
    | _ => .next s

/-- CAN_TP_TIMEOUT: N_Bs or N_Cr of 1,000 ms has run, or the client's STmin has passed and the consecutive frame that waited for
it goes out (R300, log entry 108). -/
def execCanTpTimeout (n : Nat) (s : State) : Res :=
  if 2 ≤ n then .next s
  else
    let c := canOf s n
    let s := match c.rx with | some r => if past s (some r.atRaw) (rMs 1000) then abortRx s n else s | none => s
    let s := match c.tx with | some t => if t.waiting && past s (some t.atRaw) (rMs 1000) then abortTx s n else s | none => s
    match (canOf s n).tx with
    | some t => if t.paced && past s (some t.atRaw) t.gap then .next (tpConsecOut s n t) else .next s
    | none => .next s

/-! ### The mailboxes -/

/-- The client a mailbox stands for: its role, and the request identifier of R305. -/
def dmbClient (s : State) (c : Cp) : Client :=
  let tag := (cpOf s c).dmb.tag
  ⟨.mailbox c, 0, 0, BitVec.ofNat 64 (0xD0 * 2 ^ 56 + c.num * 2 ^ 48 + tag.toNat),
   mailboxRole s c⟩

/-- A mailbox changed. -/
def modDmb (s : State) (c : Cp) (f : Dmb → Dmb) : State := modCp s c (fun p => { p with dmb := f p.dmb })

/-- A discarded mailbox access of a core pair that runs an NCALL (R306). -/
def dmbDiscard (s : State) : State := s.modDict (fun d => { d with dmbDisc := d.dmbDisc.inc })

/-- The request of a mailbox is served as a session's would be (R304). -/
def dmbServe (s : State) (c : Cp) : State :=
  let d := (cpOf s c).dmb
  let cl := dmbClient s c
  let index := d.index.toNat
  let sub := d.sub.toNat
  let off := d.offset.toNat
  let data := bytesAt d.data 0 d.len.toNat
  if d.op.toNat ≥ 2 ∨ 1024 < d.len.toNat then dmbReady s c 0x0502 [] false noTick
  else if d.op = 0 then
    let r := readItem s cl.role index sub
    let s := countStatus s r.1
    let more := decide (off + 1024 < r.2.2.length)
    dmbReady s c r.1 (if r.1 = 0 then (r.2.2.drop off).take 1024 else []) (r.1 == 0 && more) noTick
  else if isStream index sub then serveStream s cl sub d.typ.toNat off data
  else if off ≠ 0 then answerWrite s cl index sub 0x0206 0 noTick
  else serveWrite s cl index sub d.typ.toNat data

/-- DMB_DONE: the answer is written and DONE sets (R304). -/
def execDmbDone (c : Cp) (s : State) : Res :=
  if !clocksRun s then .next s else
  match (cpOf s c).dmb.answer with
  | none => .next s
  | some (status, data, more, tick) =>
    .next (modDmb s c (fun d => { d with
      busy := false, done := true, err := status != 0, result := BitVec.ofNat 16 status, rlen := data.length, more := more,
      tick := tick, data := putBytes d.data 0 data, pending := none, answer := none }))

end Sys2Proof.Machine
end

