-- ==== Sys2Proof/Machine/Commands.lean ====
section
/-!
DEFINITION. The commands that a client gives by a write to one entry of the dictionary.
-/

namespace Sys2Proof.Machine

/-- The type code that a client gives with a write to an entry: the one the entry's table row has (R274). -/
def entryTyp (s : State) (index sub : Nat) : Nat := match findEntry s index sub with | some r => r.typ | none => 6

/-- A whole value of the entry's type written by a client (R292). -/
def clientWrites (s : State) (c : Client) (index sub : Nat) (data : Bytes) : Res :=
  .next (rowWrite s c index sub (entryTyp s index sub) data)

/-- The value of a life-cycle command for this module: the code and the low 24 bits of its MAC (R463). -/
def lifeWord (s : State) (code : Nat) : Bytes := beBytes 4 ((moduleMac s).toNat % 2 ^ 24 * 256 + code)

/-- RESTART_WARM: 1 written to 0x2200:06 (R85). -/
def execRestartWarm (c : Client) (s : State) : Res := clientWrites s c 0x2200 6 [1]

/-- RESTART_COLD: 2 written to 0x2200:06 (R85). -/
def execRestartCold (c : Client) (s : State) : Res := clientWrites s c 0x2200 6 [2]

/-- SET_FORCE: a force written to 0x2210:02 (R46, R47). -/
def execSetForce (c : Client) (data : Bytes) (s : State) : Res := clientWrites s c 0x2210 2 data

/-- RELEASE_FORCE: a release written to 0x2210:03 (R48). -/
def execReleaseForce (c : Client) (data : Bytes) (s : State) : Res := clientWrites s c 0x2210 3 data

/-- RELEASE_ALL_FORCES: 1 written to 0x2210:04 (R48). -/
def execReleaseAllForces (c : Client) (s : State) : Res := clientWrites s c 0x2210 4 [1]

/-- ONLINE_CHANGE_ACTIVATE: 1 written to 0x2218:04 (R75). -/
def execOnlineChangeActivate (c : Client) (s : State) : Res := clientWrites s c 0x2218 4 [1]

/-- ONLINE_CHANGE_DISCARD: 1 written to 0x2218:08 (R75). -/
def execOnlineChangeDiscard (c : Client) (s : State) : Res := clientWrites s c 0x2218 8 [1]

/-- LOOP_MODE_SET: a mode written to 0x2100:01 of loop `n` (R179). -/
def execLoopModeSet (c : Client) (n m : Nat) (s : State) : Res :=
  if n < 32 then clientWrites s c (0x2100 + n) 1 [BitVec.ofNat 8 m] else .next s

/-- LOOP_BANK_COMMAND: a bank written to 0x2100:1A of loop `n` (R176). -/
def execLoopBankCommand (c : Client) (n m : Nat) (s : State) : Res :=
  if n < 32 then clientWrites s c (0x2100 + n) 0x1A [BitVec.ofNat 8 m] else .next s

/-- CLEAR_REPETITIVE_MEMORY: 1 written to 0x2100:2F of loop `n` (R172). -/
def execClearRepetitiveMemory (c : Client) (n : Nat) (s : State) : Res :=
  if n < 32 then clientWrites s c (0x2100 + n) 0x2F [1] else .next s

/-- COMMANDED_HANDOVER: 1 written to 0x1200:11 (R219). -/
def execCommandedHandover (c : Client) (s : State) : Res := clientWrites s c 0x1200 0x11 [1]

/-- RETRY_CATCHUP: 1 written to 0x1200:16 (R215). -/
def execRetryCatchup (c : Client) (s : State) : Res := clientWrites s c 0x1200 0x16 [1]

/-- MANUAL_TRIGGER: 1 written to 0x1A10:09 (R339). -/
def execManualTrigger (c : Client) (s : State) : Res := clientWrites s c 0x1A10 9 [1]

/-- DELETE_ALL_RECORDS: 1 written to 0x1A20:0F (R354). -/
def execDeleteAllRecords (c : Client) (s : State) : Res := clientWrites s c 0x1A20 0x0F [1]

/-- CLEAR_DEBUGGED: 1 written to 0x1700:08 (R447). -/
def execClearDebugged (c : Client) (s : State) : Res := clientWrites s c 0x1700 8 [1]

/-- CLEAR_LATENT_FAULT: 1 written to 0x1700:0A (R442). -/
def execClearLatentFault (c : Client) (s : State) : Res := clientWrites s c 0x1700 0x0A [1]

/-- COMMANDED_STOP: 1 written to 0x1100:04 (R459). -/
def execCommandedStop (c : Client) (s : State) : Res := clientWrites s c 0x1100 4 [1]

/-- LIFT_STOP: 2 written to 0x1100:04 (R459). -/
def execLiftStop (c : Client) (s : State) : Res := clientWrites s c 0x1100 4 [2]

/-- COMMANDED_RESET: 3 written to 0x1100:04 (R459). -/
def execCommandedReset (c : Client) (s : State) : Res := clientWrites s c 0x1100 4 [3]

/-- TEST_ENTER: 1 written to 0x1100:05 (R458). -/
def execTestEnter (c : Client) (s : State) : Res := clientWrites s c 0x1100 5 [1]

/-- TEST_LEAVE: 0 written to 0x1100:05 (R458). -/
def execTestLeave (c : Client) (s : State) : Res := clientWrites s c 0x1100 5 [0]

/-- COMMISSION: life-cycle command 1 (R463). -/
def execCommission (c : Client) (s : State) : Res := clientWrites s c 0x1100 7 (lifeWord s 1)

/-- RETURN_TO_BLANK: life-cycle command 2 (R463). -/
def execReturnToBlank (c : Client) (s : State) : Res := clientWrites s c 0x1100 7 (lifeWord s 2)

/-- DECOMMISSION: life-cycle command 3 (R463). -/
def execDecommission (c : Client) (s : State) : Res := clientWrites s c 0x1100 7 (lifeWord s 3)

/-- RAISE_MINIMUM_SVN: 1 written to 0x1600:07 (R496). -/
def execRaiseMinimumSvn (c : Client) (s : State) : Res := clientWrites s c 0x1600 7 [1]

/-- PACKAGE_KEY_A1_WRITE: a value written to 0x1600:09 (R497). -/
def execPackageKeyA1Write (c : Client) (data : Bytes) (s : State) : Res := clientWrites s c 0x1600 9 data

/-- WRAPPED_ROLE_KEY_WRITE: a value written to 0x1600:0C (R492). -/
def execWrappedRoleKeyWrite (c : Client) (data : Bytes) (s : State) : Res := clientWrites s c 0x1600 0x0C data

/-- REMOVE_ROLE_KEY: a value written to 0x1600:0D (R492). -/
def execRemoveRoleKey (c : Client) (data : Bytes) (s : State) : Res := clientWrites s c 0x1600 0x0D data

/-- ATTESTATION_NONCE: a nonce written to 0x1600:0E (R495). -/
def execAttestationNonce (c : Client) (data : Bytes) (s : State) : Res := clientWrites s c 0x1600 0x0E data

/-- BEGIN_STAGING: a kind written to 0x1B00:01 (R480). -/
def execBeginStaging (c : Client) (m : Nat) (s : State) : Res := clientWrites s c 0x1B00 1 [BitVec.ofNat 8 m]

/-- CONFIRM_SETTINGS: 1 written to 0x1B00:05 (R483). -/
def execConfirmSettings (c : Client) (s : State) : Res := clientWrites s c 0x1B00 5 [1]

/-- DISCARD_SLOT: 1 written to 0x1B00:0A (R498). -/
def execDiscardSlot (c : Client) (s : State) : Res := clientWrites s c 0x1B00 0x0A [1]

/-- RUN_PREVIOUS_PACKAGE: 1 written to 0x1B00:0D (R481). -/
def execRunPreviousPackage (c : Client) (s : State) : Res := clientWrites s c 0x1B00 0x0D [1]

/-- PREPARE_SWITCHOVER: 1 written to 0x1B00:0E (R485). -/
def execPrepareSwitchover (c : Client) (s : State) : Res := clientWrites s c 0x1B00 0x0E [1]

/-- SWITCHOVER: 1 written to 0x1B00:10 (R486). -/
def execSwitchover (c : Client) (s : State) : Res := clientWrites s c 0x1B00 0x10 [1]

/-- CLEAR_COUNTERS: 1 written to a Clear entry (R52). -/
def execClearCounters (c : Client) (index sub : Nat) (s : State) : Res :=
  if isClear index sub then clientWrites s c index sub [1] else .next s

/-- CLEAR_D_FAULT: 1 written to 0x1800:03 by a client, or to FIO_STATUS.DFAULT by a core (R362); where hardware sets the flag in the
same clock it is left set (R10). -/
def execClearDFault (c : Option Client) (s : State) (held : Bool := false) : Res :=
  match c with
  | some c => clientWrites s c 0x1800 3 [1]
  | none => .next (s.modField (fun f => { f with dfault := f.dfault && held }))

/-- A piece of the manifest or of the image written by a client (R480). -/
def clientStreams (s : State) (c : Client) (sub offset : Nat) (data : Bytes) : Res :=
  if !dictServed s c.via || !knownClient s c then clientWrites s c 0x1B00 sub data
  else .next (serveStream s c sub (entryTyp s 0x1B00 sub) offset data)

/-- MANIFEST_STREAM_WRITE: a piece written to 0x1B00:03 (R480). -/
def execManifestStreamWrite (c : Client) (offset : Nat) (data : Bytes) (s : State) : Res := clientStreams s c 3 offset data

/-- IMAGE_STREAM_WRITE: a piece written to 0x1B00:04 (R480). -/
def execImageStreamWrite (c : Client) (offset : Nat) (data : Bytes) (s : State) : Res := clientStreams s c 4 offset data

end Sys2Proof.Machine
end

