-- ==== Sys2Proof/Machine/Cycle.lean ====
section
/-!
DEFINITION. The cycle: ticks, the input cutoff, the union of the inputs and their landing, the boundary, the Churn's evaluation, the output digest and the release (R54–R84, R201–R206, R218).
-/

namespace Sys2Proof.Machine

/-! ### Arrivals at a cutoff -/

/-- The subscription slots of the due tasks, by number. -/
def dueSubs (s : State) (due : BitVec 4) : List (Nat × SubCfg) := (pkgD s [] (·.subs)).filter (fun x => due.getLsbD x.2.task)

/-- What a slot holds is frozen at the cutoff of its task (R201). -/
def freezeSubs (s : State) (due : BitVec 4) : State :=
  (dueSubs s due).foldl (fun s x => modSub s x.1 (fun y => { y with
    frozen := y.held, frozenG := y.heldG, held := none, heldG := none })) s

/-- The arrivals of a skipped tick wait for the next cutoff (R72). -/
def thawSubs (s : State) (due : BitVec 4) : State :=
  (dueSubs s due).foldl (fun s x => modSub s x.1 (fun y => { y with
    held := if y.held.isSome then y.held else y.frozen, heldG := if y.heldG.isSome then y.heldG else y.frozenG,
    frozen := none, frozenG := none })) s

/-- The frozen arrival of a slot. -/
def frozenOf (s : State) (n : Nat) : Option SlotFrame :=
  match (subSt s n).frozen, (subSt s n).frozenG with
  | some f, _ => some (.net f)
  | none, some g => some (.goose g)
  | none, none => none

/-- CRC-32C field of a held frame (R201, R241). -/
def SlotFrame.crc : SlotFrame → W32
  | .net f => pfCrc f.payload
  | .goose g => crc32c g.bytes

/-- Held frames of a cutoff with their CRCs (R201). -/
def heldFrames (s : State) (due : BitVec 4) : List (Nat × W32) :=
  (dueSubs s due).filterMap (fun x => (frozenOf s x.1).map (fun f => (x.1, f.crc)))

/-- One frame supplied to the partner. -/
def supplyOne (s : State) (n : Nat) (f : SlotFrame) : State :=
  let s := s.modPair (fun p => { p with nSuppTo := p.nSuppTo.inc })
  match f with
  | .net f => mjSend s (.supply n f)
  | .goose g => mjSend s (.supplyGoose n g)

/-- The partner's TICK is answered: frames whose slot is clear there, and on the side whose copy stands those whose contents
differ (R202). -/
def supplyPartner (s : State) (t : TickMsg) : State :=
  (dueSubs s s.cyc.cutDue).foldl (fun s x =>
    match frozenOf s x.1, mget t.held x.1 with
    | some f, none => supplyOne s x.1 f
    | some f, some c => if f.crc ≠ c ∧ ownerPart s = true then supplyOne s x.1 f else s
    | none, _ => s) s

/-- The frame supplied for a slot. -/
def suppliedFor (s : State) (n : Nat) : Option SlotFrame :=
  match mget s.cyc.supplies n, mget s.cyc.suppliesG n with
  | some f, _ => some (.net f)
  | none, some g => some (.goose g)
  | none, none => none

/-- A SUPPLY is owed for a slot that the partner holds (R202, R203). -/
def owed (s : State) (t : TickMsg) (n : Nat) : Bool :=
  match frozenOf s n, mget t.held n with
  | none, some _ => true
  | some f, some c => f.crc != c && !ownerPart s
  | _, none => false

/-- The agreement of the tick is complete (R203). -/
def agreed (s : State) : Bool :=
  !expectsTick s ||
    (match s.cyc.partnerTick with
     | none => false
     | some t => t.tick == s.cyc.cutTick &&
         (dueSubs s s.cyc.cutDue).all (fun x => !owed s t x.1 || (suppliedFor s x.1).isSome))

/-! ### Landing -/

/-- A slot's frame that lands and whether SGL is set; whether both sides' contents differed (R202). -/
def landSlot (s : State) (n : Nat) : Option (Bool × SlotFrame) × Bool :=
  match s.cyc.partnerTick with
  | none => ((frozenOf s n).map (fun f => (false, f)), false)
  | some t =>
    match frozenOf s n, mget t.held n with
    | some f, none => (some (true, f), false)
    | some f, some c =>
      if f.crc = c then (some (false, f), false)
      else if ownerPart s then (some (true, f), true)
      else ((suppliedFor s n).map (fun f => (true, f)), true)
    | none, some _ => ((suppliedFor s n).map (fun f => (true, f)), false)
    | none, none => (none, false)

/-- Words of a landed frame (R42, R233, R241). -/
def SlotFrame.words (f : SlotFrame) (sgl : Bool) : List TWord :=
  match f with
  | .net f => (pfWords f.payload).map (fun w => TWord.orTag w (tIf sgl tSGL))
  | .goose g => g.members.map (fun m =>
      let t := match m.quality with | some q => qualityTag q | none => 0
      let t := if g.ndsCom then withVal t 2 else t
      ⟨t ||| tIf g.sim tTST ||| tIf sgl tSGL, m.val⟩)

/-- A landed GOOSE message still lives at a cutoff instant (R241). -/
def gooseLives (s : State) (n cut : Nat) : Bool :=
  match (subSt s n).landed with
  | none => false
  | some g => decide (cut < (subSt s n).landedTime + rMs g.ttlMs)

/-- What a cutoff brings to the slots: slot, SGL and frame. -/
abbrev Arrivals := List (Nat × Bool × SlotFrame)

/-- The union of the tick (R202). -/
def unionOf (s : State) : Arrivals :=
  (dueSubs s s.cyc.cutDue).filterMap (fun x => (landSlot s x.1).1.map (fun f => (x.1, f.1, f.2)))

/-- Slots whose contents differed on the two sides. -/
def unionDiffers (s : State) : Nat := ((dueSubs s s.cyc.cutDue).filter (fun x => (landSlot s x.1).2)).length

/-- The words that a slot's points take at a cutoff: those of its frame, or its own words while a GOOSE message lives. -/
def slotLands (s : State) (xs : Arrivals) (cut : Nat) (x : Nat × SubCfg) : List (Nat × TWord) :=
  match xs.find? (fun a => a.1 == x.1) with
  | some a => ((a.2.2.words a.2.1).zipIdx).map (fun w => (x.2.first + w.2, w.1))
  | none =>
    if gooseLives s x.1 cut then
      (List.range x.2.count).map (fun i => (x.2.first + i, ownWord s.img (x.2.first + i)))
    else []

/-- The sources subject to freshness (introduction of "Freshness"). -/
def freshSource (src : Nat) : Bool := src == srcSub || src == srcChannel || src == srcLoop || src == srcField

/-- One point at its cutoff: a refreshed word lands; without one STL is set, and INVALID from the FRESH-th cutoff on (R41,
R42, R48). -/
def landPoint (s : State) (xs : List (Nat × TWord)) (p : Nat) (d : PointDesc) : State :=
  match (xs.find? (fun x => x.1 == p)).map (·.2) with
  | some w => s.modImg (fun i => { i.store p w with misses := mdel i.misses p })
  | none =>
    let m := mgetD s.img.misses p 0 + 1
    let w := ownWord s.img p
    let t := if d.fresh ≠ 0 ∧ d.fresh ≤ m then withVal w.tag 2 else w.tag
    s.modImg (fun i => { i.store p ⟨t ||| tSTL, w.val⟩ with misses := mset i.misses p (min m 65535) })

/-- A point of a slot has reached INVALID for want of refreshes (R41). -/
def agedOut (s : State) (p : Nat) : Bool :=
  let d := descOf s.img p
  d.fresh != 0 && decide (d.fresh ≤ mgetD s.img.misses p 0)

/-- A slot after its cutoff: what landed, its state, and what it forgets when its points reach INVALID (R237, R241, R244). -/
def settleSlot (s : State) (xs : Arrivals) (cut : Nat) (x : Nat × SubCfg) : State :=
  let n := x.1
  let pts := (List.range x.2.count).map (fun i => x.2.first + i)
  let got := xs.find? (fun a => a.1 == n)
  let s := modSub s n (fun y => { y with frozen := none, frozenG := none })
  match got with
  | some (_, _, .goose g) => setSubState (modSub s n (fun y => { y with landed := some g, landedTime := cut })) n 2
  | some (_, _, .net _) => setSubState s n 2
  | none =>
    if gooseLives s n cut then setSubState s n 2
    else if pts.all (agedOut s) then
      let s := modSub s n (fun y => { y with last := none })
      if (subSt s n).state ≤ 1 then setSubState s n 1 else setSubState s n 4
    else if (subSt s n).state ≤ 1 then setSubState s n 1
    else setSubState s n 3

/-- Points that channels and loops read of a task (R147, R165). -/
def watched (s : State) (task : Nat) : List Nat :=
  let ps := (pkgD s [] (·.channels)).map (fun x => x.2.point) ++
    (pkgD s [] (·.loops)).flatMap (fun x => [x.2.pvPt, x.2.spRef] ++ x.2.ffPt.toList ++ x.2.bankPoint.toList)
  ps.filter (fun p => (descOf s.img p).task == task && (descOf s.img p).source != srcUnused)

/-- The history of agreed words: 20 ms and one older entry of each task. -/
def histKeep (old : Nat) : List (Nat × Nat × List (Nat × TWord)) → List Nat → List (Nat × Nat × List (Nat × TWord))
  | [], _ => []
  | h :: t, seen =>
    if decide (old < h.2.1) then h :: histKeep old t seen
    else if seen.contains h.1 then histKeep old t seen
    else h :: histKeep old t (h.1 :: seen)

/-- The words at the end of the agreement are kept for the engines (R147). -/
def pushHist (s : State) (due : BitVec 4) (cut : Nat) : State :=
  let fresh := ((List.range 4).filter (fun t => due.getLsbD t)).map (fun t =>
    (t, cut, (watched s t).foldl (fun m p => mset m p (pointWord s.img p)) []))
  s.modImg (fun i => { i with hist := histKeep (cut - rMs 20) (fresh ++ i.hist) [] })

/-- The words that a kind of producer offers to points of another SOURCE are discarded, each one counted (R38, R39). -/
def discardOthers (s : State) (kind : Nat) (xs : List (Nat × TWord)) : State :=
  (xs.filter (fun x => (descOf s.img x.1).source != kind)).foldl (fun s _ => discardWrite s) s

/-- A sequenced command can apply at this boundary: its target has come and its entry's task is due (R72, R210). -/
def seqDue (s : State) (i : SeqItem) : Bool :=
  decide (i.msg.target.toNat ≤ s.cyc.cutTick.toNat) &&
    (match i.msg.body with
     | .request r => let t := reqTask s r; decide (4 ≤ t) || s.cyc.cutDue.getLsbD t
     | .activate _ | .refuseChange _ => true
     | .recordStart _ _ _ => false)

/-- The scale with which a channel's results land: a write of it that this cycle's boundary applies counts already (R162). -/
def landingScale (s : State) (n : Nat) (c : ChannelCfg) : F64 :=
  let news := (s.pair.seqs.filter (seqDue s)).filterMap (fun i => match i.msg.body with
    | .request r => if r.index = 0x2000 + n ∧ r.sub = 0x10 ∧ finite32 (beNat r.data) = true then some (beNat r.data) else none
    | .activate _ | .refuseChange _ | .recordStart _ _ _ => none)
  match news.getLast? with
  | some v => f64 (f32q (BitVec.ofNat 32 v))
  | none => chScale s n c

/-- The landing of a cutoff: frames, owned input words, channel and loop results, then freshness (R41, R42, R60, R61, R160,
R182, R202). -/
def land (s : State) (xs : Arrivals) (inputs : List (Nat × TWord)) : State :=
  let due := s.cyc.cutDue
  let cut := s.cyc.cutTime.toNat
  let given := [(srcSub, (dueSubs s due).flatMap (slotLands s xs cut)), (srcField, inputs), (srcChannel, channelInputs s (landingScale s) due cut),
    (srcLoop, loopInputs s due cut)]
  let words := given.flatMap (fun g => g.2.filter (fun x => (descOf s.img x.1).source == g.1))
  let s := given.foldl (fun s g => discardOthers s g.1 g.2) s
  let s := s.img.descs.foldl (fun s d =>
    if freshSource d.2.source && due.getLsbD d.2.task then landPoint s words d.1 d.2 else s) s
  let s := (dueSubs s due).foldl (fun s x => settleSlot s xs cut x) s
  pushHist (loopsLanded s due cut) due cut

/-! ### Ticks -/

/-- Counters of the due tasks changed. -/
def modDue (s : State) (due : BitVec 4) (f : TaskSt → TaskSt) : State :=
  s.modCyc (fun c => { c with tasks := (c.tasks.zipIdx).map (fun x => if due.getLsbD x.2 then f x.1 else x.1) })

/-- A tick taken at its exact TIME `m` (R54, R520). -/
def markTick (s : State) (m : Nat) : State :=
  s.modCyc (fun c => { c with lastTick := some m, lastTickRaw := some s.time.raw, stepped := false })

/-- The tick count rises, and the cycle counts of the tasks due at it (R55, R57, R87). -/
def advanceTick (s : State) : State :=
  let n := if s.cyc.firstTick then s.cyc.tick else s.cyc.tick + 1
  let due := dueAt s n.toNat
  let s := s.modCyc (fun c => { c with tick := n, due := due, firstTick := false })
  modDue s due (fun t => { t with cycle := if t.firstCycle then t.cycle else t.cycle + 1, firstCycle := false })

/-- Interrupts and pulses of the due tasks at a cutoff or a release (tables "Interrupt sources" and "Event producers"). -/
def dueEvents (s : State) (due : BitVec 4) (irq producer : Nat) (v : W32) : State :=
  (List.range 4).foldl (fun s t => if due.getLsbD t then pulse (raiseIrq s (irq + t)) (producer + t) v else s) s

/-- TICK goes to the partner, exactly 1.000 µs after the tick (R201). -/
def sendTick (s : State) (prevReleased : Bool) : State :=
  if !isPaired s || s.ctl.mode == .dbg then s
  else
    mjSend s (.tick ⟨s.cyc.tick, s.cyc.due, prevReleased, if prevReleased then heldFrames s s.cyc.due else [],
                     if prevReleased then s.cyc.inputs else []⟩)

/-- A skip: no cutoff, no execution and no publication; the due tasks count it (R72, R338). -/
def countSkip (s : State) (due : BitVec 4) (waits : Bool) : State :=
  let s := modDue s due (fun t => { t with skipped := t.skipped.inc })
  logItems (raiseIrq (recordSkipped s due waits) 9) s.cyc.tick [.skipped]

/-- A change of the agreed time state at a tick is logged for a joining side (R250). -/
def logTimeChange (s t : State) : State :=
  if s.time.agreed = t.time.agreed then t
  else logItems t t.cyc.tick [.announce ⟨t.cyc.tick, false, true, t.time.agreed, 0, t.time.utc, t.time.leap⟩]

/-- Time at a due tick: the announcements that name it, and the agreed state (R250, R255, R256). -/
def tickTime (s : State) : State :=
  let now := s.time.announced.filter (fun a => decide (a.tick.toNat ≤ s.cyc.cutTick.toNat))
  let s := applyAnnounced s
  let s := logItems s s.cyc.cutTick (now.map LogItem.announce)
  logTimeChange s (agreedAtTick s s.cyc.cutDue)

/-- The status of a loop write at a boundary, as things stand after the commands before it (R73, R175). -/
def loopVerdict (s : State) (r : PairReq) : Nat :=
  if activeCoeff s r.index r.sub then 0x0202
  else if rangeOk s r.index r.sub r.typ (beNat r.data) then 0 else 0x0204

/-- The loop writes of this boundary reach the engines at the cutoff (R176), each checked after those before it. -/
def reachEngines (s : State) : State :=
  let s := s.modCyc (fun c => { c with verdicts := [] })
  (s.pair.seqs.filter (seqDue s)).foldl (fun s i =>
    match i.msg.body with
    | .request r =>
      if 0x2100 ≤ r.index ∧ r.index ≤ 0x211F then
        let e := loopVerdict s r
        let s := s.modCyc (fun c => { c with verdicts := c.verdicts ++ [(i.msg.wsn.toNat, e)] })
        if e = 0 then loopWrite s (r.index - 0x2100) r.sub (loopPar s (r.index - 0x2100) r.sub) (beNat r.data) else s
      else s
    | .activate _ | .refuseChange _ | .recordStart _ _ _ => s) s

/-- The cutoff stands: neither side skips its tick. The announcements that name the tick take effect, a step moving the
cutoff's TIME to TIME(r) + offset; then come the interrupts and pulses of the cutoff with its NS32, and what it judges and
clears on the field side (R72, R250, R255, R256, R362). A tick that is skipped does none of this. -/
def confirmTick (s : State) : State :=
  if s.cyc.confirmed then s
  else
    let before := s.time.stepGen
    let s := tickTime (leavePaced s s.cyc.cutTime.toNat)
    let s := s.modCyc (fun c => { c with
      confirmed := true, cutGen := s.time.stepGen,
      cutTime := if s.time.stepGen = before then c.cutTime else BitVec.ofNat 80 (stampTime s (c.lastTickRaw.getD s.time.raw)) })
    let due := s.cyc.cutDue
    planSeqs (reachEngines (fieldCutoff (judgeField (dueEvents s due 1 32 (ns32Of s.cyc.cutTime.toNat)) due) due))

/-- The input cutoff at the exact TIME `m` of its tick: arrivals are frozen, the field side is read, and TICK goes out. Where a
partner runs, what the tick does beyond that waits until the partner's TICK says that it skips it neither (R60, R61, R72,
R201, R362, R520). -/
def cutoff (s : State) (m : Nat) : State :=
  let due := s.cyc.due
  let s := holdField (freezeSubs s due)
  let s := s.modCyc (fun c => { c with
    cutTick := c.tick, cutDue := due, cutCycles := c.tasks.map (·.cycle), cutTime := BitVec.ofNat 80 m,
    inputs := fieldInputs (judgeField s due) due, phase := .agreeing, released := false, alone := false, confirmed := false,
    verdicts := [],
    supplies := [], suppliesG := [], partnerOut := none,
    partnerTick := (match c.partnerTick with | some t => if t.tick = c.tick then some t else none | none => none) })
  let s := sendTick s true
  match s.cyc.partnerTick with
  | some t => if t.prevReleased then supplyPartner (confirmTick s) t else s
  | none => if expectsTick s then s else confirmTick s

/-- The module counts ticks: it executes tasks, or it verifies a catch-up (R55, R214). -/
def countsTicks (s : State) : Bool := s.ctl.mode.executes || (s.ctl.mode == .catchup && s.pair.phase == 5)

/-- TICK: TIME has reached the next multiple of 250 µs (R54–R58, R72, R520). A joining side that replays only follows the
live tick count. -/
def execTick (s : State) : Res :=
  match tickReached s with
  | none => .next s
  | some m =>
    if countsTicks s then
      let s := advanceTick (markTick s m)
      if s.cyc.due = 0 then .next s
      else if !s.cyc.released then .next (sendTick (countSkip s s.cyc.due true) false)
      else .next (cutoff s m)
    else if s.ctl.mode == .catchup && s.pair.phase == 4 then
      .next ((markTick s m).modCyc (fun c => { c with tick := c.tick + 1 }))
    else .next s

/-! ### The boundary -/

/-- The outcome of an accepted write is remembered, and repeats that waited for it are answered with it (R296). -/
def settleRepeat (s : State) (wsn : W32) (status : Nat) (tick : W64) : State :=
  let waits := (s.pair.repeats.filter (fun x => x.msg.wsn == wsn)).flatMap (·.waits)
  s.modPair (fun p => { p with
    repeats := p.repeats.map (fun x => if x.msg.wsn = wsn then { x with outcome := some (BitVec.ofNat 16 status, tick), waits := [] } else x),
    replies := p.replies ++ waits.map (fun f => ⟨f.sid, f.via, f.ctr, f.req, BitVec.ofNat 16 status, wsn, tick⟩) })

/-- The reply to a write of this side's session waits for the end of the release; an activation's waits until the change is
settled (R79, R295). -/
def holdReply (s : State) (i : SeqItem) (r : PairReq) (status : Nat) : State :=
  if !i.own then s
  else
    let x : Reply := ⟨i.sid, i.via, i.ctr, r, BitVec.ofNat 16 status, i.msg.wsn, s.cyc.cutTick⟩
    if r.index = 0x2218 ∧ r.sub = 4 ∧ status = 0 ∧ s.cyc.change.active = true then
      s.modPair (fun p => { p with heldReplies := p.heldReplies ++ [x] })
    else s.modPair (fun p => { p with replies := p.replies ++ [x] })

/-- One sequenced request applies: a loop write that reached its engine at the cutoff leaves its value in the entry (R176). -/
def applyRequest (s : State) (wsn : W32) (r : PairReq) : Nat × State :=
  match mget s.cyc.verdicts wsn.toNat with
  | some 0 => (0, markRevert (if r.sub = 0x2F then s else putSetting s r.index r.sub (beNat r.data)) r.index r.sub)
  | some e => (e, s)
  | none => applyPair s r

/-- One sequenced command applies (R73, R75, R210). -/
def applySeq (s : State) (i : SeqItem) : State :=
  let s := s.modPair (fun p => { p with lastWsn := i.msg.wsn })
  let s := logItems s s.cyc.cutTick [.command i.msg]
  match i.msg.body with
  | .request r =>
    let a := applyRequest s i.msg.wsn r
    settleRepeat (holdReply (if a.1 = 0 then raiseIrq a.2 13 else a.2) i r a.1) i.msg.wsn a.1 s.cyc.cutTick
  | .activate _ | .recordStart _ _ _ => s
  | .refuseChange differ => refuseChange s (refusalReason s differ)

/-- The sequenced commands of this boundary, in the owning side's order (R73). -/
def boundarySeqs (s : State) : State :=
  let now := s.pair.seqs.filter (seqDue s)
  let s := s.modPair (fun p => { p with seqs := p.seqs.filter (fun i => !now.contains i) })
  now.foldl applySeq s

/-- The boundary (R73, R211). -/
def boundary (s : State) : State := boundarySeqs (boundaryRevert (boundaryChange s))

/-! ### The Churn -/

/-- The word of an operand reference, none where it names no operand (R7, R95). -/
def refWord (i : Img) (r : Nat) : Option TWord :=
  if r < 131072 then some (pointWord i r) else if r < 262143 then some (constWord i (r - 131072)) else none

/-- A block other than NCALL of a task, over the words at its rank's start: its output write, and its state write (R66, R101). -/
def evalInst (s : State) (n : Nat) (w : W128) : (Nat × TWord) × Option (Nat × W64) :=
  let i := s.img
  let p := dParam w
  let r := evalBlock (dOpcode w) (dType w) (dInv w) p n (inTest s) (refWord i (dA w)) (refWord i (dB w)) (refWord i (dC w))
    (refWord i (p % 2 ^ 18)) (refWord i (p / 2 ^ 18 % 2 ^ 18)) (mgetD i.slots (dSlot w) 0)
  ((dOut w, r.1), if statefulOp (dOpcode w) then some (dSlot w, r.2) else none)

/-- The word an abandoned call leaves in its output: the producer's own word of the previous cycle with VAL INVALID, and the
operands' FRC, SUB, TST, STL and SGL (R81, R134). -/
def abandonedWord (s : State) (w : W128) : TWord :=
  let o := ownWord s.img (dOut w)
  let ts := tagsOf [refWord s.img (dA w), refWord s.img (dB w), refWord s.img (dC w)]
  ⟨withVal o.tag 2 ||| (tagMerge ts &&& 0x3D) ||| tIf (inTest s) tTST, o.val⟩

/-- The call record of an NCALL: the operands after their inversion flags (R80, R91, R97, R132). -/
def callRecord (s : State) (t : Nat) (b : BlockInst) : CallRec :=
  let w := b.word
  let arg := fun (bit r : Nat) => (refWord s.img r).map (fun x => readOperand (bitOf (BitVec.ofNat 3 (dInv w)) bit) (some x))
  let a := arg 2 (dA w)
  let o := arg 1 (dB w)
  let c := arg 0 (dC w)
  { inst := b.id, func := dParam w / 2 ^ 27 % 4096,
    pres := BitVec.ofNat 3 (b2n a.isSome + 2 * b2n o.isSome + 4 * b2n c.isSome), a := a.getD TWord.zero,
    b := o.getD TWord.zero, c := c.getD TWord.zero, task := t, cycle := s.cyc.cutCycles.getD t 0, tick := s.cyc.cutTick,
    ibudget := dParam w % 2 ^ 27 }

/-- Core pair that an NCALL names (R131). -/
def callCore (w : W128) : Cp := if dParam w / 2 ^ 39 % 2 = 1 then .n1 else .n0

/-- An NCALL reached by its lane: its call is posted, or abandoned before its first instruction (R80, R132, R405). -/
def postCall (s : State) (t : Nat) (b : BlockInst) : State :=
  let c := callCore b.word
  let k := callRecord s t b
  if (cpOf s c).frozen || k.ibudget == 0 then produce s srcBlock (dOut b.word) (abandonedWord s b.word)
  else
    let s := raiseIrq (modCp s c (fun p => { p with posted := p.posted ++ [k] })) 0
    s.modCyc (fun x => { x with calls := x.calls ++ [(c, b.id)] })

/-- One rank: every block reads the image and the slots as they stand at its start; the writes enter at the barrier in table
order, and the calls are posted (R66–R69, R80, R93, R101). -/
def evalRank (s : State) (t : Nat) (r : List BlockInst) : State :=
  let n := periodOf s t
  let live := r.filter (fun b => !dNull b.word)
  let outs := (live.filter (fun b => dOpcode b.word != 0x2C)).map (fun b => evalInst s n b.word)
  let calls := live.filter (fun b => dOpcode b.word == 0x2C)
  let s := calls.foldl (fun s b => postCall s t b) s
  let s := outs.foldl (fun s o => produce s srcBlock o.1.1 o.1.2) s
  let s := s.modImg (fun i => { i with slots := (outs.filterMap (·.2)).foldl (fun m x => mset m x.1 x.2) i.slots })
  s.modCyc (fun c => { c with nextBlock := c.nextBlock + r.length })

/-- The ranks of a task one after another, until one waits for a call (R66, R80). -/
def runRanks (t : Nat) : List (List BlockInst) → State → State
  | [], s => s
  | r :: rest, s =>
    let s := evalRank s t r
    if s.cyc.calls.isEmpty then runRanks t rest s else s

/-- The ranks of a task that are left. -/
def ranksLeft (s : State) (t : Nat) : List (List BlockInst) :=
  ranksOf ((pkgD s [] (fun p => p.blocks.getD t [])).drop s.cyc.nextBlock)

/-- The tasks one after another, each to its end, until a rank waits for a call (R56). -/
def runTasks : List Nat → State → State
  | [], s => s.modCyc (fun c => { c with todo := [], nextBlock := 0 })
  | t :: rest, s =>
    let s := runRanks t (ranksLeft s t) s
    if s.cyc.calls.isEmpty then runTasks rest (s.modCyc (fun c => { c with todo := rest, nextBlock := 0 })) else s

/-- Execution goes on where it stands, unless a call is out. -/
def runOn (s : State) : State :=
  if s.cyc.phase == .executing && s.cyc.calls.isEmpty then runTasks s.cyc.todo s else s

/-- The tasks of a due set, T0 first (R56). -/
def dueList (due : BitVec 4) : List Nat := (List.range 4).filter (fun t => due.getLsbD t)

/-! ### Execution -/

/-- A late start is counted against every due task (R59). -/
def countLate (s : State) : State :=
  if s.cyc.cutTime.toNat + rUs 20 + 640 < timeNow s then
    raiseIrq (modDue s s.cyc.cutDue (fun t => { t with late := t.late.inc })) 10
  else s

/-- The partner has not released its previous cycle: the tick is skipped here too (R72). -/
def partnerSkips (s : State) : Bool :=
  !s.cyc.confirmed && (match s.cyc.partnerTick with | some t => !t.prevReleased | none => false)

/-- A tick that the partner makes a skipped one ends without execution; its cutoff does not stand (R72). -/
def undoCutoff (s : State) : State :=
  let s := countSkip (thawSubs s s.cyc.cutDue) s.cyc.cutDue false
  s.modCyc (fun c => { c with phase := .slack, released := true, partnerTick := none, supplies := [], suppliesG := [] })

/-- The owned inputs of both sides, and what landed, are logged for a joining side (R196). -/
def logLanding (s : State) (xs : Arrivals) (inputs : List (Nat × TWord)) : State :=
  logItems s s.cyc.cutTick (xs.map (fun a => match a.2.2 with
    | .net f => LogItem.landed a.1 a.2.1 f
    | .goose g => LogItem.landedGoose a.1 a.2.1 g) ++ [.owned inputs])

/-- The agreed inputs land, the boundary's commands apply and the due tasks run (R59, R73). -/
def beginExecution (s : State) (xs : Arrivals) (inputs : List (Nat × TWord)) : State :=
  let s := land (confirmTick s) xs inputs
  let s := s.modCyc (fun c => { c with phase := .executing, startRaw := s.time.raw })
  let s := boundary s
  runOn (s.modCyc (fun c => { c with todo := dueList c.cutDue, nextBlock := 0, calls := [] }))

/-! ### Returning calls -/

/-- The call that a core pair runs ends, and its word enters the block's output; execution goes on when no call is out. -/
def endCall (s : State) (c : Cp) (inst : Nat) (word : State → W128 → TWord) : State :=
  let b := instOf (pkgD s [] (·.blocks)) inst
  let s := match b with
    | some b => produce s srcBlock (dOut b.word) (word s b.word)
    | none => s
  let s := s.modCyc (fun x => { x with calls := x.calls.erase (c, inst) })
  runOn s

/-- The word that a returned call leaves (R134). -/
def returnedWord (value : W32) (tag : Byte) (s : State) (w : W128) : TWord :=
  let ts := tagsOf [refWord s.img (dA w), refWord s.img (dB w), refWord s.img (dC w)]
  ⟨ncallTag (inTest s) tag ts, value⟩

/-- The instructions that a core pair has retired since its call began, as the count stood when the call ended (R81). -/
def noteRetired (s : State) (c : Cp) (n : Nat) : State := modCp s c (fun p => { p with retired := n })

/-- The call that a core pair runs is abandoned (R81, R405). -/
def abandonCall (s : State) (c : Cp) : State :=
  match (cpOf s c).call with
  | none => s
  | some k => endCall (modCp s c CpSt.resume) c k.inst abandonedWord

/-- Every call that waits for a core pair is abandoned before its first instruction (R405). -/
def abandonPosted (s : State) (c : Cp) : State :=
  let ks := (cpOf s c).posted
  ks.foldl (fun s k => endCall s c k.inst abandonedWord) (modCp s c (fun p => { p with posted := [] }))

/-- NCALL_ABANDON: the count of retired instructions reaches the budget at an instruction other than the returning store
(R81). -/
def execNcallAbandon (c : Cp) (s : State) (retired : Nat := 0) : Res :=
  if !clocksRun s then .next s else
  match (cpOf s c).call with
  | none => .next s
  | some k => if k.ibudget ≤ retired then .next (abandonCall (noteRetired s c retired) c) else .next s

/-- NCALL_TIME_BUDGET_ELAPSED: a call to a halted core pair is abandoned when its time budget has run (R448); any other call
runs on (R133). -/
def execNcallTimeBudgetElapsed (c : Cp) (s : State) : Res :=
  if !clocksRun s then .next s else
  if !(cpOf s c).halted then .next s
  else
    match (cpOf s c).call, (cpOf s c).posted with
    | some _, _ => .next (abandonCall s c)
    | none, k :: rest => .next (endCall (modCp s c (fun p => { p with posted := rest })) c k.inst abandonedWord)
    | none, [] => .next s

/-! ### Release -/

/-- CRC-64/XZ over a point and its word as R62 forms it. -/
def pointCrc (i : Img) (p : Nat) : W64 := crc64 (beBytes 3 p ++ TWord.bytes (pointWord i p))

/-- The digest over the points of the due tasks with given sources (R62, R205). -/
def digestOver (s : State) (srcA srcB : Nat) : W64 :=
  s.img.descs.foldl (fun d x =>
    if s.cyc.cutDue.getLsbD x.2.task && (x.2.source == srcA || x.2.source == srcB) then d + pointCrc s.img x.1 else d) 0

/-- During a no-owner interval with the link lost: the side that goes on is the one HANDOVER names, else side A (R218). -/
def goesOn (s : State) : Bool := match s.pair.handover with | some me => me | none => !s.pins.sideB

/-- The side keeps executing but sources nothing (R218). -/
def withholds (s : State) : Bool :=
  isPaired s && s.pair.noOwner && !s.pair.dead && (!s.pair.link || s.cyc.alone) && !goesOn s

/-- Words of the due tasks' points, and the forces, as their publication leaves them (R13, R51). -/
def publishWords (s : State) : State :=
  s.modImg fun i =>
    let words := i.descs.foldl (fun m d =>
      if s.cyc.cutDue.getLsbD d.2.task && d.2.source != srcUnused then mset m d.1 (pointWord i d.1) else m) i.published
    { i with published := words, pubForces := i.forces }

/-- Position of the copy of a task's retained set that is written next: the older one (R44). -/
def olderCopy (s : State) (t : Nat) : Nat :=
  match mget s.img.copies (2 * t), mget s.img.copies (2 * t + 1) with
  | some a, some b => if newer b.tick a.tick then 2 * t else 2 * t + 1
  | some _, none => 2 * t + 1
  | none, _ => 2 * t

/-- One task's retained set is committed: its retained points' own words and its RETAIN instances' state (R44, R86). -/
def commitTask (s : State) (t : Nat) : State :=
  let pts := (s.img.descs.filter (fun d => d.2.retain && d.2.task == t)).foldl (fun m d => mset m d.1 (ownWord s.img d.1)) []
  let bs := (pkgD s [] (fun p => p.blocks.getD t [])).filter (fun b => retainsState b.word)
  let sl := bs.foldl (fun m b => mset m (dSlot b.word) (mgetD s.img.slots (dSlot b.word) 0)) []
  s.modImg (fun i => { i with
    copies := mset i.copies (olderCopy s t) ⟨s.cyc.cutTick, s.cyc.cutCycles.getD t 0, packageDigest s, pts, sl⟩ })

/-- The counts and the retained sets of the due tasks are committed (R44, R87). -/
def commit (s : State) : State :=
  let s := ((retainTasks s).filter (fun t => s.cyc.cutDue.getLsbD t)).foldl commitTask s
  s.modImg (fun i => { i with committedTick := some s.cyc.cutTick, committedCycles := s.cyc.cutCycles })

/-- The replies that waited for this release (R295). -/
def flushReplies (s : State) : State :=
  let rs := s.pair.replies
  rs.foldl sendReply (s.modPair (fun p => { p with replies := [] }))

/-- A commanded handover takes effect: the owning side sends HANDOVER, lowers OWN_OUT and enters TWIN (R209, R219). -/
def handOver (s : State) : State :=
  if !s.pair.handReq then s
  else
    let s := s.modPair (fun p => { p with handReq := false })
    if !owns s || !partnerRuns s then s
    else
      let s := mjSend s (.handover s.cyc.cutTick)
      let s := lowerOwn s
      let s := changePair s (fun p => { p with noOwner := true, handover := some false, nHandover := p.nHandover.inc })
      let s := logPair s 2 (s.cyc.cutTick.truncate 32)
      if s.ctl.mode = .lead then changeMode s .twin 8 else s

/-- The prepared package takes the running one's place in a side that stops for it: the program it starts is checked as at any
start, its restart is cold, and the forces are cleared at once (R67, R75, R239, R486, R487). -/
def takePrepared (s : State) (i : Installed) (own : Bool) (tick : W64) : State :=
  let s := clearForces (enterStopAs s 0x000B own)
  let s := s.modImg (fun i => { i with pubForces := [] })
  let s := refSwitch (fieldOff (installPackage s i))
  let s := s.modBoot (fun b => { b with
    prepared := none, switchAt := none, switchTick := tick, sPkg := SlotSt.reset, refusedPkg := false })
  canReprogram (checkProgram (loadProgram (s.modCtl (fun c => { c with
    coldNext := true, startsAt := if own then some (s.time.raw + BitVec.ofNat 64 (rUs s.boot.ts.toNat)) else none }))))

/-- A switchover whose package this side does not hold: the side leaves the pair and stops (R486). -/
def switchWithout (s : State) (tick : W64) : State :=
  let s := changePair s (fun p => { p with hello := none })
  (enterStop s 0x000B).modBoot (fun b => { b with switchAt := none, switchTick := tick })

/-- A switchover applies at the end of its release (R486, R487). A staged package that is not the owning side's is refused
(R470, code 0x0A). -/
def switchOver (s : State) : State :=
  match s.boot.switchAt with
  | none => s
  | some tick =>
    let own := owns s || !isPaired s
    let f := freeValue s
    let s := if own then s else f.2
    match s.boot.prepared with
    | some i =>
      if own || i.man.digest == Config.ownerStaged f.1 then takePrepared s i own tick
      else (switchWithout (refuseImage s 0x0A) tick).modBoot (fun b => { b with prepared := none, sPkg := { b.sPkg with state := 4 } })
    | none => switchWithout s tick

/-- A stop or restart commanded during the cycle (R459). -/
def stopNow (s : State) : State :=
  match s.ctl.stopPending with
  | some r => enterStop s r
  | none => s

end Sys2Proof.Machine
end

