-- ==== Sys2Proof/Machine/Catchup.lean ====
section
/-!
DEFINITION. The catch-up: the STATE regions with their records, the LOG, the bulk passes and the snapshot of the owning side, and the loading, the replay and the entry to TWIN of the joining side (R161, R186, R195–R197, R214, R215, R420).
-/

namespace Sys2Proof.Machine

/-! ### Striped messages -/

/-- A STATE or LOG message: the lanes that are up take turns, and it is kept until a STATEACK covers it (R197). -/
def mjStripe (s : State) (m : MjMsg) : State :=
  let ls := lanesUp s
  if ls.isEmpty then s
  else
    let x : StateTx := ⟨s.pair.txSeq, m, s.time.raw⟩
    let s := mjSendOn s (if ls.contains s.pair.stripe then [s.pair.stripe] else ls) m
    s.modPair (fun p => { p with stripe := !p.stripe, unacked := p.unacked ++ [x] })

/-- Most bytes of region data in one STATE message: the payload's 32,768 less region and offset (R193). -/
def stateData : Nat := 32759

/-- One STATE message, its bytes counted in 0x1200:13. -/
def sendState (s : State) (region off : Nat) (data : Bytes) : State :=
  mjStripe (s.modPair (fun p => { p with cBytes := p.cBytes + BitVec.ofNat 64 data.length })) (.state region off data)

/-- Bytes cut into pieces of a length. -/
def cutBytes (n : Nat) : Nat → Bytes → List Bytes
  | 0, _ => []
  | fuel + 1, b => if b.isEmpty then [] else b.take n :: cutBytes n fuel (b.drop n)

/-- A region that is a list of records, from its offset 0 on; a list without records is sent as such (R195). -/
def sendList (s : State) (region : Nat) (b : Bytes) : State :=
  let cs := cutBytes stateData (b.length / stateData + 1) b
  let cs := if cs.isEmpty then [[]] else cs
  (cs.zipIdx).foldl (fun s c => sendState s region (c.2 * stateData) c.1) s

/-! ### Memory images -/

/-- Page length of the memory images (R195). -/
def pageLen : Nat := 4096

/-- Memory of a native region 0x01–0x06 (table "STATE regions"). -/
def regionMem (s : State) (region : Nat) : List (Nat × Byte) :=
  match region with
  | 1 => s.n0.tcm | 2 => s.n1.tcm | 3 => s.n0.dram | 4 => s.n1.dram | 5 => s.n0.mram | _ => s.n1.mram

/-- Bytes written in a native region. -/
def putRegion (s : State) (region off : Nat) (b : Bytes) : State :=
  match region with
  | 1 => s.modN0 (fun c => { c with tcm := putBytes c.tcm off b })
  | 2 => s.modN1 (fun c => { c with tcm := putBytes c.tcm off b })
  | 3 => s.modN0 (fun c => { c with dram := putBytes c.dram off b })
  | 4 => s.modN1 (fun c => { c with dram := putBytes c.dram off b })
  | 5 => s.modN0 (fun c => { c with mram := putBytes c.mram off b })
  | _ => s.modN1 (fun c => { c with mram := putBytes c.mram off b })

/-- Pages of the MRAM retained window of a core pair: 256 KiB (table "Native address map"). -/
def mramPages : Nat := 64

/-- Pages that phases 2 and 3 transfer: the native partition and the MRAM retained windows (R214, R395). -/
def partitionPages (s : State) : List (Nat × Nat) :=
  pkgD s [] (·.keptPages) ++ (List.range mramPages).map (fun i => (5, i)) ++ (List.range mramPages).map (fun i => (6, i))

/-- A committed copy as bytes: place, tick, cycle, digest, points and slots, each list with its count; the manual gives no
layout of these bytes. -/
def copyBytes (x : Nat × RetCopy) : Bytes :=
  beBytes 1 x.1 ++ beBytes 8 x.2.tick.toNat ++ beBytes 4 x.2.cycle.toNat ++ padTo 32 x.2.digest ++
    beBytes 3 x.2.points.length ++ x.2.points.flatMap (fun p => beBytes 3 p.1 ++ TWord.bytes p.2) ++
    beBytes 3 x.2.slots.length ++ x.2.slots.flatMap (fun p => beBytes 3 p.1 ++ beBytes 8 p.2.toNat)

/-- Region 0x07: every task's committed copies, after their number (R44, R195). -/
def copiesBytes (s : State) : Bytes := beBytes 1 s.img.copies.length ++ s.img.copies.flatMap copyBytes

/-- Pages of regions 0x01–0x06 and, in phase 2, of 0x07: region, offset and bytes. -/
def imagePages (s : State) (retained : Bool) : List (Nat × Nat × Bytes) :=
  (partitionPages s).map (fun x => (x.1, pageLen * x.2, bytesAt (regionMem s x.1) (pageLen * x.2) pageLen)) ++
    (if retained then
      (cutBytes pageLen ((copiesBytes s).length / pageLen + 1) (copiesBytes s)).zipIdx.map (fun c =>
        (7, pageLen * c.2, padTo pageLen c.1))
     else [])

/-- The pages written since they were last sent go out (R195). -/
def sendPages (s : State) (retained : Bool) : State :=
  ((imagePages s retained).filter (fun x => !s.pair.stored.contains x)).foldl (fun s x =>
    let s := sendState s x.1 x.2.1 x.2.2
    s.modPair (fun p => { p with
      stored := p.stored.filter (fun y => y.1 != x.1 || y.2.1 != x.2.1) ++ [x] })) s

/-! ### Records -/

/-- PAIR entries that MRAM keeps, with their record of region 0x08. -/
def pairValues (s : State) : List (Nat × Bytes) :=
  let a1 := s.boot.a1.getD []
  (entryKey 0x1600 9, beBytes 2 0x1600 ++ [9, 13] ++ beBytes 2 a1.length ++ a1) ::
  s.dict.settings.filterMap (fun x =>
    match findEntry s (x.1 / 256) (x.1 % 256) with
    | some r =>
      if r.access = .pair ∧ r.pers = .mram then
        let n := (typLen r.typ).getD 4
        some (x.1, beBytes 2 (x.1 / 256) ++ beBytes 1 (x.1 % 256) ++ beBytes 1 r.typ ++ beBytes 2 n ++ beBytes n x.2)
      else none
    | none => none)

/-- The values changed since they were last sent go out as region 0x08. -/
def sendValues (s : State) : State :=
  let new := (pairValues s).filter (fun x => !s.pair.stored.contains (8, x.1, x.2))
  let s := sendList s 8 (new.flatMap (·.2))
  s.modPair (fun p => { p with
    stored := p.stored.filter (fun y => y.1 != 8 || !new.any (fun x => x.1 == y.2.1)) ++ new.map (fun x => (8, x.1, x.2)) })

/-- Region 0x09: the forces as 0x2210:06 shows them. -/
def forceRecords (s : State) : Bytes :=
  s.img.forces.flatMap (fun f => beBytes 3 f.point ++ TWord.bytes f.forced ++ TWord.bytes f.shadow)

/-- Region 0x0A: the points in use. -/
def pointRecords (s : State) : Bytes :=
  (s.img.descs.filter (fun d => d.2.source != srcUnused)).flatMap (fun d =>
    beBytes 3 d.1 ++ TWord.bytes (pointWord s.img d.1) ++
      TWord.bytes (match forceOn s.img d.1 with | some f => f.shadow | none => TWord.zero))

/-- Region 0x0B: the block state slots in use. -/
def slotRecords (s : State) : Bytes := s.img.slots.flatMap (fun x => beBytes 3 x.1 ++ beBytes 8 x.2.toNat)

/-- GOOSE publications in publication order. -/
def goosePubs (s : State) : List (Nat × PubCfg) := (pkgD s [] (·.pubs)).filter (fun x => x.2.kind == 2)

/-- Region 0x0C: the counts. -/
def countRecord (s : State) : Bytes :=
  beBytes 8 s.cyc.cutTick.toNat ++ (s.cyc.tasks.take 4).flatMap (fun (t : TaskSt) => beBytes 4 t.cycle.toNat) ++
    beBytes 2 (s.net.pairSeq + BitVec.ofNat 16 s.cyc.paced.length).toNat ++ beBytes 4 s.pair.nextWsn.toNat ++ beBytes 4 s.dist.next.toNat ++
    beBytes 1 s.dist.heldT.length ++ [0] ++
    (goosePubs s).flatMap (fun x => beBytes 4 (pubSt s x.1).stNum.toNat ++ beBytes 4 (pubSt s x.1).sqNum.toNat)

/-- binary64 numbers as bytes. -/
def f64Bytes (l : List F64) : Bytes := l.flatMap (fun x => beBytes 8 x.toNat)

/-- The source samples of a list from the first that a grid sample at or after an instant uses as a tap: two before it (R149). -/
def tapsBefore (l : List Tap) (t : Nat) : List Tap := l.drop ((l.filter (fun x => decide (x.inst ≤ t))).length - 2)

/-- The first grid instant that the analysis samples of a window use (R149, R152). -/
def windowGrid (q : ChSt) (fs : Nat) : Nat :=
  match q.window.head? with | some w => gridAt fs (gridIdx fs w.1 - 1) | none => 0

/-- The source samples of a channel's record; of a point channel, the words its grid samples were taken from (R147). -/
def chanTaps (s : State) (n : Nat) (c : ChannelCfg) : List Tap :=
  let q := chSt s n
  let from_ := windowGrid q (gridFs c.fast)
  if c.source = 2 then (q.grid.map (fun g => (⟨g.1, histWord s c.point g.1⟩ : Tap))).filter (fun x => decide (from_ ≤ x.inst))
  else tapsBefore q.taps from_

/-- One channel record (R161, R195). -/
def chanRecord (s : State) (n : Nat) (c : ChannelCfg) : Bytes :=
  let q := chSt s n
  let n0 := nZero c
  let fms := q.fms.take 50
  let taps := chanTaps s n c
  beBytes 1 n ++ [0] ++ beBytes 2 (min q.missing 65535) ++ beBytes 4 q.m ++ beBytes 8 (fHat q c).toNat ++
    beBytes 8 ((nextAnalysis s n c).getD (chSt s c.refCh).next) ++ beBytes 1 fms.length ++ [0, 0, 0] ++ f64Bytes fms ++
    f64Bytes (List.replicate (n0 - q.window.length) 0 ++ q.window.map (·.2.1)) ++
    (List.range (hLimit c.fast + 1)).flatMap (fun h => f64Bytes [(chSum q h).1, (chSum q h).2]) ++
    beBytes 2 taps.length ++ taps.flatMap (fun x => beBytes 8 x.inst ++ TWord.bytes x.word)

/-- Region 0x0D. -/
def chanRecords (s : State) : Bytes :=
  (pkgD s [] (·.channels)).flatMap (fun x => if x.2.source = 0 then [] else chanRecord s x.1 x.2)

/-- The pulse counts of a loop up to its latest update, newest first. -/
def loopPulses (s : State) (n : Nat) (c : LoopCfg) : List W32 :=
  let last := gridAt (gridFs c.fast) (nextUpdate s n c - max c.dv 1)
  let old := (loopSt s n).pulses.filter (fun x => decide (x.1 ≤ last))
  if c.spSource = 3 then (old.map (fun (x : Nat × W32) => x.2) ++ List.replicate c.gate 0).take c.gate else []

/-- TIME of a tick count, from the tick count of now (R54, R55). -/
def timeOfTick (s : State) (tick : W64) : Nat := tickInstant s - (s.cyc.tick - tick).toNat * tickLen

/-- Grid number of the latest update with tₖ + Δ at or before the last cutoff of a loop's task, the one that landed there (R182). -/
def landedUpdate (s : State) (c : LoopCfg) : Nat :=
  let per := max (periodOf s c.task) 1
  let cut := timeOfTick s (BitVec.ofNat 64 (s.cyc.cutTick.toNat / per * per))
  let dv := max c.dv 1
  gridIdx (gridFs c.fast) (cut - rUs c.deadlineUs) / dv * dv

/-- k as a loop record gives it: that of the latest update, or in OFF, where no landed result tells which update it belongs to, that of
the update of `landedUpdate` (R164, R186). -/
def recordK (s : State) (n : Nat) (c : LoopCfg) : W32 :=
  let l := loopSt s n
  if l.mode = 0 then l.k - BitVec.ofNat 32 ((nextUpdate s n c - max c.dv 1 - landedUpdate s c) / max c.dv 1) else l.k

/-- One loop record (R186, R195). -/
def loopRecord (s : State) (n : Nat) (c : LoopCfg) : Bytes :=
  let l := loopSt s n
  let ps := loopPulses s n c
  beBytes 1 n ++ beBytes 1 l.mode ++ beBytes 1 l.bank ++ [0] ++ beBytes 4 (recordK s n c).toNat ++ beBytes 2 l.lateRun ++
    beBytes 2 c.cells ++ beBytes 2 ps.length ++ [0, 0] ++ f64Bytes [l.i, l.d, l.x] ++
    f64Bytes ((List.range c.cells).map (fun i => mgetD l.cells i 0)) ++ ps.reverse.flatMap (fun v => beBytes 4 v.toNat)

/-- Region 0x0E: every loop, so that a loop in OFF, whose k counts on (R164), joins with its k too (R186; DESIGN CHOICE, log entry
117: the table "STATE regions" speaks of the loops not in OFF). -/
def loopRecords (s : State) : Bytes := (pkgD s [] (·.loops)).flatMap (fun x => loopRecord s x.1 x.2)

/-- Region 0x0F: the call register files of N0 and N1 (R420). -/
def callRecordsOf (s : State) : Bytes :=
  [s.n0.callRegs, s.n1.callRegs].flatMap (fun r => (r.x ++ r.f).flatMap (fun v => beBytes 4 v.toNat))

/-! ### The owning side -/

/-- Items of one tick split among messages, no item split (R196). -/
def splitItems : List LogItem → Nat → List LogItem → List (List LogItem)
  | [], _, cur => if cur.isEmpty then [] else [cur]
  | x :: t, room, cur =>
    if x.size ≤ room then splitItems t (room - x.size) (cur ++ [x])
    else (if cur.isEmpty then [] else [cur]) ++ splitItems t (32768 - 8 - x.size) [x]

/-- The items of a tick in the order of their type codes (R196). -/
def orderItems (xs : List LogItem) : List LogItem := ([1, 2, 3, 4, 5, 6, 7] : List Nat).flatMap (fun c => xs.filter (fun x => x.code == c))

/-- What is logged goes out as LOG, from phase 4 on (R214). -/
def flushLog (s : State) : State :=
  if s.pair.serving < 4 then s
  else
    let l := s.pair.log
    l.foldl (fun s x => (splitItems (orderItems x.2) (32768 - 8) []).foldl (fun s c => mjStripe s (.log x.1 c)) s)
      (s.modPair (fun p => { p with log := [] }))

/-- Phase 2 begins: everything is sent once (R214). -/
def serveBulk (s : State) : State :=
  let s := s.modPair (fun p => { p with serving := 2, pass := 1, stored := [], log := [], unacked := [], snapTick := noTick, cBytes := 0 })
  sendList (sendValues (sendPages s true)) 9 (forceRecords s)

/-- A catch-up that this side serves fails: it is counted, recorded and logged here too, and the joining side is told
(R196, R215). -/
def serveFail (s : State) (reason : Nat) : State :=
  let snap := shownSnap s (decide (3 ≤ s.pair.serving))
  let s := logPair s 5 (BitVec.ofNat 32 reason)
  let s := stopServing (s.modPair (fun p => { p with nFailed := p.nFailed.inc, cReason := reason }))
  mjSend s (.catchMsg 0 snap (some reason))

/-- CATCHUP_BULK_PASS_DONE: a pass that leaves at most 4 MiB written ends phase 2; the sixteenth that leaves more fails
(R214, R215). -/
def execCatchupBulkPassDone (dirty : Nat) (s : State) : Res :=
  if !clocksRun s then .next s else
  if s.pair.serving ≠ 2 then .next s
  else
    if dirty ≤ 4 * 1048576 then .next (mjSend (s.modPair (fun p => { p with serving := 3 })) (.catchMsg 3 noTick none))
    else if 16 ≤ s.pair.pass then .next (serveFail s 3)
    else .next (sendValues (sendPages (s.modPair (fun p => { p with pass := p.pass + 1 })) true))

/-- Pulse counts latched for updates still to come, which the loop records leave out. -/
def latePulses (s : State) : List LogItem :=
  (pkgD s [] (·.loops)).flatMap (fun x =>
    let last := gridAt (gridFs x.2.fast) (nextUpdate s x.1 x.2 - max x.2.dv 1)
    if x.2.spSource = 3 then
      ((loopSt s x.1).pulses.filter (fun p => decide (last < p.1))).map (fun p =>
        LogItem.side ⟨2, x.2.spRef, x.1, p.2, BitVec.ofNat 64 p.1⟩)
    else [])

/-- The snapshot at the end of the release of tick c: the rest of the state goes out and logging begins (R214). -/
def snapshot (s : State) : State :=
  if s.pair.serving ≠ 3 ∨ s.pair.snapTick ≠ noTick then s
  else
    let s := gooseRepeats s s.cyc.cutTick 1023
    let s := s.modPair (fun p => { p with snapTick := s.cyc.cutTick, log := [] })
    let s := sendValues (sendPages s false)
    let s := [(9, forceRecords s), (10, pointRecords s), (11, slotRecords s), (12, countRecord s), (13, chanRecords s),
      (14, loopRecords s), (15, callRecordsOf s)].foldl (fun s x => sendList s x.1 x.2) s
    logItems s s.cyc.cutTick (latePulses s)

/-- A STATE message waits for its STATEACK. -/
def stateOut (s : State) : Bool := s.pair.unacked.any (fun x => match x.msg with | .state .. => true | _ => false)

/-- STATEACK covers every message up to its SEQ; once all STATE is covered the owning side enters phase 4 (R197, R214). -/
def takeStateAck (s : State) (seq : W32) : State :=
  let s := s.modPair (fun p => { p with unacked := p.unacked.filter (fun x => newer x.seq seq) })
  if s.pair.serving = 3 ∧ s.pair.snapTick ≠ noTick ∧ stateOut s = false then
    let s := mjSend (s.modPair (fun p => { p with serving := 4 })) (.catchMsg 4 s.pair.snapTick none)
    flushLog s
  else s

/-- STATE_RESEND_TIMER: what no STATEACK has covered 100 µs after it was sent goes out again under its SEQ (R197). -/
def execStateResendTimer (s : State) : Res :=
  if !clocksRun s then .next s else
  let ls := lanesUp s
  let due := s.pair.unacked.filter (fun x => decide (rUs 100 ≤ elapsed s x.atRaw))
  if ls.isEmpty || due.isEmpty then .next s
  else
    .next (due.foldl (fun s x =>
      let lane := if ls.contains s.pair.stripe then [s.pair.stripe] else ls
      let h := mjHdr s (!lane.contains false) x.seq
      let s := send s (.miojo lane h x.msg (mjWire h x.msg))
      s.modPair (fun p => { p with
        stripe := !p.stripe,
        sent0 := if lane.contains false then s.time.raw else p.sent0,
        sent1 := if lane.contains true then s.time.raw else p.sent1,
        unacked := p.unacked.map (fun y => if y.seq = x.seq then { y with atRaw := s.time.raw } else y) })) s)

/-! ### Reading records -/

/-- A big-endian field. -/
def fld (b : Bytes) (off n : Nat) : Nat := beNat (slice b off n)

/-- A word in the form of R5. -/
def fldWord (b : Bytes) (off : Nat) : TWord := ⟨BitVec.ofNat 8 (fld b off 1), BitVec.ofNat 32 (fld b (off + 1) 4)⟩

/-- binary64 numbers from an offset. -/
def fldF64 (b : Bytes) (off count : Nat) : List F64 := (List.range count).map (fun i => BitVec.ofNat 64 (fld b (off + 8 * i) 8))

/-- Records one after another, each consumed by a function that says how long it was. -/
def eachRecord (f : State → Bytes → State × Nat) : Nat → Bytes → State → State
  | 0, _, s => s
  | fuel + 1, b, s =>
    if b.isEmpty then s
    else
      let r := f s b
      eachRecord f fuel (b.drop (max r.2 1)) r.1

/-- All records of a region. -/
def readRecords (s : State) (b : Bytes) (f : State → Bytes → State × Nat) : State := eachRecord f b.length b s

/-- A committed copy from its bytes. -/
def readCopy (s : State) (b : Bytes) : State × Nat :=
  let np := fld b 45 3
  let ns := fld b (48 + 8 * np) 3
  let c : RetCopy := ⟨BitVec.ofNat 64 (fld b 1 8), BitVec.ofNat 32 (fld b 9 4), slice b 13 32,
    (List.range np).map (fun i => let p := fld b (48 + 8 * i) 3; (p, normWord (descOf s.img p).typ (fldWord b (51 + 8 * i)))),
    (List.range ns).map (fun i => (fld b (51 + 8 * np + 11 * i) 3, BitVec.ofNat 64 (fld b (54 + 8 * np + 11 * i) 8)))⟩
  (s.modImg (fun i => { i with copies := mset i.copies (fld b 0 1) c }), 51 + 8 * np + 11 * ns)

/-- The committed copies from region 0x07; what pads its last page is no copy. -/
def readCopies (s : State) (b : Bytes) : State :=
  if b.isEmpty then s else eachRecord readCopy (fld b 0 1) (b.drop 1) (s.modImg (fun i => { i with copies := [] }))

/-- Region 0x08 taken: each value is stored. -/
def readValueRec (s : State) (b : Bytes) : State × Nat :=
  let n := fld b 4 2
  (if fld b 0 2 = 0x1600 then putA1 s (slice b 6 n) else putSetting s (fld b 0 2) (fld b 2 1) (fld b 6 n), 6 + n)

/-- Region 0x09 taken. -/
def readForce (s : State) (b : Bytes) : State × Nat :=
  let p := fld b 0 3
  let w := fun (i : Img) (o : Nat) => normWord (descOf i p).typ (fldWord b o)
  (s.modImg (fun i => { i with forces := forcePut i.forces ⟨p, w i 3, w i 8⟩ }), 13)

/-- Region 0x0A taken. -/
def readPoint (s : State) (b : Bytes) : State × Nat :=
  let p := fld b 0 3
  (s.modImg (fun i => { i with points := mset i.points p (normWord (descOf i p).typ (fldWord b 3)) }), 13)

/-- Region 0x0B taken. -/
def readSlot (s : State) (b : Bytes) : State × Nat :=
  (s.modImg (fun i => { i with slots := mset i.slots (fld b 0 3) (BitVec.ofNat 64 (fld b 3 8)) }), 11)

/-- Region 0x0C taken. What the record leaves out of a GOOSE publication is taken as in its steady state: the last message
carried the words as they are, and Tmax runs. -/
def readCounts (s : State) (b : Bytes) : State :=
  if b.isEmpty then s
  else
    let tick := BitVec.ofNat 64 (fld b 0 8)
    let s := s.modCyc (fun c => { c with
      cutTick := tick, firstTick := false,
      tasks := (c.tasks.zipIdx).map (fun x => { x.1 with cycle := BitVec.ofNat 32 (fld b (8 + 4 * x.2) 4), firstCycle := false }) })
    let s := s.modNet (fun n => { n with pairSeq := BitVec.ofNat 16 (fld b 24 2) })
    let s := s.modPair (fun p => { p with nextWsn := BitVec.ofNat 32 (fld b 26 4) })
    let s := s.modDist (fun d => { d with next := BitVec.ofNat 32 (fld b 30 4) })
    ((goosePubs s).zipIdx).foldl (fun s x =>
      let c := x.1.2
      let sq := fld b (40 + 8 * x.2) 4
      let every := gooseInterval s c sq
      modPub s x.1.1 (fun p => { p with
        stNum := BitVec.ofNat 32 (fld b (36 + 8 * x.2) 4), sqNum := BitVec.ofNat 32 sq,
        words := pubWords s c, interval := every, nextAt := some (tick + BitVec.ofNat 64 every) })) s

/-- A function run as at another TIME; RAW stands. -/
def asAt (s : State) (t : Nat) (f : State → State) : State :=
  let b := s.time.base
  let a := s.time.anchor
  let s := f (s.modTime (fun x => { x with base := BitVec.ofNat 80 t, anchor := x.raw }))
  s.modTime (fun x => { x with base := b, anchor := a })

/-- The analysis instants of a window that ends before instant `nx`, newest first, as the tracked frequencies in force give them:
f̂ since the last measurement, and before it the one set by the measurement before (R152, R154). -/
def backInstants (c : ChannelCfg) (f prev : F64) (m nx : Nat) : Nat → List (Nat × Nat × F64)
  | 0 => []
  | fuel + 1 =>
    let a := nx - analysisStep c f
    (m, a, f) :: backInstants c (if m % max (nZero c) 1 = 0 then prev else f) prev (m - 1) a fuel

/-- One channel record taken (R161). The instants of the window follow from the next one and the frequencies, its tags are
rebuilt from the taps, the phase at the last measurement from X₁, and the measurement from f_m; ROCOF over all 50 periods, for
which the record has no oldest f_m, stands as its result point shows it; a run below the threshold counts from the window's
earliest instant (DESIGN CHOICE, log entry 132). -/
def readChan (s : State) (b : Bytes) : State × Nat :=
  let n := fld b 0 1
  match chCfg s n with
  | none => (s, b.length)
  | some c =>
    let n0 := nZero c
    let fs := gridFs c.fast
    let h := fld b 24 1
    let o := 28 + 8 * h
    let hs := hLimit c.fast + 1
    let o2 := o + 8 * n0
    let o3 := o2 + 16 * hs
    let nt := fld b o3 2
    let m := fld b 4 4
    let f : F64 := BitVec.ofNat 64 (fld b 8 8)
    let nx := nearTime (timeNow s) (BitVec.ofNat 64 (fld b 16 8))
    let fms := fldF64 b 28 h
    let fhs := f :: (fms.drop 1).map (clampF c)
    let back := backInstants c f (fhs.getD 1 f) m nx n0
    let win := ((fldF64 b o n0).zip (back.reverse.map (·.2.1))).drop (n0 - m)
    let xs := fldF64 b o2 (2 * hs)
    let sums := (List.range hs).map (fun i => (xs.getD (2 * i) 0, xs.getD (2 * i + 1) 0))
    let taps := (List.range nt).map (fun i =>
      (⟨nearTime (timeNow s) (BitVec.ofNat 64 (fld b (o3 + 2 + 13 * i) 8)), fldWord b (o3 + 10 + 13 * i)⟩ : Tap))
    let arg := sumArg (sums.getD 1 (0, 0))
    let turns := fadd (fdiv arg twoPi) (fdiv (fint (m % n0 : Nat)) (fint n0))
    let cl := (match fms with | x :: _ => clampF c x == f && x != f | [] => false)
    let a1 := (back.head?.map (·.2.1)).getD 0
    let K := chPeriods s n
    let s := modChan s n (fun q => { q with
      taps := if c.source = 2 then [] else taps, missing := fld b 2 2,
      lastGood := taps[taps.length - 1 - min (fld b 2 2) (taps.length - 1)]?.map (·.word),
      convNext := if c.source = 3 then (taps.getLast?.map (fun x => gridIdx fs x.inst + 1)) else q.convNext,
      grid := if c.source = 2 then taps.map (fun x => (x.inst, pointF64 s c.point x.word, x.word)) else [],
      lastGrid := if c.source = 2 then (taps.getLast?.map (fun x => gridIdx fs x.inst)) else none,
      m := m, filled := m, next := if c.refCh = n then nx else 0, lastA := if m = 0 then 0 else a1,
      window := win.map (fun y => (y.2, y.1, 0)), sums := sums, fhat := f, psi := arg, fms := fms, fhs := fhs,
      periods := m / n0 - 1, freq := fms.getD 0 0, kper := K, thr := chThreshold s n, clamped := cl,
      roc := if K < h then rocof fms fhs K else f64OfF32 (pointWord s.img (c.base + 4)).val,
      results := [], belowSince := none, conv := [] })
    let low := belowThr s n c
    let es := if m = 0 then [] else (back.take m).map (fun x => (⟨x.1, x.2.1, x.2.2, cl, low, carryPhase turns 1 a1 x.2.1 x.2.2⟩ : AInst))
    let s := modChan s n (fun q => { q with
      cur := es.head?.getD AInst.reset, insts := if c.refCh = n then es else [],
      belowSince := if low && c.refCh == n then es.getLast?.map (·.at_) else none })
    let s := if c.source = 2 then s else formGrid 1024 s n c
    let g := (chSt s n).grid.map (fun x => (x.1, x.2.1, x.2.2.tag))
    let s := modChan s n (fun q => { q with
      window := q.window.map (fun y => (y.1, y.2.1, match interp g y.1 with | some r => r.2 | none => 0)) })
    let s := setChBit (setChBit (setChBit s n 6 (decide (m < n0))) n 3 cl) n 0 (fld b 2 2 == 0)
    (setChBit s n 2 (!low), o3 + 2 + 13 * nt)

/-- One loop record taken (R186). What it leaves out follows from the loop's result words: the instant of update k from the
update that landed last, the output, the set-point and the status. -/
def readLoop (s : State) (b : Bytes) : State × Nat :=
  let n := fld b 0 1
  let M := fld b 10 2
  let G := fld b 12 2
  let len := 40 + 8 * M + 4 * G
  match loopCfg s n with
  | none => (s, len)
  | some c =>
    let w := fun i => pointWord s.img (c.base + i)
    let fs := gridFs c.fast
    let dv := max c.dv 1
    let k : W32 := BitVec.ofNat 32 (fld b 4 4)
    let g0 := landedUpdate s c
    let off := decide (fld b 1 1 = 0)
    let next := if off then g0 + dv else g0 + ((k - (w 7).val).toNat + 1) * dv
    let words := (List.range 8).map w
    let x := fldF64 b 16 3
    let ps := (List.range G).map (fun i => (BitVec.ofNat 32 (fld b (40 + 8 * M + 4 * i) 4) : W32))
    let s := modLoop s n (fun l => { l with
      mode := fld b 1 1, bank := fld b 2 1, par := [], wants := [], nextG := some next, k := k, lateRun := fld b 8 2,
      i := x.getD 0 0, d := x.getD 1 0, x := x.getD 2 0, first := k == 0,
      cells := ((fldF64 b 40 M).zipIdx).filterMap (fun y => if y.1 = 0 then none else some (y.2, y.1)),
      last := words, status := (w 6).val.truncate 16, spWord := w 2, spVal := f64OfF32 (w 2).val,
      u := f64OfF32 (w 0).val, landed := gridAt fs g0 + rUs c.deadlineUs,
      results := if off || w 7 == TWord.unused then [] else [⟨gridAt fs g0 + rUs c.deadlineUs, (w 7).val, words⟩],
      pulses := (ps.reverse.zipIdx).map (fun y => (gridAt fs (next - dv - y.2 * dv), y.1)) })
    (s, len)

/-- Region 0x0F taken. -/
def readCalls (s : State) (b : Bytes) : State :=
  if b.isEmpty then s
  else
    let regs := fun o => (⟨(List.range 31).map (fun i => BitVec.ofNat 32 (fld b (o + 4 * i) 4)),
      (List.range 32).map (fun i => BitVec.ofNat 32 (fld b (o + 124 + 4 * i) 4))⟩ : Regs)
    (s.modN0 (fun c => { c with callRegs := regs 0 })).modN1 (fun c => { c with callRegs := regs 252 })

/-- The newest list of a record region among the stored messages: each message at offset 0 begins a new list. -/
def newestList (s : State) (region : Nat) : Bytes :=
  (s.pair.stored.filter (fun x => x.1 == region)).foldl (fun b x => if x.2.1 = 0 then x.2.2 else b.take x.2.1 ++ x.2.2) []

/-- Region 0x08 is a list of what changed: every list of it counts, in the order of arrival. -/
def valueLists (s : State) : Bytes := (s.pair.stored.filter (fun x => x.1 == 8)).flatMap (·.2.2)

/-- PAIR entries that MRAM keeps give way to the owning side's. -/
def dropPairValues (s : State) : State :=
  let ks := (pairValues s).map (·.1)
  s.modDict (fun d => { d with settings := d.settings.filter (fun x => !ks.contains x.1) })

/-- The operate-once entries that hold another value than their default at the snapshot: each takes its default at the boundary at
which the owning side's does (R211). Points are all listed, since their default changes nothing in one that holds it. -/
def joinRevert (s : State) : List (Nat × Nat) :=
  let all := [(0x1A10, 9), (0x1B00, 0x10)] ++ pkgD s [] (·.operateOnce)
  (all.filter (fun x => decide (0x4000 ≤ x.1) || (mget s.dict.settings (entryKey x.1 x.2)).isSome)).map (fun x =>
    (entryKey x.1 x.2, entryTask s x.1 x.2))

/-- Trigger points as a release leaves them; a joining side triggers nothing (R339). -/
def followTriggers (s : State) (due : BitVec 4) : State :=
  s.modDist (fun d => { d with prev := ((recCfgOf s).triggers.zipIdx).foldl (fun m x =>
    if due.getLsbD (descOf s.img x.1).task then mset m x.2 ((pointWord s.img x.1).val == 1) else m) d.prev })

/-- The snapshot is loaded: the core pairs are released for the calls of the replay, and what was stored takes its place
(R214, R385). -/
def loadSnapshot (s : State) : State :=
  let s := clearCycle (loadProgram (nativeRelease s))
  let s := readRecords (dropPairValues s) (valueLists s) readValueRec
  let s := s.modImg (fun i => { i with points := [], slots := [], misses := [], hist := [], forces := [] })
  let s := loopsStart (channelsStart s)
  let s := s.modLoops (fun m => m.map (fun x => (x.1, { x.2 with mode := 0 })))
  let s := s.pair.stored.foldl (fun s x => if 1 ≤ x.1 ∧ x.1 ≤ 6 then putRegion s x.1 x.2.1 x.2.2 else s) s
  let s := readCopies s (newestList s 7)
  let s := readRecords s (newestList s 10) readPoint
  let s := readRecords s (newestList s 9) readForce
  let s := readRecords s (newestList s 11) readSlot
  let s := readCounts s (newestList s 12)
  let s := readRecords s (newestList s 13) readChan
  let s := readRecords s (newestList s 14) readLoop
  let s := readCalls s (newestList s 15)
  let s := followTriggers (s.modImg (fun i => { i with published := i.points, pubForces := i.forces })) 0xF
  let s := s.modCyc (fun c => { c with
    lastTick := some (tickInstant s), lastTickRaw := none, stepped := false, confirmed := false, revert := joinRevert s, change := c.change.abandon (s.boot.sChange.state == 2) })
  s.modPair (fun p => { p with
    stored := [], seqs := p.seqs.filter (fun i => decide (s.cyc.cutTick.toNat < i.msg.target.toNat)) })

/-! ### The replay -/

/-- One logged sample set enters the channels (R145, R214). -/
def replaySample (s : State) (about : Nat) (m : SampleMsg) (f : Option SvFrame) : State :=
  let t := nearTime about m.inst
  let s := match f with
    | some f =>
      let i := f.asdus.findIdx (fun a => a.smpCnt == m.smpCnt)
      useSample s m.stream f (if i < f.asdus.length then i else 0) t false
    | none => missSample s m.stream t
  endSample s m.stream t m.smpCnt

/-- A side input of the partner, or a logged one, made about a TIME (R148, R173, R194). -/
def replaySide (s : State) (about : Nat) (x : SideItem) : State :=
  let t := nearTime about x.stamp
  if x.kind = 1 then converterTap s x.target t (x.value &&& 0xFFFF)
  else if x.kind = 2 then putPulse s x.target t x.value
  else s

/-- A logged sample or side input that the engines have at a TIME. -/
def itemReady (s : State) (t : Nat) : LogItem → Bool
  | .sampleSet m _ => decide (nearTime t m.inst + streamLim s m.stream ≤ t)
  | .side x => decide (nearTime t x.stamp ≤ t)
  | .landed .. | .landedGoose .. | .owned _ | .command _ | .skipped | .announce _ => false

/-- The logged samples and side inputs up to a TIME are taken, in their order. -/
def takeLogged (s : State) (t : Nat) : State :=
  let now := s.pair.log.flatMap (fun x => x.2.filter (itemReady s t))
  let s := s.modPair (fun p => { p with log := p.log.map (fun x => (x.1, x.2.filter (fun i => !itemReady s t i))) })
  now.foldl (fun s i =>
    match i with
    | .sampleSet m f => replaySample s t m f
    | .side x => replaySide s t x
    | .landed .. | .landedGoose .. | .owned _ | .command _ | .skipped | .announce _ => s) s

/-- The channel engines replay up to a TIME. -/
def channelsTo (s : State) (t : Nat) : State := asAt (takeLogged s t) t channelsNow

/-- The loop whose next update comes first, with the TIME it is made at. -/
def nextLoop (s : State) : Option (Nat × LoopCfg × Nat) :=
  (pkgD s [] (·.loops)).foldl (fun (b : Option (Nat × LoopCfg × Nat)) x =>
    let t := gridAt (gridFs x.2.fast) (nextUpdate s x.1 x.2) + rUs x.2.deadlineUs - rUs 2
    match b with
    | none => some (x.1, x.2, t)
    | some y => if t < y.2.2 then some (x.1, x.2, t) else some y) none

/-- The engines replay up to a TIME: each loop update at its own, with the channels as they stood then. -/
def enginesTo : Nat → State → Nat → State
  | 0, s, t => channelsTo s t
  | fuel + 1, s, t =>
    match nextLoop s with
    | none => channelsTo s t
    | some (n, c, u) =>
      if t < u then channelsTo s t
      else enginesTo fuel (asAt (channelsTo s u) u (fun s => (loopStep s n c).getD s)) t

/-- The engines before a cutoff lands: a joining side's replay what they lack, a running side's take the samples agreed since the
last grid instant, so that the latest grid sample with tₙ + D_ch ≤ I has its results (R160, R214). -/
def joinEngines (s : State) : State :=
  if s.ctl.mode = .catchup then enginesTo 4096 s s.cyc.cutTime.toNat else channelsNow (forceSamples s)

/-- What the partner sent is followed in the numbers of the publications; nothing leaves this side (R229, R240). -/
def followPubs (s : State) (due : BitVec 4) : State :=
  let t := gooseRepeats (sendPublications s due) s.cyc.cutTick 1023
  (s.modCyc (fun c => { c with seqPlan := t.cyc.seqPlan })).modNet (fun n => { n with
    pairSeq := t.net.pairSeq,
    pubs := t.net.pubs.map (fun x =>
      let p := pubSt s x.1
      (x.1, { p with stNum := x.2.stNum, sqNum := x.2.sqNum, words := x.2.words, interval := x.2.interval, nextAt := x.2.nextAt })) })

/-- A replayed tick ends. -/
def endReplay (s : State) : State :=
  let due := s.cyc.cutDue
  let s := followTriggers (publishWords (followPubs s due)) due
  s.modCyc (fun c => { c with phase := .slack, released := true })

/-- The log holds what a tick executed with, or that it was skipped. -/
def logMarks (xs : List LogItem) : Bool := xs.any (fun i => i.code == 2 || i.code == 4)

/-- The landed frames, owned words and commands of a logged tick. -/
def landedOf (xs : List LogItem) : Arrivals :=
  xs.filterMap (fun i => match i with
    | .landed n g f => some (n, g, SlotFrame.net f)
    | .landedGoose n g f => some (n, g, SlotFrame.goose f)
    | .owned _ | .command _ | .skipped | .sampleSet .. | .side _ | .announce _ => none)
def ownedOf (xs : List LogItem) : List (Nat × TWord) :=
  xs.flatMap (fun i => match i with
    | .owned ws => ws
    | .landed .. | .landedGoose .. | .command _ | .skipped | .sampleSet .. | .side _ | .announce _ => [])
def commandsOf (xs : List LogItem) : List WriteMsg :=
  xs.filterMap (fun i => match i with
    | .command w => some w
    | .landed .. | .landedGoose .. | .owned _ | .skipped | .sampleSet .. | .side _ | .announce _ => none)
def announcedOf (xs : List LogItem) : List Announce :=
  xs.filterMap (fun i => match i with
    | .announce a => some a
    | .landed .. | .landedGoose .. | .owned _ | .command _ | .skipped | .sampleSet .. | .side _ => none)

/-- One logged tick is replayed (R214): the agreed time state, what landed, the boundary with the logged commands, and the
tasks. A step of TIME is not made again. -/
def replayTick (s : State) (tick : W64) (xs : List LogItem) : State :=
  let due := dueAt s tick.toNat
  let s := s.modPair (fun p => { p with log := p.log.map (fun x =>
    if x.1 = tick then (x.1, x.2.filter (fun i => i.code == 5 || i.code == 6)) else x) })
  let s := (announcedOf xs).foldl (fun s a => applyAnnounce s { a with step := false }) s
  let s := modDue s due (fun t => { t with cycle := t.cycle + 1 })
  let s := s.modCyc (fun c => { c with cutTick := tick, cutDue := due, cutCycles := c.tasks.map (·.cycle) })
  if xs.any (fun i => i.code == 4) then modDue s due (fun t => { t with skipped := t.skipped.inc })
  else
    let s := s.modCyc (fun c => { c with cutTime := BitVec.ofNat 80 (timeOfTick s tick), partnerTick := none })
    let ws := commandsOf xs
    let s := s.modPair (fun p => { p with
      seqs := ws.map (fun w => ⟨w, false, 0, .port .h, 0⟩) ++
        p.seqs.filter (fun i => !ws.any (fun w => w.wsn == i.msg.wsn) && decide (tick.toNat < i.msg.target.toNat)) })
    let s := joinEngines (reachEngines (s.modCyc (fun c => { c with confirmed := true })))
    let s := planSeqs (leavePaced s s.cyc.cutTime.toNat)
    let s := beginExecution s (landedOf xs) (ownedOf xs)
    if s.cyc.todo.isEmpty && s.cyc.calls.isEmpty then endReplay s else s

/-- Phase 5 (R214): what is left to agree is the next tick. -/
def beginVerify (s : State) : State :=
  let s := s.modPair (fun p => { p with
    phase := 5, seqs := p.seqs.filter (fun i => decide (s.cyc.cutTick.toNat < i.msg.target.toNat)) })
  mjSend s (.catchMsg 5 s.pair.snapTick none)

/-- Every due tick up to the live one has been replayed. -/
def metLive (s : State) : Bool :=
  let gap := (s.cyc.tick - s.cyc.cutTick).toNat
  decide (gap < 65536) && (List.range gap).all (fun i => dueAt s (s.cyc.cutTick.toNat + 1 + i) == 0)

/-- CATCHUP_REPLAY_TICK: a joining side in phase 4 ends the tick whose calls have returned, replays the next logged one, or
moves to verify; with more than 64 logged ticks before it the replay has failed (R214, R215). -/
def execCatchupReplayTick (s : State) : Res :=
  if s.ctl.mode ≠ .catchup ∨ s.pair.phase ≠ 4 then .next s
  else if s.cyc.phase = .executing then
    if s.cyc.todo.isEmpty && s.cyc.calls.isEmpty then .next (endReplay s) else .next s
  else
    let left := s.pair.log.filter (fun x => logMarks x.2 && decide (s.cyc.cutTick.toNat < x.1.toNat))
    if 64 < left.length then .next (catchFail s 4)
    else
      match left with
      | x :: _ => .next (replayTick s x.1 x.2)
      | [] => if metLive s then .next (beginVerify s) else .next s

/-- EXECUTION_START: at I + 20 µs with the agreement complete, or as soon as it is (R59); a joining side's engines first replay what
they lack. -/
def execExecutionStart (s : State) : Res :=
  if !clocksRun s then .next s else
  if s.cyc.phase ≠ .agreeing ∨ timeNow s < s.cyc.cutTime.toNat + rUs 20 ∨ agreed s = false then .next s
  else if partnerSkips s then .next (undoCutoff s)
  else
    let s := countLate s
    let s := s.modPair (fun p => { p with nContent := p.nContent.add (unionDiffers s) })
    let xs := unionOf s
    let inputs := s.cyc.inputs ++ (match s.cyc.partnerTick with
      | some t => t.inputs.filter (fun x => (descOf s.img x.1).source == srcField && !s.cyc.inputs.any (fun y => y.1 == x.1))
      | none => [])
    .next (beginExecution (joinEngines (logLanding s xs inputs)) xs inputs)

/-- Station applications start from their entry points; memories, call registers and counters stand, and a frozen pair stays frozen
(R214, R385, R394, R405). -/
def stationStart (p : CpSt) (entry : W32) : CpSt :=
  { CpSt.reset with
    released := true, pc := entry, tcm := p.tcm, dram := p.dram, mram := p.mram, dmb := p.dmb, recr := p.recr,
    dbgArmed := p.dbgArmed, lockstep := p.lockstep, callRegs := p.callRegs, vec := p.vec, frozen := p.frozen,
    cycleCsr := p.cycleCsr, timeCsr := p.timeCsr, instretCsr := p.instretCsr }

/-- The catch-up is complete: the joining side enters TWIN (R214, R216, R456); one after a mismatch counts as good only after
60 s in TWIN (R215). -/
def joinTwin (s : State) : State :=
  let s := logPair s 4 (s.cyc.cutTick.truncate 32)
  let us := match s.pair.cStart with | some t => elapsed s t / rUs 1 | none => 0
  let s := s.modPair (fun p => { p with
    phase := 0, nDone := p.nDone.inc, cDuration := BitVec.ofNat 32 us, stored := [], log := [], snapTick := noTick,
    cFails := if p.cMismatch then p.cFails else 0, twinSince := some s.time.raw, cRetryAt := none })
  let s := changeMode s .twin 0x0006
  let s := mpuOff ((s.modN0 (fun c => stationStart c (pkgD s 0 (·.entryN0)))).modN1 (fun c => stationStart c (pkgD s 0 (·.entryN1))))
  followTest (canJoin (canJoin (fieldRun (s.modCyc (fun c => { c with restart := 3 }))) 0) 1)

/-- The owning side's part of a completed catch-up: LEAD from tick v (R213, R214). -/
def serveDone (s : State) : State :=
  let s := logPair s 4 (s.cyc.cutTick.truncate 32)
  let s := stopServing (s.modPair (fun p => { p with nDone := p.nDone.inc, snapTick := noTick }))
  if s.ctl.mode = .alone then changeMode s .lead 0x0005 else s

end Sys2Proof.Machine
end

