-- ==== Sys2Proof/Machine/Release.lean ====
section
/-!
DEFINITION. The end of a cycle: the digests, the release decision and the release itself, the agreement and digest timeouts, and the link-loss procedure (R59, R62–R64, R71, R79, R206, R214, R218, R486).
-/

namespace Sys2Proof.Machine

/-! ### The release -/

/-- The release of a cycle (R63, R64): frames and field outputs, the words dictionary reads show, the retained sets, the
recorder, the events of the due tasks; then what waits for its end (R79, R196, R214, R219, R295, R459, R486). In DEBUG, and
on a side that R218 withholds, nothing is sourced. -/
def release (s : State) : State :=
  let due := s.cyc.cutDue
  let held := withholds s
  let live := s.ctl.mode.run && !held
  let s := if live then applyOutputs (sendPublications s due) due else if held then followPubs s due else s
  let s := if held then s else publishWords s
  let s := if live then recordPoints (detectTriggers (commit s) due) due else s
  let s := if live then dueEvents s due 5 36 (ns32Of (timeNow s)) else s
  let s := s.modCyc (fun c => { c with lastRelease := c.cutTick, released := true, phase := .slack })
  stopNow (switchOver (snapshot (handOver (flushLog (flushReplies s)))))

/-- Both digests of the partner's OUTPUT equal this side's (R205). -/
def digestsEqual (s : State) : Bool :=
  match s.cyc.partnerOut with
  | some (t, d, e) => t == s.cyc.cutTick && d == s.cyc.digest && e == s.cyc.engine
  | none => false

/-- The partner's OUTPUT of this tick has arrived. -/
def outputHere (s : State) : Bool := match s.cyc.partnerOut with | some (t, _, _) => t == s.cyc.cutTick | none => false

/-- A release with equal digests: on tick v it ends the catch-up (R206, R214). -/
def releaseEqual (s : State) : State :=
  if s.ctl.mode = .catchup then release (joinTwin s)
  else if s.pair.serving = 5 then release (serveDone s)
  else release s

/-- A side that waits with equal digests releases at once (R206). -/
def settleDigests (s : State) : State :=
  if s.cyc.phase = .output ∧ expectsTick s = true ∧ digestsEqual s = true then releaseEqual s else s

/-- The partner's OUTPUT (R205, R206). -/
def takeOutput (s : State) (tick digest engine : W64) : State :=
  settleDigests (s.modCyc (fun c => { c with partnerOut := some (tick, digest, engine) }))

/-! ### The end of execution -/

/-- Times of the execution phase, and the overrun of R71. -/
def countExecution (s : State) : State :=
  let ns := elapsed s s.cyc.startRaw / 16
  let w := ((dueList s.cyc.cutDue).map (fun t => pkgD s 0 (fun p => taskW p t))).sum
  let v : W32 := BitVec.ofNat 32 ns
  let s := modDue s s.cyc.cutDue (fun t => { t with
    lastNs := v, longestNs := if t.longestNs.toNat < v.toNat then v else t.longestNs,
    overruns := if w < ns then t.overruns.inc else t.overruns })
  if w < ns then raiseIrq s 10 else s

/-- EXECUTION_END: every rank of every due task is done and every call has returned; the digests are formed and OUTPUT is
sent, and a side that expects no partner releases (R62, R63, R71, R205, R206, R448). -/
def execExecutionEnd (s : State) : Res :=
  if !clocksRun s then .next s else
  if s.cyc.phase ≠ .executing ∨ s.cyc.todo.isEmpty = false ∨ s.cyc.calls.isEmpty = false ∨
      (s.ctl.mode = .catchup ∧ s.pair.phase ≠ 5) then .next s
  else
    let s := countExecution s
    let s := s.modCyc (fun c => { c with
      digest := digestOver s srcBlock srcNative, engine := digestOver s srcChannel srcLoop, endRaw := s.time.raw, phase := .output })
    if s.ctl.mode = .dbg ∨ isPaired s = false then .next (release s)
    else
      let s := mjSend s (.output s.cyc.cutTick s.cyc.digest s.cyc.engine)
      if !expectsTick s then .next (release s) else .next (settleDigests s)

/-! ### Link loss and the timeouts -/

/-- The link-loss procedure of R218, for a partner that is not declared dead: the owning side goes on and treats the partner
as in CATCHUP; a side whose partner owns leaves for CATCHUP; while no side owns, one goes on and requests ownership, the
other withholds. A catch-up in progress fails (reason 6 of R215). -/
def linkLoss (s : State) : State :=
  if s.ctl.mode = .catchup then
    if 2 ≤ s.pair.phase ∧ s.pair.phase ≤ 5 then catchFail (clearCycle s) 6 else s
  else if !s.ctl.mode.run then s
  else
    let s := if 2 ≤ s.pair.serving then serveFail s 6 else stopServing s
    let alone := fun (s : State) => s.modCyc (fun c => { c with alone := true })
    if owns s || !isPaired s then alone s
    else if s.pair.ownIn then leaveForCatchup s 0x000A false
    else if goesOn s then requestOwn (alone s)
    else alone s

/-- AGREEMENT_TIMEOUT: the agreement is still incomplete at I + 50 µs (R203, R218). -/
def execAgreementTimeout (s : State) : Res :=
  if !clocksRun s then .next s else
  if s.cyc.phase ≠ .agreeing ∨ timeNow s < s.cyc.cutTime.toNat + rUs 50 ∨ agreed s = true then .next s
  else .next (linkLoss s)

/-- The digests differ and this side does not take the owning side's part: the mismatch is counted and logged with the tick,
the tick is withheld and the side enters CATCHUP (R63, R84, R206, R215). -/
def leaveMismatch (s : State) : State :=
  let s := s.modPair (fun p => { p with nMismatch := p.nMismatch.inc })
  leaveForCatchup (logPair s 3 (s.cyc.cutTick.truncate 32)) 0x0009 true

/-- The verification of tick v fails on the joining side: the digests differ, or none came (R215). -/
def verifyFail (s : State) : State := catchFail (clearCycle s) (if outputHere s then 5 else 6)

/-- DIGEST_TIMEOUT: 25 µs after the end of execution a side whose digests differ, or that has no digest of its partner,
decides by its role: the owner part releases, the other side withholds the tick and enters CATCHUP. Without a digest the
link-loss procedure follows (R63, R206, R218). -/
def execDigestTimeout (s : State) : Res :=
  if !clocksRun s then .next s else
  if s.cyc.phase ≠ .output ∨ elapsed s s.cyc.endRaw < rUs 25 then .next s
  else if !expectsTick s then .next (release s)
  else if s.ctl.mode = .catchup then .next (verifyFail s)
  else if s.pair.serving = 5 then .next (release (serveFail s (if outputHere s then 5 else 6)))
  else if outputHere s then
    if ownerPart s then .next (release s)
    else
      let t := leaveMismatch s
      .next (if t.ctl.mode = .catchup then t else release t)
  else if ownerPart s then .next (linkLoss (release s))
  else
    let t := leaveForCatchup s 0x000A false
    .next (if t.ctl.mode = .catchup then t else release t)

/-! ### Switchover -/

/-- SWITCHOVER_RESUME: at the first tick at or after the end of Ts, the owning side of a switchover starts cold in ALONE;
where something holds it in STOP it lowers OWN_OUT instead (R457, R485, R486). -/
def execSwitchoverResume (s : State) : Res :=
  match s.ctl.startsAt with
  | none => .next s
  | some t =>
    if s.ctl.mode ≠ .stop ∨ 2 ^ 63 ≤ (s.time.raw - t).toNat ∨ tickInstant s < stampTime s t then .next s
    else
      let s := s.modCtl (fun c => { c with startsAt := none })
      if startHold s = 0 then .next (enterAlone s 0x000B) else .next (lowerOwn s)

end Sys2Proof.Machine
end

