-- ==== Sys2Proof/Machine/Access.lean ====
section
/-!
DEFINITION. Accesses of native masters: protection violations with what they end (R404–R406), and stores to native registers under their access codes (R9, R270, R303, R326, R353, R379, R380, R396–R408, R432).
-/

namespace Sys2Proof.Machine

/-- A violation with its effect on the calls of a core pair it freezes: the running call and those that wait end with the
word of R81 (R404, R405). -/
def breach (s : State) (v : Violation) : State :=
  if isFrozen s (masterOf v.master) then s
  else
    let s := violate s v
    match masterOf v.master with
    | .n0 => abandonPosted (abandonCall s .n0) .n0
    | .n1 => abandonPosted (abandonCall s .n1) .n1
    | .dma | .dap | .mgmt => s


/-- The master can make an access now. -/
def masterRuns (s : State) (m : Master) : Bool :=
  match m with
  | .n0 => coreRuns s .n0
  | .n1 => coreRuns s .n1
  | .dma => pllOn s.ctl.mode && s.dma.enable && !s.mpu.frDma
  | .dap => dapOpen s
  | .mgmt => clocksRun s && s.ctl.mode != .cold

/-- The accesses of a master are made in machine mode or by the debug port (MPU_FINFO.PRIV). -/
def masterPriv (s : State) (m : Master) : Bool :=
  match m with
  | .n0 => s.n0.machine | .n1 => s.n1.machine | .dma => false | .dap => true | .mgmt => true

/-- PROTECTION_VIOLATION: a read, write or fetch that a master tries, by its address and kind; it is a violation where the MPU or the
target firewall denies it, and what the record shows is what the checks found. The rules of the management cores' own context are not
given: theirs stands as it is reported (R396–R406). -/
def execProtectionViolation (v : Violation) (s : State) : Res :=
  let m := masterOf v.master
  if !masterRuns s m then .next s
  else if m == .mgmt then .next (breach s v)
  else
    match checkAccess s m v.addr.toNat v.kind (masterPriv s m) with
    | some x => .next (breach s x)
    | none => .next s

/-- Bits cleared by writing 1 (W1C), all but those that hardware sets in the same clock (R10). Commands come one after another,
so the write itself says which bits those are (log entry 98). -/
def w1c {w : Nat} (old : BitVec w) (v held : W32) : BitVec w := old &&& ((~~~ v ||| held).truncate w)

/-- A W1C flag at a place of the written word. -/
def w1cBit (old : Bool) (i : Nat) (v held : W32) : Bool := old && (!v.getLsbD i || held.getLsbD i)

/-- The 32-bit word k of a wide bit field replaced. -/
def putWord {w : Nat} (old : BitVec w) (k : Nat) (v : W32) : BitVec w :=
  (old &&& ~~~ ((0xFFFFFFFF : W32).zeroExtend w <<< (32 * k))) ||| ((v.zeroExtend w) <<< (32 * k))

/-- INTC registers: enables, hold selection and hold (R415, R432). -/
def writeIntc (s : State) (c : Cp) (o : Nat) (v : W32) : State :=
  if 0x10 ≤ o ∧ o ≤ 0x1C then modIntc s c (fun i => { i with en := putWord i.en ((o - 0x10) / 4) v ||| 1 })
  else if o = 0x40 then modIntc s c (fun i => { i with hsel := v.truncate 7 })
  else if o = 0x44 then modIntc s c (fun i => { i with holds := mput i.holds i.hsel.toNat 0 (v.toNat % 2 ^ 24) })
  else s

/-- DMA registers: a write of 1 to EN, the bus error flag and the first descriptors (R425, R429, R432). -/
def writeDma (s : State) (o : Nat) (v held : W32) : State :=
  if o = 0 then (if v.getLsbD 0 then s.modDma (fun d => { d with enable := true }) else s)
  else if o = 4 then s.modDma (fun d => { d with busErr := w1cBit d.busErr 0 v held })
  else if 0x100 ≤ o ∧ o < 0x300 ∧ o % 0x20 = 0 then modCh s ((o - 0x100) / 0x20) (fun c => { c with start := (v >>> 4).truncate 28 })
  else s

/-- A rule write of a context waits to become effective; in a locked region it is ignored and LOCKWR sets (R400, R401). -/
def waitRule (s : State) (m : Master) (w : RuleWrite) : State :=
  let x := mpuCtx s m
  let locked := fun r => (x.regions.getD r Region.reset).lock
  let stop := match w with
    | .start r _ | .last r _ | .attrs r _ => locked r
    | .enable _ => false
  if stop then modCtx s m (fun x => { x with lockWr := true })
  else modCtx s m (fun x => { x with waiting := x.waiting ++ [w] })

/-- MPU registers of the context that a master has selected (R396, R401, R407). -/
def writeMpu (s : State) (m : Master) (o : Nat) (v held : W32) : State :=
  let ctx := match m with
    | .n0 => selectedCtx s .n0 | .n1 => selectedCtx s .n1 | .dma => .dma | .dap => .dap | .mgmt => .mgmt
  let r := (o - 0x100) / 16
  if o = 0 then modCtx s ctx (fun x => { x with lockWr := w1cBit x.lockWr 16 v held })
  else if o = 4 then
    if !v.getLsbD 0 && (mpuCtx s ctx).regions.any (·.lock) then s else waitRule s ctx (.enable (v.getLsbD 0))
  else if o = 0x10 then s.modMpu (fun x => { x with frDma := w1cBit x.frDma 2 v held })
  else if o = 0xC then
    match m with
    | .n0 => if dmaOwner s = some .n0 then s.modMpu (fun x => { x with sel0 := v.getLsbD 0 }) else s
    | .n1 => if dmaOwner s = some .n1 then s.modMpu (fun x => { x with sel1 := v.getLsbD 0 }) else s
    | .dma | .dap | .mgmt => s
  else if 0x100 ≤ o ∧ o < 0x200 then
    if o % 16 = 0 then waitRule s ctx (.start r ((v >>> 2).truncate 30))
    else if o % 16 = 4 then waitRule s ctx (.last r ((v >>> 2).truncate 30))
    else if o % 16 = 8 then waitRule s ctx (.attrs r (v.truncate 8))
    else s
  else s

/-- TIME registers that the management cores write and that have no row of their own (R269–R271). -/
def writeTime (s : State) (o : Nat) (v held : W32) : State :=
  match o with
  | 0x004 => s.modTime (fun t => { t with fren := v.getLsbD 0 })
  | 0x080 => s.modTime (fun t => { t with almNs := v })
  | 0x084 => s.modTime (fun t => { t with almEp := v })
  | 0x088 => s.modTime (fun t => { t with almFired := w1cBit t.almFired 1 v held })
  | 0x090 => s.modTime (fun t => { t with frinc := v })
  | 0x094 => s.modTime (fun t => { t with fr0 := v })
  | _ => s

/-- CAN registers (R314, R315, R323, R326). -/
def writeCan (s : State) (n o : Nat) (v held : W32) : State :=
  if o = 4 then modCan s n (fun c => { c with
    wake := w1cBit c.wake 3 v held, rxovf := w1cBit c.rxovf 4 v held, suberr := w1cBit c.suberr 5 v held })
  else if o = 0x3C then modCan s n (fun c => { c with txdone := w1c c.txdone v held })
  else if o = 0x40 then modCan s n (fun c => { c with irqen := v.truncate 5 })
  else if 0x100 ≤ o ∧ o < 0x200 then
    let f := (o - 0x100) / 8
    if o % 8 = 0 then modCan s n (fun c => { c with fid := mput c.fid f 0 (v &&& 0xBFFFFFFF) })
    else modCan s n (fun c => { c with fmask := mput c.fmask f 0 (v &&& 0x1FFFFFFF) })
  else if 0x200 ≤ o ∧ o ≤ 0x244 then
    let k := (o - 0x200) / 4
    modCan s n (fun c => { c with txbuf := mput c.txbuf k 0 (if k = 1 then v &&& 0x1F else v) })
  else s

/-- ADC registers (R375, R377, R380). -/
def writeAdc (s : State) (o : Nat) (v held : W32) : State :=
  if o = 0 then s.modField (fun f => { f with injOvr := w1cBit f.injOvr 2 v held, refErr := w1cBit f.refErr 3 v held })
  else if o = 0x10 then s.modField (fun f => { f with adcIrq := v.truncate 3 })
  else s

/-- FIO registers; the D group fault has a row of its own (R379). -/
def writeFio (s : State) (o : Nat) (v held : W32) : State :=
  if o = 0 then s.modField (fun f => { f with wdt := w1cBit f.wdt 3 v held, lfault := w1cBit f.lfault 4 v held })
  else if o = 4 then s.modField (fun f => { f with irqen := v.truncate 5 })
  else s

/-- EVF registers: routes 0–15 of the DMA owner, 16–31 of the ADC writer (R430, R432). -/
def writeEvf (s : State) (m : Master) (o : Nat) (v held : W32) : State :=
  let by_ := fun (x : Option Cp) => match m, x with | .n0, some .n0 => true | .n1, some .n1 => true | .mgmt, _ => true | _, _ => false
  if o < 0x80 then
    let t := o / 4
    if by_ (if t < 16 then dmaOwner s else adcWriter s) then
      s.modEvf (fun e => { e with routes := lupd e.routes t (fun r => { r with src := v.truncate 6, enable := v.getLsbD 7 }) })
    else s
  else if o = 0x88 then s.modEvf (fun e => { e with lostMap := w1c e.lostMap v held })
  else s

/-- DMB registers of a core pair (R303). -/
def writeDmb (s : State) (c : Cp) (o : Nat) (v held : W32) : State :=
  let set := fun (f : Dmb → Dmb) => modCp s c (fun p => { p with dmb := f p.dmb })
  if o = 0 then set (fun d => { d with irqen := v.getLsbD 2 })
  else if o = 4 then set (fun d => { d with done := w1cBit d.done 1 v held, goLost := w1cBit d.goLost 3 v held })
  else if o = 8 then set (fun d => { d with op := v.truncate 2, typ := (v >>> 8).truncate 8, len := (v >>> 16).truncate 11 })
  else if o = 0xC then set (fun d => { d with sub := (v >>> 8).truncate 8, index := (v >>> 16).truncate 16 })
  else if o = 0x10 then set (fun d => { d with offset := v })
  else if o = 0x14 then set (fun d => { d with tag := v })
  else if 0x400 ≤ o ∧ o < 0x800 then set (fun d => { d with data := putBytes d.data (o - 0x400) (leBytes 4 v.toNat) })
  else s

/-- REC registers of a core pair (R336, R353). -/
def writeRec (s : State) (c : Cp) (o : Nat) (v held : W32) : State :=
  let set := fun (f : RecReg → RecReg) => modCp s c (fun p => { p with recr := f p.recr })
  if o = 0 then set (fun r => { r with done := w1cBit r.done 1 v held, err := w1cBit r.err 2 v held })
  else if o = 4 then set (fun r => { r with irqen := v.getLsbD 1 })
  else if o = 8 then set (fun r => { r with typ := v.truncate 16, sev := (v >>> 16).truncate 2, len := (v >>> 18).truncate 10 })
  else if 0x100 ≤ o ∧ o ≤ 0x4CC then set (fun r => { r with data := putBytes r.data (o - 0x100) (leBytes 4 v.toNat) })
  else s

/-- A store that both checks have passed, at an offset of its target: a memory takes its bytes; a register takes whole words only and
updates the fields that have no row of their own; RO fields and reserved bits stand (R6, R9). Code in an NCALL reaches neither its
mailbox, where the access is counted, nor the recorder (R306, R353). -/
def storeWord (s : State) (m : Master) (t a size : Nat) (v held : W32) : State :=
  let c := mapOf s m
  let inCall := (m == .n0 || m == .n1) && (cpOf s c).call.isSome
  let o := a % 0x1000
  if t = 0 ∨ t = 3 ∨ t = 18 then cpPutAll s c a (leBytes size v.toNat)
  else if t = 14 ∧ inCall = true then dmbDiscard s
  else if size ≠ 4 then s
  else
    match t with
    | 4 => writeIntc s c o v
    | 5 => writeDma s o v held
    | 6 => writeMpu s m o v held
    | 8 => writeTime s o v held
    | 9 => writeCan s 0 o v held
    | 10 => writeCan s 1 o v held
    | 11 => writeAdc s o v held
    | 12 => writeFio s o v held
    | 13 => writeEvf s m o v held
    | 14 => writeDmb s c o v held
    | 15 => if o = 4 then modClk s c (fun k => { k with sleep := v.getLsbD 0 }) else s
    | 16 => if o = 0x40 then modCp s c (fun p => { p with retv := v }) else s
    | 17 => if inCall then s else writeRec s c o v held
    | _ => s

/-- REGISTER_WRITE: a store of 1, 2 or 4 bytes by a master, checked at its initiator and its target; a denied one is a violation. One
to an unmapped or misaligned address has a row of its own. `held` are the W1C bits that hardware sets in the same clock (R9, R10,
R388, R397–R404). -/
def execRegisterWrite (m : Master) (addr : W32) (v : W32) (s : State) (size : Nat := 4) (held : W32 := 0) : Res :=
  let a := addr.toNat
  if !masterRuns s m || !(size == 1 || size == 2 || size == 4) || a % size != 0 then .next s
  else
    match targetOf s (mapOf s m) a with
    | none => .next s
    | some t =>
      match checkAccess s m a kWrite (masterPriv s m) with
      | some x => .next (breach s x)
      | none => .next (storeWord s m t a size v held)

/-! ### What registers read -/

/-- The words of a register window over packed bits. -/
def readField {w : Nat} (v : BitVec w) (k : Nat) : Nat := (v.extractLsb' (32 * k) 32).toNat

/-- A 16-bit counter register with its saturation flag. -/
def Ctr16.reg (c : Ctr16) : Nat := c.n.toNat + 65536 * b2n c.sat

/-- INTC registers (R432). -/
def readIntc (s : State) (c : Cp) (o : Nat) : Nat :=
  let i := (cpOf s c).intc
  let bits := fun (f : Nat → Bool) (k : Nat) => ((List.range 32).map (fun j => b2n (f (32 * k + j)) * 2 ^ j)).sum
  if o < 0x10 then bits (srcPending s c) (o / 4)
  else if o < 0x20 then readField i.en ((o - 0x10) / 4)
  else if o < 0x30 then readField i.claimed ((o - 0x20) / 4)
  else match o with
    | 0x38 => i.stray.reg
    | 0x40 => i.hsel.toNat
    | 0x44 => mgetD i.holds i.hsel.toNat 0 + b2n (srcHeld s c i.hsel.toNat) * 2 ^ 31
    | _ => 0

/-- DMA registers (R432). -/
def readDma (s : State) (o : Nat) : Nat :=
  let d := s.dma
  let k := dmaCh s ((o - 0x100) / 0x20)
  match o with
  | 0 => b2n d.enable
  | 4 => b2n d.busErr + 16 * d.errCh.toNat + 256 * (match dmaOwner s with | none => 0 | some .n0 => 1 | some .n1 => 2) +
      1024 * b2n s.mpu.frDma
  | 8 => d.errAddr.toNat
  | _ =>
    if o < 0x100 ∨ 0x300 ≤ o then 0
    else match o % 0x20 with
      | 0x00 => 16 * k.start.toNat
      | 0x08 => k.state.toNat + 4 * b2n k.respend
      | 0x0C => k.cur.toNat
      | 0x10 => k.remain.toNat
      | 0x14 => k.done.toNat
      | _ => 0

/-- MPU registers of the context that a master has selected (R401, R407). -/
def readMpu (s : State) (m : Master) (o : Nat) : Nat :=
  let ctx := match m with
    | .n0 => selectedCtx s .n0 | .n1 => selectedCtx s .n1 | .dma => .dma | .dap => .dap | .mgmt => .mgmt
  let x := mpuCtx s ctx
  let r := x.regions.getD ((o - 0x100) / 16) Region.reset
  let u := s.mpu
  match o with
  | 0x00 => ((x.regions.zipIdx).map (fun y => b2n y.1.lock * 2 ^ y.2)).sum + 65536 * b2n x.lockWr
  | 0x04 => b2n x.enable
  | 0x08 => (mpuCtx s m).gen.toNat
  | 0x0C => b2n (ctx == .dma && m != .dma)
  | 0x10 => b2n s.n0.frozen + 2 * b2n s.n1.frozen + 4 * b2n u.frDma + 8 * b2n u.frDap
  | 0x14 => u.faddr.toNat
  | 0x18 => u.fmaster.toNat + 4 * b2n u.fcheck + 8 * u.ftype.toNat + 32 * b2n u.fpriv + 256 * u.fregion.toNat +
      65536 * u.ftarget.toNat + 2 ^ 24 * b2n u.fmulti
  | _ =>
    if o < 0x100 ∨ 0x200 ≤ o then 0
    else match o % 16 with
      | 0 => 4 * r.start.toNat
      | 4 => 4 * r.last.toNat
      | 8 => r.attrs.toNat + 128 * b2n r.lock
      | _ => 0

/-- Targets that are the core pair's own: its memories and its mailbox (table "Target firewall rules"). -/
def ownTarget (t : Nat) : Bool := t == 0 || t == 3 || t == 14 || t == 18

/-- FWL registers, 0 until the rules are set. An "own" row reads as it applies to the core pair `c` in whose map the reader reads: the
other core pair does not reach this one's memory, and the DMA engine does only where `c` owns it (R403, R408). -/
def readFwl (s : State) (c : Cp) (o : Nat) : Nat :=
  let t := o / 4
  if o = 0x80 then b2n s.mpu.fwlSet
  else if !s.mpu.fwlSet || o % 4 != 0 || decide (0x48 < o) then 0
  else
    let reach := fun (m : Master) => !ownTarget t || (match m with
      | .n0 => c == .n0 | .n1 => c == .n1 | .dma => dmaOwner s == some c | .dap | .mgmt => true)
    let rw := fun m => let r := fwlRule s t m; if reach m then b2n r.1 + 2 * b2n r.2.1 else 0
    rw .n0 + 4 * rw .n1 + 16 * rw .dma + 64 * rw .dap + 256 * b2n (fwlRule s t .n0).2.2

/-- Header and data words of a received frame (CAN_RXPAIL, R313, R326). -/
def pailWord (p : CanFrame × Nat) (k : Nat) : Nat :=
  let f := p.1
  match k with
  | 0 => f.id.toNat % 2 ^ 29 + 2 ^ 29 * b2n f.ide + 2 ^ 30 * b2n f.fdf + 2 ^ 31 * b2n f.brs
  | 1 => f.dlc % 16 + 16 * b2n f.rtr + 32 * b2n f.esi + 256 * (p.2 % 32)
  | k => leNat (slice f.data (4 * (k - 2)) 4)

/-- CAN registers; CAN_RXPAIL shows the oldest owned pail, and zeros while none is owned (R313, R326; log entry 112). -/
def readCan (s : State) (n o : Nat) (held : W32) : Nat × State :=
  let c := canOf s n
  let k := canCfg s n
  let v :=
    if 0x100 ≤ o ∧ o < 0x200 then (mgetD (if o % 8 = 0 then c.fid else c.fmask) ((o - 0x100) / 8) 0).toNat
    else if 0x200 ≤ o ∧ o ≤ 0x244 then (mgetD c.txbuf ((o - 0x200) / 4) 0).toNat
    else if 0x300 ≤ o ∧ o ≤ 0x344 then (match c.pails with | p :: _ => pailWord p ((o - 0x300) / 4) | [] => 0)
    else match o with
      | 0x00 => b2n c.sleep
      | 0x04 => c.state.toNat + 8 * b2n c.wake + 16 * b2n c.rxovf + 32 * b2n c.suberr
      | 0x08 => c.tec.toNat + 65536 * c.rxErr.toNat
      | 0x0C => k.nbt.toNat
      | 0x10 => k.dbt.toNat
      | 0x14 => k.tdc.toNat
      | 0x18 => c.errCode.toNat + 8 * b2n c.errData
      | 0x20 => c.pails.length
      | 0x30 => (c.slots.map (fun x => 2 ^ x.1)).sum
      | 0x38 => c.cancel.toNat
      | 0x3C => c.txdone.toNat
      | 0x40 => c.irqen.toNat
      | _ => 0
  (v, if o = 0x18 then modCan s n (fun c => { c with
    errCode := c.errCode &&& held.truncate 3, errData := c.errData && held.getLsbD 3 }) else s)

/-- EVF registers (R432). -/
def readEvf (s : State) (o : Nat) : Nat :=
  if o < 0x80 then let r := s.evf.routes.getD (o / 4) Route.reset; r.src.toNat + 128 * b2n r.enable
  else if o = 0x84 then s.evf.lost.reg
  else if o = 0x88 then s.evf.lostMap.toNat
  else 0

/-- DMB registers of a core pair (R303). -/
def readDmb (s : State) (c : Cp) (o : Nat) : Nat :=
  let d := (cpOf s c).dmb
  match o with
  | 0x00 => 4 * b2n d.irqen
  | 0x04 => b2n d.busy + 2 * b2n d.done + 4 * b2n d.err + 8 * b2n d.goLost + 65536 * d.rlen + 2 ^ 27 * b2n d.more
  | 0x08 => d.op.toNat + 256 * d.typ.toNat + 65536 * d.len.toNat
  | 0x0C => 256 * d.sub.toNat + 65536 * d.index.toNat
  | 0x10 => d.offset.toNat
  | 0x14 => d.tag.toNat
  | 0x18 => d.result.toNat
  | 0x1C => readField d.tick 0
  | 0x20 => readField d.tick 1
  | _ => if 0x400 ≤ o ∧ o < 0x800 then leNat (bytesAt d.data (o - 0x400) 4) else 0

/-- The clock of the channel and loop engines runs: in the modes in which they work, from 2 µs before a grid instant or an update start
until the tick of that instant (R422; how long its work takes is not given, log entry 112). -/
def enginesClock (s : State) : Bool :=
  let now := timeNow s
  let near := fun (t : Nat) => decide (t < now + rUs 2 + 640 ∧ now < t + 640)
  enginesLive s && (near (gridAt 14400 (gridIdx 14400 now)) || near (gridAt 14400 (gridIdx 14400 now + 1)) ||
    (pkgD s [] (·.loops)).any (fun x => near (gridAt (gridFs x.2.fast) (nextUpdate s x.1 x.2))))

/-- CLK registers of a core pair (R416, R422, R432; which clocks run, log entry 112). -/
def readClk (s : State) (c : Cp) (o : Nat) : Nat :=
  let k := (cpOf s c).clk
  let up := pllOn s.ctl.mode
  let cp := fun (p : CpSt) => b2n (up && p.released && !p.clk.asleep)
  match o with
  | 0x00 => b2n up + 2 * b2n (up && s.cyc.phase != .slack) + 4 * b2n (up && enginesClock s) + 8 * cp s.n0 + 16 * cp s.n1 +
      32 * b2n (up && s.dma.chans.any (fun x => x.state == 1 || x.state == 2)) + 64 * b2n s.time.onRef
  | 0x04 => b2n k.sleep
  | 0x08 => k.src.toNat + 128 * b2n k.byHold + 256 * b2n k.byCall
  | 0x0C => k.wakes.reg
  | _ => 0

/-- CYC registers of a core pair: the record of the call that runs, the last release and the last input cutoff (R432). -/
def readCyc (s : State) (c : Cp) (o : Nat) : Nat :=
  let p := cpOf s c
  let k : CallRec := p.call.getD ⟨0, 0, 0, TWord.zero, TWord.zero, TWord.zero, 0, 0, 0, 0⟩
  match o with
  | 0x00 => b2n p.call.isSome + 2 * (k.task % 4) + 16 * s.ctl.mode.code + 256 * s.cyc.due.toNat
  | 0x04 => 4 * p.vec.toNat
  | 0x10 => k.func % 4096 + 4096 * k.pres.toNat
  | 0x14 => k.a.val.toNat
  | 0x18 => k.a.tag.toNat
  | 0x1C => k.b.val.toNat
  | 0x20 => k.b.tag.toNat
  | 0x24 => k.c.val.toNat
  | 0x28 => k.c.tag.toNat
  | 0x2C => k.cycle.toNat
  | 0x30 => readField k.tick 0
  | 0x34 => readField k.tick 1
  | 0x38 => k.ibudget % 2 ^ 27
  | 0x40 => p.retv.toNat
  | 0x50 => readField s.cyc.lastRelease 0
  | 0x54 => readField s.cyc.lastRelease 1
  | 0x58 => (ns32Of s.cyc.cutTime.toNat).toNat
  | _ => 0

/-- REC registers of a core pair (R353). -/
def readRec (s : State) (c : Cp) (o : Nat) : Nat :=
  let r := (cpOf s c).recr
  let busy := !s.dist.openRecs.isEmpty
  match o with
  | 0x00 => b2n r.busy + 2 * b2n r.done + 4 * b2n r.err + 8 * b2n s.log.powerSat + 16 * b2n s.log.secondsSat +
      32 * b2n busy + 64 * b2n busy
  | 0x04 => 2 * b2n r.irqen
  | 0x08 => r.typ.toNat + 65536 * r.sev.toNat + 2 ^ 18 * r.len.toNat
  | 0x0C => r.num.toNat
  | 0x10 => num1A00 s 0x1A00 2 0
  | 0x14 => num1A00 s 0x1A00 3 0
  | 0x18 => num1A00 s 0x1A00 5 0
  | 0x1C => num1A00 s 0x1A20 3 0
  | _ => if 0x100 ≤ o ∧ o ≤ 0x4CC then leNat (bytesAt r.data (o - 0x100) 4) else 0

/-- A read of a native register or window by a master, at its address: what it returns, and its effect. Whole words only; a byte or
half-word read of a register returns 0 and has no effect, as does a read of the mailbox in an NCALL, which is counted (R9, R10, R306,
R389, R392). -/
def loadWord (s : State) (m : Master) (t a size : Nat) (held : W32) : W32 × State :=
  let c := mapOf s m
  let o := a % 0x1000
  let plain := fun (n : Nat) => (BitVec.ofNat 32 n, s)
  if t = 0 ∨ t = 3 ∨ t = 18 then plain (leNat (cpBytes s c a size))
  else if t = 14 ∧ (m = .n0 ∨ m = .n1) ∧ (cpOf s c).call.isSome = true then (0, dmbDiscard s)
  else if size ≠ 4 then (0, s)
  else
    let half := fun (w : TWord) => plain (if a % 8 = 0 then w.val.toNat else w.tag.toNat)
    match t with
    | 1 => half (pointWord s.img ((a - 0x10000000) / 8))
    | 2 => half (constWord s.img ((a - 0x10100000) / 8))
    | 4 => plain (readIntc s c o)
    | 5 => plain (readDma s o)
    | 6 => plain (readMpu s m o)
    | 7 => plain (readFwl s c o)
    | 8 => timeRead s o
    | 9 => let r := readCan s 0 o held; (BitVec.ofNat 32 r.1, r.2)
    | 10 => let r := readCan s 1 o held; (BitVec.ofNat 32 r.1, r.2)
    | 11 | 12 => peripheralRead s a held
    | 13 => plain (readEvf s o)
    | 14 => plain (readDmb s c o)
    | 15 => plain (readClk s c o)
    | 16 => plain (readCyc s c o)
    | 17 => if (m = .n0 ∨ m = .n1) ∧ (cpOf s c).call.isSome = true then plain 0 else plain (readRec s c o)
    | _ => plain 0

/-- What a read by a master comes to. -/
inductive Loaded where
  | denied (v : Violation)
  | unmapped
  | word (v : W32) (s : State)

/-- A read of 1, 2 or 4 bytes by a master: checked at its initiator and at its target, then performed (R388, R397–R404). -/
def readAccess (s : State) (m : Master) (a size : Nat) (held : W32) : Loaded :=
  match targetOf s (mapOf s m) a with
  | none => .unmapped
  | some t =>
    match checkAccess s m a kRead (masterPriv s m) with
    | some v => .denied v
    | none => let r := loadWord s m t a size held; .word r.1 r.2

end Sys2Proof.Machine
end

