-- ==== Sys2Proof/Machine/Ports.lean ====
section
/-!
DEFINITION. Accesses of native masters to the registers and windows that have a row of their own: each passes the MPU and the target firewall before it has its effect (R303–R306, R313–R323, R336, R373–R380, R390–R392, R397–R407, R412–R421, R425–R428, R430–R432).
-/

namespace Sys2Proof.Machine

/-! ### Passing the checks -/

/-- A master may make an access now: it runs, and both checks pass (R397–R403). -/
def mayAccess (s : State) (m : Master) (a kind : Nat) : Bool :=
  masterRuns s m && (checkAccess s m a kind (masterPriv s m)).isNone

/-- An access that has a row of its own: with its effect where both checks pass, a violation where one denies it (R397–R404). -/
def port (m : Master) (a kind : Nat) (f : State → Res) (s : State) : Res :=
  if !masterRuns s m then .next s
  else
    match checkAccess s m a kind (masterPriv s m) with
    | some v => .next (breach s v)
    | none => f s

/-- A write of a core pair that the package names for the block; without one nobody writes it (R326, R380, R423). -/
def ownerPort (o : Option Cp) (a kind : Nat) (f : State → Res) (s : State) : Res :=
  match o with
  | none => .next s
  | some c => port c.master a kind f s

/-! ### INTC, CLK and CYC -/

/-- INTC_CLAIM: an edge of the same clock comes as a command after it and stays pending (R412, log entry 98). -/
def execIntcClaim (c : Cp) (v : W32) (s : State) : Res :=
  let n := v.toNat % 128
  port c.master 0x40000030 kWrite (fun s =>
    if n = 0 ∨ reservedSrc n = true ∨ (cpOf s c).intc.claimed.getLsbD n = true then .next s
    else .next (modIntc s c (fun i => { i with claimed := setBit i.claimed n true, pend := setBit i.pend n false }))) s

/-- INTC_COMPLETE: the claim is released and the hold starts, or a stray completion is counted (R413, R415). -/
def execIntcComplete (c : Cp) (v : W32) (s : State) : Res :=
  let n := v.toNat % 128
  port c.master 0x40000034 kWrite (fun s =>
    if n = 0 ∨ reservedSrc n = true then .next s
    else if (cpOf s c).intc.claimed.getLsbD n then
      .next (modIntc s c (fun i =>
        let us := mgetD i.holds n 0
        { i with claimed := setBit i.claimed n false,
                 heldFrom := if us = 0 then mdel i.heldFrom n else mset i.heldFrom n (s.time.raw, us) }))
    else .next (modIntc s c (fun i => { i with stray := i.stray.inc }))) s

/-- INTC_SWSET: an edge on sources 120 + i for each bit i; an event from any source reaches both contexts (R409). -/
def execIntcSwset (c : Cp) (v : W32) (s : State) : Res :=
  port c.master 0x4000003C kWrite (fun s =>
    .next ((List.range 8).foldl (fun s i => if v.getLsbD i then raiseIrq s (120 + i) else s) s)) s

/-- INTC_STRAY_CLEAR: COUNT and SAT clear together (R413). -/
def execIntcStrayClear (c : Cp) (s : State) : Res :=
  port c.master 0x40000038 kWrite (fun s => .next (modIntc s c (fun i => { i with stray := Ctr16.reset }))) s

/-- CLK_WAKES_CLEAR (R432). -/
def execClkWakesClear (c : Cp) (s : State) : Res :=
  port c.master 0x4009000C kWrite (fun s => .next (modClk s c (fun k => { k with wakes := Ctr16.reset }))) s

/-- CYC_VEC_WRITE: the call entry address, outside a call only (R421). -/
def execCycVecWrite (c : Cp) (v : W32) (s : State) : Res :=
  port c.master 0x400A0004 kWrite (fun s =>
    if (cpOf s c).call.isSome then .next s
    else .next (modCp s c (fun p => { p with vec := v.extractLsb' 2 30 }))) s

/-- CYC_RETT_WRITE: the store that returns from a call, retired as its `retired`-th instruction (R81, R419). A store retired
past the budget comes from a call that was abandoned at the budget, and returns nothing. -/
def execCycRettWrite (c : Cp) (v : W32) (s : State) (retired : Nat := 0) : Res :=
  port c.master 0x400A0044 kWrite (fun s =>
    match (cpOf s c).call with
    | none => .next s
    | some k =>
      let s := noteRetired s c retired
      if k.ibudget < retired then .next (abandonCall s c)
      else
        let value := (cpOf s c).retv
        .next (endCall (modCp s c CpSt.resume) c k.inst (returnedWord value (v.truncate 8)))) s

/-! ### The point and constant windows -/

/-- POINT_STAGE_WRITE: a write at +0 of the point window goes to the staging register (R390). -/
def execPointStageWrite (c : Cp) (point : Nat) (v : W32) (s : State) : Res :=
  port c.master (0x10000000 + 8 * point) kWrite (fun s => .next (modCp s c (fun p => { p with staging := v }))) s

/-- POINT_COMMIT_WRITE: the staged value and the tag enter the point, or the write is discarded and counted (R390,
R391). -/
def execPointCommitWrite (c : Cp) (point : Nat) (v : W32) (s : State) : Res :=
  port c.master (0x10000004 + 8 * point) kWrite (fun s =>
    if writerOk s c point then
      let w : TWord := ⟨v.truncate 8 ||| tIf (inTest s) tTST, (cpOf s c).staging⟩
      .next (s.modImg (fun i => i.store point w))
    else .next (discardWrite s)) s

/-- CONSTANT_WINDOW_WRITE: discarded and counted (R37, R392). R392 gives this write its effect, and the model follows it here, although
the table "Target firewall rules" grants core pairs reads of the window only (DEDUCED, log entry 122). -/
def execConstantWindowWrite (c : Cp) (_const : Nat) (_v : W32) (s : State) : Res :=
  if !coreRuns s c then .next s else .next (discardWrite s)

/-! ### MPU -/

/-- MPU_SYNC_READ: the read completes once every earlier rule write of the master is effective (R400). -/
def execMpuSyncRead (c : Cp) (s : State) : Res :=
  port c.master 0x40020008 kRead (fun s =>
    let s := allEffective s c.master
    let s := if dmaOwner s == some c then allEffective s .dma else s
    .next (send s (.regRead ((mpuCtx s c.master).gen.zeroExtend 32)))) s

/-- MPU_REGION_LOCK: a write of 1 to MPU_RATTRr.LOCK, made effective at once after the rule writes before it, fixes the region until
reset; one to a locked region is ignored and sets LOCKWR (R400, R401). -/
def execMpuRegionLock (c : Cp) (region : Nat) (s : State) : Res :=
  port c.master (0x40020108 + 16 * region) kWrite (fun s =>
    let m := selectedCtx s c
    let s := allEffective s m
    let r := (mpuCtx s m).regions.getD region Region.reset
    .next (allEffective (waitRule s m (.attrs region (0x80 ||| r.attrs.zeroExtend 8))) m)) s

/-- DMA_UNFREEZE: a write of 1 to MPU_FREEZE.DMA releases the frozen engine; its channels stay stopped (R405). Where hardware sets
the bit in the same clock it is left set (R10). -/
def execDmaUnfreeze (c : Cp) (s : State) (held : Bool := false) : Res :=
  port c.master 0x40020010 kWrite (fun s => .next (s.modMpu (fun x => { x with frDma := x.frDma && held }))) s

/-! ### DMA and the event fabric -/

/-- Address of DMA_CHn_CTRL. -/
def dmaCtrl (ch : Nat) : Nat := 0x40010104 + 0x20 * ch

/-- DMA_GO: an idle channel reads its first descriptor (R425, R427, R429). -/
def execDmaGo (ch : Nat) (s : State) : Res :=
  ownerPort (dmaOwner s) (dmaCtrl ch) kWrite (fun s =>
    let c := dmaCh s ch
    if ch < 16 ∧ dmaReady s = true ∧ (c.state = 0 ∨ c.state = 3) then
      .next (loadDesc (modCh s ch (fun c => { c with respend := false })) ch (c.start.zeroExtend 32 <<< 4))
    else .next s) s

/-- DMA_RESUME (R427). -/
def execDmaResume (ch : Nat) (s : State) : Res :=
  ownerPort (dmaOwner s) (dmaCtrl ch) kWrite (fun s =>
    let c := dmaCh s ch
    if 16 ≤ ch ∨ dmaReady s = false then .next s
    else if c.state = 3 then .next (resumeCh s ch)
    else if c.state = 1 ∨ c.state = 2 then .next (modCh s ch (fun c => { c with respend := true }))
    else .next s) s

/-- DMA_STOP: one channel stops in state 0 after its current beat (R428). -/
def execDmaStop (ch : Nat) (s : State) : Res :=
  ownerPort (dmaOwner s) (dmaCtrl ch) kWrite (fun s =>
    .next (modCh s ch (fun c => { c with state := 0, respend := false }))) s

/-- DMA_DISABLE: a write of 0 to DMA_CTRL.EN (R428). -/
def execDmaDisable (s : State) : Res :=
  ownerPort (dmaOwner s) 0x40010000 kWrite (fun s => .next ((dmaDrop s).modDma (fun d => { d with enable := false }))) s

/-- EVF_SWPULSE: bit i pulses producer 46 + i (R430). -/
def execEvfSwpulse (v : W32) (s : State) (m : Master := .mgmt) : Res :=
  port m 0x40070080 kWrite (fun s =>
    .next ((List.range 8).foldl (fun s i => if v.getLsbD i then pulseNow s (46 + i) else s) s)) s

/-- EVF_LOST_CLEAR: COUNT and SAT clear together (R432). -/
def execEvfLostClear (s : State) (m : Master := .mgmt) : Res :=
  port m 0x40070084 kWrite (fun s => .next (s.modEvf (fun e => { e with lost := Ctr16.reset }))) s

/-! ### TIME and ADC -/

/-- TIME_GROUP_LATCH_READ: a read of a register of the TIME block, by its offset; a first word latches its group (R270). -/
def execTimeGroupLatchRead (reg : Nat) (s : State) (m : Master := .mgmt) : Res :=
  port m (0x40030000 + reg) kRead (fun s =>
    let r := timeRead s reg
    .next (send r.2 (.regRead r.1))) s

/-- ADC_SWGO: the entries of trigger 4 whose bits are set start (R373, R380). -/
def execAdcSwgo (v : W32) (s : State) : Res :=
  ownerPort (adcWriter s) 0x40050004 kWrite (fun s =>
    .next (holdEntries s (holdNow s) (fun e c => v.getLsbD e && c.trigger == 4))) s

/-- ADC_INJECT_WRITE: one urgent conversion after the one in progress, or INJOVR (R375, R380). -/
def execAdcInjectWrite (v : W32) (s : State) : Res :=
  let i := v.toNat % 32
  ownerPort (adcWriter s) 0x40050008 kWrite (fun s =>
    if 24 ≤ i then .next s
    else if injPending s then .next (s.modField (fun f => { f with injOvr := true }))
    else
      let h : HoldReq := ⟨none, i, holdNow s⟩
      .next (s.modField (fun f => { f with
        holds := f.holds.take 1 ++ [h] ++ f.holds.drop 1, awake := true, injections := f.injections.inc }))) s

/-- ADC_RESULT_READ: a read of ADC_RESe (0–15) or ADC_INJRES (16) returns the result and clears its flags, but for those that
hardware sets in the same clock, given in their register's places (R10, R380). -/
def execAdcResultRead (reg : Nat) (s : State) (held : W32 := 0) (m : Master := .mgmt) : Res :=
  if 17 ≤ reg then .next s
  else
    let a := if reg = 16 then 0x4005000C else 0x40050040 + 4 * reg
    port m a kRead (fun s =>
      let r := peripheralRead s a held
      .next (send r.2 (.regRead r.1))) s

/-! ### CAN -/

/-- The core pair that reaches a controller's registers (R310, R326). -/
def canOwner (s : State) (n : Nat) : Option Cp := cpOfCode (canCfg s n).owner

/-- A write or read of a register of controller `n` by its owner (R326). -/
def canPort (n o kind : Nat) (f : State → Res) (s : State) : Res :=
  if 2 ≤ n then .next s else ownerPort (canOwner s n) (0x40040000 + 0x1000 * n + o) kind f s

/-- CAN_TXSUBMIT: the staged frame is copied into the slot, or refused with SUBERR (R315). -/
def execCanTxsubmit (n : Nat) (v : W32) (s : State) : Res :=
  let k := v.toNat % 32
  canPort n 0x34 kWrite (fun s =>
    if submitRefused s n k then .next (modCan s n (fun c => { c with suberr := true }))
    else .next (putSlot s n k (stagedFrame (canOf s n)))) s

/-- CAN_TXCANCEL: the slots leave before their next arbitration; a frame on the bus is only marked (R317). -/
def execCanTxcancel (n : Nat) (v : W32) (s : State) : Res :=
  canPort n 0x38 kWrite (fun s =>
    .next (modCan s n (fun c => (List.range 32).foldl (fun c k =>
      if v.getLsbD k && (mget c.slots k).isSome then
        (if c.onBus = some k then { c with cancel := setBit c.cancel k true } else c.leave k)
      else c) c))) s

/-- CAN_RXACK: the oldest owned pail is released; ignored while none is owned (R313). -/
def execCanRxack (n : Nat) (s : State) : Res :=
  canPort n 0x24 kWrite (fun s => .next (modCan s n (fun c => { c with pails := c.pails.drop 1 }))) s

/-- CAN_RECOVER: bus-off recovery starts under command (R319). -/
def execCanRecover (n : Nat) (s : State) : Res :=
  canPort n 0x00 kWrite (fun s => if (canOf s n).state ≠ 2 then .next s else .next (setCanState s n 3)) s

/-- CAN_SLEEP: a write of 1 to CAN_CTRL.SLEEP. A controller that woke in this very clock stays asleep with WAKE set: it has not joined
the bus yet (R321, R323). -/
def execCanSleep (n : Nat) (s : State) : Res :=
  canPort n 0x00 kWrite (fun s =>
    let woke := (canOf s n).wokeAt == some s.time.raw
    .next (canSettle (modCan s n (fun c => { c with sleep := true, onBus := if woke then none else c.onBus })) n)) s

/-- CAN_WAKE_COMMAND: a write of 0 to CAN_CTRL.SLEEP (R323). -/
def execCanWakeCommand (n : Nat) (s : State) : Res :=
  canPort n 0x00 kWrite (fun s =>
    if (canOf s n).state = 4 then .next (canWake s n)
    else .next (modCan s n (fun c => { c with sleep := false }))) s

/-- CAN_LASTERR_READ: the last error is returned and cleared, but for the bits that hardware sets in the same clock (R10,
R326). -/
def execCanLasterrRead (n : Nat) (s : State) (held : W32 := 0) : Res :=
  canPort n 0x18 kRead (fun s =>
    let r := readCan s n 0x18 held
    .next (send r.2 (.regRead (BitVec.ofNat 32 r.1)))) s

/-! ### The mailbox and the recorder -/

/-- DMB_GO: the request is submitted, or ignored while one is pending (R304, R306). -/
def execDmbGo (c : Cp) (s : State) : Res :=
  port c.master 0x40080000 kWrite (fun s =>
    let p := cpOf s c
    if p.call.isSome then .next (dmbDiscard s)
    else if p.dmb.busy then .next (modDmb s c (fun d => { d with goLost := true }))
    else
      let r : PairReq := ⟨(dmbClient s c).role, (dmbClient s c).reqid, p.dmb.index.toNat, p.dmb.sub.toNat, p.dmb.typ.toNat, []⟩
      let s := modDmb s c (fun d => { d with busy := true, answer := none, pending := some (d.op == 1, r, d.offset.toNat) })
      if dictServed s (.mailbox c) then .next (dmbServe s c) else .next s) s

/-- DMB_ABORT: a pending read ends (R303). -/
def execDmbAbort (c : Cp) (s : State) : Res :=
  port c.master 0x40080000 kWrite (fun s =>
    let p := cpOf s c
    if p.call.isSome then .next (dmbDiscard s)
    else
      match p.dmb.pending with
      | some (false, _, _) => .next (modDmb s c (fun d => { d with busy := false, done := true, pending := none, answer := none }))
      | _ => .next s) s

/-- DMB_NCALL_DISCARD: an access to the mailbox by a core pair that runs an NCALL is counted; a store has no effect, a load returns 0
(R306). -/
def execDmbNcallDiscard (c : Cp) (offset : Nat) (_v : W32) (s : State) (load : Bool := false) : Res :=
  port c.master (0x40080000 + offset % 0x1000) (if load then kRead else kWrite) (fun s =>
    if (cpOf s c).call.isSome then
      let s := dmbDiscard s
      .next (if load then send s (.regRead 0) else s)
    else .next s) s

/-- REC_LOGGO: a request of a core pair enters the queue, or is refused; code in an NCALL reaches no REC register (R336,
R353). -/
def execRecLoggo (c : Cp) (s : State) : Res :=
  port c.master 0x400B0004 kWrite (fun s =>
    let p := cpOf s c
    let r := p.recr
    let bad := decide (r.typ.toNat < 0x8000) || decide (r.sev.toNat = 3) || decide (976 < r.len.toNat)
    if p.call.isSome || r.busy then .next s
    else if bad then .next (modCp s c (fun p => { p with recr := { p.recr with err := true } }))
    else
      let req := mkLog s r.typ.toNat r.sev.toNat (bytesAt r.data 0 r.len.toNat) (some c)
      if 256 ≤ s.log.queue.length then .next (modCp (queueLog s req) c (fun p => { p with recr := { p.recr with err := true } }))
      else .next (modCp (queueLog s req) c (fun p => { p with recr := { p.recr with busy := true } }))) s

end Sys2Proof.Machine
end

