-- ==== Sys2Proof/Machine/Debug.lean ====
section
/-!
DEFINITION. Debug of the native core pairs: the halt, the step and the register access that break lockstep, EBREAK, and the entry to DEBUG (R446–R448, R456, R461).
-/

namespace Sys2Proof.Machine

/-! ### DEBUG -/

/-- The program that DEBUG keeps cycling where none was running, or one that had no complete state yet: it restarts as R85 gives
(R448; DESIGN CHOICE, log entry 125). -/
def debugRestart (s : State) : State :=
  if (pkgOf s).isSome && !s.boot.refusedPkg then nativeRelease (unfreeze (restart s)) else s

/-- Entry to DEBUG: the requests the side holds are answered as at a stop, OWN_OUT and ALIVE_OUT go low, field outputs take their SILENT
values, a catch-up joined or served ends, and a stop, a switchover or a handover that was due no longer is; the control plane keeps
cycling on the module's own inputs (R357, R448, R454, R456, R461). -/
def enterDebug (s : State) : State :=
  if !debugFrom s.ctl.mode then s
  else
    let idle := s.ctl.mode == .stop || s.ctl.mode == .catchup
    let s := lowerOwn (dropRequests s)
    let s := changePair (stopServing s) (fun p => { p with
      aliveOut := false, toggledAt := none, phase := 0, cRetryAt := none, noOwner := false, handover := none, handReq := false,
      startWaitFrom := none, twinSince := none, snapTick := noTick })
    let s := (setMode s .dbg 0x000D).modCtl (fun c => { c with stopPending := none, startsAt := none })
    let s := s.modBoot (fun b => { b with switchAt := none })
    let s := leaveTest (fieldOff (dropAnnounced s))
    if idle then debugRestart s else s

/-! ### The debug access port on a core pair -/

/-- A register or CSR of a core pair by its number in the RISC-V debug specification (PRESUMED, log entry 126): the CSRs that the model
holds, x0–x31 from 0x1000 and f0–f31 from 0x1020. -/
def CpSt.dbgRead (p : CpSt) (n : Nat) : Option W32 :=
  if 0x1000 < n ∧ n < 0x1020 then some (p.regs.x.getD (n - 0x1001) 0)
  else if n = 0x1000 then some 0
  else if 0x1020 ≤ n ∧ n < 0x1040 then some (p.regs.f.getD (n - 0x1020) 0)
  else
    match n with
    | 0x003 => some p.fcsr
    | 0x300 => some p.mstatus
    | 0x304 => some p.mie
    | 0x305 => some p.mtvec
    | 0x341 => some p.mepc
    | 0x342 => some p.mcause
    | 0x343 => some p.mtval
    | 0x7B1 => some p.pc
    | _ => none

/-- The same written. -/
def CpSt.dbgWrite (p : CpSt) (n : Nat) (v : W32) : CpSt :=
  if 0x1000 < n ∧ n < 0x1020 then { p with regs := { p.regs with x := p.regs.x.set (n - 0x1001) v } }
  else if 0x1020 ≤ n ∧ n < 0x1040 then { p with regs := { p.regs with f := p.regs.f.set (n - 0x1020) v } }
  else
    match n with
    | 0x003 => { p with fcsr := v }
    | 0x300 => { p with mstatus := v }
    | 0x304 => { p with mie := v }
    | 0x305 => { p with mtvec := v }
    | 0x341 => { p with mepc := v }
    | 0x342 => { p with mcause := v }
    | 0x343 => { p with mtval := v }
    | 0x7B1 => { p with pc := v }
    | _ => p

/-- A core pair's lockstep is broken: its comparator is disarmed, DEBUGGED is set, reason 0x11 is logged, and the module enters DEBUG
from the modes of the table "Mode transitions" (R447, R451). -/
def breakLockstep (s : State) (c : Cp) : State :=
  let f := freeValue s
  let s := modCp f.2 c (fun p => { p with lockstep := false })
  let s := s.modInteg (fun g => { g with debugged := true, dapSession := true })
  enterDebug (logEvent s ltInteg (integBody c.unit 0x11 (f.1.truncate 32)))

/-- What the port then does to the core pair. A step retires one instruction of the halted pair, whose effect comes as its own
commands, as every instruction's does (log entry 126). -/
def applyDbg (s : State) (c : Cp) (op : DbgOp) : State :=
  match op with
  | .halt => modCp s c (fun p => { p with halted := true })
  | .step => modCp s c (fun p => { p with halted := true, instretCsr := p.instretCsr + 1 })
  | .readReg n =>
    match (cpOf s c).dbgRead n with
    | some v => send s (.jtag true v)
    | none => let f := freeValue s; send f.2 (.jtag true (f.1.truncate 32))
  | .writeReg n v => modCp s c (fun p => p.dbgWrite n v)
  | .arm on => modCp s c (fun p => { p with dbgArmed := on })

/-- DEBUG_HALT: a halt, a step or a register access by the debug access port while it is enabled and not frozen, and while the core
pairs have a clock or could have one (R404, R446, R447). -/
def execDebugHalt (c : Cp) (s : State) (op : DbgOp := .halt) : Res :=
  if dapOpen s && clocksRun s && s.ctl.mode != .cold then .next (applyDbg (breakLockstep s c) c op) else .next s

/-- EBREAK: debug mode where the enabled port has set it up, else the breakpoint exception (R447). -/
def execEbreak (c : Cp) (s : State) : Res :=
  if !coreRuns s c then .next s
  else if (cpOf s c).dbgArmed && dapOpen s then .next (applyDbg (breakLockstep s c) c .halt)
  else .next (takeException s c 3 (cpOf s c).pc)

end Sys2Proof.Machine
end

