-- ==== Sys2Proof/Machine/Pair.lean ====
section
/-!
DEFINITION. The pair: OWN and ALIVE, the lanes and the link, every Miojo message received, catch-up phases, ownership gained and lost (R188–R219, R297, R456–R460).
-/

namespace Sys2Proof.Machine

/-! ### Interlock -/

/-- The wires disagree with what the partner's latest message reports (R192). While the link is down there is no report to compare
with, and nothing disagrees: a run of disagreement ends, and a fault that stands clears after 10 ms (DESIGN CHOICE, log entry 119). -/
def wiresDiffer (s : State) : Bool := s.pair.link && (s.pair.pOwn != s.pair.ownIn || s.pair.pAlive != partnerAlive s)

/-- Since when the wires have stood otherwise than the fault bit says (R192). -/
def trackWiring (s : State) : State :=
  if wiresDiffer s = s.pair.wiring then s.modPair (fun p => { p with wiringSince := none })
  else if s.pair.wiringSince.isSome then s
  else s.modPair (fun p => { p with wiringSince := some s.time.raw })

/-- INTERLOCK_WIRING_FAULT: 10 ms of continuous disagreement set the fault, 10 ms of agreement clear it (R192). -/
def execInterlockWiringFault (s : State) : Res :=
  if !clocksRun s then .next s else
  if !past s s.pair.wiringSince (rMs 10) || wiresDiffer s == s.pair.wiring then .next s
  else if s.pair.wiring then .next (changePair s (fun p => { p with wiring := false, wiringSince := none }))
  else
    let s := changePair s (fun p => { p with wiring := true, wiringSince := none, nWiring := p.nWiring.inc })
    .next (logPair s 7 0)

/-- Since when the partner has been alive without owning, for side B's start-up wait (R213). -/
def trackWait (s : State) : State :=
  if s.ctl.mode = .stop ∧ aliveNotOwning s = true then
    s.modPair (fun p => { p with startWaitFrom := some (p.startWaitFrom.getD s.time.raw) })
  else s.modPair (fun p => { p with startWaitFrom := none })

/-! ### The start of a pair -/

/-- The STOP that stands was entered by a switchover (R456, R486). -/
def afterSwitch (s : State) : Bool := s.ctl.coldNext && s.boot.switchTick == s.cyc.cutTick && s.ctl.reason == 0x000B

/-- The module in STOP may start: its package is settled, nothing holds it, no stop keeps it quiet, and over a link that is up
the partner's HELLO has been seen (R213, R457, R459). -/
def mayStart (s : State) : Bool :=
  s.ctl.mode == .stop && s.boot.settled && startHold s == 0 && (!isPaired s || !s.pair.link || s.pair.hello.isSome) && s.ctl.stoppedAt.isNone && s.ctl.startsAt.isNone

/-- A side in STOP whose partner owns before its own OWN_OUT rises enters CATCHUP (R213). -/
def joinOwner (s : State) : State :=
  if mayStart s && isPaired s && partnerOwning s && !s.pair.ownOut then
    enterCatchup s (if afterSwitch s then 0x000B else 0x0004) false
  else s

/-- Phase 1 ends when the pairing conditions and the delay pass: with an owning partner that serves, phase 2 begins (R199,
R214, R215). -/
def tryPhase2 (s : State) : State :=
  if s.ctl.mode ≠ .catchup ∨ s.pair.phase ≠ 1 ∨ s.pair.link = false ∨ s.pair.hello.isNone = true then s
  else if wrongPartner s || unlikePartner s then catchFail (logPair s 8 (BitVec.ofNat 32 (pairStatus s / 256 % 16))) 1
  else if s.pair.delayAt.isNone then s
  else if 1600 < s.pair.delayNs.toNat then catchFail s 2
  else if partnerOwning s && !s.pair.dead && (s.pair.pMode == 5 || s.pair.pMode == 8) then
    mjSend (s.modPair (fun p => { p with phase := 2, stored := [] })) (.catchMsg 2 noTick none)
  else s

/-! ### Lanes and messages -/

/-- The port domain, and with it the Miojo link, works in every mode but COLD (R12, log entry 60). -/
def miojoOn (s : State) : Bool := s.ctl.mode != .cold

/-- A lane comes up; HELLO goes out for the link (R197, R198). -/
def laneUp (s : State) (lane : Bool) : State :=
  if !miojoOn s || (if lane then s.pair.lane1 else s.pair.lane0) then s
  else
    let s := changePair s (fun p => if lane then { p with lane1 := true } else { p with lane0 := true })
    if s.pair.link then s else sayHello s

/-- LANE_UP: a lane holds block lock and has delivered a valid message (R198). -/
def execLaneUp (lane : Bool) (s : State) : Res :=
  let s := s.modPair (fun p => if lane then { p with last1 := some s.time.raw } else { p with last0 := some s.time.raw })
  .next (laneUp s lane)

/-- LANE_DOWN: a lane loses block lock, or delivers nothing valid for 50 µs; one lane down while the link stays up is logged
(R198). -/
def execLaneDown (lane : Bool) (s : State) : Res :=
  if !(if lane then s.pair.lane1 else s.pair.lane0) then .next s
  else
    let s := changePair s (fun p => if lane then { p with lane1 := false } else { p with lane0 := false })
    if s.pair.link && (s.pair.lane0 || s.pair.lane1) then .next (logPair s 6 (if lane then 1 else 0)) else .next s

/-- The SEQ of a message is one to accept: not among the last 4,096 accepted, and newer than the oldest of them (R197). -/
def seqFresh (s : State) (seq : W32) : Bool :=
  !s.pair.rxSeqs.contains seq && (match s.pair.rxSeqs with | [] => true | o :: _ => newer seq o)

/-- The highest SEQ up to which every message has been accepted. -/
def advanceAck (seqs : List W32) : Nat → W32 → W32
  | 0, a => a
  | fuel + 1, a => if seqs.contains (a + 1) then advanceAck seqs fuel (a + 1) else a

/-- A SEQ enters the record of accepted values. -/
def acceptSeq (p : PairSt) (seq : W32) : PairSt :=
  let l := lastN 4096 (p.rxSeqs ++ [seq])
  { p with rxSeqs := l, ackSeq := if p.rxSeqs.isEmpty then seq else advanceAck l 4096 p.ackSeq }

/-- What every accepted message tells: the partner's FLAGS (R189, R192, R193, R213), and what hangs on them: the wiring, the
start of this side, a handover that waits for the partner's OWN to fall (R191, R219), the owner of a catch-up (R215). -/
def noteFlags (s : State) (h : MjHdr) : State :=
  let s := changePair s (fun p => { p with
    seen := true, pOwn := h.own, pAlive := h.alive, pSilent := h.silent, pCatchup := h.catchup, pSideB := h.sideB })
  let s := trackWait (trackWiring s)
  let s := if s.pair.handover = some true ∧ s.pair.ownOut = false ∧ s.pair.ownReq = false then requestOwn s else s
  let s := if s.ctl.mode = .catchup ∧ 2 ≤ s.pair.phase ∧ s.pair.phase ≤ 5 ∧ partnerOwning s = false then
      catchFail (clearCycle s) 7 else s
  tryPhase2 (joinOwner s)

/-- A valid message has arrived on a lane: none where it is a copy to discard, or where the module does not listen (R197,
R198); in SILENT it only shows that the lane lives (R444). -/
def hear (s : State) (h : MjHdr) : State × Bool :=
  if !miojoOn s then (s, false)
  else
    let s := s.modPair (fun p => if h.lane then { p with last1 := some s.time.raw } else { p with last0 := some s.time.raw })
    let s := laneUp s h.lane
    if !clocksRun s || !seqFresh s h.seq then (s, false)
    else
      let s := noteFlags (s.modPair (fun p => acceptSeq p h.seq)) h
      (s, isPaired s)

/-- A message that is accepted and acted on. -/
def onMessage (s : State) (h : MjHdr) (f : State → State) : Res :=
  let r := hear s h
  .next (if r.2 then f r.1 else r.1)

/-- MIOJO_BAD_CRC: the message is discarded and counted (R197). -/
def execMiojoBadCrc (_lane : Bool) (s : State) : Res := .next (s.modPair (fun p => { p with nCrc := p.nCrc.inc }))

/-- MIOJO_KEEP: it tells FLAGS and keeps its lane up (R198). -/
def execMiojoKeep (h : MjHdr) (s : State) : Res := onMessage s h (fun s => s)

/-- KEEP_SEND_TIMER: a lane that has carried no message for 10 µs carries KEEP, whether it is up or not, and in SILENT too (R198,
R200). -/
def execKeepSendTimer (lane : Bool) (s : State) : Res :=
  let at_ := if lane then s.pair.sent1 else s.pair.sent0
  if miojoOn s && decide (rUs 10 ≤ elapsed s at_) then .next (mjSendOn s [lane] .keep) else .next s

/-! ### Delay -/


/-- DELAY_MEASURE_TIMER: the delay is measured every second (R199). -/
def execDelayMeasureTimer (s : State) : Res :=
  if !clocksRun s then .next s else
  if s.pair.link && (match s.pair.delayAt with | some t => decide (rSec 1 ≤ elapsed s t) | none => true) then .next (measureDelay s)
  else .next s

/-- The measured one-way delay in ns takes effect: ten measurements in a row above 1.6 µs send a side in TWIN to CATCHUP
(R199). -/
def takeDelay (s : State) (ns : Nat) : State :=
  let s := changePair s (fun p => { p with
    delayNs := BitVec.ofNat 32 ns, delayAt := some s.time.raw, delayReq := none,
    overDelay := if 1600 < ns then p.overDelay + 1 else 0 })
  if 10 ≤ s.pair.overDelay then leaveForCatchup (s.modPair (fun p => { p with overDelay := 0 })) 0x000A false else tryPhase2 s

/-- MIOJO_DELAY: a request is answered on its lane with this side's RAW and its turnaround, which is 0 where request and response
fall into one step; a response gives half the round trip since the request less the partner's turnaround (R193, R199). -/
def execMiojoDelay (h : MjHdr) (response : Bool) (_raw : W64) (turnaround : W32) (s : State) : Res :=
  onMessage s h (fun s =>
    match response, s.pair.delayReq with
    | false, _ => mjSendOn s [h.lane] (.delay true s.time.raw 0)
    | true, some r => takeDelay s ((elapsed s r - turnaround.toNat) / 32)
    | true, none => s)

/-! ### Ownership -/

/-- This side takes over: it enters LEAD, sequences what it had forwarded without an answer and then its queue, and numbers
the triggers held (R209, R217, R219, R297, R341). -/
def takeOwnership (s : State) (reason : Nat) : State :=
  let s := gainOwner s reason
  let rs := s.pair.forwarded ++ s.pair.queue
  rs.foldl ownerTake (s.modPair (fun p => { p with forwarded := [], queue := [] }))

/-- The partner has become the owning side: the queue is forwarded to it in order (R209); a side that withheld its releases
leaves for CATCHUP (R218). -/
def partnerTakes (s : State) : State :=
  let gone := withholds s
  let s := ownerChanged (changePair s (fun p => { p with noOwner := false, handover := none, ownReq := false }))
  if gone || !s.pair.link then leaveForCatchup s 0x000A false
  else
    let q := s.pair.queue
    tellCheck (q.foldl forwardReq (placeHeld (s.modPair (fun p => { p with queue := [] }))))

/-- Side B's hardware lowers OWN_OUT while both are high (R190); within 100 µs of its rise in STOP the side joins instead
(R213). -/
def withdraw (s : State) : State :=
  if s.pins.sideB && s.pair.ownIn && s.pair.ownOut then
    let s := lowerOwn s
    let s := s.modPair (fun p => { p with nWithdraw := p.nWithdraw.inc })
    if s.ctl.mode = .stop then joinOwner s else s
  else s

/-- OWN_IN_CHANGE: a filtered edge on OWN_IN (R190, R209, R213). -/
def execOwnInChange (high : Bool) (s : State) : Res :=
  if s.pair.ownIn = high then .next s
  else
    let s := changePair s (fun p => { p with ownIn := high, ownInLowSince := if high then none else some s.time.raw })
    let s := trackWait (trackWiring s)
    if high then
      let s := withdraw s
      let s := if s.ctl.mode.run && s.pair.noOwner && !s.pair.ownOut then partnerTakes s else s
      .next (joinOwner s)
    else if s.ctl.mode.run && isPaired s && !s.pair.ownOut then .next (changePair s (fun p => { p with noOwner := true }))
    else .next s

/-- OWN_PERMIT_EXPIRE: with ownership requested and OWN_IN low for 2 ms, OWN_OUT rises (R190). -/
def execOwnPermitExpire (s : State) : Res :=
  if !clocksRun s then .next s else
  if s.pair.ownReq = false ∨ s.pair.ownOut = true ∨ s.pair.ownIn = true ∨ past s s.pair.ownInLowSince (rMs 2) = false ∨
      !(s.ctl.mode == .stop || s.ctl.mode.run) then .next s
  else
    let reason := if s.pair.dead then 0x0007 else if s.pair.handover = some true then 0x0008 else 0x000A
    let s := changePair s (fun p => { p with ownOut := true, ownHighSince := some s.time.raw, following := false })
    .next (if s.ctl.mode.run then takeOwnership s reason else s)

/-- The partner is declared dead (R189): a side in CATCHUP returns to STOP (R460); a running side releases what waits for the
partner, and asks for ownership where it does not own (R206, R217). -/
def partnerDied (s : State) : State :=
  if s.pair.dead || !isPaired s then s
  else
    let s := changePair s (fun p => { p with dead := true, nDead := p.nDead.inc, following := false })
    let s := logPair s 0 0
    if s.ctl.mode = .catchup then enterStop s 0x0007
    else if s.ctl.mode.run then
      let s := stopServing s
      let s := if s.pair.ownOut then s else requestOwn (changePair s (fun p => { p with noOwner := !p.ownIn }))
      if s.cyc.phase = .output then release s else s
    else s

/-- ALIVE_TIMEOUT: no edge on ALIVE_IN for 3 ms while the link is silent for 50 µs or its latest message reports ALIVE_OUT as
stopped (R189). -/
def execAliveTimeout (s : State) : Res :=
  if !clocksRun s then .next s else
  let quiet := !(within s s.pair.last0 (rUs 50) || within s s.pair.last1 (rUs 50))
  if !(s.pair.edgeAt.isSome || s.pair.seen) || within s s.pair.edgeAt (rMs 3) || !(quiet || !s.pair.pAlive) then .next s
  else .next (partnerDied s)

/-- MIOJO_SILENT: the partner has gone SILENT (R189, R206, R217). -/
def execMiojoSilent (h : MjHdr) (_reason : Nat) (s : State) : Res :=
  onMessage s h (fun s => partnerDied (s.modPair (fun p => { p with pSilent := true })))

/-- ALIVE_TOGGLE: every 500 µs while the mode and the permit allow it; held low otherwise (R188, R459). -/
def execAliveToggle (s : State) : Res :=
  if s.ctl.mode.aliveList && within s s.pair.permitAt (rMs 2) && s.ctl.stoppedAt.isNone then
    if within s s.pair.toggledAt (rUs 500) then .next s
    else .next (s.modPair (fun p => { p with aliveOut := !p.aliveOut, toggledAt := some s.time.raw }))
  else .next (s.modPair (fun p => { p with aliveOut := false, toggledAt := none }))

/-- ALIVE_PERMIT_WRITE: the management cores write the permit (R188). -/
def execAlivePermitWrite (s : State) : Res :=
  if s.ctl.mode.aliveList then .next (s.modPair (fun p => { p with permitAt := some s.time.raw })) else .next s

/-- ALIVE_PERMIT_EXPIRE: 2 ms after the last permit ALIVE_OUT stops low (R188). -/
def execAlivePermitExpire (s : State) : Res :=
  if within s s.pair.permitAt (rMs 2) then .next s
  else .next (s.modPair (fun p => { p with aliveOut := false, toggledAt := none }))

/-- ALIVE_IN_EDGE: a filtered edge of the partner's square wave (R189). -/
def execAliveInEdge (s : State) : Res :=
  .next (trackWait (trackWiring (changePair s (fun p => { p with edgeAt := some s.time.raw }))))

/-- MIOJO_LINK_DOWN: neither lane has delivered a valid message for 50 µs (R197, R198, R218). This side's SEQ starts again at 0 here,
so that the KEEP and HELLO that go out before the link is up again take its first values (DESIGN CHOICE, log entry 120: R197 has SEQ
start at 0 at link up). -/
def execMiojoLinkDown (s : State) : Res :=
  if !s.pair.link || within s s.pair.last0 (rUs 50) || within s s.pair.last1 (rUs 50) then .next s
  else
    let s := changePair s (fun p => { p with
      link := false, lane0 := false, lane1 := false, nLoss := p.nLoss.inc, txSeq := 0, rxSeqs := [], ackSeq := 0, unacked := [],
      resend := [], annResend := [], annSeen := [], hello := none, saidHello := false, pMode := 0xFF, delayAt := none, delayReq := none, wiringSince := none })
    .next (if s.pair.dead then s else linkLoss s)

/-! ### HELLO and the cycle's messages -/

/-- MIOJO_HELLO: the partner's identity and mode; it ends a declaration of death, and is answered by this side's HELLO while the link is
down, which comes up once both have gone (R189, R198, R212, R213, R457). -/
def execMiojoHello (h : MjHdr) (x : Hello) (s : State) : Res :=
  onMessage s h (fun s =>
    let bad := wrongPartner s || unlikePartner s
    let twin := x.mode == 7 && s.pair.pMode != 7
    let s := changePair s (fun p => { p with
      hello := some x, pMode := x.mode, dead := false, pTwinAt := if twin then some s.time.raw else p.pTwinAt })
    let s := if s.pair.link then s else raiseLink (sayHello s)
    let s := if (wrongPartner s || unlikePartner s) && !bad then
        logPair s 8 (BitVec.ofNat 32 (pairStatus s / 256 % 16)) else s
    let s := if twin && s.ctl.mode == .alone && owns s && s.pair.serving == 0 then changeMode s .lead 0x0005 else s
    let s := if x.mode == 9 && s.ctl.mode == .catchup && decide (2 ≤ s.pair.phase ∧ s.pair.phase ≤ 5) then beginPhase1 (clearCycle s)
      else s
    tryPhase2 (joinOwner (trackWait s)))

/-- The offset of the partner's tick against this side's in 1/16 ns: positive when this side's TIME is ahead (R204). -/
def tickOffset (s : State) : Int :=
  let t : Int := (timeNow s : Int) - (16 * (s.pair.delayNs.toNat + 1000) : Nat)
  let near := (t + tickLen / 2) / tickLen * tickLen
  t - near

/-- The tick offset is shown (R204). -/
def showOffset (s : State) : State :=
  let o := tickOffset s
  s.modPair (fun p => { p with offset := sat32 (o / 16), offsets := ((o, s.time.raw) :: p.offsets).take 8 })

/-- The tick offset is shown and followed (R204). -/
def takeOffset (s : State) : State :=
  let o := tickOffset s
  let s := showOffset s
  if !s.ctl.mode.run || !partnerRuns s then s
  else if ownerPart s then changePair s (fun p => { p with following := false })
  else
    let far := decide (160000 < o ∨ o < -160000)
    let s := s.modPair (fun p => { p with farTicks := if far then p.farTicks + 1 else 0 })
    if 16 ≤ s.pair.farTicks then leaveForCatchup s 0x0009 false
    else
      let both := s.time.own == .locked && s.time.agreed == .locked && decide (-16000 ≤ o ∧ o ≤ 16000)
      let s := changePair s (fun p => { p with following := !both })
      if both then s else writeRate s (servoRate s o s.pair.offsets)

/-- MIOJO_TICK: kept for the agreement, answered by the frames the partner lacks, and measured (R201–R204); a joining side
takes the live tick count from it. -/
def execMiojoTick (h : MjHdr) (t : TickMsg) (s : State) : Res :=
  onMessage s h (fun s =>
    if s.ctl.mode = .catchup ∧ s.pair.phase < 5 then showOffset (s.modCyc (fun c => { c with tick := t.tick }))
    else if !countsTicks s then s
    else
      let s := s.modCyc (fun c => { c with partnerTick := some t })
      let s := if s.cyc.phase = .agreeing ∧ t.tick = s.cyc.cutTick ∧ t.prevReleased = true then supplyPartner (confirmTick s) t
        else s
      takeOffset s)

/-- MIOJO_SUPPLY: a frame this side lacks (R202). -/
def execMiojoSupply (h : MjHdr) (slot : Nat) (f : SlotFrame) (s : State) : Res :=
  onMessage s h (fun s =>
    if s.cyc.phase ≠ .agreeing then s
    else
      let s := s.modPair (fun p => { p with nSuppBy := p.nSuppBy.inc })
      s.modCyc (fun c => match f with
        | .net f => { c with supplies := mset c.supplies slot f }
        | .goose g => { c with suppliesG := mset c.suppliesG slot g }))

/-- MIOJO_SAMPLE: the partner's part of a sample set (R145, R194). -/
def execMiojoSample (h : MjHdr) (m : SampleMsg) (s : State) : Res :=
  onMessage s h (fun s => if enginesLive s then takePeerSample s m else s)

/-- MIOJO_SVSUPPLY: a sampled-value frame this side lacks (R145, R194). -/
def execMiojoSvsupply (h : MjHdr) (stream : Nat) (f : SvFrame) (s : State) : Res :=
  onMessage s h (fun s => if enginesLive s then takeSvSupply s stream f else s)

/-- MIOJO_SIDEIN: converter samples and pulse counts of the partner's side (R148, R173). -/
def execMiojoSidein (h : MjHdr) (xs : List SideItem) (s : State) : Res :=
  onMessage s h (fun s => if enginesLive s then xs.foldl (fun s x => replaySide s (timeNow s) x) s else s)

/-- MIOJO_OUTPUT: the partner's digests; equal ones release at once (R205, R206). -/
def execMiojoOutput (h : MjHdr) (tick digest engine : W64) (s : State) : Res :=
  onMessage s h (fun s => takeOutput s tick digest engine)

/-! ### Sequenced writes -/

/-- MIOJO_FORWARD: the owning side refuses, answers a repeat with the first WRITE, or with REFUSE where its outcome was an error, or
sequences; while no side owns, and on a side that does not own, it is left to the partner (R209, R210, R296). -/
def execMiojoForward (h : MjHdr) (fwd : W32) (r : PairReq) (s : State) : Res :=
  onMessage s h (fun s =>
    if !owns s || !s.ctl.mode.run then s
    else
      match repeatOf s r with
      | some x =>
        (match x.outcome with
         | some (st, _) => if st = 0 then mjSend s (.write { x.msg with originB := !s.pins.sideB, fwd := fwd })
             else mjSend s (.refuse fwd st)
         | none => mjSend s (.write { x.msg with originB := !s.pins.sideB, fwd := fwd }))
      | none =>
        let e := ownerRefuses s r
        if e ≠ 0 then mjSend s (.refuse fwd (BitVec.ofNat 16 e))
        else
          let t := reqTask s r
          let m : WriteMsg := ⟨s.pair.nextWsn, targetTick s 150 t, !s.pins.sideB, fwd, .request r⟩
          sequence (remember s m) (.request r) t (!s.pins.sideB) fwd false 0 (.port .h) 0)

/-- The request of this side's session that a WRITE answers (R210). -/
def forwardedFor (s : State) (w : WriteMsg) : Option FwdReq :=
  if w.originB = s.pins.sideB then s.pair.forwarded.find? (fun f => f.fwd == w.fwd) else none


/-- A new WRITE waits for its boundary (R75, R210). -/
def takeWrite (s : State) (w : WriteMsg) (f : Option FwdReq) : State :=
  let s := match w.body with | .request _ => remember s w | .activate _ | .refuseChange _ | .recordStart .. => s
  let item : SeqItem := match f with
    | some f => ⟨w, true, f.sid, f.via, f.ctr⟩
    | none => ⟨w, false, 0, .port .h, 0⟩
  let s := s.modPair (fun p => { p with seqs := p.seqs ++ [item], nextWsn := w.wsn + 1 })
  let s := match w.body with
    | .activate t => scheduleChange s t
    | .request _ | .refuseChange _ | .recordStart .. => s
  if s.ctl.mode.run ∧ w.target.toNat ≤ s.cyc.cutTick.toNat then leaveForCatchup s 0x0009 false else s

/-- A WRITE already known is a repeat's answer: its request gets the first outcome, or waits for it. A side that joined after the
first acceptance holds no outcome: a WRITE whose target has passed tells that the write applied there without error, one whose target
is to come waits for it (R296). -/
def repeatWrite (s : State) (w : WriteMsg) (f : Option FwdReq) : State :=
  match f, s.pair.repeats.find? (fun x => x.msg.wsn == w.wsn) with
  | some f, some x => answerRepeat s x f
  | some f', none => if w.target.toNat ≤ s.cyc.cutTick.toNat then answerFwd s f' 0 w.wsn w.target else takeWrite s w f
  | none, _ => s

/-- MIOJO_WRITE: acknowledged, and applied at its target tick's boundary; one that comes after its target's cutoff is a missed
command (R210). -/
def execMiojoWrite (h : MjHdr) (w : WriteMsg) (s : State) : Res :=
  onMessage s h (fun s =>
    if owns s || !(s.ctl.mode.run || s.ctl.mode == .catchup) then s
    else
      let s := mjSend s (.wack w.wsn)
      let f := forwardedFor s w
      let s := s.modPair (fun p => { p with forwarded := p.forwarded.filter (fun x => f != some x) })
      let known := s.pair.seqs.any (fun i => i.msg.wsn == w.wsn) || s.pair.repeats.any (fun x => x.msg.wsn == w.wsn) ||
        !(w.wsn == s.pair.nextWsn || newer w.wsn s.pair.nextWsn)
      if known then repeatWrite s w f else takeWrite s w f)

/-- ANNOUNCE is repeated every 20 µs until WACK names its write sequence number (R210, R255). -/
def resendAnnounces (s : State) : State :=
  s.pair.annResend.foldl (fun s x =>
    if elapsed s x.2.2 < rUs 20 then s
    else mjSend (s.modPair (fun p => { p with
      annResend := p.annResend.map (fun y => if y.1 = x.1 then (y.1, y.2.1, s.time.raw) else y) })) (.announce x.2.1)) s

/-- WRITE_RESEND_TIMER: WRITE, and ANNOUNCE under the same sequencing, are repeated every 20 µs until WACK arrives (R210,
R255). -/
def execWriteResendTimer (s : State) : Res :=
  if !clocksRun s then .next s else
  if !s.pair.link || s.pair.dead then .next (s.modPair (fun p => { p with resend := [], annResend := [] }))
  else
    .next (resendAnnounces <| s.pair.resend.foldl (fun s x =>
      if elapsed s x.2 < rUs 20 then s
      else mjSend (s.modPair (fun p => { p with
        resend := p.resend.map (fun y => if y.1.wsn = x.1.wsn then (y.1, s.time.raw) else y) })) (.write x.1)) s)

/-- MIOJO_WACK (R210). -/
def execMiojoWack (h : MjHdr) (wsn : W32) (s : State) : Res :=
  onMessage s h (fun s => s.modPair (fun p => { p with
    resend := p.resend.filter (fun x => x.1.wsn != wsn), annResend := p.annResend.filter (fun x => x.1 != wsn) }))

/-- MIOJO_REFUSE: the owning side refuses a forwarded request (R210). -/
def execMiojoRefuse (h : MjHdr) (fwd : W32) (code : W16) (s : State) : Res :=
  onMessage s h (fun s =>
    match s.pair.forwarded.find? (fun f => f.fwd == fwd) with
    | none => s
    | some f =>
      answerFwd (s.modPair (fun p => { p with forwarded := p.forwarded.filter (fun x => x.fwd != fwd) })) f code.toNat 0 noTick)

/-- MIOJO_HANDOVER: the partner has handed over: this side requests ownership as soon as the partner no longer reports OWN; the
no-owner interval begins with the fall on OWN_IN (R191, R209, R219). -/
def execMiojoHandover (h : MjHdr) (tick : W64) (s : State) : Res :=
  onMessage s h (fun s =>
    if owns s || !s.ctl.mode.run then s
    else
      let s := changePair s (fun p => { p with handover := some true, nHandover := p.nHandover.inc })
      requestOwn (logPair s 2 (tick.truncate 32)))

/-- An announcement that has not come before waits for its tick; one that comes after that tick's cutoff is missed (R250,
R255). -/
def takeAnnounce (s : State) (a : Announce) : State :=
  let n := s.pair.nextWsn
  let s := s.modPair (fun p => { p with nextWsn := n + 1, annSeen := lastN 16 (p.annSeen ++ [(n, a)]) })
  let s := mjSend s (.wack n)
  if a.tick.toNat ≤ s.cyc.cutTick.toNat then leaveForCatchup s 0x0009 false
  else s.modTime (fun t => { t with announced := t.announced ++ [a] })

/-- MIOJO_ANNOUNCE: a step or an agreed state for a named tick, which takes the next write sequence number and is acknowledged
under it; a repeat is acknowledged again (R210, R250, R255; log entry 104). -/
def execMiojoAnnounce (h : MjHdr) (a : Announce) (s : State) : Res :=
  onMessage s h (fun s =>
    if owns s || !s.ctl.mode.run then s
    else
      match s.pair.annSeen.find? (fun x => x.2 == a) with
      | some x => mjSend s (.wack x.1)
      | none => takeAnnounce s a)

/-- MIOJO_CHECK: the partner's outcome of the staged change, for the boundary it names (R75). -/
def execMiojoCheck (h : MjHdr) (tick : W64) (outcome : Nat) (digest : Bytes) (s : State) : Res :=
  onMessage s h (fun s =>
    if !s.ctl.mode.run then s
    else
      let s := s.modCyc (fun c => { c with change := { c.change with partner := some ⟨outcome, digest, tick⟩ } })
      if s.cyc.change.active then decideChange s else s)

/-! ### Catch-up messages -/

/-- MIOJO_STATE: stored by a joining side, and acknowledged (R195, R197, R214). -/
def execMiojoState (h : MjHdr) (region offset : Nat) (data : Bytes) (s : State) : Res :=
  onMessage s h (fun s =>
    if s.ctl.mode ≠ .catchup ∨ s.pair.phase < 2 ∨ 3 < s.pair.phase then s
    else
      let s := s.modPair (fun p => { p with
        stored := p.stored ++ [(region, offset, data)], cBytes := p.cBytes + BitVec.ofNat 64 data.length })
      mjSend s (.stateack s.pair.ackSeq))

/-- MIOJO_STATEACK (R197, R214). -/
def execMiojoStateack (h : MjHdr) (seq : W32) (s : State) : Res := onMessage s h (fun s => takeStateAck s seq)

/-- Items of a tick join the joining side's log, which is in tick order (R196). -/
def mergeLog (l : List (W64 × List LogItem)) (tick : W64) (xs : List LogItem) : List (W64 × List LogItem) :=
  match l with
  | [] => [(tick, xs)]
  | x :: t => if x.1 = tick then (x.1, x.2 ++ xs) :: t else if tick.toNat < x.1.toNat then (tick, xs) :: x :: t
    else x :: mergeLog t tick xs

/-- MIOJO_LOG: what the owning side logged, for the replay (R196, R214). -/
def execMiojoLog (h : MjHdr) (tick : W64) (items : List LogItem) (s : State) : Res :=
  onMessage s h (fun s =>
    if s.ctl.mode ≠ .catchup ∨ s.pair.phase < 3 then s
    else
      let s := s.modPair (fun p => { p with log := mergeLog p.log tick items })
      mjSend s (.stateack s.pair.ackSeq))

/-- The owning side on a CATCH of the joining side (R196, R214, R458). -/
def serveCatch (s : State) (phase : Nat) (reason : Option Nat) : State :=
  let able := owns s && (s.ctl.mode == .alone || s.ctl.mode == .lead)
  if phase = 1 then sayHello (if able then s.modPair (fun p => { p with serving := 1 }) else stopServing s)
  else if phase = 2 then (if able then serveBulk s else s)
  else if phase = 5 then (if s.pair.serving = 4 then flushLog (s.modPair (fun p => { p with serving := 5 })) else s)
  else if phase = 0 ∨ phase = 6 then
    if 2 ≤ s.pair.serving then
      let r := reason.getD s.pair.cReason
      stopServing (logPair (s.modPair (fun p => { p with nFailed := p.nFailed.inc, cReason := r })) 5 (BitVec.ofNat 32 r))
    else stopServing s
  else s

/-- The joining side on a CATCH of the owning side: phase 3, the load that begins phase 4, or a failure (R196, R214). -/
def joinCatch (s : State) (phase : Nat) (snapshot : W64) (reason : Option Nat) : State :=
  if phase = 3 ∧ s.pair.phase = 2 then mjSend (s.modPair (fun p => { p with phase := 3 })) (.catchMsg 3 noTick none)
  else if phase = 4 ∧ (s.pair.phase = 3 ∨ s.pair.phase = 2) then
    let s := loadSnapshot (s.modPair (fun p => { p with snapTick := snapshot, phase := 4 }))
    mjSend s (.catchMsg 4 snapshot none)
  else if phase = 0 ∧ 2 ≤ s.pair.phase ∧ s.pair.phase ≤ 5 then catchFail (clearCycle s) (reason.getD 0)
  else s

/-- MIOJO_CATCH (R196, R214, R215). -/
def execMiojoCatch (h : MjHdr) (phase : Nat) (snapshot : W64) (reason : Option Nat) (s : State) : Res :=
  onMessage s h (fun s =>
    if s.ctl.mode = .catchup then joinCatch s phase snapshot reason
    else if s.ctl.mode.run then serveCatch s phase reason
    else s)

/-- CATCHUP_RETRY_TIMER: 10 s after a failed catch-up phase 1 begins again (R215). -/
def execCatchupRetryTimer (s : State) : Res :=
  if s.ctl.mode = .catchup ∧ past s s.pair.cRetryAt (rSec 10) = true then .next (tryPhase2 (beginPhase1 s)) else .next s

/-- TWIN_STABLE_TIMER: 60 s in TWIN after a catch-up that followed a mismatch reset the count of failures (R215). -/
def execTwinStableTimer (s : State) : Res :=
  if s.ctl.mode = .twin ∧ s.pair.cMismatch = true ∧ past s s.pair.twinSince (rSec 60) = true then
    .next (s.modPair (fun p => { p with cFails := 0, cMismatch := false }))
  else .next s

end Sys2Proof.Machine
end

