-- ==== Sys2Proof/Machine/Boot.lean ====
section
/-!
DEFINITION. From reset to STOP: the mask ROM and the resident loader, the boot protocol on port H, self-test, provisioning, and certificates and attestation reports (R439, R440, R463, R471–R479, R489, R494, R495).
-/

namespace Sys2Proof.Machine

/-! ### Boot frames -/

/-- Types of the table "Boot messages" that the module sends. -/
def btSolicit : Nat := 0x01
def btAck : Nat := 0x04
def btResult : Nat := 0x05
def btObject : Nat := 0x11
def btProvResp : Nat := 0x21

/-- A boot frame leaves on port H (R475). -/
def bootSend (s : State) (dst : W48) (type : Nat) (xid : W32) (payload : Bytes) : State :=
  let r := startOn s .h (moduleMac s) 0
  if r.1 then send r.2 (.boot (moduleMac s) dst type xid payload) else r.2

/-- SOLICIT, with stage 1 while the ROM wants a loader and stage 2 while firmware is wanted (R473, R475, R476). -/
def solicit (s : State) : State :=
  let stage : Byte := if s.ctl.mode = .cold then 1 else 2
  bootSend s 0x01ED72400000 btSolicit 0
    ([stage, BitVec.ofNat 8 s.ctl.life.code, BitVec.ofNat 8 s.ctl.mode.code, s.boot.refusal.truncate 8] ++
      beBytes 2 s.ident.computeClass.toNat ++ beBytes 2 s.ident.hwRev.toNat ++ beBytes 4 (loaderVersion s).toNat ++
      padTo 16 s.ident.serial)

/-- SOLICIT goes out now and again after 1 s (R477). -/
def solicitNow (s : State) : State := (solicit s).modBoot (fun b => { b with solicitAt := some s.time.raw })

/-- Kind of image that the module asks for: a loader in COLD under R473, firmware in BOOTWAIT and VERIFY (R473, R477). -/
def wantedKind (s : State) : Option Nat :=
  match s.ctl.mode with
  | .cold => if s.boot.solicitAt.isSome then some 1 else none
  | .bootwait | .verify => some 2
  | _ => none

/-- A boot frame of VER 0x01 comes from the host of the present exchange, or no exchange is under way; any other is discarded (R475). -/
def fromHost (s : State) (b : BootHdr) : Bool :=
  b.ver == 1 && (match s.boot.xfer with | none => true | some x => x.host == b.src)

/-! ### From COLD to BOOTWAIT -/

/-- The port domain starts: the ring ports at the medium held in flash, or in detection; S0, S1 and H at 1000BASE-X (R224). -/
def startPorts (s : State) : State :=
  let held := s.net.heldMedium.getD 0
  let s := modPort (modPort s .p0 (fun q => { q with medium := held })) .p1 (fun q => { q with medium := held })
  let one := fun (s : State) (p : Port) => modPort s p (fun q => { q with medium := 1 })
  (one (one (one s .s0) .s1) .h).modNet (fun n => { n with trying := 3, detectAt := some s.time.raw })

/-- COLD to BOOTWAIT: the port domain starts, the field side is powered with its outputs held, and SOLICIT goes out (R224, R453,
R454, R456, R477). -/
def enterBootwait (s : State) : State := solicitNow (fieldDead (startPorts (setMode s .bootwait 0x000F)))

/-- The resident loader runs: an open strap holds the module in COLD, a staged loader is handled first, then BOOTWAIT (R2, R472,
R474, R507). -/
def loaderGoesOn (s : State) : State :=
  if s.pins.strapOpen || s.boot.sLoader.state == 2 then s else enterBootwait s

/-- A verified loader gains control: the keys its REVOKE names are revoked, but for the key that signed it (R471, R472). -/
def runLoader (s : State) (m : Manifest) : State :=
  s.modBoot (fun b => { b with
    loaderRun := some m, solicitAt := none,
    revoked := b.revoked ||| (m.revoke &&& ~~~(BitVec.ofNat 4 (2 ^ m.key))) })

/-- The first check that the loader in flash fails, or 0; an erased slot names no key (R470, R472). -/
def flashLoaderCheck (s : State) : Nat :=
  match s.boot.loader with
  | none => 0x03
  | some m => imageCheck s m s.boot.loaderImg 1 false

/-- MASK_ROM_CHECK: a pending life-cycle change is completed, and the resident loader is checked and run, or asked for from the
host (R464, R470–R473, R503). -/
def execMaskRomCheck (s : State) : Res :=
  if s.ctl.mode ≠ .cold ∨ s.pins.pgood = false ∨ s.pins.rstHigh = false ∨ s.boot.loaderRun.isSome = true ∨
      s.boot.solicitAt.isSome = true then .next s
  else
    let s := settleLife s
    let code := flashLoaderCheck s
    match s.boot.loader with
    | some m => if code = 0 then .next (loaderGoesOn (runLoader s m)) else .next (solicitNow (refuseImage s code))
    | none => .next (solicitNow (refuseImage s code))

/-- STAGED_LOADER_INSTALL: a staged loader that fails is discarded and the boot goes on; one that passes replaces the loader and
resets the module (R474). -/
def execStagedLoaderInstall (s : State) : Res :=
  if s.ctl.mode ≠ .cold ∨ s.boot.loaderRun.isNone = true ∨ s.boot.sLoader.state ≠ 2 ∨ s.pins.strapOpen = true then .next s
  else
    let m := parseManifest (bytesOf s.boot.sLoader.man)
    let code := imageCheck s m s.boot.sLoader.img 1 false
    if code ≠ 0 then .next (loaderGoesOn (refuseImage (emptySlot s 1 4) code))
    else
      .next (resetModule (s.modBoot (fun b => { b with
        loader := some m, loaderImg := b.sLoader.img, sLoader := SlotSt.reset })) 2)

/-- SOLICIT_TIMER: every 1 s until an OFFER arrives (R473, R477). -/
def execSolicitTimer (s : State) : Res :=
  if (s.ctl.mode = .bootwait ∨ s.ctl.mode = .cold) ∧ s.boot.xfer.isNone = true ∧ past s s.boot.solicitAt (rSec 1) = true then
    .next (solicitNow s)
  else .next s

/-! ### Transfers -/

/-- BOOT_OFFER: the host offers the kind of image that is wanted; its address and exchange identifier stand for the exchange (R475,
R477). -/
def execBootOffer (b : BootHdr) (kind manLen imgLen : Nat) (s : State) : Res :=
  let begun := match s.boot.xfer with | none => false | some x => x.started
  if wantedKind s ≠ some kind ∨ fromHost s b = false ∨ begun = true ∨ 2 ^ 32 ≤ manLen ∨ 2 ^ 32 ≤ imgLen then .next s
  else
    .next (s.modBoot (fun t => { t with
      xfer := some { host := b.src, xid := b.xid, kind := kind, manLen := manLen, man := [], manOk := false, chunk := 0,
                     blocks := [], img := [], lasts := [], started := false, lastAt := s.time.raw } }))

/-- Bytes of the manifest (0) or of image chunk c (c + 1) of a transfer (R468, R477). -/
def Xfer.len (x : Xfer) (k : Nat) : Nat := if k = 0 then x.manLen else chunkLen (parseManifest x.man) (k - 1)

/-- Blocks of 1,024 bytes in a number of bytes; a chunk has at most 64 (R476). -/
def blocksIn (n : Nat) : Nat := min 64 ((n + 1023) / 1024)

/-- A block has been received. -/
def Xfer.holds (x : Xfer) (k b : Nat) : Bool := (mget x.blocks (64 * k + b)).isSome

/-- Bit b is set when block b is missing (table "Boot messages", ACK). -/
def Xfer.missing (x : Xfer) (k : Nat) : W64 :=
  (List.range (blocksIn (x.len k))).foldl (fun a b => if x.holds k b then a else setBit a b true) 0

/-- Every byte of the manifest or chunk is here. -/
def Xfer.whole (x : Xfer) (k : Nat) : Bool := decide (x.len k ≤ 65536) && x.missing k == 0

/-- The bytes of a manifest or chunk, block after block. -/
def Xfer.bytes (x : Xfer) (k : Nat) : Bytes :=
  (List.range (blocksIn (x.len k))).flatMap (fun b =>
    mgetD x.blocks (64 * k + b) [])

/-- An image chunk's SHA-256 equals its DIGESTS entry (R478). -/
def Xfer.chunkGood (x : Xfer) (c : Nat) : Bool := sha256 (x.bytes (c + 1)) == (parseManifest x.man).digests.getD c []

/-- Whole chunks that follow on join the image (R478). -/
def Xfer.advance : Nat → Xfer → Xfer
  | 0, x => x
  | n + 1, x =>
    if x.chunk < (parseManifest x.man).chunks ∧ x.whole (x.chunk + 1) = true ∧ x.chunkGood x.chunk = true then
      Xfer.advance n { x with
        img := x.img ++ x.bytes (x.chunk + 1), chunk := x.chunk + 1,
        blocks := x.blocks.filter (fun e => e.1 / 64 != x.chunk + 1) }
    else x

/-- Image chunks before chunk c that are not acknowledged yet; the host has at most 2 of them (R477). -/
def Xfer.unacked (x : Xfer) (c : Nat) : Nat :=
  ((List.range c).filter (fun i => decide (x.chunk ≤ i) && !x.whole (i + 1))).length

/-- ACK of the manifest (0) or of an image chunk c (c + 1) with its missing blocks (R476, R477). -/
def sendAck (s : State) (x : Xfer) (k : Nat) (missing : W64) : State :=
  bootSend s x.host btAck x.xid
    ([if k = 0 then 0 else 1, 0] ++ beBytes 2 (k - 1) ++ beBytes 8 missing.toNat)

/-- RESULT with a code and the chunk it concerns (R476, R478). -/
def sendResult (s : State) (x : Xfer) (code chunk : Nat) : State := bootSend s x.host btResult x.xid (beBytes 2 code ++ beBytes 2 chunk)

/-- The transfer ends without an image: a new SOLICIT follows after 1 s, and VERIFY returns to BOOTWAIT (R456, R472, R477). -/
def endTransfer (s : State) : State :=
  let s := s.modBoot (fun b => { b with xfer := none, solicitAt := some s.time.raw })
  if s.ctl.mode = .verify then setMode s .bootwait 0x0002 else s

/-- A check fails: RESULT carries its code, which is recorded and logged (R470, R472, R478). -/
def failTransfer (s : State) (x : Xfer) (code chunk : Nat) : State := endTransfer (refuseImage (sendResult s x code chunk) code)

/-- The image is accepted: firmware goes to SELFTEST; a loader runs, and writes itself to flash before BOOTWAIT, logged with
cause 0 (R473, R478). -/
def acceptImage (s : State) (x : Xfer) (m : Manifest) : State :=
  let s := sendResult s x 0 0
  if x.kind = 1 then
    let s := runLoader (s.modBoot (fun b => { b with
      xfer := none, loader := some m, loaderImg := x.img.zipIdx.map (fun e => (e.2, e.1)), fetched := true })) m
    loaderGoesOn (logEvent s ltReset (resetBody s 0))
  else setMode (s.modBoot (fun b => { b with xfer := none, solicitAt := none, fw := some m })) .selftest 0x0010

/-- The whole manifest is checked before it is acknowledged (R477, R478). -/
def takeManifest (s : State) (x : Xfer) : State :=
  let x := { x with man := x.bytes 0, blocks := [] }
  let m := parseManifest x.man
  let code := if (manifestKey s m).isSome ∧ x.man.length ≠ manifestLen m.chunks then 0x01 else manifestCheck s m x.kind
  if code ≠ 0 then failTransfer s x code 0
  else sendAck (s.modBoot (fun b => { b with xfer := some { x with manOk := true } })) x 0 0

/-- A whole image chunk is acknowledged and checked; the last one ends the transfer (R477, R478). -/
def takeChunk (s : State) (x : Xfer) (c : Nat) : State :=
  let m := parseManifest x.man
  let s := sendAck s x (c + 1) 0
  if !x.chunkGood c then failTransfer s x 0x02 c
  else
    let x := x.advance m.chunks
    if x.chunk = m.chunks then acceptImage s x m else s.modBoot (fun b => { b with xfer := some x })

/-- A block of the manifest (0) or of an image chunk c (c + 1) is stored where the transfer takes it; a chunk already whole is
acknowledged again (R476, R477). -/
def takeBlock (s : State) (x : Xfer) (k block : Nat) (data : Bytes) : State :=
  let known := if k = 0 then x.manOk else decide (k ≤ x.chunk) || (x.manOk && decide (k ≤ (parseManifest x.man).chunks) && x.whole k)
  let taken := k = 0 ∨ (x.manOk = true ∧ k ≤ (parseManifest x.man).chunks ∧ x.unacked (k - 1) < 2)
  if known then sendAck (s.modBoot (fun b => { b with xfer := some { x with lastAt := s.time.raw } })) x k 0
  else if ¬ taken ∨ blocksIn (x.len k) ≤ block ∨ data.length ≠ min 1024 (x.len k - 1024 * block) then
    s.modBoot (fun b => { b with xfer := some x })
  else
    let x := { x with
      blocks := mset x.blocks (64 * k + block) data, lasts := mset x.lasts k s.time.raw, lastAt := s.time.raw }
    if x.whole k then
      let x := { x with lasts := mdel x.lasts k }
      if k = 0 then takeManifest s x else takeChunk s x (k - 1)
    else s.modBoot (fun b => { b with xfer := some x })

/-- BOOT_DATA: a DATA frame of the exchange, the first of which enters VERIFY; one that does not match its layout is discarded (R475–R478). -/
def execBootData (b : BootHdr) (object chunk block : Nat) (data : Bytes) (s : State) : Res :=
  match s.boot.xfer with
  | none => .next s
  | some x =>
    if fromHost s b = false ∨ x.xid ≠ b.xid ∨ wantedKind s ≠ some x.kind then .next s
    else if 1 < object ∨ 63 < block ∨ data.length = 0 ∨ 1024 < data.length ∨ (object = 0 ∧ chunk ≠ 0) ∨ 65535 < chunk then .next s
    else
      let s := if s.ctl.mode = .bootwait then setMode s .verify 0x0001 else s
      .next (takeBlock s { x with started := true } (if object = 0 then 0 else chunk + 1) block data)

/-- BOOT_ACK_TIMER: 1 ms after the last DATA of a chunk that is still incomplete, ACK lists its missing blocks (R477). -/
def execBootAckTimer (s : State) : Res :=
  if s.ctl.mode = .silent then .next s else
  match s.boot.xfer with
  | none => .next s
  | some x =>
    let due := (x.lasts.filter (fun e => decide (rMs 1 ≤ elapsed s e.2))).map (·.1)
    let s := s.modBoot (fun b => { b with xfer := some { x with lasts := x.lasts.filter (fun e => !due.contains e.1) } })
    .next (due.foldl (fun s k => sendAck s x k (x.missing k)) s)

/-- BOOT_TRANSFER_TIMEOUT: no DATA for 2 s ends the transfer without a RESULT (R477). -/
def execBootTransferTimeout (s : State) : Res :=
  match s.boot.xfer with
  | none => .next s
  | some x => if elapsed s x.lastAt < rSec 2 then .next s else .next (endTransfer s)

/-! ### Self-test -/

/-- SELFTEST_RUN: a pass enters STOP, with the outputs as SILENT has them and the CAN controllers joining; a failing unit puts the
module in SILENT with reason 4 (R310, R439, R440, R454, R456). -/
def execSelftestRun (failed : Option Nat) (s : State) : Res :=
  if s.ctl.mode ≠ .selftest then .next s
  else
    match failed with
    | some u => .next (enterSilent (s.modInteg (fun g => { g with stPassed := false, stResult := 2, stUnit := u })) 4 u 0)
    | none =>
      let s := s.modInteg (fun g => { g with stPassed := true, stResult := 1, stUnit := 0 })
      .next (canJoin (canJoin (fieldOff (setMode s .stop 0x0003)) 0) 1)

/-! ### Provisioning -/

/-- The confirmation of PROVRESP (R489). -/
def provConfirm (s : State) (key nonce : Bytes) : Bytes := hmac key (ascii "GB7240 prov" ++ nonce ++ beBytes 6 (moduleMac s).toNat)

/-- PROVRESP with a code and its confirmation, zero where nothing is confirmed (R476, R489). -/
def provResp (s : State) (b : BootHdr) (code : Nat) (confirm : Bytes) : State :=
  bootSend s b.src btProvResp b.xid (beBytes 2 code ++ [0, 0] ++ padTo 32 confirm)

/-- PROVISION: accepted from a BLANK module in BOOTWAIT or STOP; the keys become pending with the change to PROVISIONED, which the
reset carries out (R464, R489, R490). -/
def execProvision (b : BootHdr) (body : Bytes) (s : State) : Res :=
  let k := (body.getD 0 0).toNat
  if s.ctl.mode = .cold ∨ s.ctl.mode = .silent ∨ fromHost s b = false ∨ body.length < 68 then .next s
  else if s.ctl.life ≠ .blank ∨ (s.ctl.mode ≠ .bootwait ∧ s.ctl.mode ≠ .stop) ∨ s.ctl.lifePending.isSome = true then
    .next (provResp s b 0x0301 [])
  else if (k ≠ 1 ∧ k ≠ 2) ∨ body.length ≠ 68 + 32 * k then .next (provResp s b 0x0502 [])
  else
    let key := slice body 36 32
    let s := pendLife s .provisioned
      ⟨[⟨3, 0, key⟩], some (slice body 68 32), if k = 2 then some (slice body 100 32) else none⟩
    .next (resetModule (provResp s b 0 (provConfirm s key (slice body 4 32))) 2)

/-! ### Certificates and attestation -/

/-- OBJECT frames of 1,024 bytes from an offset to the end (R479); an object that ends at or before the offset is answered by one
frame without data. -/
def sendObject (s : State) (dst : W48) (xid : W32) (object : Nat) (data : Bytes) (offset : Nat) : State :=
  (List.range (max 1 ((data.length - offset + 1023) / 1024))).foldl (fun s i =>
    let o := offset + 1024 * i
    let d := (data.drop o).take 1024
    bootSend s dst btObject xid
      ([BitVec.ofNat 8 object, 0] ++ beBytes 2 d.length ++ beBytes 4 data.length ++ beBytes 4 o ++ d)) s

/-- BOOT_GET: a certificate in every mode but COLD and SILENT; a report in BOOTWAIT and STOP, a new one at offset 0 and the last one
made at any other (R476, R479, R495). -/
def execBootGet (b : BootHdr) (object offset : Nat) (nonce : Bytes) (s : State) : Res :=
  if s.ctl.mode = .cold ∨ s.ctl.mode = .silent ∨ fromHost s b = false ∨ nonce.length ≠ 32 then .next s
  else if object = 1 then .next (sendObject s b.src b.xid 1 s.ident.moduleCert offset)
  else if object = 2 then .next (sendObject s b.src b.xid 2 s.ident.issuingCert offset)
  else if object ≠ 3 ∨ (s.ctl.mode ≠ .bootwait ∧ s.ctl.mode ≠ .stop) then .next s
  else if offset ≠ 0 then .next (sendObject s b.src b.xid 3 s.boot.attReport offset)
  else if s.boot.identityKey.isSome then .next (startReport s nonce (some (b.src, b.xid))).2
  else .next s

/-- ATTESTATION_SIGNED: the report is ready, and goes to the host that asked for it by GET (R479, R494, R495). -/
def execAttestationSigned (s : State) : Res :=
  if !clocksRun s then .next s else
  if s.boot.attState ≠ 1 then .next s
  else
    let m := reportBody s
    let report := m ++ Config.sign128f (s.boot.identityKey.getD ⟨[], []⟩).priv m
    let host := s.boot.attHost
    let s := s.modBoot (fun b => { b with attState := 2, attReport := report, attHost := none })
    match host with
    | some h => if s.ctl.mode = .cold ∨ s.ctl.mode = .silent then .next s else .next (sendObject s h.1 h.2 3 report 0)
    | none => .next s

end Sys2Proof.Machine
end

