-- ==== Sys2Proof/Machine/Settle.lean ====
section
/-!
DEFINITION. In STOP: settings formats, the settling of the package, and the start of a module (R85, R136, R152, R213, R239, R457, R459, R481–R483, R486).
-/

namespace Sys2Proof.Machine

/-! ### Settings formats -/

/-- The newest of the formats that a test passes; 0 for none. -/
def newestFormat (fs : List (Nat × List (Nat × Nat))) (ok : Nat → Bool) : Nat :=
  (fs.filter (fun x => ok x.1)).foldl (fun a x => max a x.1) 0

/-- SETTINGS_CONVERT: the settings of the running firmware's format are used; where only older formats are there, those of the newest
are taken over and kept beside; where a newer one is there, every setting starts again and takes the package's values (R483). -/
def settleFormat (s : State) : State :=
  let f := match s.boot.fw with | some m => m.setfmt | none => 0
  if s.boot.curFmt = some f then s
  else
    let kept := match s.boot.curFmt with | none => s.boot.formats | some g => mset s.boot.formats g s.dict.settings
    let older := newestFormat kept (fun g => decide (g < f))
    let newer := kept.any (fun x => decide (f < x.1))
    let again := (mget kept f).isNone && newer
    let own := match mget kept f with
      | some v => v
      | none => if newer then [] else if kept.isEmpty then s.dict.settings else mgetD kept older []
    let s := s.modBoot (fun b => { b with formats := mdel kept f, curFmt := some f, olderFmt := older })
    let s := s.modDict (fun d => { d with settings := own })
    match again, s.boot.running with
    | true, some r => packageSettings s r.pkg
    | _, _ => s

/-! ### The package at start -/

/-- The staged package is installed, or refused; or the previous one was asked for (R481, R482). -/
def settleStaged (s : State) : State :=
  if s.boot.runPrev && s.boot.previous.isSome then
    s.modBoot (fun b => { b with running := b.previous, previous := b.running, runPrev := false })
  else
    let s := s.modBoot (fun b => { b with runPrev := false })
    match stagedPackage s with
    | none => s
    | some i =>
      let code := imageCheck s i.man i.image 3 true
      if code = 0 then (installPackage s i).modBoot (fun b => { b with sPkg := SlotSt.reset })
      else refuseImage (modSlot s 3 (fun x => { x with state := 4 })) code

/-- The running package is checked again; one that fails gives way to the previous one, or holds the module in STOP (R481). -/
def settleRunning (s : State) : State :=
  match s.boot.running with
  | none => s
  | some r =>
    let code := imageCheck s r.man r.image 3 false
    if code = 0 then s
    else
      let s := refuseImage s code
      match s.boot.previous with
      | some p =>
        if imageCheck s p.man p.image 3 false = 0 then s.modBoot (fun b => { b with running := some p, previous := some r })
        else s.modBoot (fun b => { b with refusedPkg := true })
      | none => s.modBoot (fun b => { b with refusedPkg := true })

/-- PACKAGE_SETTLE: at every boot, in STOP and before any start, the settings and the package are settled; a module holds a running
package only when it is COMMISSIONED (R462, R481–R483). -/
def execPackageSettle (s : State) : Res :=
  if s.ctl.mode ≠ .stop ∨ s.boot.settled = true then .next s
  else
    let before := s
    let s := settleFormat s
    let s := if s.ctl.life = .commissioned then settleRunning (settleStaged s) else s
    let s := fieldOff (refSwitch (checkProgram (loadProgram s)))
    let t := canReprogram (s.modBoot (fun b => { b with settled := true }))
    .next (notePair before (joinOwner (trackWait (sayHello t))))

/-! ### Starting -/

/-- The start-up wait of 0x1200:10 has passed with the partner alive and not owning (R213). -/
def waitedOut (s : State) : Bool := past s s.pair.startWaitFrom (rMs (setting s 0x1200 0x10 5000))

/-- START_FROM_STOP: the module shows what holds it, joins an owning partner, or requests ownership: side A at once, side B where the
partner is absent or has not owned for the start-up wait (R213, R457). -/
def execStartFromStop (s : State) : Res :=
  if s.ctl.mode ≠ .stop ∨ s.ctl.startsAt.isSome = true then .next s
  else if mayStart s = false then .next (if s.pair.ownReq || s.pair.ownOut then lowerOwn s else s)
  else if isPaired s && partnerOwning s then .next (tryPhase2 (joinOwner s))
  else if !isPaired s || !s.pins.sideB || partnerAbsent s || waitedOut s then .next (requestOwn s)
  else .next (trackWait s)

/-- STARTUP_WAIT_EXPIRE: side B requests ownership after the start-up wait (R213). -/
def execStartupWaitExpire (s : State) : Res :=
  if mayStart s && isPaired s && s.pins.sideB && !partnerOwning s && waitedOut s then .next (requestOwn s) else .next s

/-- OWN_HIGH_ENTER_ALONE: 100 µs after OWN_OUT rose the side enters ALONE and restarts; where it may no longer start it lowers OWN_OUT
(R85, R213, R457). -/
def execOwnHighEnterAlone (s : State) : Res :=
  if s.ctl.mode ≠ .stop ∨ s.pair.ownOut = false ∨ s.ctl.startsAt.isSome = true ∨ past s s.pair.ownHighSince (rUs 100) = false then
    .next s
  else if mayStart s then .next (enterAlone s (if afterSwitch s then 0x000B else 0x0004))
  else .next (lowerOwn s)

/-- STOP_REJOIN_TIMER: at least 4 ms after a stop, and once no commanded stop stands, ALIVE may toggle, HELLO goes out and the side may
start (R459). -/
def execStopRejoinTimer (s : State) : Res :=
  if s.ctl.mode ≠ .stop ∨ s.ctl.commandedStop = true ∨ past s s.ctl.stoppedAt (rMs 4) = false then .next s
  else
    let s := s.modCtl (fun c => { c with stoppedAt := none })
    .next (joinOwner (trackWait (sayHello s)))

end Sys2Proof.Machine
end

