-- ==== Sys2Proof/Machine/Connector.lean ====
section
/-!
DEFINITION. The connector: supply, resets, straps, the wipe contact, LEDs, the I2C status block, JTAG, and ARP and ICMP on the ports (R283, R328, R332, R446, R454, R455, R463, R502–R510).
-/

namespace Sys2Proof.Machine

/-! ### Supply -/

/-- A feed lies above the turn-on threshold. -/
def fed (s : State) : Bool := s.pins.vinA || s.pins.vinB

/-- The straps as sampled at a reset (R507). -/
def takeStraps (s : State) (x : Straps) : State :=
  s.modPins (fun p => { p with sideB := x.sideB, pos := x.pos, strapOpen := x.anyOpen })

/-- The power-cycle count rises by one when the AON domain was unpowered; it holds at its limit (R328, R329). -/
def countPower (s : State) : State :=
  if s.pins.aonPowered then s
  else
    s.modLog (fun l =>
      let c := Ctr.inc ⟨l.power, l.powerSat⟩
      { l with power := c.n, powerSat := c.sat, secRaw := s.time.raw })

/-- POWER_ON: with a feed above its threshold for 10 ms PGOOD rises; the straps are sampled, the power cycle is counted, the event log
is recovered, a pending life-cycle change is completed, and the module stands in COLD with cause 0; the old mode of its TYPE 0x0002
record is COLD too, for there was none before (R328, R332, R343, R456, R464, R503, R507; DEDUCED, log entry 137). -/
def execPowerOn (straps : Straps) (s : State) : Res :=
  if s.pins.pgood || !fed s then .next s
  else
    let lost := s.dist.openRecs
    let s := takeStraps (keepState (countPower s)) straps
    let s := s.modPins (fun p => { p with pgood := true, aonPowered := true, warnAt := none })
    let s := settleLife (recoverLog s)
    let s := logEvent (logEvent s ltReset (resetBody s 0)) ltMode (modeBody .cold .cold 0)
    .next (lost.foldl (fun s r => logEvent s ltDist (distBody 2 r.number)) s)

/-- FEED_CHANGE: the load moves to the other feed without effect; a feed that returns in time leaves the module running (R502, R504,
R510). -/
def execFeedChange (a b : Bool) (s : State) : Res :=
  .next (s.modPins (fun p => { p with vinA := a, vinB := b, warnAt := if a || b then none else p.warnAt }))

/-- STORED_ENERGY_WARNING: with both feeds gone the start pointer is stored; the operating seconds stand in MRAM with it (R328, R332,
R504). -/
def execStoredEnergyWarning (s : State) : Res :=
  if fed s || !s.pins.pgood || s.pins.warnAt.isSome then .next s
  else .next ((s.modLog LogSt.storePtr).modPins (fun p => { p with warnAt := some s.time.raw }))

/-- PGOOD_FALL: at least 1 ms after the warning PGOOD falls and the module is in reset in the same clock; records still open stay in
flash until the next power-on discards them (R26, R343, R465, R504). -/
def execPgoodFall (s : State) : Res :=
  if fed s || !s.pins.pgood || !past s s.pins.warnAt (rMs 1) then .next s
  else
    let open_ := s.dist.openRecs
    let s := (keepState s).modDist (fun d => { d with openRecs := open_, discarded := Ctr.reset })
    .next (s.modPins (fun p => { p with pgood := false, aonPowered := false, warnAt := none }))

/-! ### RST_N and WIPE_N -/

/-- RST_N_ASSERT: low for 10 µs resets the module with cause 1, below 1 µs it is ignored, and between the two it does either (R505).
PGOOD stands: it reports the rails only, as R503 and R505 say, and not the absence of the module that R26's table gives it for
(DEDUCED, log entry 102). -/
def execRstNAssert (us : Nat) (s : State) : Res :=
  let either := decide (1 ≤ us) && decide (us < 10)
  let f := freeValue s
  let s := if either then f.2 else s
  if us < 1 ∨ (either = true ∧ f.1.getLsbD 0 = false) then .next s
  else
    let s := s.modPins (fun p => { p with rstHigh := false })
    .next (if s.pins.pgood then resetModule s 1 else s)

/-- RST_N_RELEASE: RST_N rises; the straps have been sampled at the reset, and the mask ROM starts while PGOOD is high (R503, R505,
R507). -/
def execRstNRelease (straps : Straps) (s : State) : Res :=
  if s.pins.rstHigh then .next s
  else
    let s := s.modPins (fun p => { p with rstHigh := true })
    .next (if s.pins.pgood then takeStraps s straps else s)

/-- WIPE_N_HELD: low for 10 s, counted from PGOOD and anew from every reset and power-up by the sender of the command (R509), returns a PROVISIONED or COMMISSIONED module to BLANK, in any mode, unless a change is pending (R463,
R464). -/
def execWipeNHeld (s : State) : Res :=
  if s.pins.pgood = false ∨ s.ctl.lifePending.isSome = true ∨ (s.ctl.life ≠ .provisioned ∧ s.ctl.life ≠ .commissioned) then .next s
  else .next (resetModule (pendLife s .blank ⟨[], none, none⟩) 2)

/-! ### LEDs and FAULT_N -/

/-- FAULT_N is asserted and LED_FAULT lit: in SILENT, in DEBUG and while a latent fault stands (R455). While PGOOD is low every output
is high-impedance, and an open-drain contact open (R509). -/
def faultN (s : State) : Bool := s.pins.pgood && (s.ctl.mode == .silent || s.ctl.mode == .dbg || s.integ.latent)

/-- LED_RUN flashes: at 1 Hz in STOP and CATCHUP, at 4 Hz in TEST (table "Outputs by mode"). -/
def runFlashes (s : State) : Bool := s.ctl.mode == .stop || s.ctl.mode == .catchup || s.ctl.mode == .test

/-- LED_RUN is lit (table "Outputs by mode"); it is open while PGOOD is low (R509). -/
def ledRunLit (s : State) : Bool :=
  s.pins.pgood && (s.ctl.mode == .alone || s.ctl.mode == .twin || s.ctl.mode == .lead || (runFlashes s && s.ctl.ledRun))

/-- LED_PAIR is lit: in TWIN and LEAD, in TEST beside a partner in TEST, and in its phase in CATCHUP (R455). -/
def ledPairLit (s : State) : Bool :=
  s.pins.pgood && (s.ctl.mode == .twin || s.ctl.mode == .lead || (s.ctl.mode == .test && partnerRuns s && s.pair.pMode == 9) ||
    (s.ctl.mode == .catchup && s.ctl.ledPair))

/-- LED_FORCE is lit steadily while a force is active (R49). -/
def ledForceLit (s : State) : Bool := s.pins.pgood && !s.img.forces.isEmpty

/-- LED_FLASH_TOGGLE: the phase of LED_RUN or LED_PAIR changes in the modes that make it flash (R454, R455). -/
def execLedFlashToggle (pairLed : Bool) (s : State) : Res :=
  if pairLed then
    (if s.ctl.mode = .catchup then .next (s.modCtl (fun c => { c with ledPair := !c.ledPair })) else .next s)
  else if runFlashes s then .next (s.modCtl (fun c => { c with ledRun := !c.ledRun }))
  else .next s

/-! ### I2C -/

/-- Byte 0x07 of the table "I2C status block". -/
def i2cFlags (s : State) : Nat :=
  b2n s.pins.vinA + 2 * b2n s.pins.vinB + 4 * b2n (decide (19000 < s.field.lplus.toNat)) + 8 * b2n (faultN s) +
    16 * b2n s.integ.latent + 32 * b2n s.integ.debugged

/-- The status block, with the temperature and the input power, as measured and 0xFF while not known, from a free value (R510, log
entry 14). -/
def i2cBlock (s : State) (measured : W64) : Bytes :=
  [BitVec.ofNat 8 s.ctl.mode.code, BitVec.ofNat 8 s.ctl.life.code] ++
    beBytes 2 (if (pkgOf s).isSome then (herdAddr s).toNat else 0xFFFF) ++
    [measured.extractLsb' 0 8, measured.extractLsb' 8 8, measured.extractLsb' 16 8, BitVec.ofNat 8 (i2cFlags s)] ++
    beBytes 4 s.log.power.toNat ++ [0, 0, 0, 0]

/-- I2C_WRITE: the byte sets the register pointer; where a byte above 0x0F points is not given (R510, log entry 14). -/
def execI2cWrite (b : Byte) (s : State) : Res :=
  if s.pins.pgood = false then .next s
  else if b.toNat < 16 then .next (s.modPins (fun p => { p with i2cPtr := b.truncate 4 }))
  else
    let f := freeValue s
    .next (f.2.modPins (fun p => { p with i2cPtr := f.1.truncate 4 }))

/-- I2C_READ: bytes from the pointer onward, which wraps from 0x0F to 0x00 (R510). -/
def execI2cRead (n : Nat) (s : State) : Res :=
  if s.pins.pgood = false then .next s
  else
    let f := freeValue s
    let blk := i2cBlock s f.1
    let s := send f.2 (.i2c ((List.range n).map (fun i => blk.getD ((s.pins.i2cPtr.toNat + i) % 16) 0)))
    .next (s.modPins (fun p => { p with i2cPtr := p.i2cPtr + BitVec.ofNat 4 n }))

/-! ### JTAG -/

/-- JTAG_ACCESS: instruction 0 stands for IDCODE and 1 for BYPASS, which the TAP always answers; any other goes to the debug access
port, which answers while it is enabled and not frozen. With `mem` it is a read of memory, which passes the MPU and the target firewalls
as a master: it answers the word, or an error where nothing is mapped, and a denied one is a violation (R388, R396, R403, R404, R446,
R447; what IDCODE and any other access to the port answer is not given, log entry 14; BYPASS as IEEE 1149.1 has it, log entry 26). -/
def execJtagAccess (ir : Nat) (v : W32) (s : State) (mem : Option W32 := none) : Res :=
  if s.pins.pgood = false then .next s
  else if ir = 1 then .next (send s (.jtag true (v <<< 1)))
  else
    let f := freeValue s
    if ir = 0 then .next (send f.2 (.jtag true (f.1.truncate 32)))
    else if dapOpen s then
      let s := s.modInteg (fun g => { g with dapSession := true })
      match mem with
      | none => .next (send (f.2.modInteg (fun g => { g with dapSession := true })) (.jtag true (f.1.truncate 32)))
      | some a =>
        match readAccess s .dap a.toNat 4 0 with
        | .unmapped => .next (send s .debugError)
        | .denied x => .next (breach s x)
        | .word w s => .next (send s (.jtag true w))
    else .next (send s (.jtag false 0))

/-! ### ARP and ICMP -/

/-- The module's IPv4 address on a port: its package address where the dictionary is served, 169.254.72.40 on port H in BOOTWAIT
(R282, R283, R302). -/
def ipOn (s : State) (p : Port) : Option W32 :=
  if !dictServed s (.port p) then none
  else if p = .h then some 0xA9FE4828
  else (pkgOf s).map (fun k => if s.pins.sideB then k.ipB else k.ipA)

/-- ARP_REQUEST: a request for the module's own address is answered on the port it came in by (R283). -/
def execArpRequest (p : Port) (mac : W48) (_ip target : W32) (s : State) : Res :=
  if ipOn s p = some target then let o := ownFrame s p 28; .next (send o.2 (.arpReply p o.1 target mac)) else .next s

/-- ICMP_ECHO: an echo request to the module's own address is answered on the port it came in by (R283). -/
def execIcmpEcho (p : Port) (target : W32) (id seq : W16) (data : Bytes) (s : State) : Res :=
  if ipOn s p = some target then
    let o := ownFrame s p (28 + data.length)
    .next (send o.2 (.icmpReply p o.1 id seq data))
  else .next s

end Sys2Proof.Machine
end

