-- ==== Sys2Proof/Machine/Dispatch.lean ====
section
/-!
DEFINITION. The dispatcher: one arm for each command of the table.
-/

namespace Sys2Proof.Machine

def exec (i : Instr) (s : State) : Host.Outcome State Fault Refusal :=
  match i with
  | .powerOn straps => Sys2Proof.Machine.execPowerOn straps s
  | .feedChange a b => Sys2Proof.Machine.execFeedChange a b s
  | .storedEnergyWarning => Sys2Proof.Machine.execStoredEnergyWarning s
  | .rstNAssert us => Sys2Proof.Machine.execRstNAssert us s
  | .wipeNHeld => Sys2Proof.Machine.execWipeNHeld s
  | .maskRomCheck => Sys2Proof.Machine.execMaskRomCheck s
  | .stagedLoaderInstall => Sys2Proof.Machine.execStagedLoaderInstall s
  | .solicitTimer => Sys2Proof.Machine.execSolicitTimer s
  | .bootOffer b kind manLen imgLen => Sys2Proof.Machine.execBootOffer b kind manLen imgLen s
  | .bootData b object chunk block data => Sys2Proof.Machine.execBootData b object chunk block data s
  | .bootAckTimer => Sys2Proof.Machine.execBootAckTimer s
  | .bootTransferTimeout => Sys2Proof.Machine.execBootTransferTimeout s
  | .bootGet b object offset nonce => Sys2Proof.Machine.execBootGet b object offset nonce s
  | .provision b body => Sys2Proof.Machine.execProvision b body s
  | .selftestRun failed => Sys2Proof.Machine.execSelftestRun failed s
  | .packageSettle => Sys2Proof.Machine.execPackageSettle s
  | .startFromStop => Sys2Proof.Machine.execStartFromStop s
  | .startupWaitExpire => Sys2Proof.Machine.execStartupWaitExpire s
  | .ownHighEnterAlone => Sys2Proof.Machine.execOwnHighEnterAlone s
  | .stopRejoinTimer => Sys2Proof.Machine.execStopRejoinTimer s
  | .tick => Sys2Proof.Machine.execTick s
  | .executionStart => Sys2Proof.Machine.execExecutionStart s
  | .executionEnd => Sys2Proof.Machine.execExecutionEnd s
  | .miojoOutput h tick digest engine => Sys2Proof.Machine.execMiojoOutput h tick digest engine s
  | .digestTimeout => Sys2Proof.Machine.execDigestTimeout s
  | .switchoverResume => Sys2Proof.Machine.execSwitchoverResume s
  | .agreementTimeout => Sys2Proof.Machine.execAgreementTimeout s
  | .ncallTrap c => Sys2Proof.Machine.execNcallTrap c s
  | .cycRettWrite c v retired => Sys2Proof.Machine.execCycRettWrite c v s retired
  | .ncallAbandon c retired => Sys2Proof.Machine.execNcallAbandon c s retired
  | .cycVecWrite c v => Sys2Proof.Machine.execCycVecWrite c v s
  | .pointStageWrite c point v => Sys2Proof.Machine.execPointStageWrite c point v s
  | .pointCommitWrite c point v => Sys2Proof.Machine.execPointCommitWrite c point v s
  | .constantWindowWrite c const v => Sys2Proof.Machine.execConstantWindowWrite c const v s
  | .gridInstant => Sys2Proof.Machine.execGridInstant s
  | .sampleDeadline stream => Sys2Proof.Machine.execSampleDeadline stream s
  | .analysisInstant ch => Sys2Proof.Machine.execAnalysisInstant ch s
  | .trackingLossTimer ch => Sys2Proof.Machine.execTrackingLossTimer ch s
  | .loopUpdate n => Sys2Proof.Machine.execLoopUpdate n s
  | .shareToFull n => Sys2Proof.Machine.execShareToFull n s
  | .fullToShare n => Sys2Proof.Machine.execFullToShare n s
  | .miojoHello h x => Sys2Proof.Machine.execMiojoHello h x s
  | .miojoKeep h => Sys2Proof.Machine.execMiojoKeep h s
  | .keepSendTimer lane => Sys2Proof.Machine.execKeepSendTimer lane s
  | .miojoDelay h response raw turnaround => Sys2Proof.Machine.execMiojoDelay h response raw turnaround s
  | .delayMeasureTimer => Sys2Proof.Machine.execDelayMeasureTimer s
  | .miojoTick h t => Sys2Proof.Machine.execMiojoTick h t s
  | .miojoSupply h slot f => Sys2Proof.Machine.execMiojoSupply h slot f s
  | .miojoSample h m => Sys2Proof.Machine.execMiojoSample h m s
  | .miojoSvsupply h stream f => Sys2Proof.Machine.execMiojoSvsupply h stream f s
  | .miojoSidein h xs => Sys2Proof.Machine.execMiojoSidein h xs s
  | .miojoForward h fwd r => Sys2Proof.Machine.execMiojoForward h fwd r s
  | .miojoWrite h w => Sys2Proof.Machine.execMiojoWrite h w s
  | .writeResendTimer => Sys2Proof.Machine.execWriteResendTimer s
  | .miojoWack h wsn => Sys2Proof.Machine.execMiojoWack h wsn s
  | .miojoRefuse h fwd code => Sys2Proof.Machine.execMiojoRefuse h fwd code s
  | .miojoHandover h tick => Sys2Proof.Machine.execMiojoHandover h tick s
  | .miojoAnnounce h a => Sys2Proof.Machine.execMiojoAnnounce h a s
  | .miojoCheck h tick outcome digest => Sys2Proof.Machine.execMiojoCheck h tick outcome digest s
  | .miojoSilent h reason => Sys2Proof.Machine.execMiojoSilent h reason s
  | .miojoState h region offset data => Sys2Proof.Machine.execMiojoState h region offset data s
  | .miojoStateack h seq => Sys2Proof.Machine.execMiojoStateack h seq s
  | .stateResendTimer => Sys2Proof.Machine.execStateResendTimer s
  | .miojoLog h tick items => Sys2Proof.Machine.execMiojoLog h tick items s
  | .miojoCatch h phase snapshot reason => Sys2Proof.Machine.execMiojoCatch h phase snapshot reason s
  | .miojoBadCrc lane => Sys2Proof.Machine.execMiojoBadCrc lane s
  | .laneUp lane => Sys2Proof.Machine.execLaneUp lane s
  | .laneDown lane => Sys2Proof.Machine.execLaneDown lane s
  | .miojoLinkDown => Sys2Proof.Machine.execMiojoLinkDown s
  | .aliveToggle => Sys2Proof.Machine.execAliveToggle s
  | .alivePermitWrite => Sys2Proof.Machine.execAlivePermitWrite s
  | .alivePermitExpire => Sys2Proof.Machine.execAlivePermitExpire s
  | .aliveInEdge => Sys2Proof.Machine.execAliveInEdge s
  | .aliveTimeout => Sys2Proof.Machine.execAliveTimeout s
  | .ownInChange high => Sys2Proof.Machine.execOwnInChange high s
  | .ownPermitExpire => Sys2Proof.Machine.execOwnPermitExpire s
  | .interlockWiringFault => Sys2Proof.Machine.execInterlockWiringFault s
  | .catchupBulkPassDone dirty => Sys2Proof.Machine.execCatchupBulkPassDone dirty s
  | .catchupReplayTick => Sys2Proof.Machine.execCatchupReplayTick s
  | .catchupRetryTimer => Sys2Proof.Machine.execCatchupRetryTimer s
  | .twinStableTimer => Sys2Proof.Machine.execTwinStableTimer s
  | .publicationReceive f => Sys2Proof.Machine.execPublicationReceive f s
  | .slotForgetTimer slot => Sys2Proof.Machine.execSlotForgetTimer slot s
  | .gooseReceive g => Sys2Proof.Machine.execGooseReceive g s
  | .gooseRetransmit pub => Sys2Proof.Machine.execGooseRetransmit pub s
  | .svFrameReceive f at_ => Sys2Proof.Machine.execSvFrameReceive f s at_
  | .bellReceive herd mac => Sys2Proof.Machine.execBellReceive herd mac s
  | .bellSendTimer => Sys2Proof.Machine.execBellSendTimer s
  | .canBellSend ctrl => Sys2Proof.Machine.execCanBellSend ctrl s
  | .ringFrameArrival onP1 f broken => Sys2Proof.Machine.execRingFrameArrival onP1 f s broken
  | .stationFrameArrival p f broken => Sys2Proof.Machine.execStationFrameArrival p f s broken
  | .separatorEntryExpire => Sys2Proof.Machine.execSeparatorEntryExpire s
  | .supervisionSendTimer => Sys2Proof.Machine.execSupervisionSendTimer s
  | .ringLinkChange p up medium => Sys2Proof.Machine.execRingLinkChange p up medium s
  | .ringMediumDetectTimer => Sys2Proof.Machine.execRingMediumDetectTimer s
  | .arpRequest p mac ip target => Sys2Proof.Machine.execArpRequest p mac ip target s
  | .icmpEcho p target id seq data => Sys2Proof.Machine.execIcmpEcho p target id seq data s
  | .ptpSyncReceive m => Sys2Proof.Machine.execPtpSyncReceive m s
  | .ptpFollowUpReceive srcPort seq origin correction => Sys2Proof.Machine.execPtpFollowUpReceive srcPort seq origin correction s
  | .ptpAnnounceReceive m => Sys2Proof.Machine.execPtpAnnounceReceive m s
  | .pdelayReqReceive port seq correction ingress egress => Sys2Proof.Machine.execPdelayReqReceive port seq correction ingress egress s
  | .pdelayRespReceive port seq ingress turnaround => Sys2Proof.Machine.execPdelayRespReceive port seq ingress turnaround s
  | .pdelayReqTimer egress => Sys2Proof.Machine.execPdelayReqTimer s egress
  | .ptpTcForward m => Sys2Proof.Machine.execPtpTcForward m s
  | .ptpTcEntryExpire => Sys2Proof.Machine.execPtpTcEntryExpire s
  | .syncLossTimer => Sys2Proof.Machine.execSyncLossTimer s
  | .holdoverLimitExpire => Sys2Proof.Machine.execHoldoverLimitExpire s
  | .refInQualify diff => Sys2Proof.Machine.execRefInQualify diff s
  | .refInLoss => Sys2Proof.Machine.execRefInLoss s
  | .ppsInEdge at_ => Sys2Proof.Machine.execPpsInEdge s at_
  | .wholeSecond => Sys2Proof.Machine.execWholeSecond s
  | .timeAlarmFire => Sys2Proof.Machine.execTimeAlarmFire s
  | .timeAlarmArm => Sys2Proof.Machine.execTimeAlarmArm s
  | .timeAlarmDisarm => Sys2Proof.Machine.execTimeAlarmDisarm s
  | .rateWrite rate => Sys2Proof.Machine.execRateWrite rate s
  | .timeGroupLatchRead reg m => Sys2Proof.Machine.execTimeGroupLatchRead reg s m
  | .forerunnerLoad v => Sys2Proof.Machine.execForerunnerLoad v s
  | .sessionOpen h body => Sys2Proof.Machine.execSessionOpen h body s
  | .sessionSetupTimeout sid => Sys2Proof.Machine.execSessionSetupTimeout sid s
  | .sessionIdleTimeout sid => Sys2Proof.Machine.execSessionIdleTimeout sid s
  | .sessionClose h => Sys2Proof.Machine.execSessionClose h s
  | .dictRead h items rsv => Sys2Proof.Machine.execDictRead h items s rsv
  | .dictWrite h w rsv => Sys2Proof.Machine.execDictWrite h w s rsv
  | .dictMalformed h type body => Sys2Proof.Machine.execDictMalformed h type body s
  | .canTpFrame ctrl f => Sys2Proof.Machine.execCanTpFrame ctrl f s
  | .canTpTimeout ctrl => Sys2Proof.Machine.execCanTpTimeout ctrl s
  | .serviceUnlock c data => Sys2Proof.Machine.execServiceUnlock c data s
  | .restartWarm c => Sys2Proof.Machine.execRestartWarm c s
  | .restartCold c => Sys2Proof.Machine.execRestartCold c s
  | .setForce c data => Sys2Proof.Machine.execSetForce c data s
  | .releaseForce c data => Sys2Proof.Machine.execReleaseForce c data s
  | .releaseAllForces c => Sys2Proof.Machine.execReleaseAllForces c s
  | .onlineChangeActivate c => Sys2Proof.Machine.execOnlineChangeActivate c s
  | .onlineChangeDiscard c => Sys2Proof.Machine.execOnlineChangeDiscard c s
  | .clearCounters c index sub => Sys2Proof.Machine.execClearCounters c index sub s
  | .loopModeSet c n mode => Sys2Proof.Machine.execLoopModeSet c n mode s
  | .loopBankCommand c n bank => Sys2Proof.Machine.execLoopBankCommand c n bank s
  | .clearRepetitiveMemory c n => Sys2Proof.Machine.execClearRepetitiveMemory c n s
  | .commandedHandover c => Sys2Proof.Machine.execCommandedHandover c s
  | .retryCatchup c => Sys2Proof.Machine.execRetryCatchup c s
  | .manualTrigger c => Sys2Proof.Machine.execManualTrigger c s
  | .deleteAllRecords c => Sys2Proof.Machine.execDeleteAllRecords c s
  | .clearDFault c held => Sys2Proof.Machine.execClearDFault c s held
  | .clearDebugged c => Sys2Proof.Machine.execClearDebugged c s
  | .clearLatentFault c => Sys2Proof.Machine.execClearLatentFault c s
  | .commandedStop c => Sys2Proof.Machine.execCommandedStop c s
  | .liftStop c => Sys2Proof.Machine.execLiftStop c s
  | .commandedReset c => Sys2Proof.Machine.execCommandedReset c s
  | .testEnter c => Sys2Proof.Machine.execTestEnter c s
  | .testLeave c => Sys2Proof.Machine.execTestLeave c s
  | .commission c => Sys2Proof.Machine.execCommission c s
  | .returnToBlank c => Sys2Proof.Machine.execReturnToBlank c s
  | .decommission c => Sys2Proof.Machine.execDecommission c s
  | .raiseMinimumSvn c => Sys2Proof.Machine.execRaiseMinimumSvn c s
  | .packageKeyA1Write c data => Sys2Proof.Machine.execPackageKeyA1Write c data s
  | .wrappedRoleKeyWrite c data => Sys2Proof.Machine.execWrappedRoleKeyWrite c data s
  | .removeRoleKey c data => Sys2Proof.Machine.execRemoveRoleKey c data s
  | .attestationNonce c nonce => Sys2Proof.Machine.execAttestationNonce c nonce s
  | .attestationSigned => Sys2Proof.Machine.execAttestationSigned s
  | .beginStaging c kind => Sys2Proof.Machine.execBeginStaging c kind s
  | .manifestStreamWrite c offset data => Sys2Proof.Machine.execManifestStreamWrite c offset data s
  | .imageStreamWrite c offset data => Sys2Proof.Machine.execImageStreamWrite c offset data s
  | .confirmSettings c => Sys2Proof.Machine.execConfirmSettings c s
  | .discardSlot c => Sys2Proof.Machine.execDiscardSlot c s
  | .runPreviousPackage c => Sys2Proof.Machine.execRunPreviousPackage c s
  | .prepareSwitchover c => Sys2Proof.Machine.execPrepareSwitchover c s
  | .switchover c => Sys2Proof.Machine.execSwitchover c s
  | .logRecordWrite => Sys2Proof.Machine.execLogRecordWrite s
  | .logMirrorCopy => Sys2Proof.Machine.execLogMirrorCopy s
  | .operatingSecond => Sys2Proof.Machine.execOperatingSecond s
  | .recordStart => Sys2Proof.Machine.execRecordStart s
  | .recordCommit number => Sys2Proof.Machine.execRecordCommit number s
  | .recLoggo c => Sys2Proof.Machine.execRecLoggo c s
  | .dmbGo c => Sys2Proof.Machine.execDmbGo c s
  | .dmbAbort c => Sys2Proof.Machine.execDmbAbort c s
  | .dmbDone c => Sys2Proof.Machine.execDmbDone c s
  | .dmbNcallDiscard c offset v load => Sys2Proof.Machine.execDmbNcallDiscard c offset v s load
  | .canFrameReceive ctrl f => Sys2Proof.Machine.execCanFrameReceive ctrl f s
  | .canTxComplete ctrl => Sys2Proof.Machine.execCanTxComplete ctrl s
  | .canBusError ctrl e => Sys2Proof.Machine.execCanBusError ctrl e s
  | .canRecoveryDone ctrl => Sys2Proof.Machine.execCanRecoveryDone ctrl s
  | .canTxsubmit ctrl v => Sys2Proof.Machine.execCanTxsubmit ctrl v s
  | .canTxcancel ctrl v => Sys2Proof.Machine.execCanTxcancel ctrl v s
  | .canRxack ctrl => Sys2Proof.Machine.execCanRxack ctrl s
  | .canRecover ctrl => Sys2Proof.Machine.execCanRecover ctrl s
  | .canSleep ctrl => Sys2Proof.Machine.execCanSleep ctrl s
  | .canWakeCommand ctrl => Sys2Proof.Machine.execCanWakeCommand ctrl s
  | .canWake ctrl cause => Sys2Proof.Machine.execCanWake ctrl cause s
  | .canLasterrRead ctrl held => Sys2Proof.Machine.execCanLasterrRead ctrl s held
  | .interruptEvent c src => Sys2Proof.Machine.execInterruptEvent c src s
  | .intcClaim c v => Sys2Proof.Machine.execIntcClaim c v s
  | .intcComplete c v => Sys2Proof.Machine.execIntcComplete c v s
  | .intcSwset c v => Sys2Proof.Machine.execIntcSwset c v s
  | .intcStrayClear c => Sys2Proof.Machine.execIntcStrayClear c s
  | .holdExpire c src => Sys2Proof.Machine.execHoldExpire c src s
  | .wfi c => Sys2Proof.Machine.execWfi c s
  | .coreWake c => Sys2Proof.Machine.execCoreWake c s
  | .dmaGo ch => Sys2Proof.Machine.execDmaGo ch s
  | .dmaResume ch => Sys2Proof.Machine.execDmaResume ch s
  | .dmaStop ch => Sys2Proof.Machine.execDmaStop ch s
  | .dmaDisable => Sys2Proof.Machine.execDmaDisable s
  | .dmaBeat ch held => Sys2Proof.Machine.execDmaBeat ch s held
  | .dmaDescriptorDone ch => Sys2Proof.Machine.execDmaDescriptorDone ch s
  | .dmaBusError ch addr => Sys2Proof.Machine.execDmaBusError ch addr s
  | .dmaUnfreeze c held => Sys2Proof.Machine.execDmaUnfreeze c s held
  | .evfSwpulse v m => Sys2Proof.Machine.execEvfSwpulse v s m
  | .eventDelivery producer => Sys2Proof.Machine.execEventDelivery producer s
  | .evfLostClear m => Sys2Proof.Machine.execEvfLostClear s m
  | .clkWakesClear c => Sys2Proof.Machine.execClkWakesClear c s
  | .mpuSyncRead c => Sys2Proof.Machine.execMpuSyncRead c s
  | .mpuRegionLock c region => Sys2Proof.Machine.execMpuRegionLock c region s
  | .protectionViolation v => Sys2Proof.Machine.execProtectionViolation v s
  | .accessFault m addr type ch => Sys2Proof.Machine.execAccessFault m addr type ch s
  | .misalignedAccess c addr store => Sys2Proof.Machine.execMisalignedAccess c addr store s
  | .registerWrite m addr v size held => Sys2Proof.Machine.execRegisterWrite m addr v s size held
  | .adcSwgo v => Sys2Proof.Machine.execAdcSwgo v s
  | .adcInjectWrite v => Sys2Proof.Machine.execAdcInjectWrite v s
  | .conversionDone code at_ => Sys2Proof.Machine.execConversionDone code s at_
  | .adcResultRead reg held m => Sys2Proof.Machine.execAdcResultRead reg s held m
  | .converterCalibration offsets gains => Sys2Proof.Machine.execConverterCalibration offsets gains s
  | .referenceCheck uv => Sys2Proof.Machine.execReferenceCheck uv s
  | .fieldRefresh => Sys2Proof.Machine.execFieldRefresh s
  | .fieldWatchdogTrip => Sys2Proof.Machine.execFieldWatchdogTrip s
  | .dInputSample levels => Sys2Proof.Machine.execDInputSample levels s
  | .dInputTest failed => Sys2Proof.Machine.execDInputTest failed s
  | .pulseEdge n => Sys2Proof.Machine.execPulseEdge n s
  | .overcurrentTrip n => Sys2Proof.Machine.execOvercurrentTrip n s
  | .tripRetry n => Sys2Proof.Machine.execTripRetry n s
  | .lplusSag mv => Sys2Proof.Machine.execLplusSag mv s
  | .lplusRecover mv => Sys2Proof.Machine.execLplusRecover mv s
  | .complianceShortfall n => Sys2Proof.Machine.execComplianceShortfall n s
  | .lockstepMismatch unit detail => Sys2Proof.Machine.execLockstepMismatch unit detail s
  | .uncorrectableError m detail => Sys2Proof.Machine.execUncorrectableError m detail s
  | .correctedError m => Sys2Proof.Machine.execCorrectedError m s
  | .managementWatchdog => Sys2Proof.Machine.execManagementWatchdog s
  | .supplyClockFault unit => Sys2Proof.Machine.execSupplyClockFault unit s
  | .scrubStep m words => Sys2Proof.Machine.execScrubStep m words s
  | .runtimeComparatorTest unit pass => Sys2Proof.Machine.execRuntimeComparatorTest unit pass s
  | .eccDecoderTest unit pass => Sys2Proof.Machine.execEccDecoderTest unit pass s
  | .automaticRestart => Sys2Proof.Machine.execAutomaticRestart s
  | .debugHalt c op => Sys2Proof.Machine.execDebugHalt c s op
  | .ebreak c => Sys2Proof.Machine.execEbreak c s
  | .debugLockedAccess addr region => Sys2Proof.Machine.execDebugLockedAccess addr region s
  | .debugReset => Sys2Proof.Machine.execDebugReset s
  | .managementDebugOp => Sys2Proof.Machine.execManagementDebugOp s
  | .i2cWrite b => Sys2Proof.Machine.execI2cWrite b s
  | .i2cRead n => Sys2Proof.Machine.execI2cRead n s
  | .jtagAccess ir v mem => Sys2Proof.Machine.execJtagAccess ir v s mem
  | .rstNRelease straps => Sys2Proof.Machine.execRstNRelease straps s
  | .pgoodFall => Sys2Proof.Machine.execPgoodFall s
  | .announceReceiptTimeout => Sys2Proof.Machine.execAnnounceReceiptTimeout s
  | .ncallTimeBudgetElapsed c => Sys2Proof.Machine.execNcallTimeBudgetElapsed c s
  | .ppsOutFall => Sys2Proof.Machine.execPpsOutFall s
  | .ledFlashToggle pairLed => Sys2Proof.Machine.execLedFlashToggle pairLed s
  | .cutoffConverterHold task => Sys2Proof.Machine.execCutoffConverterHold task s
  | .mpuRuleWriteEffective m => Sys2Proof.Machine.execMpuRuleWriteEffective m s

end Sys2Proof.Machine
end

