-- ==== Sys2Proof/Safety.lean ====
section
/-!
DEFINITION. The terms in which the statements speak of steps: the parts of the state, what a command may change, and the canonical form
of the memories.
-/

namespace Sys2Proof.Machine

/-- The parts of the state. -/
inductive Part where
  | pending | out | ident | pins | ctl | time | img | cyc | n0 | n1 | mpu | dma | evf | can0 | can1 | bell | streams | chans | loops | pair
  | net | dict | log | dist | field | integ | boot | mode | life | keys | mem | tick
deriving DecidableEq, Repr

/-- The life-cycle state and the change that waits (R461, R464). -/
def Ctl.lifeOf (c : Ctl) : Life × Option Life := (c.life, c.lifePending)

/-- The keys, the keys that wait, the revocations and the minimum security versions (R467, R471, R490, R491). -/
def BootSt.keysOf (b : BootSt) :
    Option Bytes × Option Bytes × List RoleKey × Option PendKeys × Option KeyPair × BitVec 4 × Nat × Nat :=
  (b.a0, b.a1, b.roles, b.pendKeys, b.identityKey, b.revoked, b.minLoader, b.minFw)

/-- The memories of a native core pair (R383). -/
def CpSt.memsOf (n : CpSt) : List (Nat × Byte) × List (Nat × Byte) × List (Nat × Byte) := (n.tcm, n.dram, n.mram)

/-- What a part holds. -/
def Part.Holds : Part → Type
  | .pending => List Instr
  | .out => List Out
  | .ident => Ident
  | .pins => Pins
  | .ctl => Ctl
  | .time => TimeSt
  | .img => Img
  | .cyc => CycSt
  | .n0 => CpSt
  | .n1 => CpSt
  | .mpu => Mpu
  | .dma => DmaSt
  | .evf => EvfSt
  | .can0 => CanSt
  | .can1 => CanSt
  | .bell => BellSt
  | .streams => List (Nat × StreamSt)
  | .chans => List (Nat × ChSt)
  | .loops => List (Nat × LoopSt)
  | .pair => PairSt
  | .net => NetSt
  | .dict => DictSt
  | .log => LogSt
  | .dist => DistSt
  | .field => FieldSt
  | .integ => IntegSt
  | .boot => BootSt
  | .mode => Mode
  | .life => Life × Option Life
  | .keys => Option Bytes × Option Bytes × List RoleKey × Option PendKeys × Option KeyPair × BitVec 4 × Nat × Nat
  | .mem => (List (Nat × Byte) × List (Nat × Byte) × List (Nat × Byte)) × List (Nat × Byte) × List (Nat × Byte) × List (Nat × Byte)
  | .tick => W64

/-- A part of a state. -/
def State.part (s : State) : (p : Part) → p.Holds
  | .pending => s.pending
  | .out => s.out
  | .ident => s.ident
  | .pins => s.pins
  | .ctl => s.ctl
  | .time => s.time
  | .img => s.img
  | .cyc => s.cyc
  | .n0 => s.n0
  | .n1 => s.n1
  | .mpu => s.mpu
  | .dma => s.dma
  | .evf => s.evf
  | .can0 => s.can0
  | .can1 => s.can1
  | .bell => s.bell
  | .streams => s.streams
  | .chans => s.chans
  | .loops => s.loops
  | .pair => s.pair
  | .net => s.net
  | .dict => s.dict
  | .log => s.log
  | .dist => s.dist
  | .field => s.field
  | .integ => s.integ
  | .boot => s.boot
  | .mode => s.ctl.mode
  | .life => s.ctl.lifeOf
  | .keys => s.boot.keysOf
  | .mem => (s.n0.memsOf, s.n1.memsOf)
  | .tick => s.cyc.tick

/-- `t` is `s` but for the parts of a list. -/
structure State.onlyChanges (s : State) (ps : List Part) (t : State) : Prop where
  /-- A part outside the list is as before. -/
  same : ∀ p, p ∉ ps → t.part p = s.part p

/-- Every next state of an outcome is `s` but for the parts of a list. -/
structure State.onlyNext (s : State) (ps : List Part) (r : Res) : Prop where
  same : ∀ t, r = .next t → s.onlyChanges ps t

/-- Every part. -/
def Part.all : List Part :=
    [.pending, .out, .ident, .pins, .ctl, .time, .img, .cyc, .n0, .n1, .mpu, .dma, .evf, .can0, .can1, .bell, .streams, .chans,
   .loops, .pair, .net, .dict, .log, .dist, .field, .integ, .boot, .mode, .life, .keys, .mem, .tick]

/-- Every part but those of a list. -/
def Part.allBut (ps : List Part) : List Part := Part.all.filter (fun p => !ps.contains p)

open Sys2Proof.Machine.Part in
/-- The parts of the state that a command may change; every other part stands as it was. -/
def Instr.parts : Instr → List Part
  | .powerOn _ | .rstNAssert _ => allBut [.pending, .ident]
  | .feedChange _ _ | .rstNRelease _ => [.pins]
  | .storedEnergyWarning => [.pins, .log]
  | .wipeNHeld | .stagedLoaderInstall | .provision _ _ | .dictWrite _ _ _ | .canTpFrame _ _ | .serviceUnlock _ _ | .restartWarm _
  | .restartCold _ | .setForce _ _ | .releaseForce _ _ | .releaseAllForces _ | .onlineChangeActivate _ | .onlineChangeDiscard _
  | .clearCounters _ _ _ | .loopModeSet _ _ _ | .loopBankCommand _ _ _ | .clearRepetitiveMemory _ _ | .commandedHandover _
  | .retryCatchup _ | .manualTrigger _ | .deleteAllRecords _ | .clearDFault _ _ | .clearDebugged _ | .clearLatentFault _
  | .commandedStop _ | .liftStop _ | .commandedReset _ | .testEnter _ | .testLeave _ | .commission _ | .returnToBlank _
  | .decommission _ | .raiseMinimumSvn _ | .packageKeyA1Write _ _ | .wrappedRoleKeyWrite _ _ | .removeRoleKey _ _
  | .attestationNonce _ _ | .beginStaging _ _ | .manifestStreamWrite _ _ _ | .imageStreamWrite _ _ _ | .confirmSettings _
  | .discardSlot _ | .runPreviousPackage _ | .prepareSwitchover _ | .switchover _ | .dmbGo _ | .automaticRestart
    => allBut [.pending, .ident, .pins]
  | .maskRomCheck
    => [.out, .ctl, .time, .img, .cyc, .n0, .n1, .net, .dict, .log, .dist, .field, .integ, .boot, .mode, .life, .keys, .mem, .tick]
  | .solicitTimer | .bootAckTimer | .bootGet _ _ _ _ | .attestationSigned => [.out, .net, .integ, .boot]
  | .bootOffer _ _ _ _ => [.boot]
  | .bootData _ _ _ _ _ => [.out, .ctl, .time, .img, .n0, .n1, .net, .log, .dist, .field, .integ, .boot, .mode, .keys]
  | .bootTransferTimeout => [.ctl, .time, .img, .n0, .n1, .log, .dist, .boot, .mode]
  | .selftestRun _ | .lockstepMismatch _ _ | .managementWatchdog | .supplyClockFault _
    => [.out, .ctl, .time, .img, .n0, .n1, .can0, .can1, .pair, .dict, .log, .dist, .field, .integ, .boot, .mode]
  | .packageSettle => allBut [.pending, .ident, .pins, .mpu, .dma, .evf, .bell, .loops, .life, .mem, .tick]
  | .startFromStop | .stopRejoinTimer | .agreementTimeout | .miojoHello _ _ | .miojoKeep _ | .miojoDelay _ _ _ _
  | .miojoSupply _ _ _ | .miojoSample _ _ | .miojoSvsupply _ _ _ | .miojoForward _ _ _ | .miojoWrite _ _ | .miojoWack _ _
  | .miojoRefuse _ _ _ | .miojoHandover _ _ | .miojoAnnounce _ _ | .miojoCheck _ _ _ _ | .miojoState _ _ _ _ | .miojoStateack _ _
  | .miojoLog _ _ _ | .miojoLinkDown | .ownInChange _
    => [.out, .ctl, .time, .img, .cyc, .n0, .n1, .can0, .can1, .streams, .chans, .pair, .net, .dict, .log, .dist, .field, .integ, .mode]
  | .startupWaitExpire | .miojoBadCrc _ | .aliveToggle | .alivePermitWrite | .alivePermitExpire | .twinStableTimer => [.pair]
  | .ownHighEnterAlone | .switchoverResume => allBut [.pending, .ident, .pins, .dma, .evf, .bell, .dict, .integ, .boot, .life, .keys]
  | .tick => [.out, .time, .cyc, .n0, .n1, .evf, .loops, .pair, .net, .log, .dist, .field, .integ, .tick]
  | .executionStart | .catchupReplayTick => allBut [.pending, .ident, .pins, .mpu, .dma, .can0, .can1, .bell, .life, .mem, .tick]
  | .executionEnd | .miojoOutput _ _ _ _ => allBut [.pending, .ident, .pins, .dma, .bell, .loops, .life, .mem, .tick]
  | .digestTimeout | .miojoSilent _ _ | .aliveTimeout => allBut [.pending, .ident, .pins, .mpu, .dma, .bell, .loops, .life, .mem, .tick]
  | .ncallTrap _ | .dmbDone _ | .interruptEvent _ _ | .holdExpire _ _ | .wfi _ | .coreWake _ | .misalignedAccess _ _ _ => [.n0, .n1]
  | .cycRettWrite _ _ _ | .cycVecWrite _ _ | .pointStageWrite _ _ _ | .pointCommitWrite _ _ _ | .recLoggo _ | .intcClaim _ _
  | .intcComplete _ _ | .intcSwset _ _ | .intcStrayClear _ | .dmaStop _ | .dmaUnfreeze _ _ | .clkWakesClear _ | .mpuRegionLock _ _
    => [.img, .cyc, .n0, .n1, .mpu, .dma, .log, .integ]
  | .ncallAbandon _ _ | .ncallTimeBudgetElapsed _ => [.img, .cyc, .n0, .n1, .integ]
  | .constantWindowWrite _ _ _ | .correctedError _ => [.n0, .n1, .integ]
  | .gridInstant => [.out, .time, .n0, .n1, .evf, .streams, .chans, .loops, .pair, .dist, .field]
  | .sampleDeadline _ => [.out, .n0, .n1, .streams, .chans, .pair]
  | .analysisInstant _ | .trackingLossTimer _ => [.n0, .n1, .chans]
  | .loopUpdate _ => [.out, .cyc, .n0, .n1, .loops, .net, .field, .integ]
  | .shareToFull _ | .fullToShare _ | .referenceCheck _ | .fieldWatchdogTrip | .overcurrentTrip _ | .lplusSag _ | .lplusRecover _
  | .complianceShortfall _ => [.log, .field]
  | .keepSendTimer _ | .delayMeasureTimer | .writeResendTimer | .stateResendTimer => [.out, .pair]
  | .miojoTick _ _ => allBut [.pending, .ident, .pins, .mpu, .dma, .bell, .boot, .life, .keys, .mem]
  | .miojoSidein _ _
    => [.out, .ctl, .time, .img, .cyc, .n0, .n1, .can0, .can1, .streams, .chans, .loops, .pair, .net, .dict, .log, .dist, .field, .integ, .mode]
  | .miojoCatch _ _ _ _ => allBut [.pending, .ident, .pins, .dma, .evf, .bell, .life, .tick]
  | .laneUp _ => [.out, .n0, .n1, .pair]
  | .laneDown _ | .interlockWiringFault => [.n0, .n1, .pair, .log]
  | .aliveInEdge => [.n0, .n1, .pair]
  | .ownPermitExpire => [.out, .ctl, .time, .img, .n0, .n1, .can0, .can1, .pair, .net, .dict, .log, .dist, .integ, .mode]
  | .catchupBulkPassDone _ | .catchupRetryTimer => [.out, .pair, .log]
  | .publicationReceive _ | .slotForgetTimer _ | .gooseReceive _ | .separatorEntryExpire | .ringMediumDetectTimer => [.net]
  | .gooseRetransmit _ => [.out, .cyc, .net, .integ]
  | .svFrameReceive _ _ => [.n0, .n1, .streams, .chans]
  | .bellReceive _ _ => [.ctl, .log, .integ]
  | .bellSendTimer => [.out, .bell, .net, .integ]
  | .canBellSend _ => [.can0, .can1]
  | .ringFrameArrival _ _ _ | .supervisionSendTimer | .arpRequest _ _ _ _ | .icmpEcho _ _ _ _ _ | .pdelayReqReceive _ _ _ _ _
    => [.out, .net, .integ]
  | .stationFrameArrival _ _ _ => [.net, .integ]
  | .ringLinkChange _ _ _ => [.n0, .n1, .net, .log]
  | .ptpSyncReceive _ | .ptpFollowUpReceive _ _ _ _ => [.out, .time, .cyc, .n0, .n1, .evf, .pair, .log, .field]
  | .ptpAnnounceReceive _ | .syncLossTimer | .holdoverLimitExpire | .announceReceiptTimeout => [.out, .time, .n0, .n1, .pair, .log]
  | .pdelayRespReceive _ _ _ _ | .ptpTcEntryExpire | .timeAlarmArm | .timeAlarmDisarm | .rateWrite _ | .forerunnerLoad _
  | .ppsOutFall => [.time]
  | .pdelayReqTimer _ => [.out, .time, .net, .integ]
  | .ptpTcForward _ => [.out, .time, .net]
  | .refInQualify _ | .refInLoss => [.time, .n0, .n1, .log]
  | .ppsInEdge _ => [.time, .n0, .n1]
  | .wholeSecond | .timeAlarmFire => [.time, .n0, .n1, .evf, .field]
  | .timeGroupLatchRead _ _ | .protectionViolation _ | .adcResultRead _ _ _ | .jtagAccess _ _ _
    => [.out, .ctl, .time, .img, .cyc, .n0, .n1, .mpu, .dma, .can0, .can1, .pair, .dict, .log, .dist, .field, .integ, .boot, .mode]
  | .sessionOpen _ _ | .sessionClose _ => [.out, .can0, .can1, .net, .dict, .log, .integ]
  | .sessionSetupTimeout _ => [.dict]
  | .sessionIdleTimeout _ => [.dict, .log]
  | .dictRead _ _ _ | .dictMalformed _ _ _ => [.out, .can0, .can1, .net, .dict, .integ]
  | .canTpTimeout _ => [.can0, .can1, .dict]
  | .logRecordWrite => [.out, .n0, .n1, .log]
  | .logMirrorCopy | .operatingSecond => [.log]
  | .recordStart => [.n0, .n1, .pair, .log, .dist]
  | .recordCommit _ => [.n0, .n1, .log, .dist]
  | .dmbAbort _ => [.img, .cyc, .n0, .n1, .mpu, .dma, .dict, .log, .integ]
  | .dmbNcallDiscard _ _ _ _ => [.out, .img, .cyc, .n0, .n1, .mpu, .dma, .dict, .log, .integ]
  | .canFrameReceive _ _ => [.n0, .n1, .evf, .can0, .can1, .dict, .log, .field]
  | .canTxComplete _ => [.out, .n0, .n1, .can0, .can1, .dict, .log]
  | .canBusError _ _ | .canRecoveryDone _ => [.n0, .n1, .can0, .can1, .dict, .log]
  | .canTxsubmit _ _ | .canTxcancel _ _ | .canRxack _ | .canRecover _ | .canWakeCommand _
    => [.img, .cyc, .n0, .n1, .mpu, .dma, .can0, .can1, .log, .integ]
  | .canSleep _ => [.img, .cyc, .n0, .n1, .mpu, .dma, .can0, .can1, .dict, .log, .integ]
  | .canWake _ _ => [.n0, .n1, .can0, .can1, .log]
  | .canLasterrRead _ _ => [.out, .img, .cyc, .n0, .n1, .mpu, .dma, .can0, .can1, .log, .integ]
  | .dmaGo _ | .dmaResume _ | .registerWrite _ _ _ _ _
    => allBut [.pending, .ident, .pins, .bell, .streams, .chans, .loops, .net, .life, .keys, .tick]
  | .dmaDisable => [.img, .cyc, .n0, .n1, .mpu, .dma, .evf, .dict, .log, .integ, .mem]
  | .dmaBeat _ _ | .dmaDescriptorDone _
    => [.out, .ctl, .time, .img, .n0, .n1, .mpu, .dma, .evf, .can0, .can1, .pair, .dict, .log, .dist, .field, .integ, .boot, .mode, .mem]
  | .dmaBusError _ _ => [.n0, .n1, .dma, .evf, .dict, .mem]
  | .evfSwpulse _ _ | .evfLostClear _
    => [.out, .ctl, .time, .img, .cyc, .n0, .n1, .mpu, .dma, .evf, .can0, .can1, .pair, .dict, .log, .dist, .field, .integ, .boot, .mode]
  | .eventDelivery _ => [.evf, .field]
  | .mpuSyncRead _ => [.out, .img, .cyc, .n0, .n1, .mpu, .dma, .log, .integ]
  | .accessFault _ _ _ _ => [.out, .n0, .n1, .dma, .evf, .dict, .mem]
  | .adcSwgo _ | .adcInjectWrite _ => [.img, .cyc, .n0, .n1, .mpu, .dma, .log, .field, .integ]
  | .conversionDone _ _ => [.out, .evf, .chans, .pair, .field]
  | .converterCalibration _ _ | .dInputSample _ | .dInputTest _ | .pulseEdge _ | .tripRetry _ | .cutoffConverterHold _ => [.field]
  | .fieldRefresh => [.out, .field]
  | .uncorrectableError _ _
    => [.out, .ctl, .time, .img, .n0, .n1, .can0, .can1, .pair, .net, .dict, .log, .dist, .field, .integ, .boot, .mode]
  | .scrubStep _ _ | .managementDebugOp => [.integ]
  | .runtimeComparatorTest _ _ | .eccDecoderTest _ _ => [.dict, .log, .integ]
  | .debugHalt _ _ | .ebreak _ => allBut [.pending, .ident, .pins, .dma, .evf, .bell, .life, .keys]
  | .debugLockedAccess _ _
    => [.out, .ctl, .time, .img, .n0, .n1, .mpu, .dma, .can0, .can1, .pair, .dict, .log, .dist, .field, .integ, .boot, .mode]
  | .debugReset => [.mpu, .integ]
  | .i2cWrite _ => [.pins, .dict]
  | .i2cRead _ => [.out, .pins, .dict]
  | .pgoodFall => allBut [.pending, .out, .ident, .life, .keys]
  | .ledFlashToggle _ => [.ctl]
  | .mpuRuleWriteEffective _ => [.mpu]

/-- The memories of both native core pairs are in canonical form (R383). -/
def State.memsOk (s : State) : Bool :=
  memWf s.n0.tcm && memWf s.n0.dram && memWf s.n0.mram && memWf s.n1.tcm && memWf s.n1.dram && memWf s.n1.mram

/-- A client may write an entry that asks for a role, by the tables "Roles" and "Dictionary service by mode" and the list of what CAN
may write (R276, R282, R299, R301): the service is there, the client stands in its role, the mode serves the entry, and the role
allows it. -/
def mayWrite (s : State) (c : Client) (index sub need : Nat) : Bool :=
  dictServed s c.via && knownClient s c && (s.ctl.mode != .bootwait || bootEntry s index sub) && roleAllows c.role need true &&
    (match c.via with | .can _ => (pkgD s [] (·.canWritable)).contains (index, sub) | .port _ | .mailbox _ => true)

/-- `t` is `s` with a PAIR write of this side sequenced: it has the next number and its target tick, and it waits for its boundary
(R210). -/
def State.sequenced (s : State) (r : PairReq) (t : State) : Prop :=
  t.pair.nextWsn = s.pair.nextWsn + 1 ∧ ∃ i, t.pair.seqs = s.pair.seqs ++ [i] ∧ i.own = true ∧ i.msg.body = .request r ∧
    i.msg.wsn = s.pair.nextWsn ∧ i.msg.target = targetTick s 150 (reqTask s r)

/-- The side sequences a request at once: it runs the program, it owns or is alone, the request repeats none of the last 10 s, and it
meets the conditions of its entry (R210, R211, R295, R296). -/
def sequences (s : State) (r : PairReq) : Bool :=
  s.ctl.mode.run && (owns s || !isPaired s) && (repeatOf s r).isNone && ownerRefuses s r == 0

end Sys2Proof.Machine
end

