-- ==== Sys2Proof/Certificates/Slice0/Obligations.lean ====
section
/-!
DEFINITION. The statements about the model: what each family of commands does, when it does it, and what stays as it was.
-/

open Sys2Proof Sys2Proof.Machine

/-- A step runs the command at the front. For every command and every state whose queue has that command in front, a step is the command's
execution on the state with the rest of the queue. -/
def Obligations.StepRunsFrontCommand : Prop :=
  ∀ (s : State) (c : Instr) (rest : List Instr), s.pending = c :: rest → step s = exec c { s with pending := rest }

/-- An empty queue is one AON tick. With no command waiting a step adds 640 units of 1/16 ns, one tick of the 25 MHz AON clock, to RAW, and
while the forerunner runs its increment to the count of 64 bits with 24 bits of fraction; outside SILENT the counters cycle and time of
both core pairs count, and instret of one that runs its code (log entry 96). It changes no memory of a core pair and none of its integer
and floating-point registers, and a core pair that does not run, or has interrupts disabled, keeps its pc, mode and status. Beyond the
time, the core pairs and their interrupts it can change only the converter's power and pulses, the frames that a loop paces and what
these are sent through. That the tick takes the place of idling, and what it does besides counting, is the model's choice (log entries 2
and 133). -/
def Obligations.IdleStepIsOneAonTick : Prop :=
  ∀ s : State, s.pending = [] → ∃ t, step s = .next t ∧
    s.onlyChanges [.out, .time, .cyc, .n0, .n1, .evf, .net, .field, .integ] t ∧
    (∃ c f, t.time = { s.time with raw := s.time.raw + 640, frCount := c, frFrac := f } ∧
      (s.time.fren = false → c = s.time.frCount ∧ f = s.time.frFrac) ∧
      (s.time.fren = true → c ++ f = s.time.frCount ++ s.time.frFrac + s.time.frinc.zeroExtend 88)) ∧
    (∀ p, (cpOf t p).memsOf = (cpOf s p).memsOf ∧ (cpOf t p).regs = (cpOf s p).regs) ∧
    (∀ p, clocksRun s = true → (cpOf t p).cycleCsr = (cpOf s p).cycleCsr + 32 ∧
      (cpOf t p).timeCsr = (cpOf s p).timeCsr + Config.timeCsrStep ∧ (cpOf t p).instretCsr =
        if coreRuns s p then (cpOf s p).instretCsr + Config.retiredIn p.num s.time.raw else (cpOf s p).instretCsr) ∧
    (∀ p, clocksRun s = false → (cpOf t p).cycleCsr = (cpOf s p).cycleCsr ∧ (cpOf t p).timeCsr = (cpOf s p).timeCsr ∧
      (cpOf t p).instretCsr = (cpOf s p).instretCsr) ∧
    (∀ p, coreRuns s p = false ∨ (cpOf s p).mstatus.getLsbD 3 = false → (cpOf t p).pc = (cpOf s p).pc ∧
      (cpOf t p).machine = (cpOf s p).machine ∧ (cpOf t p).mstatus = (cpOf s p).mstatus)

/-- No command stops the block. For every command of the table and every state, execution answers a next state: no command ends in a fault
or a refusal. -/
def Obligations.EveryCommandCompletes : Prop :=
  ∀ (c : Instr) (s : State), ∃ t, exec c s = .next t

/-- The frame of every command. For every command and every state, a next state differs from the state before in no other part than those
the table of Instr.parts names for the command: pins, control, time, process image, cycle, core pairs, memories, protection unit, DMA
engine, event fabric, CAN controllers, Bell, streams, channels, loops, pair link, network, dictionary, logs, records, field side,
integrity, boot store, mode, life cycle, keys. -/
def Obligations.CommandsChangeOnlyTheirParts : Prop :=
  ∀ (c : Instr) (s t : State), exec c s = .next t → s.onlyChanges (Instr.parts c) t

/-- Commands come from outside only. No command changes the queue of waiting commands or the module's fused identity: a step leaves the
queue without its front command and the identity as it was. -/
def Obligations.QueueIsOnlyConsumed : Prop :=
  ∀ (s t : State), step s = .next t → t.pending = s.pending.tail ∧ t.ident = s.ident

/-- The native memories keep their canonical form. For every state whose six native memories (TCM, DRAM share and MRAM window of both core
pairs) are sorted by address with no byte listed that an unlisted address reads as, every step leaves them so. -/
def Obligations.MemoriesStayCanonical : Prop :=
  ∀ (s t : State), s.memsOk = true → step s = .next t → t.memsOk = true

/-- The native memories at reset. The state after reset lists no byte in any native memory, which is the canonical form. -/
def Obligations.MemoriesCanonicalAtReset : Prop :=
  State.reset.memsOk = true ∧ State.reset.n0.memsOf = ([], [], []) ∧ State.reset.n1.memsOf = ([], [], [])

/-- No change leads out of DECOMMISSIONED. From every state that is DECOMMISSIONED with no life-cycle change pending, every step leaves the
module DECOMMISSIONED with none pending: R463's sentence 'No change leads out of DECOMMISSIONED.' -/
def Obligations.DecommissionedIsFinal : Prop :=
  ∀ (s t : State), s.ctl.life = .decommissioned → s.ctl.lifePending = none → step s = .next t →
    t.ctl.life = .decommissioned ∧ t.ctl.lifePending = none

/-- SILENT is left only through a reset. From every state in SILENT, every step leaves the module in SILENT or, after a reset, in COLD:
R445's sentence 'The module leaves SILENT only through a reset'. -/
def Obligations.SilentLeftOnlyByReset : Prop :=
  ∀ (s t : State), s.ctl.mode = .silent → step s = .next t → t.ctl.mode = .silent ∨ t.ctl.mode = .cold

/-- The supply, RST_N and WIPE_N. POWER_ON with a feed present and PGOOD low: PGOOD is high, the AON domain powered, the straps are those of
the connector, the module stands in COLD in the life cycle it had or that was pending, with no session and no lane up, the reset logged
with cause 0, and the power cycle counts once where the AON domain was unpowered. FEED_CHANGE sets the feeds and nothing else but the
warning, which a feed that returns clears. STORED_ENERGY_WARNING with both feeds gone and PGOOD high stores the start pointer and the
instant, once. PGOOD_FALL at least 1 ms after it leaves the module in COLD without PGOOD and without a session, the forces, the settings
that are kept, the role keys, the log and the native retained window standing. RST_N low for at least 10 µs resets a powered module into
COLD, logged with cause 1; below 1 µs it changes nothing; between the two the module is reset or goes on (the choice is a free value,
log entry 14); an unpowered module only has the contact low. RST_N_RELEASE takes the straps. WIPE_N held on a PROVISIONED or
COMMISSIONED module with no change pending leaves it BLANK, in COLD, without role keys, package keys, package, settings, forces or
retained copies, its identity key and identity standing; in BLANK and DECOMMISSIONED, without power, and while a change is pending, it
changes nothing. Completion: under hypotheses on the state and the operands alone, the clauses conclude that execution answers a next
state with that effect, for powerOn, feedChange, storedEnergyWarning, pgoodFall, rstNAssert, rstNRelease, wipeNHeld. -/
def Obligations.SupplyResetPinsAndWipe : Prop :=
  (∀ (x : Straps) (s : State), s.pins.pgood = false → (s.pins.vinA = true ∨ s.pins.vinB = true) →
    ∃ t, exec (.powerOn x) s = .next t ∧
      t.pins = { s.pins with pgood := true, aonPowered := true, warnAt := none, sideB := x.sideB, pos := x.pos, strapOpen := x.anyOpen } ∧
      t.ctl.mode = .cold ∧ t.ctl.life = s.ctl.lifePending.getD s.ctl.life ∧ t.ctl.lifePending = none ∧ t.dict.sessions = [] ∧
      t.pair.lane0 = false ∧ t.pair.lane1 = false ∧
      (s.ctl.lifePending = none → t.log.queue.head?.map (fun r => (r.typ, r.body)) = some (ltReset, resetBody t 0) ∧
        t.log.power = (if s.pins.aonPowered then s.log.power else (Ctr.inc ⟨s.log.power, s.log.powerSat⟩).n))) ∧
  (∀ (a b : Bool) (s : State), exec (.feedChange a b) s =
    .next { s with pins := { s.pins with vinA := a, vinB := b, warnAt := if a || b then none else s.pins.warnAt } }) ∧
  (∀ s : State, s.pins.vinA = false → s.pins.vinB = false → s.pins.pgood = true → s.pins.warnAt = none →
    exec .storedEnergyWarning s = .next { s with log := s.log.storePtr, pins := { s.pins with warnAt := some s.time.raw } }) ∧
  (∀ (s : State) (w : W64), s.pins.vinA = false → s.pins.vinB = false → s.pins.pgood = true → s.pins.warnAt = some w →
    16000000 ≤ (s.time.raw - w).toNat →
    ∃ t, exec .pgoodFall s = .next t ∧ t.pins = { s.pins with pgood := false, aonPowered := false, warnAt := none } ∧
      t.ctl.mode = .cold ∧ t.img.forces = s.img.forces ∧ t.boot.roles = s.boot.roles ∧ t.n0.mram = s.n0.mram ∧ t.n1.mram = s.n1.mram ∧
      t.dict.settings = s.dict.settings.filter (fun x => !volatileSettings.contains x.1) ∧
      t.log.recs = s.log.recs ∧ t.dist.openRecs = s.dist.openRecs ∧ t.dict.sessions = []) ∧
  (∀ (us : Nat) (s : State), 10 ≤ us → s.pins.pgood = true → ∃ t, exec (.rstNAssert us) s = .next t ∧ t.ctl.mode = .cold ∧
    t.pins = { s.pins with rstHigh := false } ∧ t.pending = s.pending ∧
    (s.ctl.lifePending = none → t.log.queue.head?.map (fun r => (r.typ, r.body)) = some (ltReset, resetBody t 1))) ∧
  (∀ (us : Nat) (s : State), 10 ≤ us → s.pins.pgood = false →
    exec (.rstNAssert us) s = .next { s with pins := { s.pins with rstHigh := false } }) ∧
  (∀ (s : State), exec (.rstNAssert 0) s = .next s) ∧
  (∀ (us : Nat) (s : State), 1 ≤ us → us < 10 → s.pins.pgood = true → ∃ t, exec (.rstNAssert us) s = .next t ∧
    ((t.ctl = s.ctl ∧ t.pins = s.pins ∧ t.img = s.img) ∨ (t.ctl.mode = .cold ∧ t.pins = { s.pins with rstHigh := false }))) ∧
  (∀ (x : Straps) (s : State), s.pins.rstHigh = false → s.pins.pgood = true → exec (.rstNRelease x) s = .next { s with pins := { s.pins with
    rstHigh := true, sideB := x.sideB, pos := x.pos, strapOpen := x.anyOpen } }) ∧
  (∀ s : State, s.pins.pgood = true → s.ctl.lifePending = none → (s.ctl.life = .provisioned ∨ s.ctl.life = .commissioned) →
    ∃ t, exec .wipeNHeld s = .next t ∧ t.ctl.mode = .cold ∧ t.ctl.life = .blank ∧ t.ctl.lifePending = none ∧ t.boot.roles = [] ∧
      t.boot.a0 = none ∧ t.boot.a1 = none ∧ t.boot.running = none ∧ t.dict.settings = [] ∧ t.img.forces = [] ∧ t.img.copies = [] ∧
      t.boot.identityKey = s.boot.identityKey ∧ t.ident = s.ident) ∧
  (∀ s : State, (s.pins.pgood = false ∨ s.ctl.lifePending ≠ none ∨ s.ctl.life = .blank ∨ s.ctl.life = .decommissioned) →
    exec .wipeNHeld s = .next s)

/-- From COLD to SELFTEST's end. On a module whose port H has no frame broken: MASK_ROM_CHECK of a powered module that stands in COLD with
no loader checked and none asked for: with no loader in flash it records refusal 0x03 and asks the host for one; with a loader, the
loader runs exactly when every check of it passes, and the module then leaves COLD for BOOTWAIT exactly when neither a strap is open nor
a loader is staged; where a check fails the code is recorded and the host asked. STAGED_LOADER_INSTALL on a staged loader either
replaces the loader and resets, or discards it and goes on to BOOTWAIT, as its check says. SOLICIT_TIMER after 1 s sends SOLICIT again,
in COLD and in BOOTWAIT. SELFTEST_RUN that passes enters STOP; one that finds a failing unit enters SILENT with reason 4 and that unit.
Completion: under hypotheses on the state and the operands alone, the clauses conclude that execution answers a next state with that
effect, for maskRomCheck, stagedLoaderInstall, solicitTimer, selftestRun. -/
def Obligations.BootChainSteps : Prop :=
  (∀ s : State, s.ctl.mode = .cold → s.pins.pgood = true → s.pins.rstHigh = true → s.boot.loaderRun = none → s.boot.solicitAt = none →
    s.boot.loader = none → (portOf s .h).broken = false → ∃ t, exec .maskRomCheck s = .next t ∧ t.boot.refusal = 3 ∧
      t.boot.solicitAt = some s.time.raw ∧ t.boot.loaderRun = none ∧ t.ctl.mode = .cold ∧
      ∃ d, t.out = s.out ++ [.boot (moduleMac s) 0x01ED72400000 btSolicit 0 d]) ∧
  (∀ (s : State) (m : Manifest), s.ctl.mode = .cold → s.pins.pgood = true → s.pins.rstHigh = true → s.boot.loaderRun = none →
    s.boot.solicitAt = none → s.boot.loader = some m →
    ∃ t, exec .maskRomCheck s = .next t ∧
      (let code := imageCheck (settleLife s) m s.boot.loaderImg 1 false
       (code = 0 → t.boot.loaderRun = some m ∧
         t.ctl.mode = (if s.pins.strapOpen = false ∧ (settleLife s).boot.sLoader.state ≠ 2 then .bootwait else .cold)) ∧
       (code ≠ 0 → t.boot.loaderRun = none ∧ t.ctl.mode = .cold ∧ t.boot.refusal = BitVec.ofNat 16 code ∧
         t.boot.solicitAt = some s.time.raw))) ∧
  (∀ s : State, s.ctl.mode = .cold → s.boot.loaderRun ≠ none → s.boot.sLoader.state = 2 → s.pins.strapOpen = false →
    ∃ t, exec .stagedLoaderInstall s = .next t ∧
      (let m := parseManifest (bytesOf s.boot.sLoader.man)
       if imageCheck s m s.boot.sLoader.img 1 false = 0 then t.ctl.mode = .cold ∧ t.boot.loader = some m ∧ t.boot.loaderImg = s.boot.sLoader.img
       else t.ctl.mode = .bootwait ∧ t.boot.loader = s.boot.loader ∧ t.boot.sLoader = { SlotSt.reset with state := 4 })) ∧
  (∀ (s : State) (w : W64), (s.ctl.mode = .bootwait ∨ s.ctl.mode = .cold) → s.boot.xfer = none → s.boot.solicitAt = some w →
    16000000000 ≤ (s.time.raw - w).toNat → (portOf s .h).broken = false →
    ∃ t, exec .solicitTimer s = .next t ∧ t.boot.solicitAt = some s.time.raw ∧
      ∃ d, t.out = s.out ++ [.boot (moduleMac s) 0x01ED72400000 btSolicit 0 d]) ∧
  (∀ s : State, s.ctl.mode = .selftest → ∃ t, exec (.selftestRun none) s = .next t ∧ t.ctl.mode = .stop ∧ t.integ.stPassed = true ∧
    t.integ.stResult = 1) ∧
  (∀ (u : Nat) (s : State), s.ctl.mode = .selftest → ∃ t, exec (.selftestRun (some u)) s = .next t ∧ t.ctl.mode = .silent ∧
    t.integ.reason = 4 ∧ t.integ.unit = u)

/-- The boot protocol: offer, data, acknowledgement, timeout. BOOT_OFFER of the wanted kind, from the host of the exchange where one is open
and before its data has begun, opens the exchange of its host. A block of the manifest that does not complete it is stored with its
instant, and the first one of the firmware's enters VERIFY. Outside SILENT, with no frame of port H broken, BOOT_ACK_TIMER lists the
missing blocks to the host 1 ms after the last DATA; 2 s without DATA end the transfer, and VERIFY returns to BOOTWAIT. Completion:
under hypotheses on the state and the operands alone, the clauses conclude that execution answers a next state with that effect, for
bootOffer, bootData, bootAckTimer, bootTransferTimeout. -/
def Obligations.BootTransferSteps : Prop :=
  (∀ (b : BootHdr) (k ml il : Nat) (s : State), wantedKind s = some k → fromHost s b = true →
    (s.boot.xfer.map (·.started)).getD false = false → ml < 2 ^ 32 → il < 2 ^ 32 →
    exec (.bootOffer b k ml il) s = .next { s with boot := { s.boot with xfer := some {
      host := b.src, xid := b.xid, kind := k, manLen := ml, man := [], manOk := false, chunk := 0, blocks := [], img := [], lasts := [],
      started := false, lastAt := s.time.raw } } }) ∧
  (∀ (b : BootHdr) (n : Nat) (data : Bytes) (x : Xfer) (s : State), s.boot.xfer = some x → fromHost s b = true → x.xid = b.xid →
    wantedKind s = some x.kind → x.manOk = false → n < 64 → n < blocksIn x.manLen → data.length = min 1024 (x.manLen - 1024 * n) →
    0 < data.length → Xfer.whole { x with blocks := mset x.blocks n data } 0 = false →
    ∃ t, exec (.bootData b 0 0 n data) s = .next t ∧ t.ctl.mode = (if s.ctl.mode = .bootwait then .verify else s.ctl.mode) ∧
      t.boot.xfer = some { x with
        started := true, blocks := mset x.blocks n data, lasts := mset x.lasts 0 s.time.raw, lastAt := s.time.raw }) ∧
  (∀ (x : Xfer) (k : Nat) (w : W64) (s : State), s.ctl.mode ≠ .silent → (portOf s .h).broken = false → s.boot.xfer = some x →
    x.lasts = [(k, w)] → 16000000 ≤ (s.time.raw - w).toNat →
    ∃ t, exec .bootAckTimer s = .next t ∧ t.boot.xfer = some { x with lasts := [] } ∧
      t.out = s.out ++ [.boot (moduleMac s) x.host 0x04 x.xid ([if k = 0 then 0 else 1, 0] ++ beBytes 2 (k - 1) ++ beBytes 8 (x.missing k).toNat)]) ∧
  (∀ (x : Xfer) (s : State), s.boot.xfer = some x → 32000000000 ≤ (s.time.raw - x.lastAt).toNat →
    ∃ t, exec .bootTransferTimeout s = .next t ∧ t.boot.xfer = none ∧ t.boot.solicitAt = some s.time.raw ∧
      t.ctl.mode = (if s.ctl.mode = .verify then .bootwait else s.ctl.mode))

/-- Provisioning, certificates and attestation. On a module whose port H has no frame broken: PROVISION with one or two package keys of a
BLANK module in BOOTWAIT or STOP with no change pending is answered by one PROVRESP of code 0 with the confirmation, after which only
log records leave on the UART, and leaves the module PROVISIONED in COLD, as after a reset, with the security officer's key as its only
role key, the package key A0 and, where it is given, A1, and its identity and identity key as they were. In those modes a PROVISION of a
module that is not BLANK, or has a change pending, is answered by one PROVRESP of code 0x0301, and one whose length is not that of its
key count by code 0x0502; keys, life cycle and mode stay as they were. BOOT_GET of one of the two certificates sends, in every mode but
COLD and SILENT, OBJECT frames of 1,024 bytes from its offset to the end, each with its offset, and changes nothing of the boot store;
BOOT_GET of a report at offset 0, in BOOTWAIT and STOP, with no report being signed, starts one under its nonce for that host.
ATTESTATION_SIGNED of a report that is being signed stores it, signed with the identity key, as the last one made; where no host asked
it sends nothing, and in BOOTWAIT and STOP it sends the host that asked the report in the same OBJECT frames. Completion: under
hypotheses on the state and the operands alone, the clauses conclude that execution answers a next state with that effect, for
provision, bootGet, attestationSigned. -/
def Obligations.ProvisionCertifyAttest : Prop :=
  (∀ (b : BootHdr) (body : Bytes) (k : Nat) (s : State), s.ctl.life = .blank → s.ctl.lifePending = none →
    (s.ctl.mode = .bootwait ∨ s.ctl.mode = .stop) → (portOf s .h).broken = false → fromHost s b = true → (k = 1 ∨ k = 2) →
    (body.getD 0 0).toNat = k → body.length = 68 + 32 * k → ∃ t, exec (.provision b body) s = .next t ∧
      (∃ l : List Bytes, t.out = s.out ++ .boot (moduleMac s) b.src 0x21 b.xid ([0, 0, 0, 0] ++
        padTo 32 (hmac (slice body 36 32) (ascii "GB7240 prov" ++ slice body 4 32 ++ beBytes 6 (moduleMac s).toNat))) :: l.map .uart) ∧
      t.ctl.life = .provisioned ∧ t.ctl.lifePending = none ∧ t.ctl.mode = .cold ∧ t.boot.roles = [⟨3, 0, slice body 36 32⟩] ∧
      t.boot.a0 = some (slice body 68 32) ∧ t.boot.a1 = (if k = 2 then some (slice body 100 32) else none) ∧ t.ident = s.ident ∧
      t.boot.identityKey = s.boot.identityKey) ∧
  (∀ (b : BootHdr) (body : Bytes) (s : State), (s.ctl.mode = .bootwait ∨ s.ctl.mode = .stop) → (portOf s .h).broken = false →
    fromHost s b = true → 68 ≤ body.length → (s.ctl.life ≠ .blank ∨ s.ctl.lifePending.isSome = true) →
    ∃ t, exec (.provision b body) s = .next t ∧ t.boot = s.boot ∧ t.ctl = s.ctl ∧
      t.out = s.out ++ [.boot (moduleMac s) b.src 0x21 b.xid ([3, 1, 0, 0] ++ List.replicate 32 0)]) ∧
  (∀ (b : BootHdr) (body : Bytes) (s : State), (s.ctl.mode = .bootwait ∨ s.ctl.mode = .stop) → (portOf s .h).broken = false →
    fromHost s b = true → 68 ≤ body.length → s.ctl.life = .blank → s.ctl.lifePending = none →
    body.length ≠ 68 + 32 * (body.getD 0 0).toNat → ∃ t, exec (.provision b body) s = .next t ∧ t.boot = s.boot ∧ t.ctl = s.ctl ∧
      t.out = s.out ++ [.boot (moduleMac s) b.src 0x21 b.xid ([5, 2, 0, 0] ++ List.replicate 32 0)]) ∧
  (∀ (b : BootHdr) (o off : Nat) (nonce cert : Bytes) (s : State), s.ctl.mode ≠ .cold → s.ctl.mode ≠ .silent →
    (portOf s .h).broken = false → fromHost s b = true → nonce.length = 32 →
    (o = 1 ∧ cert = s.ident.moduleCert) ∨ (o = 2 ∧ cert = s.ident.issuingCert) →
    ∃ t, exec (.bootGet b o off nonce) s = .next t ∧ t.boot = s.boot ∧ t.out = s.out ++
      (List.range (max 1 ((cert.length - off + 1023) / 1024))).map (fun i => .boot (moduleMac s) b.src 0x11 b.xid
        ([BitVec.ofNat 8 o, 0] ++ beBytes 2 (min 1024 (cert.length - (off + 1024 * i))) ++ beBytes 4 cert.length ++
          beBytes 4 (off + 1024 * i) ++ (cert.drop (off + 1024 * i)).take 1024))) ∧
  (∀ (b : BootHdr) (nonce : Bytes) (s : State), (s.ctl.mode = .bootwait ∨ s.ctl.mode = .stop) → fromHost s b = true → nonce.length = 32 →
    s.boot.identityKey.isSome = true → s.boot.attState ≠ 1 → exec (.bootGet b 3 0 nonce) s = .next { s with
      boot := { s.boot with attState := 1, attNonce := nonce, attHost := some (b.src, b.xid) } }) ∧
  (∀ (k : KeyPair) (s : State), s.ctl.mode ≠ .silent → s.boot.attState = 1 → s.boot.identityKey = some k →
    (portOf s .h).broken = false → ∃ t, exec .attestationSigned s = .next t ∧
      (let report := reportBody s ++ Config.sign128f k.priv (reportBody s)
       t.boot = { s.boot with attState := 2, attHost := none, attReport := report } ∧
       (s.boot.attHost = none → t.out = s.out) ∧
       (∀ h, s.boot.attHost = some h → s.ctl.mode = .bootwait ∨ s.ctl.mode = .stop → t.out = s.out ++
         (List.range (max 1 ((report.length + 1023) / 1024))).map (fun i => .boot (moduleMac s) h.1 0x11 h.2
           ([3, 0] ++ beBytes 2 (min 1024 (report.length - 1024 * i)) ++ beBytes 4 report.length ++ beBytes 4 (1024 * i) ++
             (report.drop (1024 * i)).take 1024)))))

/-- In STOP: the package settles and the module starts. PACKAGE_SETTLE settles the package; a module that is not COMMISSIONED stays in STOP,
and 0x1100:0E reads 0x0101. START_FROM_STOP of a module that nothing holds, that runs single and whose link reports no OWN requests
ownership; in one that something holds and that neither asked for ownership nor has it nothing changes, and 0x1100:0E reads the first
reason in the order of the table. STARTUP_WAIT_EXPIRE lets side B request ownership. OWN_HIGH_ENTER_ALONE, 100 µs after OWN_OUT rose,
enters ALONE (TEST where TEST was asked for). STOP_REJOIN_TIMER ends the 4 ms of R459, after which a module that runs single stays in
STOP. SWITCHOVER_RESUME, once a tick has fallen at or after the end of Ts, starts the owning side of a switchover. Completion: under
hypotheses on the state and the operands alone, the clauses conclude that execution answers a next state with that effect, for
packageSettle, startFromStop, startupWaitExpire, ownHighEnterAlone, stopRejoinTimer, switchoverResume. -/
def Obligations.SettleAndStart : Prop :=
  (∀ s : State, s.ctl.mode = .stop → s.boot.settled = false → ∃ t, exec .packageSettle s = .next t ∧ t.boot.settled = true ∧
    (s.ctl.life ≠ .commissioned → t.ctl.mode = .stop ∧ num1100 t 0x0E 0 = 0x0101)) ∧
  (∀ s : State, mayStart s = true → isPaired s = false → (s.pair.pOwn && !s.pair.dead) = false → exec .startFromStop s = .next { s with
    pair := { s.pair with ownReq := true } }) ∧
  (∀ s : State, s.ctl.mode = .stop → startHold s ≠ 0 → s.ctl.startsAt = none → s.pair.ownReq = false → s.pair.ownOut = false →
    exec .startFromStop s = .next s ∧ num1100 s 0x0E 0 = startHold s) ∧
  (∀ (w : W64) (s : State), mayStart s = true → isPaired s = true → s.pins.sideB = true → partnerOwning s = false → (s.pair.pOwn && !s.pair.dead) = false →
    s.pair.startWaitFrom = some w → 16000000 * setting s 0x1200 0x10 5000 ≤ (s.time.raw - w).toNat →
    exec .startupWaitExpire s = .next { s with pair := { s.pair with ownReq := true } }) ∧
  (∀ (w : W64) (s : State), mayStart s = true → s.pair.ownOut = true → s.pair.ownHighSince = some w →
    1600000 ≤ (s.time.raw - w).toNat → ∃ t, exec .ownHighEnterAlone s = .next t ∧
      t.ctl.mode = (if s.ctl.testWanted then .test else .alone)) ∧
  (∀ (w : W64) (s : State), s.ctl.mode = .stop → s.ctl.commandedStop = false → s.ctl.stoppedAt = some w →
    64000000 ≤ (s.time.raw - w).toNat → ∃ t, exec .stopRejoinTimer s = .next t ∧ t.ctl.stoppedAt = none ∧
      (isPaired s = false → t.ctl.mode = .stop)) ∧
  (∀ (w : W64) (s : State), s.ctl.mode = .stop → s.ctl.startsAt = some w → (s.time.raw - w).toNat < 2 ^ 63 → stampTime s w ≤ tickInstant s → startHold s = 0 →
    ∃ t, exec .switchoverResume s = .next t ∧ t.ctl.startsAt = none ∧ t.ctl.mode = (if s.ctl.testWanted then .test else .alone))

/-- Ticks: the count, the due tasks, the skip and the cutoff. In a mode that executes, TICK at a TIME that has reached a multiple of 250 µs
not yet taken (after a step of TIME, the first multiple that lies at least 250 µs of RAW after the previous tick) raises the tick count
by one (the first tick after a restart keeps the count that the restart set); at any other TIME it changes nothing. With no task due it
ends there. With a task due and the previous cycle not released it is skipped: the cycle in progress stands as it was. With a task due
and the previous cycle released it is the input cutoff of the due tasks at that exact TIME, and the agreement begins. A side that joins
and replays only follows the live count. Completion: under hypotheses on the state and the operands alone, the clauses conclude that
execution answers a next state with that effect, for tick. -/
def Obligations.TicksAndCutoff : Prop :=
  (∀ (m : Nat) (s : State), s.ctl.mode.executes = true → tickReached s = some m → ∃ t, exec .tick s = .next t ∧
    (let n : W64 := if s.cyc.firstTick then s.cyc.tick else s.cyc.tick + 1
     let due := dueAt s n.toNat
     t.cyc.tick = n ∧ t.cyc.firstTick = false ∧ t.cyc.stepped = false ∧ t.cyc.lastTick = some m ∧ t.ctl.mode = s.ctl.mode ∧
     (due = 0 → t.cyc.phase = s.cyc.phase ∧ t.cyc.released = s.cyc.released ∧ t.out = s.out ∧ t.img = s.img) ∧
     (due ≠ 0 → s.cyc.released = false → t.cyc.phase = s.cyc.phase ∧ t.cyc.released = false ∧ t.cyc.cutTick = s.cyc.cutTick ∧ t.img = s.img) ∧
     (due ≠ 0 → s.cyc.released = true → t.cyc.phase = .agreeing ∧ t.cyc.released = false ∧ t.cyc.cutTick = n ∧ t.cyc.cutDue = due ∧
       t.cyc.cutTime = BitVec.ofNat 80 m ∧ t.cyc.alone = false ∧ t.img = s.img))) ∧
  (∀ s : State, tickReached s = none → exec .tick s = .next s) ∧
  (∀ (m : Nat) (s : State), s.ctl.mode = .catchup → s.pair.phase = 4 → tickReached s = some m → exec .tick s = .next { s with cyc := { s.cyc with
    tick := s.cyc.tick + 1, lastTick := some m, lastTickRaw := some s.time.raw, stepped := false } })

/-- The execution phase begins and ends. EXECUTION_START with the agreement complete, 20 µs after the cutoff instant: the start instant is
noted, and where no call was posted every due task has run to its end; where the partner had not released its previous cycle the tick
ends without execution, as a skip. EXECUTION_END with every rank done and every call returned: a side that expects no partner releases
the tick; one that expects its partner and lacks its OUTPUT waits in the output phase with its digests formed and sent. Completion:
under hypotheses on the state and the operands alone, the clauses conclude that execution answers a next state with that effect, for
executionStart, executionEnd. -/
def Obligations.ExecutionBeginsAndEnds : Prop :=
  (∀ s : State, s.ctl.mode ≠ .silent → s.cyc.phase = .agreeing → s.cyc.cutTime.toNat + 320000 ≤ timeNow s → agreed s = true →
    ∃ t, exec .executionStart s = .next t ∧ t.cyc.cutTick = s.cyc.cutTick ∧
      (partnerSkips s = true → t.cyc.phase = .slack ∧ t.cyc.released = true ∧ t.cyc.lastRelease = s.cyc.lastRelease ∧ t.img.points = s.img.points) ∧
      (partnerSkips s = false → s.ctl.mode ≠ .catchup → t.cyc.startRaw = s.time.raw ∧ (t.cyc.calls = [] → t.cyc.todo = []))) ∧
  (∀ s : State, s.ctl.mode ≠ .silent → s.ctl.mode ≠ .catchup → s.cyc.phase = .executing → s.cyc.todo = [] → s.cyc.calls = [] →
    ∃ t, exec .executionEnd s = .next t ∧
      (s.ctl.mode = .dbg ∨ isPaired s = false → t.cyc.lastRelease = s.cyc.cutTick ∧ t.cyc.released = true ∧ t.cyc.phase = .slack) ∧
      (s.ctl.mode ≠ .dbg → isPaired s = true → expectsTick s = true → s.cyc.partnerOut = none → t.cyc.phase = .output ∧
        t.cyc.digest = digestOver s srcBlock srcNative ∧ t.cyc.engine = digestOver s srcChannel srcLoop ∧ t.cyc.endRaw = s.time.raw ∧
        t.cyc.released = s.cyc.released))

/-- Digests, the release decision and the agreement timeout. MIOJO_OUTPUT, once accepted, is kept; where both digests of the tick equal this
side's in the output phase, the tick is released (not during a catch-up, whose end has a statement of its own rules). DIGEST_TIMEOUT 25
µs after the end of execution: a side that expects no partner releases; where the partner's digests are here and differ, the side that
takes the owning side's part releases, and a side in TWIN withholds the tick, counts the mismatch and leaves for CATCHUP.
AGREEMENT_TIMEOUT 50 µs after the cutoff with the agreement incomplete: the owning side goes on alone. Completion: under hypotheses on
the state and the operands alone, the clauses conclude that execution answers a next state with that effect, for miojoOutput,
digestTimeout, agreementTimeout. -/
def Obligations.DigestsDecideTheRelease : Prop :=
  (∀ (h : MjHdr) (tick d e : W64) (s : State), (hear s h).2 = true → ∃ t, exec (.miojoOutput h tick d e) s = .next t ∧
    (let r := (hear s h).1
     (r.cyc.phase ≠ .output → t.cyc.partnerOut = some (tick, d, e) ∧ t.cyc.phase = r.cyc.phase ∧ t.out = r.out) ∧
     (r.cyc.phase = .output → r.ctl.mode.run = true → expectsTick r = true → r.cyc.cutTick = tick → r.cyc.digest = d → r.cyc.engine = e →
       t.cyc.lastRelease = tick ∧ t.cyc.released = true ∧ t.cyc.phase = .slack) ∧
     (r.cyc.phase = .output → (r.cyc.digest ≠ d ∨ r.cyc.engine ≠ e ∨ r.cyc.cutTick ≠ tick) → t.cyc.partnerOut = some (tick, d, e) ∧
       t.cyc.phase = .output ∧ t.out = r.out))) ∧
  (∀ s : State, s.ctl.mode.run = true → s.cyc.phase = .output → 400000 ≤ (s.time.raw - s.cyc.endRaw).toNat →
    ∃ t, exec .digestTimeout s = .next t ∧
      (expectsTick s = false → t.cyc.lastRelease = s.cyc.cutTick ∧ t.cyc.released = true) ∧
      (expectsTick s = true → s.pair.serving ≠ 5 → outputHere s = true → ownerPart s = true →
        t.cyc.lastRelease = s.cyc.cutTick ∧ t.cyc.released = true) ∧
      (expectsTick s = true → s.pair.serving ≠ 5 → outputHere s = true → ownerPart s = false → s.ctl.mode = .twin →
        t.ctl.mode = .catchup ∧ t.cyc.lastRelease = s.cyc.lastRelease ∧ t.pair.nMismatch = s.pair.nMismatch.inc)) ∧
  (∀ s : State, s.ctl.mode.run = true → s.pair.ownOut = true → s.cyc.phase = .agreeing → s.cyc.cutTime.toNat + 800000 ≤ timeNow s →
    agreed s = false → ∃ t, exec .agreementTimeout s = .next t ∧ t.cyc.alone = true ∧ t.ctl.mode = s.ctl.mode ∧ t.cyc.phase = .agreeing ∧
      t.pair.serving = 0)

/-- Native calls: entry, return, abandonment. NCALL_TRAP on a core pair that has been released and is neither frozen nor halted, with no
call running, wakes it where it sleeps and takes the oldest posted call: the pc, the mode, the status, mepc, mcause, mtval and fcsr are
saved, the core goes on in machine mode with interrupts disabled at the call entry address. CYC_RETT_WRITE of a core pair that runs,
where both checks pass, with no more instructions retired than the budget, ends the call and restores what was saved; NCALL_ABANDON,
once the retired instructions reach the budget, restores it as well. NCALL_TIME_BUDGET_ELAPSED ends the call of a halted core pair only.
CYC_VEC_WRITE outside a call sets the entry address. Completion: under hypotheses on the state and the operands alone, the clauses
conclude that execution answers a next state with that effect, for ncallTrap, cycRettWrite, ncallAbandon, ncallTimeBudgetElapsed,
cycVecWrite. -/
def Obligations.NativeCalls : Prop :=
  (∀ (c : Cp) (k : CallRec) (rest : List CallRec) (s : State), coreReady s c = true → (cpOf s c).call = none →
    (cpOf s c).posted = k :: rest → exec (.ncallTrap c) s = .next (modCp (wakeCore s c) c (fun p => { p with
      saved := ⟨p.pc, p.machine, p.mstatus, p.mepc, p.mcause, p.mtval, p.fcsr⟩, machine := true, mstatus := setBit p.mstatus 3 false,
      fcsr := 0, pc := p.vec.zeroExtend 32 <<< 2, call := some k, posted := rest, retv := 0, staging := 0 }))) ∧
  (∀ (c : Cp) (v : W32) (n : Nat) (k : CallRec) (s : State), mayAccess s c.master 0x400A0044 kWrite = true →
    (cpOf s c).call = some k → n ≤ k.ibudget → ∃ t, exec (.cycRettWrite c v n) s = .next t ∧ (cpOf t c).retired = n ∧ (cpOf t c).call = none ∧ (cpOf t c).pc = (cpOf s c).saved.pc ∧
      (cpOf t c).machine = (cpOf s c).saved.machine ∧ (cpOf t c).mstatus = (cpOf s c).saved.mstatus ∧
      (cpOf t c).mepc = (cpOf s c).saved.mepc ∧ (cpOf t c).mcause = (cpOf s c).saved.mcause ∧
      (cpOf t c).mtval = (cpOf s c).saved.mtval ∧ (cpOf t c).fcsr = (cpOf s c).saved.fcsr ∧ (cpOf t c).regs = (cpOf s c).regs) ∧
  (∀ (c : Cp) (n : Nat) (k : CallRec) (s : State), s.ctl.mode ≠ .silent → (cpOf s c).call = some k → k.ibudget ≤ n →
    ∃ t, exec (.ncallAbandon c n) s = .next t ∧ (cpOf t c).retired = n ∧ (cpOf t c).call = none ∧ (cpOf t c).pc = (cpOf s c).saved.pc ∧
      (cpOf t c).mstatus = (cpOf s c).saved.mstatus ∧ (cpOf t c).frozen = (cpOf s c).frozen) ∧
  (∀ (c : Cp) (k : CallRec) (s : State), s.ctl.mode ≠ .silent → (cpOf s c).call = some k →
    ∃ t, exec (.ncallTimeBudgetElapsed c) s = .next t ∧
      ((cpOf s c).halted = true → (cpOf t c).call = none ∧ (cpOf t c).pc = (cpOf s c).saved.pc ∧ (cpOf t c).halted = true) ∧
      ((cpOf s c).halted = false → t = s)) ∧
  (∀ (c : Cp) (v : W32) (s : State), mayAccess s c.master 0x400A0004 kWrite = true →
    exec (.cycVecWrite c v) s = .next (if (cpOf s c).call.isSome then s else modCp s c (fun p => { p with vec := v.extractLsb' 2 30 })))

/-- The point window and the constant window. Of a core pair that runs, where both checks pass: a write at +0 of the point window goes to
the staging register and nowhere else. A write of the tag by code in an NCALL that the package names as the point's writer stores the
staged value with that tag (TST set in TEST) into that point and no other; any other one, and every write to the constant window, is
discarded: the point and the constants stand, the count of discarded writes rises by one and source 114 is raised. Completion: under
hypotheses on the state and the operands alone, the clauses conclude that execution answers a next state with that effect, for
pointStageWrite, pointCommitWrite, constantWindowWrite. -/
def Obligations.NativeWritesOfPoints : Prop :=
  (∀ (c : Cp) (p : Nat) (v : W32) (s : State), mayAccess s c.master (0x10000000 + 8 * p) kWrite = true →
    exec (.pointStageWrite c p v) s = .next (modCp s c (fun x => { x with staging := v }))) ∧
  (∀ (c : Cp) (p : Nat) (v : W32) (s : State), mayAccess s c.master (0x10000004 + 8 * p) kWrite = true → writerOk s c p = true → ∃ t, exec (.pointCommitWrite c p v) s = .next t ∧
    t.integ = s.integ ∧ ownWord t.img p = normWord (descOf s.img p).typ ⟨v.truncate 8 ||| tIf (inTest s) tTST, (cpOf s c).staging⟩ ∧
    (∀ f, forceOn s.img p = some f → pointWord t.img p = pointWord s.img p) ∧ t.img.consts = s.img.consts ∧ t.img.descs = s.img.descs ∧
    (∀ q, q ≠ p → pointWord t.img q = pointWord s.img q ∧ ownWord t.img q = ownWord s.img q)) ∧
  (∀ (c : Cp) (p : Nat) (v : W32) (s : State), mayAccess s c.master (0x10000004 + 8 * p) kWrite = true → writerOk s c p = false →
    ∃ t, exec (.pointCommitWrite c p v) s = .next t ∧ t.img = s.img ∧ t.integ.discards = s.integ.discards.inc ∧
      t.n0.intc = s.n0.intc.edge 114 ∧ t.n1.intc = s.n1.intc.edge 114) ∧
  (∀ (c : Cp) (k : Nat) (v : W32) (s : State), coreRuns s c = true →
    ∃ t, exec (.constantWindowWrite c k v) s = .next t ∧ t.img = s.img ∧ t.integ.discards = s.integ.discards.inc ∧
      t.n0.intc = s.n0.intc.edge 114 ∧ t.n1.intc = s.n1.intc.edge 114)

/-- Sampled-value frames and the deadline of a sample. A frame of a declared stream that fits it, does not carry the simulation mark and is
not late in every sample is held with the TIME of its interpolated port stamp in every mode but COLD; one that does not fit is not held.
At the deadline of the next sample, a side that shares with no partner fixes the set of that instant at once; one that shares and lacks
the partner's part waits for it. Completion: under hypotheses on the state and the operands alone, the clauses conclude that execution
answers a next state with that effect, for svFrameReceive, sampleDeadline. -/
def Obligations.SampledValueFrames : Prop :=
  (∀ (f : SvFrame) (r : W64) (k : Nat) (s : State), (streamsOf s).findIdx? (fun key => key.1 == f.dst && key.2.2.1 == f.appid) = some k →
    s.ctl.mode ≠ .cold → svFits s k f = true → f.sim = false → simulating s k = false →
    lateAsdus s k f (stampTime s (stampAt s r)) < f.asdus.length → ∃ t, exec (.svFrameReceive f r) s = .next t ∧
      (stSt t k).held = lastN 64 ((stSt s k).held ++ [⟨f, stampTime s (stampAt s r), false⟩]) ∧ t.out = s.out) ∧
  (∀ (f : SvFrame) (r : W64) (k : Nat) (s : State), (streamsOf s).findIdx? (fun key => key.1 == f.dst && key.2.2.1 == f.appid) = some k →
    s.ctl.mode ≠ .cold → svFits s k f = false → ∃ t, exec (.svFrameReceive f r) s = .next t ∧ t.streams = s.streams) ∧
  (∀ (k i : Nat) (s : State), nextSample s k = some i → enginesLive s = true → i + streamLim s k ≤ timeNow s →
    s.time.skips.any (fun x => decide (x.1 < i ∧ i ≤ x.2)) = false → ∃ t, exec (.sampleDeadline k) s = .next t ∧
      (sharing s = false → (stSt t k).pendT = none ∧ (stSt t k).lastT = some (match findSample s k i with
        | none => i
        | some (h, j) => asduInst s k h.frame h.arrival j)) ∧
      (sharing s = true → sampleReady s k i = false → (stSt t k).pendT = some i ∧ (stSt t k).lastT = (stSt s k).lastT))

/-- Grid instants, analysis instants and the loss of tracking. GRID_INSTANT outside COLD and SILENT notes the number of the instant once.
ANALYSIS_INSTANT of a channel whose next analysis instant can be interpolated advances its count of analysis samples by one and notes
the instant. TRACKING_LOSS_TIMER, where the analysis instants below the threshold have lasted 2 s, sets the tracked frequency to the
nominal one, no longer held at a limit; before that it leaves the tracked frequency as it was. Completion: under hypotheses on the state
and the operands alone, the clauses conclude that execution answers a next state with that effect, for gridInstant, analysisInstant,
trackingLossTimer. -/
def Obligations.ChannelAnalysis : Prop :=
  (∀ s : State, clocksRun s = true → s.ctl.mode ≠ .cold → ∃ t, exec .gridInstant s = .next t ∧ t.time.raw = s.time.raw ∧
    ((match s.time.gridDone with | some d => decide (d < gridIdx 14400 (timeNow s)) | none => true) = true →
      t.time.gridDone = some (gridIdx 14400 (timeNow s))) ∧
    ((match s.time.gridDone with | some d => decide (d < gridIdx 14400 (timeNow s)) | none => true) = false →
      t.time = s.time ∧ t.evf = s.evf)) ∧
  (∀ (n a : Nat) (c : ChannelCfg) (y : F64) (g : Byte) (s : State), chCfg s n = some c → enginesLive s = true →
    nextAnalysis s n c = some a → interp ((chSt s n).grid.map (fun x => (x.1, x.2.1, x.2.2.tag))) a = some (y, g) →
    ∃ t, exec (.analysisInstant n) s = .next t ∧ (chSt t n).m = (chSt s n).m + 1 ∧ (chSt t n).lastA = a ∧
      (chSt t n).window = lastN (nZero c) ((chSt s n).window ++ [(a, y, g)]) ∧ (chSt t n).taps = (chSt s n).taps) ∧
  (∀ (n a : Nat) (c : ChannelCfg) (s : State), chCfg s n = some c → enginesRun s = true → (chSt s n).belowSince = some a →
    ∃ t, exec (.trackingLossTimer n) s = .next t ∧ (chSt t n).m = (chSt s n).m ∧ t.out = s.out ∧
      (a + 32000000000 ≤ (chSt s n).lastA → (chSt t n).fhat = fint c.f0 ∧ (chSt t n).clamped = false ∧
        (chSt t n).status.getLsbD 3 = false) ∧
      ((chSt s n).lastA < a + 32000000000 → (chSt t n).fhat = (chSt s n).fhat))

/-- Loop updates. LOOP_UPDATE of a declared loop, at or after its instant plus its deadline less 2 µs, raises the update count by one and
sets the next update one division later; where a step of TIME passed over the instant, no update is counted and the next one follows the
step; before that time nothing of the loop changes. In each case the publications paced by results whose instant has come leave (log
entry 133). Completion: under hypotheses on the state and the operands alone, the clauses conclude that execution answers a next state
with that effect, for loopUpdate. -/
def Obligations.LoopUpdates : Prop :=
  (∀ (n : Nat) (c : LoopCfg) (s : State), loopCfg s n = some c → enginesLive s = true →
    skipped s (gridFs c.fast) (nextUpdate s n c) = none →
    gridAt (gridFs c.fast) (nextUpdate s n c) + 16000 * c.deadlineUs - 32000 ≤ timeNow s →
    ∃ t, exec (.loopUpdate n) s = .next t ∧ (loopSt t n).k = (loopSt s n).k + 1 ∧
      (loopSt t n).nextG = some (nextUpdate s n c + max c.dv 1)) ∧
  (∀ (n last : Nat) (c : LoopCfg) (s : State), loopCfg s n = some c → enginesLive s = true →
    skipped s (gridFs c.fast) (nextUpdate s n c) = some last →
    exec (.loopUpdate n) s =
      .next (pacedNow (modLoop s n (fun l => { l with nextG := some (last / max c.dv 1 * max c.dv 1 + max c.dv 1) })))) ∧
  (∀ (n : Nat) (c : LoopCfg) (s : State), loopCfg s n = some c → enginesLive s = true →
    skipped s (gridFs c.fast) (nextUpdate s n c) = none →
    timeNow s < gridAt (gridFs c.fast) (nextUpdate s n c) + 16000 * c.deadlineUs - 32000 → exec (.loopUpdate n) s = .next (pacedNow s))

/-- The local converter. ADC_SWGO of the core pair that the package names, which runs and which both checks let pass, adds a hold for each
entry of trigger 4 whose bit is set, at the instant at which the converter is up. ADC_INJECT_WRITE of that core pair for an input below
24 adds one urgent hold behind the one in progress, or sets INJOVR while one is pending. CONVERSION_DONE takes the oldest hold off: an
injection's code goes to ADC_INJRES, an entry's to its input. ADC_RESULT_READ of a master that both checks let pass answers the result
with its flags and clears those that hardware does not set in the same clock. CONVERTER_CALIBRATION in the slack, once its interval
(0x1900:01, 60 s where it is not set) has run, stores what it found with the operating seconds and the instant, and sets aside the holds
of trigger 3 that wait; within the interval it changes nothing. REFERENCE_CHECK in the slack, 1 s after the last one, sets or clears the
reference error; within the second it changes nothing. CUTOFF_CONVERTER_HOLD within the 8 µs before a cutoff of the task adds, once for
that cutoff, a hold for each entry of trigger 3 whose point belongs to a task of that cutoff; an injected conversion that would run into
them is held behind them. Completion: under hypotheses on the state and the operands alone, the clauses conclude that execution answers
a next state with that effect, for adcSwgo, adcInjectWrite, conversionDone, adcResultRead, converterCalibration, referenceCheck,
cutoffConverterHold. -/
def Obligations.LocalConverter : Prop :=
  (∀ (c : Cp) (v : W32) (s : State), adcWriter s = some c → mayAccess s c.master 0x40050004 kWrite = true →
    ∃ t, exec (.adcSwgo v) s = .next t ∧ t.field.holds = s.field.holds ++ ((List.range 16).filter (fun e => v.getLsbD e && (seqCfg s e).trigger == 4)).map (fun e =>
      ⟨some e, (seqCfg s e).input, if s.field.awake then s.time.raw else s.time.raw + 32000⟩) ∧ t.field.res = s.field.res) ∧
  (∀ (c : Cp) (v : W32) (s : State), adcWriter s = some c → mayAccess s c.master 0x40050008 kWrite = true → v.toNat % 32 < 24 →
    ∃ t, exec (.adcInjectWrite v) s = .next t ∧
    (s.field.holds.any (fun h => h.entry.isNone) = true → t.field.holds = s.field.holds ∧ t.field.injOvr = true ∧
      t.field.injections = s.field.injections) ∧
    (s.field.holds.any (fun h => h.entry.isNone) = false → t.field.injOvr = s.field.injOvr ∧
      t.field.injections = s.field.injections.inc ∧ t.field.awake = true ∧ t.field.holds = s.field.holds.take 1 ++
        [⟨none, v.toNat % 32, if s.field.awake then s.time.raw else s.time.raw + 32000⟩] ++ s.field.holds.drop 1)) ∧
  (∀ (code : W16) (r : W64) (h : HoldReq) (rest : List HoldReq) (s : State), s.ctl.mode ≠ .silent → s.field.holds = h :: rest →
    h.entry = none → ∃ t, exec (.conversionDone code r) s = .next t ∧ t.field.holds = rest ∧ t.field.injCode = code ∧ t.field.injDone = true ∧
      mget t.field.codes h.input = some code ∧ t.field.res = s.field.res ∧ t.out = s.out) ∧
  (∀ (code : W16) (r : W64) (e : Nat) (h : HoldReq) (rest : List HoldReq) (s : State), s.ctl.mode ≠ .silent →
    s.field.holds = h :: rest → h.entry = some e → h.input < 24 → ∃ t, exec (.conversionDone code r) s = .next t ∧ rest.isPrefixOf t.field.holds = true ∧ mget t.field.codes h.input = some code ∧
      mget t.field.codes (32 + e) = some code ∧ t.field.injCode = s.field.injCode) ∧
  (∀ (m : Master) (n : Nat) (held : W32) (s : State), mayAccess s m (0x40050040 + 4 * n) kRead = true → n < 16 →
    n < s.field.res.length → ∃ t, exec (.adcResultRead n held m) s = .next t ∧
    (let r := s.field.res.getD n SeqRes.reset
     t.out = s.out ++ [.regRead (BitVec.ofNat 32 (r.code.toNat + 65536 * b2n r.isNew + 131072 * b2n r.lost))] ∧
     t.field.res.getD n SeqRes.reset = { r with isNew := r.isNew && held.getLsbD 16, lost := r.lost && held.getLsbD 17 })) ∧
  (∀ (m : Master) (held : W32) (s : State), mayAccess s m 0x4005000C kRead = true → ∃ t, exec (.adcResultRead 16 held m) s = .next t ∧
    t.field.injDone = (s.field.injDone && held.getLsbD 16) ∧ t.out = s.out ++
    [.regRead (BitVec.ofNat 32 (s.field.injCode.toNat + 65536 * b2n s.field.injDone))]) ∧
  (∀ (o g : List Int) (s : State), clocksRun s = true → s.ctl.mode ≠ .cold → s.cyc.phase = .slack →
    (s.field.calAt = none ∨ past s s.field.calAt (16000000000 * setting s 0x1900 1 60) = true) →
    (let cut := fun (h : HoldReq) => match h.entry with | some e => (seqCfg s e).trigger == 3 | none => false
     exec (.converterCalibration o g) s = .next { s with field := { s.field with
       offsets := o, gains := g, lastCal := s.log.seconds, calAt := some s.time.raw,
       displaced := s.field.displaced ++ (s.field.holds.filter cut).map (·.input),
       holds := s.field.holds.filter (fun h => !cut h) } })) ∧
  (∀ (o g : List Int) (w : W64) (s : State), s.field.calAt = some w → (s.time.raw - w).toNat < 16000000000 * setting s 0x1900 1 60 →
    exec (.converterCalibration o g) s = .next s) ∧
  (∀ (uv : Nat) (s : State), clocksRun s = true → s.ctl.mode ≠ .cold → s.cyc.phase = .slack →
    (s.field.refAt = none ∨ past s s.field.refAt 16000000000 = true) → ∃ t, exec (.referenceCheck uv) s = .next t ∧
    t.field.refAt = some s.time.raw ∧
    t.field.refBad = !(decide (2497500 ≤ uv ∧ uv ≤ 2502500)) ∧ t.field.refErr = !(decide (2497500 ≤ uv ∧ uv ≤ 2502500)) ∧
    t.field.refFails = (if 2497500 ≤ uv ∧ uv ≤ 2502500 then s.field.refFails else s.field.refFails.inc)) ∧
  (∀ (uv : Nat) (w : W64) (s : State), s.field.refAt = some w → (s.time.raw - w).toNat < 16000000000 →
    exec (.referenceCheck uv) s = .next s) ∧
  (∀ (k m : Nat) (s : State), s.ctl.mode ≠ .silent → k < 4 → cutoffNear s k = some m →
    ∃ t, exec (.cutoffConverterHold k) s = .next t ∧ mget t.field.cutHeld k = some m ∧
    (let es := (List.range 16).filter (fun e => (seqCfg s e).trigger == 3 && (seqCfg s e).boundTo == 2 &&
       decide ((descOf s.img (seqCfg s e).number).task < 4) && cutoffNear s (descOf s.img (seqCfg s e).number).task == some m)
     let into := fun (x : HoldReq × Nat) => x.1.entry.isNone &&
       (decide (0 < x.2) || decide ((s.time.raw - x.1.hold + 16000000).toNat < 16016000))
     t.field.holds = if es.length = 0 then s.field.holds else
       ((s.field.holds.zipIdx.filter (fun x => !into x)).map (·.1)) ++
         es.map (fun e => ⟨some e, (seqCfg s e).input, s.time.raw⟩) ++
         (s.field.holds.zipIdx.filter into).map (fun x => { x.1 with hold := s.time.raw + BitVec.ofNat 64 (16000 * es.length) })))

/-- The D group: inputs, pulses, trips and the barrier. D_INPUT_SAMPLE reads the sixteen terminals and changes no output. D_INPUT_TEST sets
the D group fault where the stage of an input failed. PULSE_EDGE on a channel in pulse mode raises its count by one. OVERCURRENT_TRIP
switches an output that is on off, counts and sets the D group fault; TRIP_RETRY, 1 s later with the command still 1, ends the trip.
FIELD_REFRESH is heard by the barrier; FIELD_WATCHDOG_TRIP, 8 ms after the last one, switches every output off and counts. Completion:
under hypotheses on the state and the operands alone, the clauses conclude that execution answers a next state with that effect, for
dInputSample, dInputTest, pulseEdge, overcurrentTrip, tripRetry, fieldRefresh, fieldWatchdogTrip. -/
def Obligations.DGroup : Prop :=
  (∀ (l : List Bool) (s : State), ∃ t, exec (.dInputSample l) s = .next t ∧ t.field.ls = s.field.ls ∧ t.field.dfault = s.field.dfault ∧
    t.field.ds.length = s.field.ds.length ∧ ∀ n, n < s.field.ds.length → (dChan t n).terminal = l.getD n false ∧
      (dChan t n).on = (dChan s n).on ∧ (dChan t n).command = (dChan s n).command ∧ (dChan t n).count = (dChan s n).count) ∧
  (∀ (l : List Nat) (s : State), ∃ t, exec (.dInputTest l) s = .next t ∧ t.field.dfault = (s.field.dfault ||
    (List.range 16).any (fun n => l.contains n && ((dCfg s n).func == 1 || (dCfg s n).func == 2))) ∧ t.field.trips = s.field.trips) ∧
  (∀ (n : Nat) (s : State), (dCfg s n).func = 3 → n < s.field.ds.length → ∃ t, exec (.pulseEdge n) s = .next t ∧
    (dChan t n).count = (dChan s n).count + 1 ∧ ∀ m, m ≠ n → dChan t m = dChan s m) ∧
  (∀ (n : Nat) (s : State), (dCfg s n).func = 4 → (dChan s n).on = true → ∃ t, exec (.overcurrentTrip n) s = .next t ∧
    (dChan t n).on = false ∧ (dChan t n).tripped = true ∧ t.field.trips = s.field.trips.inc ∧ t.field.dfault = true ∧
    (dChan t n).command = (dChan s n).command) ∧
  (∀ (n : Nat) (w : W64) (s : State), (dChan s n).tripped = true → (dChan s n).command = true → (dChan s n).trippedAt = some w →
    16000000000 ≤ (s.time.raw - w).toNat → ∃ t, exec (.tripRetry n) s = .next t ∧ (dChan t n).tripped = false ∧
      (dChan t n).on = (!s.field.latch && !s.field.tripHold)) ∧
  (∀ s : State, ∃ t, exec .fieldRefresh s = .next t ∧ t.out = s.out ++ [.barrierRefresh] ∧ t.field.ready = true ∧
    t.field.refreshAt = some s.time.raw) ∧
  (∀ (w : W64) (s : State), s.field.ready = true → s.field.refreshAt = some w → 128000000 ≤ (s.time.raw - w).toNat →
    ∃ t, exec .fieldWatchdogTrip s = .next t ∧ t.field.wdt = true ∧ t.field.tripHold = true ∧ t.field.ready = false ∧
      t.field.wdTrips = s.field.wdTrips.inc ∧ ∀ n, (dChan t n).on = false)

/-- The field supply and the current outputs. LPLUS_SAG below 18 V sets the sag, counts it once, and below 14 V latches every D output off.
LPLUS_RECOVER above 19 V for 10 ms ends both. SHARE_TO_FULL: a paired output in share raises its own current by what the current at its
terminal lacks of the command, and never lowers it; FULL_TO_SHARE, 1 ms after the partner entered TWIN, halves it again.
COMPLIANCE_SHORTFALL sets the loop fault and counts. CLEAR_D_FAULT by a core clears the D group fault, unless hardware sets it in the
same clock. Completion: under hypotheses on the state and the operands alone, the clauses conclude that execution answers a next state
with that effect, for lplusSag, lplusRecover, shareToFull, fullToShare, complianceShortfall, clearDFault. -/
def Obligations.FieldSupplyAndCurrents : Prop :=
  (∀ (mv : W16) (s : State), mv.toNat < 18000 → ∃ t, exec (.lplusSag mv) s = .next t ∧ t.field.sag = true ∧ t.field.lplus = mv ∧
    t.field.above19 = none ∧ t.field.sags = (if s.field.sag then s.field.sags else s.field.sags.inc) ∧
    t.field.latch = (s.field.latch || decide (mv.toNat < 14000)) ∧
    (mv.toNat < 14000 → s.field.latch = false → t.field.latchOffs = s.field.latchOffs.inc ∧ ∀ n, (dChan t n).on = false)) ∧
  (∀ (mv : W16) (w : W64) (s : State), 19000 < mv.toNat → s.field.above19 = some w → 160000000 ≤ (s.time.raw - w).toNat →
    ∃ t, exec (.lplusRecover mv) s = .next t ∧ t.field.latch = false ∧ t.field.sag = false ∧ t.field.lplus = mv ∧
      ∀ n, n < s.field.ds.length → (dChan t n).on = ((dChan s n).command && !(dChan s n).tripped && !s.field.tripHold)) ∧
  (∀ (mv : W16) (s : State), 19000 < mv.toNat → s.field.above19 = none → exec (.lplusRecover mv) s = .next { s with
    field := { s.field with lplus := mv, above19 := some s.time.raw } }) ∧
  (∀ (n : Nat) (s : State), (loopIo s n).paired = true → loopOut (loopIo s n).func = true → (lChan s n).shareSt = .share →
    n < s.field.ls.length → ∃ t, exec (.shareToFull n) s = .next t ∧ (lChan t n).shareSt = .full ∧
      (lChan t n).sourceUa = max (lChan s n).sourceUa
        (((lChan s n).sourceUa : Int) + (lChan s n).commandUa - loopUa s n).toNat ∧
      (lChan t n).fullEntries = (lChan s n).fullEntries.inc) ∧
  (∀ (n : Nat) (w : W64) (s : State), (lChan s n).shareSt = .full → s.pair.pMode = 7 → s.pair.pTwinAt = some w →
    16000000 ≤ (s.time.raw - w).toNat → n < s.field.ls.length → ∃ t, exec (.fullToShare n) s = .next t ∧
      (lChan t n).shareSt = .share ∧ (lChan t n).sourceUa = (lChan s n).commandUa / 2) ∧
  (∀ (n : Nat) (s : State), loopOut (loopIo s n).func = true → (lChan s n).shortfall = false → n < s.field.ls.length →
    ∃ t, exec (.complianceShortfall n) s = .next t ∧ (lChan t n).shortfall = true ∧
      (lChan t n).shortfalls = (lChan s n).shortfalls.inc ∧ t.field.lfault = true) ∧
  (∀ (held : Bool) (s : State), exec (.clearDFault none held) s = .next { s with field := { s.field with dfault := s.field.dfault && held } })

/-- Miojo: flags, copies, lanes, link and delay. A message in a mode that listens with a SEQ that is new tells the partner's FLAGS: KEEP
does that and no more. A message whose SEQ is among those accepted is a copy: MIOJO_KEEP of one leaves all that is known of the partner
from its messages as it was, the cycle and the mode too, and no message of one has an effect beyond showing that its lane lives. A
message with a bad CRC is counted and nothing else. KEEP_SEND_TIMER sends KEEP on a lane that has been quiet for 10 µs, whether it is up
or not, with its bytes on the wire. LANE_UP in a mode that uses the link: the lane is up; the link stays as it was where the partner's
HELLO is not here, and comes up where it is here and this side may say its own. LANE_DOWN: the lane is down and the other stands.
MIOJO_LINK_DOWN with neither lane heard for 50 µs: link and lanes are down and the loss is counted. DELAY_MEASURE_TIMER with the link up
and no measurement of the last second sends one DELAY request, with this side's RAW, on each lane that is up, the first lane first.
MIOJO_DELAY: a request is answered on its lane with this side's RAW; a response while a request is in flight sets the one-way delay to
half the round trip less the turnaround, whatever RAW it carries; one with none in flight changes nothing more. Completion: under
hypotheses on the state and the operands alone, the clauses conclude that execution answers a next state with that effect, for
miojoKeep, miojoBadCrc, keepSendTimer, laneUp, laneDown, miojoLinkDown, delayMeasureTimer, miojoDelay. -/
def Obligations.LanesLinkAndCopies : Prop :=
  (∀ (h : MjHdr) (s : State), miojoOn s = true → s.ctl.mode ≠ .silent → s.pair.rxSeqs.contains h.seq = false →
    (match s.pair.rxSeqs with | [] => true | o :: _ => newer h.seq o) = true → ∃ t, exec (.miojoKeep h) s = .next t ∧
      t.pair.seen = true ∧ t.pair.pOwn = h.own ∧ t.pair.pAlive = h.alive ∧ t.pair.pSilent = h.silent ∧ t.pair.pCatchup = h.catchup ∧
      t.pair.pSideB = h.sideB ∧ (if h.lane then t.pair.last1 else t.pair.last0) = some s.time.raw ∧
      t = (hear s h).1) ∧
  (∀ (h : MjHdr) (s : State), s.pair.rxSeqs.contains h.seq = true → ∃ t, exec (.miojoKeep h) s = .next t ∧
    t.pair.pOwn = s.pair.pOwn ∧ t.pair.pAlive = s.pair.pAlive ∧ t.pair.pSilent = s.pair.pSilent ∧ t.pair.pCatchup = s.pair.pCatchup ∧
    t.pair.pSideB = s.pair.pSideB ∧ t.pair.seen = s.pair.seen ∧ t.pair.pMode = s.pair.pMode ∧ t.pair.hello = s.pair.hello ∧
    t.pair.dead = s.pair.dead ∧ t.pair.rxSeqs = s.pair.rxSeqs ∧ t.cyc = s.cyc ∧ t.ctl = s.ctl) ∧
  (∀ (h : MjHdr) (s : State), s.pair.rxSeqs.contains h.seq = true →
    (∀ x, exec (.miojoHello h x) s = exec (.miojoKeep h) s) ∧ (∀ w, exec (.miojoWrite h w) s = exec (.miojoKeep h) s) ∧
    (∀ f r, exec (.miojoForward h f r) s = exec (.miojoKeep h) s) ∧ (∀ k d e, exec (.miojoOutput h k d e) s = exec (.miojoKeep h) s) ∧
    (∀ k, exec (.miojoHandover h k) s = exec (.miojoKeep h) s) ∧ (∀ x, exec (.miojoTick h x) s = exec (.miojoKeep h) s) ∧
    (∀ x, exec (.miojoSilent h x) s = exec (.miojoKeep h) s) ∧ (∀ x y z, exec (.miojoDelay h x y z) s = exec (.miojoKeep h) s) ∧
    (∀ n f, exec (.miojoSupply h n f) s = exec (.miojoKeep h) s) ∧ (∀ m, exec (.miojoSample h m) s = exec (.miojoKeep h) s) ∧
    (∀ k f, exec (.miojoSvsupply h k f) s = exec (.miojoKeep h) s) ∧ (∀ x, exec (.miojoSidein h x) s = exec (.miojoKeep h) s) ∧
    (∀ w, exec (.miojoWack h w) s = exec (.miojoKeep h) s) ∧ (∀ f c, exec (.miojoRefuse h f c) s = exec (.miojoKeep h) s) ∧
    (∀ a, exec (.miojoAnnounce h a) s = exec (.miojoKeep h) s) ∧ (∀ k o d, exec (.miojoCheck h k o d) s = exec (.miojoKeep h) s) ∧
    (∀ g o d, exec (.miojoState h g o d) s = exec (.miojoKeep h) s) ∧ (∀ q, exec (.miojoStateack h q) s = exec (.miojoKeep h) s) ∧
    (∀ k l, exec (.miojoLog h k l) s = exec (.miojoKeep h) s) ∧ (∀ n k x, exec (.miojoCatch h n k x) s = exec (.miojoKeep h) s)) ∧
  (∀ (l : Bool) (s : State), exec (.miojoBadCrc l) s = .next { s with pair := { s.pair with nCrc := s.pair.nCrc.inc } }) ∧
  (∀ (l : Bool) (s : State), miojoOn s = true →
    160000 ≤ (s.time.raw - (if l then s.pair.sent1 else s.pair.sent0)).toNat → ∃ t, exec (.keepSendTimer l) s = .next t ∧
      t.out = s.out ++ [.miojo [l] (mjHdr s l s.pair.txSeq) .keep (mjWire (mjHdr s l s.pair.txSeq) .keep)] ∧
      t.pair.txSeq = s.pair.txSeq + 1) ∧
  (∀ (l : Bool) (s : State), miojoOn s = true → ∃ t, exec (.laneUp l) s = .next t ∧ (if l then t.pair.lane1 else t.pair.lane0) = true ∧
    (if l then t.pair.lane0 else t.pair.lane1) = (if l then s.pair.lane0 else s.pair.lane1) ∧
    (if l then t.pair.last1 else t.pair.last0) = some s.time.raw ∧ (s.pair.hello = none → t.pair.link = s.pair.link) ∧
    ((if l then s.pair.lane1 else s.pair.lane0) = false → s.pair.hello.isSome = true → isPaired s = true → s.boot.settled = true →
      s.ctl.mode.aliveList = true → s.ctl.stoppedAt = none → t.pair.link = true)) ∧
  (∀ (l : Bool) (s : State), ∃ t, exec (.laneDown l) s = .next t ∧ (if l then t.pair.lane1 else t.pair.lane0) = false ∧
    (if l then t.pair.lane0 else t.pair.lane1) = (if l then s.pair.lane0 else s.pair.lane1) ∧ t.pair.link = s.pair.link) ∧
  (∀ s : State, s.pair.link = true → within s s.pair.last0 800000 = false → within s s.pair.last1 800000 = false →
    ∃ t, exec .miojoLinkDown s = .next t ∧ t.pair.link = false ∧ t.pair.lane0 = false ∧ t.pair.lane1 = false ∧
      t.pair.nLoss = s.pair.nLoss.inc ∧ t.pair.hello = none) ∧
  (∀ s : State, s.ctl.mode ≠ .silent → s.pair.link = true →
    (s.pair.delayAt = none ∨ past s s.pair.delayAt 16000000000 = true) → ∃ t, exec .delayMeasureTimer s = .next t ∧
    t.pair.delayReq = some s.time.raw ∧ t.pair.txSeq = s.pair.txSeq + BitVec.ofNat 32 (lanesUp s).length ∧
    t.out = s.out ++ (lanesUp s).zipIdx.map (fun x => .miojo [x.1] (mjHdr s x.1 (s.pair.txSeq + BitVec.ofNat 32 x.2))
      (.delay false s.time.raw 0) (mjWire (mjHdr s x.1 (s.pair.txSeq + BitVec.ofNat 32 x.2)) (.delay false s.time.raw 0)))) ∧
  (∀ (h : MjHdr) (x : W64) (v : W32) (s r : State), hear s h = (r, true) →
    exec (.miojoDelay h false x v) s = .next (mjSendOn r [h.lane] (.delay true r.time.raw 0))) ∧
  (∀ (h : MjHdr) (q x : W64) (v : W32) (s r : State), hear s h = (r, true) → r.pair.delayReq = some q →
    ∃ t, exec (.miojoDelay h true x v) s = .next t ∧ t.pair.delayReq = none ∧ t.pair.delayAt = some r.time.raw ∧
      t.pair.delayNs = BitVec.ofNat 32 (((r.time.raw - q).toNat - v.toNat) / 32)) ∧
  (∀ (h : MjHdr) (x : W64) (v : W32) (s r : State), hear s h = (r, true) → r.pair.delayReq = none →
    exec (.miojoDelay h true x v) s = .next r)

/-- HELLO, TICK, SUPPLY and the shared samples. An accepted HELLO is kept with the partner's mode and ends a declaration of death; the link
is up where it was or this side has said its own HELLO, and stays down where this side has said none and its package has not settled. An
accepted TICK is kept on a side that counts ticks and takes the owning side's part, and its offset is shown where no announced step
takes effect with it; one that names the cutoff in agreement of a partner that released its previous cycle lets the cutoff stand; a
joining side takes the live tick count from it. SUPPLY during the agreement is kept for its slot and counted. SAMPLE and SVSUPPLY are
kept for the agreement of the sample set. A pulse count of SIDEIN enters its loop. Completion: under hypotheses on the state and the
operands alone, the clauses conclude that execution answers a next state with that effect, for miojoHello, miojoTick, miojoSupply,
miojoSample, miojoSvsupply, miojoSidein. -/
def Obligations.HelloAndTicks : Prop :=
  (∀ (h : MjHdr) (x : Hello) (s r : State), hear s h = (r, true) → ∃ t, exec (.miojoHello h x) s = .next t ∧ t.pair.hello = some x ∧
    t.pair.pMode = x.mode ∧ t.pair.dead = false ∧ (r.pair.link = true ∨ r.pair.saidHello = true → t.pair.link = true) ∧
    (r.pair.link = false → r.pair.saidHello = false → r.boot.settled = false → t.pair.link = false)) ∧
  (∀ (h : MjHdr) (k : TickMsg) (s r : State), hear s h = (r, true) → r.ctl.mode.run = true → ∃ t, exec (.miojoTick h k) s = .next t ∧
    (r.cyc.phase ≠ .agreeing ∨ r.time.announced = [] → t.pair.offset = sat32 (tickOffset r / 16)) ∧
    (ownerPart r = true → t.cyc.partnerTick = some k ∧ (r.cyc.phase ≠ .agreeing → t.cyc = { r.cyc with partnerTick := some k }) ∧
      (r.cyc.phase = .agreeing → k.tick = r.cyc.cutTick → k.prevReleased = true → t.cyc.confirmed = true))) ∧
  (∀ (h : MjHdr) (k : TickMsg) (s r : State), hear s h = (r, true) → r.ctl.mode = .catchup → r.pair.phase < 5 →
    exec (.miojoTick h k) s = .next { r with cyc := { r.cyc with tick := k.tick }, pair := { r.pair with
      offset := sat32 (tickOffset r / 16), offsets := ((tickOffset r, r.time.raw) :: r.pair.offsets).take 8 } }) ∧
  (∀ (h : MjHdr) (n : Nat) (f : Frame) (s r : State), hear s h = (r, true) → r.cyc.phase = .agreeing →
    exec (.miojoSupply h n (.net f)) s = .next { r with
      pair := { r.pair with nSuppBy := r.pair.nSuppBy.inc }, cyc := { r.cyc with supplies := mset r.cyc.supplies n f } }) ∧
  (∀ (h : MjHdr) (n : Nat) (f : GooseMsg) (s r : State), hear s h = (r, true) → r.cyc.phase = .agreeing →
    exec (.miojoSupply h n (.goose f)) s = .next { r with
      pair := { r.pair with nSuppBy := r.pair.nSuppBy.inc }, cyc := { r.cyc with suppliesG := mset r.cyc.suppliesG n f } }) ∧
  (∀ (h : MjHdr) (m : SampleMsg) (s r : State), hear s h = (r, true) → enginesLive r = true → (stSt r m.stream).pendT = none →
    ∃ t, exec (.miojoSample h m) s = .next t ∧ (stSt t m.stream).peers = lastN 64 ((stSt r m.stream).peers ++ [m]) ∧
      (stSt t m.stream).lastT = (stSt r m.stream).lastT) ∧
  (∀ (h : MjHdr) (k : Nat) (f : SvFrame) (s r : State), hear s h = (r, true) → enginesLive r = true → (stSt r k).pendT = none →
    (stSt r k).held.find? (fun x => sameAsdus x.frame f) = none → ∃ t, exec (.miojoSvsupply h k f) s = .next t ∧
      (stSt t k).held = lastN 64 ((stSt r k).held ++ [⟨f, (((stSt r k).peers.find? (fun m => m.holds &&
        f.asdus.any (fun a => a.smpCnt == m.smpCnt))).map (fun m => nearTime (timeNow r) m.arrival)).getD (timeNow r), true⟩])) ∧
  (∀ (h : MjHdr) (n : Nat) (x : SideItem) (s r : State), hear s h = (r, true) → enginesLive r = true → x.kind = 2 → x.target = n →
    exec (.miojoSidein h [x]) s = .next (modLoop r n (fun l => { l with
      pulses := ((nearTime (timeNow r) x.stamp, x.value) :: l.pulses).take 4100 })))

/-- FORWARD, WRITE, WACK, REFUSE and the resending. An accepted FORWARD on the owning side in a run mode that repeats nothing and is not
refused takes the next write sequence number; a refused one is answered by REFUSE; one that repeats an accepted request is answered by
the first WRITE. A new WRITE on a side that does not own, ahead of its target's cutoff, waits for its boundary and is acknowledged; a
known one changes no queue. WACK ends the resending of its WRITE or ANNOUNCE, REFUSE the waiting of its request. WRITE_RESEND_TIMER
repeats a WRITE, or an ANNOUNCE, that has waited 20 µs, and drops all while the link is down. Completion: under hypotheses on the state
and the operands alone, the clauses conclude that execution answers a next state with that effect, for miojoForward, miojoWrite,
miojoWack, miojoRefuse, writeResendTimer. -/
def Obligations.SequencedWrites : Prop :=
  (∀ (h : MjHdr) (f : W32) (q : PairReq) (s r : State), hear s h = (r, true) → owns r = true → r.ctl.mode.run = true →
    repeatOf r q = none → ∃ t, exec (.miojoForward h f q) s = .next t ∧
      (ownerRefuses r q = 0 → t.pair.nextWsn = r.pair.nextWsn + 1 ∧ t.pair.seqs = r.pair.seqs ++ [⟨⟨r.pair.nextWsn,
        targetTick r 150 (reqTask r q), !r.pins.sideB, f, .request q⟩, false, 0, .port .h, 0⟩]) ∧
      (ownerRefuses r q ≠ 0 → t = mjSend r (.refuse f (BitVec.ofNat 16 (ownerRefuses r q))))) ∧
  (∀ (h : MjHdr) (f : W32) (q : PairReq) (x : Repeat) (s r : State), hear s h = (r, true) → owns r = true → r.ctl.mode.run = true →
    repeatOf r q = some x → exec (.miojoForward h f q) s = .next (mjSend r (.write { x.msg with originB := !r.pins.sideB, fwd := f }))) ∧
  (∀ (h : MjHdr) (w : WriteMsg) (s r : State), hear s h = (r, true) → owns r = false → r.ctl.mode.run = true →
    r.pair.seqs.any (fun i => i.msg.wsn == w.wsn) = false → r.pair.repeats.any (fun x => x.msg.wsn == w.wsn) = false →
    w.wsn = r.pair.nextWsn → r.cyc.cutTick.toNat < w.target.toNat → forwardedFor r w = none →
    ∃ t, exec (.miojoWrite h w) s = .next t ∧ t.pair.seqs = r.pair.seqs ++ [⟨w, false, 0, .port .h, 0⟩] ∧
      t.pair.nextWsn = w.wsn + 1 ∧ t.out = (mjSend r (.wack w.wsn)).out ∧ t.ctl = r.ctl) ∧
  (∀ (h : MjHdr) (w : WriteMsg) (s r : State), hear s h = (r, true) → owns r = false → r.ctl.mode.run = true →
    r.pair.seqs.any (fun i => i.msg.wsn == w.wsn) = true → forwardedFor r w = none → ∃ t, exec (.miojoWrite h w) s = .next t ∧
      t.pair.seqs = r.pair.seqs ∧ t.pair.nextWsn = r.pair.nextWsn ∧ t.out = (mjSend r (.wack w.wsn)).out) ∧
  (∀ (h : MjHdr) (w : W32) (s r : State), hear s h = (r, true) → exec (.miojoWack h w) s = .next { r with
    pair := { r.pair with resend := r.pair.resend.filter (fun x => x.1.wsn != w), annResend := r.pair.annResend.filter (fun x => x.1 != w) } }) ∧
  (∀ (h : MjHdr) (f : W32) (c : W16) (s r : State), hear s h = (r, true) → ∃ t, exec (.miojoRefuse h f c) s = .next t ∧
    t.pair = { r.pair with forwarded := r.pair.forwarded.filter (fun x => x.fwd != f) }) ∧
  (∀ s : State, s.ctl.mode ≠ .silent → s.pair.link = false → exec .writeResendTimer s = .next { s with
    pair := { s.pair with resend := [], annResend := [] } }) ∧
  (∀ (m : WriteMsg) (w : W64) (s : State), s.ctl.mode ≠ .silent → s.pair.link = true → s.pair.dead = false →
    s.pair.resend = [(m, w)] → s.pair.annResend = [] → ∃ t, exec .writeResendTimer s = .next t ∧
      ((s.time.raw - w).toNat < 320000 → t = s) ∧
      (320000 ≤ (s.time.raw - w).toNat → t.pair.resend = [(m, s.time.raw)] ∧ t.out = (mjSend s (.write m)).out)) ∧
  (∀ (n : W32) (a : Announce) (w : W64) (s : State), s.ctl.mode ≠ .silent → s.pair.link = true → s.pair.dead = false →
    s.pair.resend = [] → s.pair.annResend = [(n, a, w)] → 320000 ≤ (s.time.raw - w).toNat → ∃ t, exec .writeResendTimer s = .next t ∧
      t.pair.annResend = [(n, a, s.time.raw)] ∧ t.out = (mjSend s (.announce a)).out)

/-- HANDOVER, ANNOUNCE, CHECK and SILENT of the partner. An accepted HANDOVER on a running side that does not own is counted, and requests
ownership unless the partner still reports OWN; the no-owner interval begins with the fall on OWN_IN. An ANNOUNCE not heard before,
ahead of its tick's cutoff, takes the next write sequence number, is acknowledged under it and waits for that tick; one heard before is
acknowledged again (log entry 104). A CHECK outside an active change is kept as the partner's outcome. SILENT declares the partner dead,
and counts it once. Completion: under hypotheses on the state and the operands alone, the clauses conclude that execution answers a next
state with that effect, for miojoHandover, miojoAnnounce, miojoCheck, miojoSilent. -/
def Obligations.AnnouncementsOfThePartner : Prop :=
  (∀ (h : MjHdr) (k : W64) (s r : State), hear s h = (r, true) → owns r = false → r.ctl.mode.run = true →
    ∃ t, exec (.miojoHandover h k) s = .next t ∧ t.pair.handover = some true ∧ t.pair.noOwner = r.pair.noOwner ∧
      t.pair.nHandover = r.pair.nHandover.inc ∧ t.pair.ownOut = r.pair.ownOut ∧
      t.pair.ownReq = (r.pair.ownReq || !(r.pair.pOwn && !r.pair.dead))) ∧
  (∀ (h : MjHdr) (a : Announce) (s r : State), hear s h = (r, true) → owns r = false → r.ctl.mode.run = true →
    r.cyc.cutTick.toNat < a.tick.toNat → r.pair.annSeen.find? (fun x => x.2 == a) = none → ∃ t, exec (.miojoAnnounce h a) s = .next t ∧
      t.time = { r.time with announced := r.time.announced ++ [a] } ∧ t.pair.nextWsn = r.pair.nextWsn + 1 ∧
      t.out = (mjSend r (.wack r.pair.nextWsn)).out ∧ t.ctl = r.ctl) ∧
  (∀ (h : MjHdr) (a : Announce) (x : W32 × Announce) (s r : State), hear s h = (r, true) → owns r = false → r.ctl.mode.run = true →
    r.pair.annSeen.find? (fun x => x.2 == a) = some x → exec (.miojoAnnounce h a) s = .next (mjSend r (.wack x.1))) ∧
  (∀ (h : MjHdr) (k : W64) (o : Nat) (d : Bytes) (s r : State), hear s h = (r, true) → r.ctl.mode.run = true →
    r.cyc.change.active = false → exec (.miojoCheck h k o d) s = .next { r with
      cyc := { r.cyc with change := { r.cyc.change with partner := some ⟨o, d, k⟩ } } }) ∧
  (∀ (h : MjHdr) (x : Nat) (s r : State), hear s h = (r, true) → ∃ t, exec (.miojoSilent h x) s = .next t ∧ t.pair.pSilent = true ∧
    t.pair.dead = true ∧ t.pair.nDead = (if r.pair.dead then r.pair.nDead else r.pair.nDead.inc))

/-- OWN and ALIVE. ALIVE_OUT toggles every 500 µs while the mode and a permit of the last 2 ms allow it, and is held low otherwise;
ALIVE_PERMIT_WRITE gives the permit in the modes of R188, and ALIVE_PERMIT_EXPIRE holds the wire low 2 ms after the last one. An edge on
ALIVE_IN is noted; none for 3 ms, with the link silent or reporting ALIVE as stopped, declares the partner of a pair dead. A change of
OWN_IN is noted. In STOP and the run modes OWN_OUT rises once ownership is requested and OWN_IN has been low for 2 ms. A wiring
disagreement that has stood 10 ms sets the fault and counts; agreement that has stood 10 ms clears it. Completion: under hypotheses on
the state and the operands alone, the clauses conclude that execution answers a next state with that effect, for aliveToggle,
alivePermitWrite, alivePermitExpire, aliveInEdge, aliveTimeout, ownInChange, ownPermitExpire, interlockWiringFault. -/
def Obligations.OwnAndAlive : Prop :=
  (∀ s : State, s.ctl.mode.aliveList = true → within s s.pair.permitAt 32000000 = true → s.ctl.stoppedAt = none →
    exec .aliveToggle s = .next (if within s s.pair.toggledAt 8000000 then s else { s with
      pair := { s.pair with aliveOut := !s.pair.aliveOut, toggledAt := some s.time.raw } })) ∧
  (∀ s : State, (s.ctl.mode.aliveList = false ∨ within s s.pair.permitAt 32000000 = false ∨ s.ctl.stoppedAt ≠ none) →
    exec .aliveToggle s = .next { s with pair := { s.pair with aliveOut := false, toggledAt := none } }) ∧
  (∀ s : State, exec .alivePermitWrite s = .next (if s.ctl.mode.aliveList then { s with
    pair := { s.pair with permitAt := some s.time.raw } } else s)) ∧
  (∀ s : State, exec .alivePermitExpire s = .next (if within s s.pair.permitAt 32000000 then s else { s with
    pair := { s.pair with aliveOut := false, toggledAt := none } })) ∧
  (∀ s : State, ∃ t, exec .aliveInEdge s = .next t ∧ t.pair.edgeAt = some s.time.raw ∧ t.pair.dead = s.pair.dead ∧ t.ctl = s.ctl) ∧
  (∀ (w : W64) (s : State), s.ctl.mode ≠ .silent → isPaired s = true → s.pair.edgeAt = some w → 48000000 ≤ (s.time.raw - w).toNat →
    ((within s s.pair.last0 800000 = false ∧ within s s.pair.last1 800000 = false) ∨ s.pair.pAlive = false) → s.pair.dead = false →
    ∃ t, exec .aliveTimeout s = .next t ∧ t.pair.dead = true ∧ t.pair.nDead = s.pair.nDead.inc) ∧
  (∀ (b : Bool) (s : State), ∃ t, exec (.ownInChange b) s = .next t ∧ t.pair.ownIn = b) ∧
  (∀ (w : W64) (s : State), s.ctl.mode = .stop ∨ s.ctl.mode.run = true → s.pair.ownReq = true → s.pair.ownOut = false → s.pair.ownIn = false →
    s.pair.ownInLowSince = some w → 32000000 ≤ (s.time.raw - w).toNat → ∃ t, exec .ownPermitExpire s = .next t ∧
      t.pair.ownOut = true ∧ t.pair.ownHighSince = some s.time.raw) ∧
  (∀ (w : W64) (s : State), s.ctl.mode ≠ .silent → s.pair.wiringSince = some w → 160000000 ≤ (s.time.raw - w).toNat →
    wiresDiffer s ≠ s.pair.wiring → ∃ t, exec .interlockWiringFault s = .next t ∧ t.pair.wiring = !s.pair.wiring ∧
      t.pair.nWiring = (if s.pair.wiring then s.pair.nWiring else s.pair.nWiring.inc))

/-- The catch-up on the side that serves it. An accepted CATCH of phase 1 on an owning side in ALONE or LEAD begins the service. A bulk pass
that leaves at most 4 MiB ends phase 2; the sixteenth that leaves more fails with reason 3. STATEACK takes what it covers from what
waits to be covered, and where nothing of phase 3 is left, enters phase 4. STATE_RESEND_TIMER sends again, under its SEQ, what no
STATEACK has covered for 100 µs. Completion: under hypotheses on the state and the operands alone, the clauses conclude that execution
answers a next state with that effect, for miojoCatch, catchupBulkPassDone, miojoStateack, stateResendTimer. -/
def Obligations.CatchUpOwningSide : Prop :=
  (∀ (h : MjHdr) (k : W64) (x : Option Nat) (s r : State), hear s h = (r, true) → owns r = true →
    (r.ctl.mode = .alone ∨ r.ctl.mode = .lead) → ∃ t, exec (.miojoCatch h 1 k x) s = .next t ∧ t.pair.serving = 1 ∧ t.ctl = r.ctl) ∧
  (∀ (d : Nat) (s : State), s.ctl.mode ≠ .silent → s.pair.serving = 2 → ∃ t, exec (.catchupBulkPassDone d) s = .next t ∧
    (d ≤ 4194304 → t.pair.serving = 3) ∧
    (4194304 < d → 16 ≤ s.pair.pass → t.pair.serving = 0 ∧ t.pair.nFailed = s.pair.nFailed.inc ∧ t.pair.cReason = 3) ∧
    (4194304 < d → s.pair.pass < 16 → t.pair.serving = 2 ∧ t.pair.pass = s.pair.pass + 1)) ∧
  (∀ (h : MjHdr) (q : W32) (s r : State), hear s h = (r, true) → ∃ t, exec (.miojoStateack h q) s = .next t ∧
    (let u : State := { r with pair := { r.pair with unacked := r.pair.unacked.filter (fun x => newer x.seq q) } }
     if r.pair.serving = 3 ∧ r.pair.snapTick ≠ noTick ∧ stateOut u = false then t.pair.serving = 4 ∧ t.ctl = r.ctl else t = u)) ∧
  (∀ (x : StateTx) (s : State), s.ctl.mode ≠ .silent → s.pair.unacked = [x] → 1600000 ≤ (s.time.raw - x.atRaw).toNat →
    lanesUp s ≠ [] → ∃ t, exec .stateResendTimer s = .next t ∧ t.pair.unacked = [{ x with atRaw := s.time.raw }] ∧
      t.out.length = s.out.length + 1 ∧ t.pair.txSeq = s.pair.txSeq)

/-- The catch-up on the side that joins. An accepted CATCH of phase 3 in phase 2 enters phase 3. STATE in phases 2 and 3 is stored and
acknowledged; LOG from phase 3 on joins the log and is acknowledged. CATCHUP_REPLAY_TICK ends the tick whose tasks have run to their
end, replays the next logged tick, or moves to the verification; with more than 64 logged ticks before it the replay fails with reason
4. CATCHUP_RETRY_TIMER begins phase 1 again 10 s after a failure; TWIN_STABLE_TIMER forgets the failures that a mismatch left, after 60
s in TWIN. Completion: under hypotheses on the state and the operands alone, the clauses conclude that execution answers a next state
with that effect, for miojoCatch, miojoState, miojoLog, catchupReplayTick, catchupRetryTimer, twinStableTimer. -/
def Obligations.CatchUpJoiningSide : Prop :=
  (∀ (h : MjHdr) (k : W64) (x : Option Nat) (s r : State), hear s h = (r, true) → r.ctl.mode = .catchup → r.pair.phase = 2 →
    ∃ t, exec (.miojoCatch h 3 k x) s = .next t ∧ t.pair.phase = 3 ∧ t.ctl = r.ctl) ∧
  (∀ (h : MjHdr) (g o : Nat) (d : Bytes) (s r : State), hear s h = (r, true) → r.ctl.mode = .catchup →
    (r.pair.phase = 2 ∨ r.pair.phase = 3) → ∃ t, exec (.miojoState h g o d) s = .next t ∧
      t.pair.stored = r.pair.stored ++ [(g, o, d)] ∧ t.out = (mjSend r (.stateack r.pair.ackSeq)).out) ∧
  (∀ (h : MjHdr) (k : W64) (l : List LogItem) (s r : State), hear s h = (r, true) → r.ctl.mode = .catchup → 3 ≤ r.pair.phase →
    ∃ t, exec (.miojoLog h k l) s = .next t ∧ t.pair.log = mergeLog r.pair.log k l ∧
      t.out = (mjSend r (.stateack r.pair.ackSeq)).out) ∧
  (∀ s : State, s.ctl.mode = .catchup → s.pair.phase = 4 → s.cyc.phase = .executing → s.cyc.todo = [] → s.cyc.calls = [] →
    ∃ t, exec .catchupReplayTick s = .next t ∧ t.cyc.phase = .slack ∧ t.cyc.released = true ∧ t.out = s.out) ∧
  (∀ s : State, s.ctl.mode = .catchup → s.pair.phase = 4 → s.cyc.phase ≠ .executing → ∃ t, exec .catchupReplayTick s = .next t ∧
    (let left := s.pair.log.filter (fun x => logMarks x.2 && decide (s.cyc.cutTick.toNat < x.1.toNat))
     (64 < left.length → t.pair.nFailed = s.pair.nFailed.inc ∧ t.pair.cReason = 4) ∧
     (∀ x rest, left = x :: rest → left.length ≤ 64 → t.cyc.cutTick = x.1) ∧
     (left = [] → metLive s = true → t.pair.phase = 5) ∧ (left = [] → metLive s = false → t = s))) ∧
  (∀ (w : W64) (s : State), s.ctl.mode = .catchup → s.pair.cRetryAt = some w → 160000000000 ≤ (s.time.raw - w).toNat →
    ∃ t, exec .catchupRetryTimer s = .next t ∧ t.pair.cStart = some s.time.raw ∧ (t.pair.phase = 1 ∨ t.pair.phase = 2) ∧
      t.ctl.mode = .catchup) ∧
  (∀ (w : W64) (s : State), s.ctl.mode = .twin → s.pair.cMismatch = true → s.pair.twinSince = some w →
    960000000000 ≤ (s.time.raw - w).toNat → exec .twinStableTimer s = .next { s with
      pair := { s.pair with cFails := 0, cMismatch := false } })

/-- Publications and GOOSE messages received, and forgotten. For a package whose slots have distinct numbers: a herd publication reaches the
slots that name its pair and publication. There it is held when it fits and its CYCLE is newer, counted as old when it fits and is not
newer, and counted as discarded when it does not fit; the other slots stand. A GOOSE message reaches the slots of its control block
reference in the same way, under its matching, simulation and newness rules. A slot with no frame for 1 s forgets its last accepted
number. Completion: under hypotheses on the state and the operands alone, the clauses conclude that execution answers a next state with
that effect, for publicationReceive, gooseReceive, slotForgetTimer. -/
def Obligations.PublicationsReceived : Prop :=
  (∀ (f : Frame) (n : Nat) (c : SubCfg) (s : State), s.ctl.mode ≠ .cold → (pkgD s [] (·.subs)).Pairwise (fun a b => a.1 ≠ b.1) →
    mget (pkgD s [] (·.subs)) n = some c → ∃ t, exec (.publicationReceive f) s = .next t ∧
      (let y := subSt s n
       let meant := c.kind = 1 ∧ c.pair.toNat = pfPair f.payload ∧ c.pub = pfPub f.payload
       let isNew := match y.last with | none => true | some l => newer (pfCycle f.payload) l
       (¬meant → subSt t n = y) ∧
       (meant → pubFits s f c = false → subSt t n = { y with nDisc := y.nDisc.inc }) ∧
       (meant → pubFits s f c = true → isNew = true → subSt t n = { y with
          held := some f, last := some (pfCycle f.payload), shown := pfCycle f.payload, lastAt := some s.time.raw, nHeld := y.nHeld.inc }) ∧
       (meant → pubFits s f c = true → isNew = false → subSt t n = { y with nOld := y.nOld.inc }))) ∧
  (∀ (g : GooseMsg) (n : Nat) (c : SubCfg) (s : State), s.ctl.mode ≠ .silent → (pkgD s [] (·.subs)).Pairwise (fun a b => a.1 ≠ b.1) →
    mget (pkgD s [] (·.subs)) n = some c → ∃ t, exec (.gooseReceive g) s = .next t ∧
      (let y := subSt s n
       let meant := c.kind = 2 ∧ c.gocbRef = g.gocbRef
       let fits := g.dst == c.dst && g.appid == c.appid && g.datSet == c.datSet && g.confRev == c.confRev &&
         (if g.sim then inTest s else !(inTest s && y.simulated))
       let isNew := match y.last with | none => true | some l => gooseNewer g.stNum g.sqNum l y.lastSq
       (¬meant → subSt t n = y) ∧
       (meant → fits = false → subSt t n = { y with nDisc := y.nDisc.inc }) ∧
       (meant → fits = true → isNew = true → subSt t n = { y with
          simulated := y.simulated || g.sim, heldG := some g, last := some g.stNum, shown := g.stNum, lastSq := g.sqNum, lastAt := some s.time.raw, nHeld := y.nHeld.inc }) ∧
       (meant → fits = true → isNew = false → subSt t n = { y with simulated := y.simulated || g.sim, nOld := y.nOld.inc }))) ∧
  (∀ (n : Nat) (w : W64) (s : State), s.ctl.mode ≠ .cold → (subSt s n).lastAt = some w → 16000000000 ≤ (s.time.raw - w).toNat →
    exec (.slotForgetTimer n) s = .next (modSub s n (fun x => { x with last := none })))

/-- Ring and station frames, ports and addresses. In a mode other than COLD: a tagged frame that arrives on a ring port, sourced by neither
this module nor known in its direction and not addressed to it, leaves on the other ring port when that is up, and is noted for its
direction; one that its direction's record holds is not forwarded. A ring frame with a bad FCS is only counted, and so is one, on a ring
port, a station port or port H, that the internal frame paths find broken by its parity. A station frame is never forwarded; outside
BOOTWAIT, on port H a frame that is not of the boot protocol is discarded and counted. Records forget what is older than 400 ms. The
supervision frame goes out every 2 s under the next module number. A GOOSE retransmission due at a tick that has been released goes out
under the next sqNum of the same stNum, with the words of the last message. A port that loses lock is down; a station port or port H
that locks is up; a ring port locks at the medium it runs or tries alone: while the medium is being sought and the other has no lock its
link stays as it was, once a medium is held it is up at it, two that lock at the same medium are both up and hold it, and two locked at
different media are both down. Medium detection tries the next medium after 200 ms while a port has no lock, and starts again, with no
lock held, 1 s after a mismatch. ARP and ICMP requests for the module's own address are answered on the port they came in by; others
have no effect. Completion: under hypotheses on the state and the operands alone, the clauses conclude that execution answers a next
state with that effect, for ringFrameArrival, stationFrameArrival, separatorEntryExpire, supervisionSendTimer, gooseRetransmit,
ringLinkChange, ringMediumDetectTimer, arpRequest, icmpEcho. -/
def Obligations.FramesPortsAndAddresses : Prop :=
  (∀ (b : Bool) (f : Frame) (q : W16) (s : State), s.ctl.mode ≠ .cold → f.fcsOk = true → f.hsr = some q → f.src ≠ moduleMac s →
    f.dst ≠ moduleMac s → ∃ t, exec (.ringFrameArrival b f false) s = .next t ∧
      (sepHas s (if b then s.net.acw else s.net.cw) f.src q = false → (portOf s (if b then .p0 else .p1)).link = true →
        t.out = s.out ++ [.forwarded (if b then .p0 else .p1) f] ∧ sepHas t (if b then t.net.acw else t.net.cw) f.src q = true) ∧
      (sepHas s (if b then s.net.acw else s.net.cw) f.src q = true → t.out = s.out)) ∧
  (∀ (b x : Bool) (f : Frame) (s : State), s.ctl.mode ≠ .cold → f.fcsOk = false → s.net.ports.length = 5 → ∃ t, exec (.ringFrameArrival b f x) s = .next t ∧
    (portOf t (if b then .p1 else .p0)).fcs = (portOf s (if b then .p1 else .p0)).fcs.inc ∧ t.out = s.out ∧ t.net.cw = s.net.cw ∧ t.net.acw = s.net.acw ∧ t.net.rxRec = s.net.rxRec) ∧
  (∀ (b : Bool) (f : Frame) (s : State), s.ctl.mode ≠ .cold → f.fcsOk = true → ∃ t, exec (.ringFrameArrival b f true) s = .next t ∧
    t.out = s.out ∧ t.integ.parity = s.integ.parity.inc ∧ t.net.cw = s.net.cw ∧ t.net.acw = s.net.acw ∧ t.net.rxRec = s.net.rxRec) ∧
  (∀ (p : Port) (f : Frame) (s : State), s.ctl.mode ≠ .cold → p.ring = false → f.fcsOk = true →
    ∃ t, exec (.stationFrameArrival p f true) s = .next t ∧ t.out = s.out ∧ t.integ.parity = s.integ.parity.inc ∧
      t.net.rxRec = s.net.rxRec ∧ t.net.cw = s.net.cw ∧ t.net.acw = s.net.acw) ∧
  (∀ (f : Frame) (s : State), s.ctl.mode ≠ .cold → s.ctl.mode ≠ .bootwait → f.fcsOk = true → f.etype ≠ 0x88B6 → s.net.ports.length = 5 →
    ∃ t, exec (.stationFrameArrival .h f) s = .next t ∧ t.out = s.out ∧ (portOf t .h).disc = (portOf s .h).disc.inc) ∧
  (∀ (p : Port) (f : Frame) (q : W16) (l : Nat) (s : State), s.ctl.mode ≠ .cold → (p = .s0 ∨ p = .s1) → f.fcsOk = true → f.rct = some (q, l) →
    f.src ≠ moduleMac s → f.src ≠ pairMac s → isPairMac f.dst = false → ∃ t, exec (.stationFrameArrival p f) s = .next t ∧ t.out = s.out ∧
      (sepHas s s.net.rxRec f.src q = true → t.net.dups = s.net.dups.inc ∧ t.net.rxRec = s.net.rxRec) ∧
      (sepHas s s.net.rxRec f.src q = false → t.net.rxRec = ⟨f.src, q, s.time.raw⟩ :: sepLive s s.net.rxRec ∧ t.net.dups = s.net.dups) ∧
      t.net.wrongLan = (if l = (if p = .s1 then 0xB else 0xA) then s.net.wrongLan else s.net.wrongLan.inc)) ∧
  (∀ s : State, exec .separatorEntryExpire s = .next { s with net := { s.net with
    cw := s.net.cw.filter (fun e => decide ((s.time.raw - e.atRaw).toNat < 6400000000)),
    acw := s.net.acw.filter (fun e => decide ((s.time.raw - e.atRaw).toNat < 6400000000)),
    rxRec := s.net.rxRec.filter (fun e => decide ((s.time.raw - e.atRaw).toNat < 6400000000)) } }) ∧
  (∀ s : State, ownTraffic s = true → (s.net.supAt = none ∨ ∃ w, s.net.supAt = some w ∧ 32000000000 ≤ (s.time.raw - w).toNat) →
    ∃ t, exec .supervisionSendTimer s = .next t ∧ t.net.supAt = some s.time.raw ∧ t.net.modSeq = s.net.modSeq + 1 ∧
      t.out = (sourceFrame s false true false 0x01154E000100 none 0x88FB (supervisionPayload s)).out) ∧
  (∀ (n : Nat) (c : PubCfg) (k : W64) (s : State), (pkgD s [] (·.pubs)).Pairwise (fun a b => a.1 ≠ b.1) →
    mget (pkgD s [] (·.pubs)) n = some c → c.kind = 2 → s.ctl.mode.run = true → s.cyc.released = true →
    (pubSt s n).nextAt = some k → k.toNat ≤ s.cyc.lastRelease.toNat → ∃ t, exec (.gooseRetransmit n) s = .next t ∧
      (pubSt t n).stNum = (pubSt s n).stNum ∧ (pubSt t n).sqNum = (pubSt s n).sqNum + 1 ∧ (pubSt t n).sent = (pubSt s n).sent.inc ∧
      (pubSt t n).words = (pubSt s n).words ∧ s.out.length < t.out.length) ∧
  (∀ (p : Port) (m : Nat) (s : State), s.ctl.mode ≠ .cold → s.net.ports.length = 5 →
    (∃ t, exec (.ringLinkChange p false m) s = .next t ∧ (portOf t p).link = false ∧ (portOf t p).locked = none) ∧
    (p.ring = false → ∃ t, exec (.ringLinkChange p true m) s = .next t ∧ (portOf t p).link = true ∧ (portOf t p).locked = some m) ∧
    (p.ring = true → m ≠ ringMedium s p → exec (.ringLinkChange p true m) s = .next s) ∧
    (p.ring = true → m = ringMedium s p → (portOf s (if p = .p0 then .p1 else .p0)).locked = none →
      ∃ t, exec (.ringLinkChange p true m) s = .next t ∧ (portOf t p).locked = some m ∧
        (s.net.heldMedium = none → (portOf t p).link = (portOf s p).link) ∧
        (s.net.heldMedium ≠ none → (portOf t p).link = true ∧ (portOf t p).medium = m)) ∧
    (p.ring = true → m = ringMedium s p → (portOf s (if p = .p0 then .p1 else .p0)).locked = some m →
      ∃ t, exec (.ringLinkChange p true m) s = .next t ∧ (portOf t .p0).link = true ∧ (portOf t .p1).link = true ∧
        (portOf t p).medium = m ∧ t.net.heldMedium = some m) ∧
    (∀ k, p.ring = true → m = ringMedium s p → (portOf s (if p = .p0 then .p1 else .p0)).locked = some k → k ≠ m →
      ∃ t, exec (.ringLinkChange p true m) s = .next t ∧ (portOf t .p0).link = false ∧ (portOf t .p1).link = false ∧
        t.net.mismatchAt = some s.time.raw)) ∧
  (∀ (w : W64) (s : State), s.ctl.mode ≠ .cold → s.net.ports.length = 5 → s.net.mismatchAt = some w →
    16000000000 ≤ (s.time.raw - w).toNat → ∃ t, exec .ringMediumDetectTimer s = .next t ∧ t.net.mismatchAt = none ∧
      t.net.trying = 3 ∧ t.net.detectAt = some s.time.raw ∧ (portOf t .p0).locked = none ∧ (portOf t .p1).locked = none) ∧
  (∀ (w : W64) (s : State), s.ctl.mode ≠ .cold → s.net.mismatchAt = none → s.net.heldMedium = none →
    ((portOf s .p0).locked = none ∨ (portOf s .p1).locked = none) →
    s.net.detectAt = some w → 3200000000 ≤ (s.time.raw - w).toNat → exec .ringMediumDetectTimer s = .next { s with
      net := { s.net with trying := nextMedium s.net.trying, detectAt := some s.time.raw } }) ∧
  (∀ (p : Port) (m : W48) (i a : W32) (s : State), ∃ t, exec (.arpRequest p m i a) s = .next t ∧
    (ipOn s p = some a → t.out = s.out ++ [.arpReply p (ownFrame s p 28).1 a m]) ∧ (ipOn s p ≠ some a → t = s)) ∧
  (∀ (p : Port) (a : W32) (i q : W16) (d : Bytes) (s : State), ∃ t, exec (.icmpEcho p a i q d) s = .next t ∧
    (ipOn s p = some a → t.out = s.out ++ [.icmpReply p (ownFrame s p (28 + d.length)).1 i q d]) ∧ (ipOn s p ≠ some a → t = s))

/-- CAN: reception, pails, errors and recovery. A frame received by a controller that takes part in the bus, not under the request
identifier, enters a pail under the first filter that matches it, is lost and counted when 64 pails are owned, and is discarded when no
filter matches. CAN_RXACK of the core pair that owns the controller, which runs and which both checks let pass, as for the other
register accesses here, releases the oldest pail. A bus error changes the error counters and is the last error; CAN_LASTERR_READ answers
it and clears what hardware does not set in the same clock. The recovery clears both counters and makes the controller error active.
CAN_RECOVER starts the recovery from bus-off. Completion: under hypotheses on the state and the operands alone, the clauses conclude
that execution answers a next state with that effect, for canFrameReceive, canRxack, canBusError, canLasterrRead, canRecoveryDone,
canRecover. -/
def Obligations.CanReceptionAndErrors : Prop :=
  (∀ (n : Nat) (f : CanFrame) (s : State), n < 2 → canLive s n = true → idMatches (canCfg s n).reqId f = false →
    ∃ t, exec (.canFrameReceive n f) s = .next t ∧
      (let c := canOf s n
       let d := canOf t n
       ((List.range 32).find? (filterMatches c f) = none → d.pails = c.pails ∧ d.placed = c.placed ∧ d.lost = c.lost) ∧
       (∀ k, (List.range 32).find? (filterMatches c f) = some k → 64 ≤ c.pails.length → d.pails = c.pails ∧ d.rxovf = true ∧
         d.lost = c.lost.inc) ∧
       (∀ k, (List.range 32).find? (filterMatches c f) = some k → c.pails.length < 64 → d.pails = c.pails ++ [(f, k)] ∧
         d.placed = c.placed.inc ∧ d.lost = c.lost))) ∧
  (∀ (n : Nat) (c : Cp) (s : State), n < 2 → canOwner s n = some c →
    mayAccess s c.master (0x40040000 + 0x1000 * n + 0x24) kWrite = true → exec (.canRxack n) s = .next (modCan s n (fun c => { c with
    pails := c.pails.drop 1 }))) ∧
  (∀ (n : Nat) (e : CanErr) (s : State), n < 2 → canLive s n = true → ∃ t, exec (.canBusError n e) s = .next t ∧
    (canOf t n).errCode = e.code ∧ (canOf t n).errData = e.data ∧ (canOf t n).tec = ((canOf s n).error e).tec ∧
    (canOf t n).rxErr = ((canOf s n).error e).rxErr ∧ (canOf t n).pails = (canOf s n).pails) ∧
  (∀ (n : Nat) (c : Cp) (held : W32) (s : State), n < 2 → canOwner s n = some c →
    mayAccess s c.master (0x40040000 + 0x1000 * n + 0x18) kRead = true → ∃ t, exec (.canLasterrRead n held) s = .next t ∧
    t.out = s.out ++ [.regRead (BitVec.ofNat 32 ((canOf s n).errCode.toNat + 8 * b2n (canOf s n).errData))] ∧
    (canOf t n).errCode = (canOf s n).errCode &&& held.truncate 3 ∧ (canOf t n).errData = ((canOf s n).errData && held.getLsbD 3)) ∧
  (∀ (n : Nat) (s : State), n < 2 → s.ctl.mode ≠ .silent → (canOf s n).state = 3 → (canOf s n).sleep = false →
    ∃ t, exec (.canRecoveryDone n) s = .next t ∧ (canOf t n).state = 0 ∧ (canOf t n).tec = 0 ∧ (canOf t n).rxErr = 0) ∧
  (∀ (n : Nat) (c : Cp) (s : State), n < 2 → canOwner s n = some c →
    mayAccess s c.master (0x40040000 + 0x1000 * n) kWrite = true → (canOf s n).state = 2 → ∃ t, exec (.canRecover n) s = .next t ∧
    (canOf t n).state = 3 ∧ (canOf t n).tec = (canOf s n).tec)

/-- Entry to bus-off aborts the dictionary transfers and counts each. A bus error that takes a controller to bus-off leaves it with no
dictionary transfer in either direction, and raises the count of 0x1010:08 by one for each that was under way. Completion: under
hypotheses on the state and the operands alone, the clauses conclude that execution answers a next state with that effect, for
canBusError. -/
def Obligations.BusOffAbortsTransfers : Prop :=
  ∀ (n : Nat) (e : CanErr) (s : State), n < 2 → canLive s n = true → errState ((canOf s n).error e) = 2 →
    ∃ t, exec (.canBusError n e) s = .next t ∧ (canOf t n).rx = none ∧ (canOf t n).tx = none ∧ (canOf t n).tpq = [] ∧
      t.dict.canAborts = (match (canOf s n).rx.isSome, (canOf s n).tx.isSome with
        | true, true => s.dict.canAborts.inc.inc
        | true, false | false, true => s.dict.canAborts.inc
        | false, false => s.dict.canAborts)

/-- CAN: submission, completion, cancellation, sleep and wake. A write to a register is one of the core pair that owns the controller, which
runs and which both checks let pass. CAN_TXSUBMIT copies the staged frame into the slot under the next submission number, or sets SUBERR
where it is refused. CAN_TX_COMPLETE of the frame on the bus sends and counts it, and outside slot 29, which goes on with its transfer,
frees its slot and sets its TXDONE bit. CAN_TXCANCEL frees each pending slot named, but only marks one that is on the bus. CAN_SLEEP on
an idle bus sleeps at once, and in the clock in which the controller woke it is asleep again with WAKE as it was. A wake by command or
by the bus clears the sleep, sets WAKE and counts. Completion: under hypotheses on the state and the operands alone, the clauses
conclude that execution answers a next state with that effect, for canTxsubmit, canTxComplete, canTxcancel, canSleep, canWakeCommand,
canWake. -/
def Obligations.CanTransmission : Prop :=
  (∀ (n : Nat) (c : Cp) (v : W32) (s : State), n < 2 → canOwner s n = some c →
    mayAccess s c.master (0x40040000 + 0x1000 * n + 0x34) kWrite = true → ∃ t, exec (.canTxsubmit n v) s = .next t ∧
    (submitRefused s n (v.toNat % 32) = true → t = modCan s n (fun c => { c with suberr := true })) ∧
    (submitRefused s n (v.toNat % 32) = false → mget (canOf t n).slots (v.toNat % 32) = some ⟨stagedFrame (canOf s n), (canOf s n).order⟩ ∧
      (canOf t n).order = (canOf s n).order + 1 ∧ (canOf t n).suberr = (canOf s n).suberr)) ∧
  (∀ (n k : Nat) (x : Slot) (s : State), n < 2 → s.ctl.mode ≠ .silent → (canOf s n).onBus = some k → mget (canOf s n).slots k = some x →
    k ≠ 29 → ∃ t, exec (.canTxComplete n) s = .next t ∧ t.out = s.out ++ [.can n x.frame] ∧ mget (canOf t n).slots k = none ∧
      (canOf t n).txdone = setBit (canOf s n).txdone k true ∧ (canOf t n).sent = (canOf s n).sent.inc) ∧
  (∀ (n k : Nat) (x : Slot) (s : State), n < 2 → s.ctl.mode ≠ .silent → (canOf s n).onBus = some k → mget (canOf s n).slots k = some x →
    ∃ t, exec (.canTxComplete n) s = .next t ∧ t.out = s.out ++ [.can n x.frame] ∧ (canOf t n).sent = (canOf s n).sent.inc) ∧
  (∀ (n : Nat) (c : Cp) (v : W32) (s : State), n < 2 → canOwner s n = some c →
    mayAccess s c.master (0x40040000 + 0x1000 * n + 0x38) kWrite = true → ∃ t, exec (.canTxcancel n v) s = .next t ∧
    (canOf t n).onBus = (canOf s n).onBus ∧ ∀ k, k < 32 → v.getLsbD k = true → (mget (canOf s n).slots k).isSome = true →
      ((canOf s n).onBus = some k → (canOf t n).cancel.getLsbD k = true ∧ (mget (canOf t n).slots k).isSome = true) ∧
      ((canOf s n).onBus ≠ some k → mget (canOf t n).slots k = none)) ∧
  (∀ (n : Nat) (c : Cp) (s : State), n < 2 → canOwner s n = some c →
    mayAccess s c.master (0x40040000 + 0x1000 * n) kWrite = true → ∃ t, exec (.canSleep n) s = .next t ∧ (canOf t n).sleep = true ∧
    (canOf t n).wake = (canOf s n).wake ∧
    ((canOf s n).onBus = none → (canOf s n).state ≠ 5 → (canOf t n).state = 4) ∧
    ((canOf s n).onBus ≠ none → (canOf s n).wokeAt ≠ some s.time.raw → (canOf t n).state = (canOf s n).state) ∧
    ((canOf s n).wokeAt = some s.time.raw → (canOf s n).state ≠ 5 → (canOf t n).state = 4 ∧ (canOf t n).onBus = none)) ∧
  (∀ (n : Nat) (c : Cp) (s : State), n < 2 → canOwner s n = some c →
    mayAccess s c.master (0x40040000 + 0x1000 * n) kWrite = true → ∃ t, exec (.canWakeCommand n) s = .next t ∧ (canOf t n).sleep = false ∧
    ((canOf s n).state = 4 → (canOf t n).wake = true ∧ (canOf t n).wakes = (canOf s n).wakes.inc ∧ (canOf t n).state ≠ 4) ∧
    ((canOf s n).state ≠ 4 → (canOf t n).wakes = (canOf s n).wakes ∧ (canOf t n).state = (canOf s n).state)) ∧
  (∀ (n : Nat) (w : CanWakeCause) (s : State), n < 2 → s.ctl.mode ≠ .silent → (canOf s n).state = 4 → wakes (canCfg s n) w = true →
    ∃ t, exec (.canWake n w) s = .next t ∧ (canOf t n).sleep = false ∧ (canOf t n).wake = true ∧
      (canOf t n).wakes = (canOf s n).wakes.inc)

/-- The Bells. BELL_SEND_TIMER sends the herd Bell every second, counts it and notes its flags. CAN_BELL_SEND at its multiple, where the
controller has a Bell identifier, puts a CAN Bell of 8 bytes into slot 31, and the next one is due at the next multiple; with none
nothing is sent. A Bell with this module's herd address and another MAC is an address conflict, raised in a run mode and noted for the
next start in another; any other Bell changes nothing. Completion: under hypotheses on the state and the operands alone, the clauses
conclude that execution answers a next state with that effect, for bellSendTimer, canBellSend, bellReceive. -/
def Obligations.Bells : Prop :=
  (∀ s : State, s.ctl.mode.canOn = true → (s.bell.lastAt = none ∨ ∃ w, s.bell.lastAt = some w ∧ 16000000000 ≤ (s.time.raw - w).toNat) →
    ∃ t, exec .bellSendTimer s = .next t ∧ t.bell.count = s.bell.count + 1 ∧ t.bell.lastAt = some s.time.raw ∧
      t.bell.flags = bellFlags s ∧ t.net.modSeq = s.net.modSeq + 1 ∧
      t.out = (sourceFrame s false true true 0x03ED7240FFFF none (pkgD s 0x88B5 (·.etype)) (bellPayload s)).out) ∧
  (∀ (n : Nat) (w : W64) (s : State), n < 2 → s.bell.firstAt = some w → setting s (0x1501 + n) 8 0 = 1 → s.ctl.mode.canOn = true →
    (canOf s n).state ≠ 4 → (canOf s n).state ≠ 5 →
    (canOf s n).bellK * (16000000 * setting s (0x1501 + n) 0x0A 1000) ≤ (s.time.raw - w).toNat → (canCfg s n).bellId ≠ 0xFFFFFFFF →
    ∃ t, exec (.canBellSend n) s = .next t ∧ (mget (canOf t n).slots 31).map (fun x => (x.frame.id, x.frame.ide, x.frame.dlc, x.frame.data)) =
      some ((canCfg s n).bellId &&& 0x1FFFFFFF, true, 8, beBytes 2 (herdAddr s).toNat ++ [s.bell.mode, s.bell.flags] ++
        beBytes 4 (s.bell.count - 1).toNat) ∧
      (canOf t n).bellK = (s.time.raw - w).toNat / (16000000 * setting s (0x1501 + n) 0x0A 1000) + 1) ∧
  (∀ (n : Nat) (s : State), (canCfg s n).bellId = 0xFFFFFFFF → exec (.canBellSend n) s = .next s) ∧
  (∀ (a : W16) (m : W48) (s : State), s.ctl.mode ≠ .silent → a = herdAddr s → m ≠ moduleMac s → (pkgOf s).isSome = true →
    ∃ t, exec (.bellReceive a m) s = .next t ∧ (s.ctl.mode.run = true → t.integ.conflict = true ∧ t.ctl = s.ctl) ∧
      (s.ctl.mode.run = false → t.integ.conflict = s.integ.conflict ∧ t.ctl.conflictSeen = true)) ∧
  (∀ (a : W16) (m : W48) (s : State), (a ≠ herdAddr s ∨ m = moduleMac s ∨ (pkgOf s).isSome = false) → exec (.bellReceive a m) s = .next s)

/-- A RATE write re-anchors TIME. The command stands for the AON tick at which the write takes effect (log entry 78): at it BASE takes TIME,
ANCHOR takes RAW and RATE the new value, TIME reads the same before and after, and nothing else changes. Completion: under hypotheses on
the state and the operands alone, the clauses conclude that execution answers a next state with that effect, for rateWrite. -/
def Obligations.RateWritesReanchor : Prop :=
  ∀ (v : W32) (s : State), s.ctl.mode ≠ .silent → ∃ t, exec (.rateWrite v) s = .next t ∧
    t = { s with time := { s.time with base := BitVec.ofNat 80 (timeNow s), anchor := s.time.raw, rate := v } } ∧ timeNow t = timeNow s

/-- PTP: Sync, Follow_Up, Announce and the timeouts. A Sync of the selected grandmaster is noted with its interval and port. A Follow_Up of
the pending two-step Sync completes it: its offset is shown and the time of the latest Sync noted; any other changes nothing. Each acts
where the management cores run. An Announce of the configured domain becomes the record of its port and source. With no Announce of the
grandmaster for three intervals only the live records stay. Sync loss drops the history and takes LOCKED to HOLDOVER and SLEWING to
FREERUN, and the holdover limit HOLDOVER to FREERUN. Completion: under hypotheses on the state and the operands alone, the clauses
conclude that execution answers a next state with that effect, for ptpSyncReceive, ptpFollowUpReceive, ptpAnnounceReceive,
announceReceiptTimeout, syncLossTimer, holdoverLimitExpire. -/
def Obligations.SyncAndFollowUp : Prop :=
  (∀ (m : PtpSync) (s : State), m.domain = pkgD s 0 (·.ptpDomain) → m.port < 4 → s.time.gm = some m.gm → ptpRuns s = true →
    ∃ t, exec (.ptpSyncReceive m) s = .next t ∧ t.time.syncInterval = 16 * m.interval ∧ mget t.time.portSync m.port = some s.time.raw) ∧
  (∀ (m : PtpSync) (a : W80) (q : W16) (o : Nat) (k : Int) (s : State), s.time.twoStep = some m → m.srcPort = a → m.seq = q →
    ptpRuns s = true → ∃ t, exec (.ptpFollowUpReceive a q o k) s = .next t ∧ t.time.twoStep = none ∧ t.time.lastSync = some s.time.raw ∧
      t.time.lastOffset = sat32 (((stampTime s m.ingress : Int) - (16 * (o : Int) + (m.correction + k) / 4096 + peerDelay s m.port)) / 16)) ∧
  (∀ (m : PtpSync) (a : W80) (q : W16) (o : Nat) (k : Int) (s : State), s.time.twoStep = some m → (m.srcPort ≠ a ∨ m.seq ≠ q) →
    exec (.ptpFollowUpReceive a q o k) s = .next s) ∧
  (∀ (m : PtpAnnounce) (s : State), m.domain = pkgD s 0 (·.ptpDomain) → m.port < 4 → ptpRuns s = true →
    ∃ t, exec (.ptpAnnounceReceive m) s = .next t ∧ t.time.masters = s.time.masters.filter (fun x =>
      !(x.ann.srcPort == m.srcPort && x.ann.port == m.port)) ++ [⟨m, s.time.raw⟩]) ∧
  (∀ (g : W64) (s : State), ptpRuns s = true → s.time.gm = some g → s.time.masters.any (fun x =>
      decide ((s.time.raw - x.atRaw).toNat < 48 * x.ann.intervalNs) && x.ann.gm == g) = false →
    ∃ t, exec .announceReceiptTimeout s = .next t ∧ t.time.masters = s.time.masters.filter (fun x =>
      decide ((s.time.raw - x.atRaw).toNat < 48 * x.ann.intervalNs)) ∧ t.time.gm ≠ some g) ∧
  (∀ (w : W64) (s : State), ptpRuns s = true → s.time.lastSync = some w → 3 * s.time.syncInterval ≤ (s.time.raw - w).toNat →
    ∃ t, exec .syncLossTimer s = .next t ∧ t.time.syncs = [] ∧ t.time.sinceChange = 0 ∧ t.time.twoStep = none ∧ t.time.own = (match s.time.own with | .locked => .holdover | .slewing => .freerun | o => o)) ∧
  (∀ (w : W64) (s : State), ptpRuns s = true → s.time.own = .holdover → s.time.holdAt = some w →
    16000000000 * (if s.time.onRef then 1000 else 10) ≤ (s.time.raw - w).toNat →
    ∃ t, exec .holdoverLimitExpire s = .next t ∧ t.time.own = .freerun)

/-- PTP: peer delay and the transparent clock. A Pdelay_Req on a port that is up, with no frame broken, is answered with the turnaround in
its correction; where the frame is broken nothing leaves and the break is counted. The answer to the request in flight enters the last
eight measurements. The timer, with no frame broken on any port, sends a request on each port that is up and has none of the last
second, with the stamp of its egress. A message from one ring port leaves once on the other with its residence and the ingress delay
added; one seen in its direction is discarded and counted. Records forget what is over. Completion: under hypotheses on the state and
the operands alone, the clauses conclude that execution answers a next state with that effect, for pdelayReqReceive, pdelayRespReceive,
pdelayReqTimer, ptpTcForward, ptpTcEntryExpire. -/
def Obligations.PeerDelayAndTransparentClock : Prop :=
  (∀ (p : Nat) (q : W16) (k : Int) (i e : W64) (s : State), ownTraffic s = true → ptpUp s p = true →
    (s.net.ports.getD p PortSt.reset).broken = false → ∃ t, exec (.pdelayReqReceive p q k i e) s = .next t ∧ t.time = s.time ∧
      t.out = s.out ++ [.ptp (moduleMac s) p ptpPdelayResp q (k + 4096 * ((quarter e - quarter i).toNat : Int))]) ∧
  (∀ (p : Nat) (q : W16) (k : Int) (i e : W64) (s : State), ownTraffic s = true → ptpUp s p = true →
    (s.net.ports.getD p PortSt.reset).broken = true → ∃ t, exec (.pdelayReqReceive p q k i e) s = .next t ∧ t.out = s.out ∧
      t.integ.parity = s.integ.parity.inc ∧ (t.net.ports.getD p PortSt.reset).broken = false) ∧
  (∀ (p : Nat) (q : W16) (i w : W64) (k : Int) (s : State), p < 4 → p < s.time.pdelay.length → (s.time.pdelay.getD p Pdelay.reset).sentAt = some w →
    (s.time.pdelay.getD p Pdelay.reset).seq = q → (s.time.pdelay.getD p Pdelay.reset).answered = false →
    ∃ t, exec (.pdelayRespReceive p q i k) s = .next t ∧ t.time.pdelay.getD p Pdelay.reset = { s.time.pdelay.getD p Pdelay.reset with
      answered := true, hist := lastN 8 ((s.time.pdelay.getD p Pdelay.reset).hist ++ [(((quarter i - w).toNat : Int) - k / 4096) / 2]) }) ∧
  (∀ (l : List W64) (s : State), ownTraffic s = true → s.time.pdelay.length = 4 → s.net.ports.all (fun x => !x.broken) = true →
    ∃ t, exec (.pdelayReqTimer l) s = .next t ∧ ∀ p, p < 4 →
    ((ptpUp s p = true ∧ ((s.time.pdelay.getD p Pdelay.reset).askedAt = none ∨
        past s (s.time.pdelay.getD p Pdelay.reset).askedAt 16000000000 = true)) → t.time.pdelay.getD p Pdelay.reset =
      { s.time.pdelay.getD p Pdelay.reset with
        seq := (s.time.pdelay.getD p Pdelay.reset).seq + 1, askedAt := some s.time.raw,
        sentAt := some (stampAt s (l.getD p s.time.raw)), answered := false } ∧
      Out.ptp (moduleMac s) p ptpPdelayReq ((s.time.pdelay.getD p Pdelay.reset).seq + 1) 0 ∈ t.out) ∧
    (ptpUp s p = false → t.time.pdelay.getD p Pdelay.reset = s.time.pdelay.getD p Pdelay.reset)) ∧
  (∀ (m : PtpFwd) (s : State), s.ctl.mode ≠ .cold → m.kind = ptpSync → tcSeen s (!m.fromP1) m.srcPort m.kind m.seq = false →
    (portOf s (if m.fromP1 then .p0 else .p1)).link = true → ∃ t, exec (.ptpTcForward m) s = .next t ∧
      t.time.forwarded = s.time.forwarded.inc ∧ t.out = s.out ++ [.ptpForward (moduleMac s) (!m.fromP1) m.kind m.srcPort m.seq
        (if m.twoStep then m.correction else m.correction + 4096 * (((stampTime s (quarter m.egress) : Int) -
          (stampTime s (quarter m.ingress) : Int)) +
          peerDelay s (if m.fromP1 then 1 else 0)))]) ∧
  (∀ (m : PtpFwd) (s : State), s.ctl.mode ≠ .cold → m.kind = ptpSync → tcSeen s (!m.fromP1) m.srcPort m.kind m.seq = true →
    exec (.ptpTcForward m) s = .next { s with time := { s.time with discarded := s.time.discarded.inc } }) ∧
  (∀ s : State, exec .ptpTcEntryExpire s = .next { s with time := { s.time with tcs := s.time.tcs.filter (fun e =>
    decide ((s.time.raw - e.atRaw).toNat < 6400000000) || (e.awaits && decide ((s.time.raw - e.atRaw).toNat ≤ 16000000000))) } })

/-- REF_IN, PPS_IN, PPS_OUT, the alarm, latches and the forerunner. A measurement of REF_IN is kept; one within 5 ppm qualifies it, and one
outside, or a missing edge, ends the qualification. An edge on PPS_IN captures the TIME of its interpolated stamp. A whole second of
TIME, once for each, raises PPS_OUT where it is driven, and it falls 100 ms later. The alarm is armed and disarmed by command, and once
TIME has reached it fires: disarmed, FIRED set. A read of the lowest register of a group by a master that runs and that both checks let
pass latches the whole group and answers it. A write of TIME_FR1 loads the forerunner count and clears its fraction. Completion: under
hypotheses on the state and the operands alone, the clauses conclude that execution answers a next state with that effect, for
refInQualify, refInLoss, ppsInEdge, wholeSecond, ppsOutFall, timeAlarmFire, timeAlarmArm, timeAlarmDisarm, timeGroupLatchRead,
forerunnerLoad. -/
def Obligations.ReferenceAndPulses : Prop :=
  (∀ (d : Int) (s : State), ∃ t, exec (.refInQualify d) s = .next t ∧
    t.time.refQ = decide (-5497558 ≤ d ∧ d ≤ 5497558) ∧ t.time.refDiff = d) ∧
  (∀ s : State, ∃ t, exec .refInLoss s = .next t ∧ t.time.refQ = false ∧
    t.time.refLosses = (if s.time.refQ then s.time.refLosses.inc else s.time.refLosses)) ∧
  (∀ (r : W64) (s : State), ∃ t, exec (.ppsInEdge r) s = .next t ∧ t.time = { s.time with
    ppsCap := BitVec.ofNat 80 (stampTime s (stampAt s r)), ppsAt := some s.time.raw,
    ppsOffset := BitVec.ofInt 32 (secondOffset (stampTime s (stampAt s r))) }) ∧
  (∀ s : State, s.time.secDone < timeNow s / 16000000000 → ∃ t, exec .wholeSecond s = .next t ∧ t.time = (if ppsDriven s then { s.time with
    secDone := timeNow s / 16000000000, ppsOut := true, ppsRoseAt := some s.time.raw } else { s.time with
    secDone := timeNow s / 16000000000 })) ∧
  (∀ s : State, timeNow s / 16000000000 ≤ s.time.secDone → exec .wholeSecond s = .next s) ∧
  (∀ (w : W64) (s : State), s.time.ppsOut = true → s.time.ppsRoseAt = some w → 1600000000 ≤ (s.time.raw - w).toNat →
    exec .ppsOutFall s = .next { s with time := { s.time with ppsOut := false } }) ∧
  (∀ s : State, alarmDue s = true → ∃ t, exec .timeAlarmFire s = .next t ∧ t.time = { s.time with
    almArm := false, almFired := true }) ∧
  (∀ s : State, s.ctl.mode ≠ .silent → exec .timeAlarmArm s = .next { s with time := { s.time with almArm := true } } ∧
    exec .timeAlarmDisarm s = .next { s with time := { s.time with almArm := false } }) ∧
  (∀ (m : Master) (s : State), (mayAccess s m 0x40030010 kRead = true → exec (.timeGroupLatchRead 0x10 m) s = .next { s with
      time := { s.time with latNow := BitVec.ofNat 80 (timeNow s) }, out := s.out ++ [.regRead (BitVec.ofNat 32 (timeNow s))] }) ∧
    (mayAccess s m 0x40030030 kRead = true → exec (.timeGroupLatchRead 0x30 m) s = .next { s with
      time := { s.time with latRaw := s.time.raw }, out := s.out ++ [.regRead (s.time.raw.truncate 32)] }) ∧
    (mayAccess s m 0x40030070 kRead = true → exec (.timeGroupLatchRead 0x70 m) s = .next { s with
      time := { s.time with latPps := s.time.ppsCap }, out := s.out ++ [.regRead (s.time.ppsCap.truncate 32)] }) ∧
    (mayAccess s m 0x40030094 kRead = true → exec (.timeGroupLatchRead 0x94 m) s = .next { s with
      time := { s.time with latFr := s.time.frCount }, out := s.out ++ [.regRead (s.time.frCount.truncate 32)] })) ∧
  (∀ (v : W32) (s : State), s.ctl.mode ≠ .silent → exec (.forerunnerLoad v) s = .next { s with
    time := { s.time with frCount := v ++ s.time.fr0, frFrac := 0 } })

/-- Sessions open and end. An OPEN with the key of an existing role, while there is room, adds a session under the drawn identifier, not yet
established, with both counters 0; one for a key that is not there adds none. A session not established within 5 s is discarded; an
established one that is silent for 60 s ends; an accepted CLOSE ends its session, and one with a wrong tag only counts. Completion:
under hypotheses on the state and the operands alone, the clauses conclude that execution answers a next state with that effect, for
sessionOpen, sessionSetupTimeout, sessionIdleTimeout, sessionClose. -/
def Obligations.SessionsOpenAndEnd : Prop :=
  (∀ (h : MsgHdr) (body key : Bytes) (s : State), dictServed s h.via = true → h.sid = 0 → body.length = 20 →
    (body.getD 0 0).toNat < 4 → (body.getD 1 0).toNat < 4 →
    roleKey s.boot.roles (body.getD 0 0).toNat (body.getD 1 0).toNat = some key → sessionsFull s h.via = false →
    ∃ t, exec (.sessionOpen h body) s = .next t ∧ (match (drawSid 8 s).1 with
      | none => t.dict.sessions = s.dict.sessions
      | some sid => ∃ k, t.dict.sessions = s.dict.sessions ++
        [⟨sid, (body.getD 0 0).toNat, (body.getD 1 0).toNat, k, h.via, false, s.time.raw, s.time.raw, 0, 0, 0, none, false, [], none⟩])) ∧
  (∀ (h : MsgHdr) (body : Bytes) (s : State), dictServed s h.via = true → h.sid = 0 → body.length = 20 →
    roleKey s.boot.roles (body.getD 0 0).toNat (body.getD 1 0).toNat = none →
    ∃ t, exec (.sessionOpen h body) s = .next t ∧ t.dict.sessions = s.dict.sessions) ∧
  (∀ (sid : W32) (x : Session) (s : State), findSession s sid = some x → x.established = false →
    80000000000 ≤ (s.time.raw - x.openedAt).toNat → exec (.sessionSetupTimeout sid) s = .next { s with
      dict := { s.dict with sessions := s.dict.sessions.filter (fun y => y.sid != sid) } }) ∧
  (∀ (sid : W32) (x : Session) (s : State), findSession s sid = some x → x.established = true →
    960000000000 ≤ (s.time.raw - x.lastAt).toNat → ∃ t, exec (.sessionIdleTimeout sid) s = .next t ∧
      t.dict = { s.dict with sessions := s.dict.sessions.filter (fun y => y.sid != sid) }) ∧
  (∀ (h : MsgHdr) (x : Session) (s : State), dictServed s h.via = true → h.sid ≠ 0 → findSession s h.sid = some x →
    x.rxCtr.toNat < h.ctr.toNat → ∃ t, exec (.sessionClose h) s = .next t ∧ t.dict =
      if h.tag = dictTag x.key (dictHead mtClose 0 h.sid h.ctr h.reqid) then
        { s.dict with sessions := s.dict.sessions.filter (fun y => y.sid != h.sid) }
      else { s.dict with badTag := s.dict.badTag.inc })

/-- READ and WRITE inside a session. A READ of one to 32 items whose tag and counter are good, over the body as it was sent, is answered
once: the session takes the request's counter and sends under its next one, and the answer is kept for a repeat of the request. A piece
of a value with MORE set is collected in the session. A whole value of the RW entry 0x1200:10 of the recipient is stored. With a wrong
tag nothing changes but the count. Completion: under hypotheses on the state and the operands alone, the clauses conclude that execution
answers a next state with that effect, for dictRead, dictWrite. -/
def Obligations.RequestsInASession : Prop :=
  (∀ (h : MsgHdr) (items : List ReadItem) (z : Bytes) (x : Session) (s : State), dictServed s h.via = true → h.sid ≠ 0 →
    findSession s h.sid = some x → x.rxCtr.toNat < h.ctr.toNat → h.ctr ≠ 0xFFFFFFFF → x.txCtr + 1 ≠ 0xFFFFFFFF →
    1 ≤ items.length → items.length ≤ 32 → ∃ t, exec (.dictRead h items z) s = .next t ∧
      if h.tag = dictTag x.key (dictHead mtRead (readBody items z).length h.sid h.ctr h.reqid ++ readBody items z) then
        t.dict.served = s.dict.served.inc ∧ ∃ m, findSession t h.sid = some { x with
          established := true, lastAt := s.time.raw, rxCtr := h.ctr, txCtr := x.txCtr + 1, reqid := h.reqid, stored := some m,
          pending := false }
      else t = { s with dict := { s.dict with badTag := s.dict.badTag.inc } }) ∧
  (∀ (h : MsgHdr) (w : WritePiece) (z : Bytes) (x : Session) (s : State), dictServed s h.via = true → (∀ cp, h.via ≠ .mailbox cp) → h.sid ≠ 0 →
    findSession s h.sid = some x → x.rxCtr.toNat < h.ctr.toNat → h.ctr ≠ 0xFFFFFFFF → x.txCtr + 1 ≠ 0xFFFFFFFF →
    w.data.length + 14 ≤ bodyLimit h.via → w.offset = 0 → w.more = true → isStream w.index w.sub = false →
    ∃ t, exec (.dictWrite h w z) s = .next t ∧
      if h.tag = dictTag x.key (dictHead mtWrite (writeBody w z).length h.sid h.ctr h.reqid ++ writeBody w z) then
        ∃ m, findSession t h.sid = some { x with
          established := true, lastAt := s.time.raw, rxCtr := h.ctr, txCtr := x.txCtr + 1, reqid := h.reqid, stored := some m,
          pending := false, buf := w.data, bufReq := some h.reqid }
      else t = { s with dict := { s.dict with badTag := s.dict.badTag.inc } }) ∧
  (∀ (h : MsgHdr) (w : WritePiece) (z : Bytes) (x : Session) (p : Port) (s : State), dictServed s h.via = true → h.via = .port p → p ≠ .h →
    h.sid ≠ 0 → findSession s h.sid = some x → x.role = 2 → x.rxCtr.toNat < h.ctr.toNat →
    w.offset = 0 → w.more = false → w.index = 0x1200 → w.sub = 0x10 → w.typ = 7 → w.data.length = 2 → beNat w.data ≤ 60000 →
    ∃ t, exec (.dictWrite h w z) s = .next t ∧ mget t.dict.settings (entryKey 0x1200 0x10) =
      if h.tag = dictTag x.key (dictHead mtWrite (writeBody w z).length h.sid h.ctr h.reqid ++ writeBody w z) then some (beNat w.data)
      else mget s.dict.settings (entryKey 0x1200 0x10))

/-- Malformed messages, the service unlock and transfers over CAN. A message outside a session whose body is not its type's is answered by
ERROR with the layout status, or the length status over the limit. The service unlock of a decommissioned module stands once a signature
under an image key that is not revoked has been written. A first frame of at least 8 bytes, whose length a single frame of its size
could not carry, begins a reception; one that gets no further frame for 1,000 ms is given up and counted. Completion: under hypotheses
on the state and the operands alone, the clauses conclude that execution answers a next state with that effect, for dictMalformed,
serviceUnlock, canTpFrame, canTpTimeout. -/
def Obligations.MalformedUnlockAndTransfers : Prop :=
  (∀ (h : MsgHdr) (ty : Nat) (body : Bytes) (p : Port) (s : State), dictServed s h.via = true → h.via = .port p → h.sid = 0 →
    ty = 1 ∨ ty = 0x10 → ∃ t, exec (.dictMalformed h ty body) s = .next t ∧ t.out = s.out ++ [.dict h.via (some (ownFrame s p 52).1)
      (dictHead 0x30 4 0 0 h.reqid ++ (if 1400 < body.length then [0x05, 0x01, 0, 0] else [0x05, 0x02, 0, 0]))] ∧ t.dict = s.dict) ∧
  (∀ (c : Client) (data : Bytes) (p : Port) (s : State), dictServed s c.via = true → c.via = .port p → s.ctl.mode ≠ .bootwait →
    s.ctl.life = .decommissioned → data.length = 7856 → ∃ t, exec (.serviceUnlock c data) s = .next t ∧
      t.dict.unlocked = (s.dict.unlocked || (List.range 4).any (fun k => !s.boot.revoked.getLsbD k &&
        Config.verify128s (Config.imageKey k) (ascii "GB7240 service" ++ s.ident.serial ++ s.dict.nonce) data))) ∧
  (∀ (n : Nat) (f : CanFrame) (s : State), n < 2 → idMatches (canCfg s n).reqId f = true → dictServed s (.can n) = true →
    (f.data.getD 0 0).toNat / 16 = 1 → 8 ≤ f.data.length →
    tpLeast f.data.length ≤ (f.data.getD 0 0).toNat % 16 * 256 + (f.data.getD 1 0).toNat →
    ∃ t, exec (.canTpFrame n f) s = .next t ∧ (canOf t n).rx = some ⟨(f.data.getD 0 0).toNat % 16 * 256 + (f.data.getD 1 0).toNat,
      f.data.drop 2, 1, 0, s.time.raw⟩) ∧
  (∀ (n : Nat) (r : TpRx) (s : State), n < 2 → (canOf s n).rx = some r → (canOf s n).tx = none →
    16000000000 ≤ (s.time.raw - r.atRaw).toNat → ∃ t, exec (.canTpTimeout n) s = .next t ∧ (canOf t n).rx = none ∧
      t.dict = { s.dict with canAborts := s.dict.canAborts.inc })

/-- The mailbox of a core pair. Of a core pair that runs and that both checks let pass: a GO submits a read, whose answer is ready for DONE.
A GO while a request is pending sets GO_LOST. ABORT ends a pending read. DONE writes the answer: result, length, data. A core pair that
runs an NCALL reaches no mailbox: the access is counted, and a read shows 0. Completion: under hypotheses on the state and the operands
alone, the clauses conclude that execution answers a next state with that effect, for dmbGo, dmbAbort, dmbDone, dmbNcallDiscard. -/
def Obligations.MailboxOfACorePair : Prop :=
  (∀ (c : Cp) (s : State), mayAccess s c.master 0x40080000 kWrite = true → (cpOf s c).call = none → (cpOf s c).dmb.busy = false →
    (cpOf s c).dmb.op = 0 → dictServed s (.mailbox c) = true → ∃ t, exec (.dmbGo c) s = .next t ∧ (cpOf t c).dmb.busy = true ∧
      (cpOf t c).dmb.answer.isSome = true) ∧
  (∀ (c : Cp) (s : State), mayAccess s c.master 0x40080000 kWrite = true → (cpOf s c).call = none → (cpOf s c).dmb.busy = true →
    exec (.dmbGo c) s = .next (modCp s c (fun p => { p with dmb := { p.dmb with goLost := true } }))) ∧
  (∀ (c : Cp) (r : PairReq) (n : Nat) (s : State), mayAccess s c.master 0x40080000 kWrite = true → (cpOf s c).call = none →
    (cpOf s c).dmb.pending = some (false, r, n) → exec (.dmbAbort c) s = .next (modCp s c (fun p => { p with
      dmb := { p.dmb with busy := false, done := true, pending := none, answer := none } }))) ∧
  (∀ (c : Cp) (st : Nat) (data : Bytes) (more : Bool) (tick : W64) (s : State), clocksRun s = true →
    (cpOf s c).dmb.answer = some (st, data, more, tick) → exec (.dmbDone c) s = .next (modCp s c (fun p => { p with
      dmb := { p.dmb with
        busy := false, done := true, err := st != 0, result := BitVec.ofNat 16 st, rlen := data.length, more := more, tick := tick,
        data := putBytes p.dmb.data 0 data, pending := none, answer := none } }))) ∧
  (∀ (c : Cp) (a : Nat) (v : W32) (s : State), (cpOf s c).call.isSome = true →
    (mayAccess s c.master (0x40080000 + a % 0x1000) kWrite = true →
      exec (.dmbNcallDiscard c a v false) s = .next { s with dict := { s.dict with dmbDisc := s.dict.dmbDisc.inc } }) ∧
    (mayAccess s c.master (0x40080000 + a % 0x1000) kRead = true → exec (.dmbNcallDiscard c a v true) s = .next { s with
      dict := { s.dict with dmbDisc := s.dict.dmbDisc.inc }, out := s.out ++ [.regRead 0] }) ∧
    (mayAccess s c.master 0x40080000 kWrite = true →
      exec (.dmbGo c) s = .next { s with dict := { s.dict with dmbDisc := s.dict.dmbDisc.inc } } ∧
      exec (.dmbAbort c) s = .next { s with dict := { s.dict with dmbDisc := s.dict.dmbDisc.inc } }))

/-- Stop, restart, reset and life-cycle commands of a client. For a client that may write the entry: a restart stops a running module at its
next release, a cold one marked; a commanded stop stands, and a module in STOP lowers OWN_OUT and ALIVE_OUT for it; lifting it takes it
back; a commanded reset leads to COLD; a retry begins a catch-up anew with its failures forgotten. In STOP, with no change pending,
COMMISSION of a provisioned module, and the return to BLANK and DECOMMISSION of a provisioned or commissioned one, take effect in a
reset to COLD; COMMISSION does so only with a staged package that is signed and whose keys are good. Completion: under hypotheses on the
state and the operands alone, the clauses conclude that execution answers a next state with that effect, for restartWarm, restartCold,
commandedStop, liftStop, commandedReset, retryCatchup, commission, returnToBlank, decommission. -/
def Obligations.StopStartAndLifeCycleCommands : Prop :=
  (∀ (c : Client) (s : State), mayWrite s c 0x2200 6 2 = true → s.ctl.mode.run = true → s.cyc.phase ≠ .slack →
    (∃ t, exec (.restartWarm c) s = .next t ∧ t.ctl = { s.ctl with stopPending := some 0x000B }) ∧
    (∃ t, exec (.restartCold c) s = .next t ∧ t.ctl = { s.ctl with stopPending := some 0x000B, coldNext := true })) ∧
  (∀ (c : Client) (s : State), mayWrite s c 0x1100 4 2 = true → s.ctl.mode.run = true → s.cyc.phase ≠ .slack →
    ∃ t, exec (.commandedStop c) s = .next t ∧ t.ctl = { s.ctl with commandedStop := true, stopPending := some 0x000B }) ∧
  (∀ (c : Client) (s : State), mayWrite s c 0x1100 4 2 = true → s.ctl.mode = .stop →
    ∃ t, exec (.commandedStop c) s = .next t ∧ t.ctl.commandedStop = true ∧ t.ctl.mode = .stop ∧ t.pair.ownOut = false ∧
      t.pair.aliveOut = false) ∧
  (∀ (c : Client) (s : State), mayWrite s c 0x1100 4 2 = true →
    ∃ t, exec (.liftStop c) s = .next t ∧ t.ctl.commandedStop = false ∧ t.ctl.mode = s.ctl.mode) ∧
  (∀ (c : Client) (s : State), mayWrite s c 0x1100 4 2 = true →
    ∃ t, exec (.commandedReset c) s = .next t ∧ t.ctl.mode = .cold ∧ t.dict.sessions = [] ∧ t.pair.ownOut = false) ∧
  (∀ (c : Client) (s : State), mayWrite s c 0x1200 0x16 2 = true → s.ctl.mode = .catchup →
    ∃ t, exec (.retryCatchup c) s = .next t ∧ t.pair.phase = 1 ∧ t.pair.cFails = 0 ∧ t.pair.log = []) ∧
  (∀ (c : Client) (s : State), mayWrite s c 0x1100 7 3 = true → s.ctl.mode = .stop → s.ctl.lifePending = none →
    s.ctl.life = .provisioned → ∃ t, exec (.commission c) s = .next t ∧
      if lifeCheck s ((moduleMac s).toNat % 16777216 * 256 + 1) = 0 then
        t.ctl.life = .commissioned ∧ t.ctl.mode = .cold ∧ t.ctl.lifePending = none
      else t.ctl = s.ctl) ∧
  (∀ (c : Client) (s : State), mayWrite s c 0x1100 7 3 = true → s.ctl.mode = .stop → s.ctl.lifePending = none →
    s.ctl.life = .provisioned ∨ s.ctl.life = .commissioned →
    (∃ t, exec (.returnToBlank c) s = .next t ∧ t.ctl.life = .blank ∧ t.ctl.mode = .cold ∧ t.boot.roles = []) ∧
    (∃ t, exec (.decommission c) s = .next t ∧ t.ctl.life = .decommissioned ∧ t.ctl.mode = .cold ∧ t.boot.identityKey = none))

/-- Staging, minimum versions, attestation, clearing. For a client that may write the entry: a staging begins with its slot empty and
receiving; a piece of the manifest or of the image lands at its offset in a slot that receives; a discard empties the slot; the previous
package is marked to run; the minimum versions rise to those that run; a nonce begins a report where none is being signed; the records
of this side, the D group fault, the debugged mark and the latent fault are cleared; a change that is staged and not active is
discarded. Completion: under hypotheses on the state and the operands alone, the clauses conclude that execution answers a next state
with that effect, for beginStaging, manifestStreamWrite, imageStreamWrite, discardSlot, runPreviousPackage, raiseMinimumSvn,
attestationNonce, deleteAllRecords, clearDFault, clearDebugged, clearLatentFault, onlineChangeDiscard. -/
def Obligations.StagingAndKeysByAClient : Prop :=
  (∀ (c : Client) (k : Nat) (s : State), mayWrite s c 0x1B00 1 2 = true → s.ctl.mode ≠ .bootwait → k = 1 ∨ k = 3 →
    ∃ t, exec (.beginStaging c k) s = .next t ∧ t.boot.lastKind = k ∧ slotOfKind t k = { SlotSt.reset with state := 1 }) ∧
  (∀ (c : Client) (s : State), mayWrite s c 0x1B00 1 2 = true → s.ctl.mode ≠ .bootwait → s.cyc.change.active = false →
    ∃ t, exec (.beginStaging c 4) s = .next t ∧ t.boot.lastKind = 4 ∧ t.boot.sChange = { SlotSt.reset with state := 1 }) ∧
  (∀ (c : Client) (o : Nat) (d : Bytes) (s : State), mayWrite s c 0x1B00 3 2 = true → s.ctl.mode ≠ .bootwait → d.length ≤ 65535 →
    (slotOfKind s s.boot.lastKind).state = 1 →
    (∀ n, streamLimit (slotOfKind s s.boot.lastKind) false = some n → o + d.length ≤ n) →
    ∃ t, exec (.manifestStreamWrite c o d) s = .next t ∧ t.boot.lastKind = s.boot.lastKind ∧
      (slotOfKind t s.boot.lastKind).man = putListed (slotOfKind s s.boot.lastKind).man o d) ∧
  (∀ (c : Client) (o : Nat) (d : Bytes) (s : State), mayWrite s c 0x1B00 4 2 = true → s.ctl.mode ≠ .bootwait → d.length ≤ 65535 →
    (slotOfKind s s.boot.lastKind).state = 1 →
    (∀ n, streamLimit (slotOfKind s s.boot.lastKind) true = some n → o + d.length ≤ n) →
    ∃ t, exec (.imageStreamWrite c o d) s = .next t ∧ t.boot.lastKind = s.boot.lastKind ∧
      (slotOfKind t s.boot.lastKind).img = putListed (slotOfKind s s.boot.lastKind).img o d) ∧
  (∀ (c : Client) (s : State), mayWrite s c 0x1B00 0x0A 2 = true → s.boot.lastKind = 1 ∨ s.boot.lastKind = 3 →
    ∃ t, exec (.discardSlot c) s = .next t ∧ slotOfKind t s.boot.lastKind = SlotSt.reset) ∧
  (∀ (c : Client) (s : State), mayWrite s c 0x1B00 0x0D 2 = true →
    ∃ t, exec (.runPreviousPackage c) s = .next t ∧ t.boot = { s.boot with runPrev := true }) ∧
  (∀ (c : Client) (s : State), mayWrite s c 0x1600 7 3 = true →
    ∃ t, exec (.raiseMinimumSvn c) s = .next t ∧ t.boot = { s.boot with
      minLoader := (match s.boot.loaderRun with | some m => max s.boot.minLoader (min 63 m.svn) | none => s.boot.minLoader)
      minFw := (match s.boot.fw with | some m => max s.boot.minFw (min 63 m.svn) | none => s.boot.minFw) }) ∧
  (∀ (c : Client) (d : Bytes) (s : State), mayWrite s c 0x1600 0x0E 0 = true → d.length = 32 → s.boot.attState ≠ 1 →
    ∃ t, exec (.attestationNonce c d) s = .next t ∧ t.boot = { s.boot with attState := 1, attNonce := d, attHost := none }) ∧
  (∀ (c : Client) (s : State), mayWrite s c 0x1A20 0x0F 2 = true →
    ∃ t, exec (.deleteAllRecords c) s = .next t ∧ t.dist = { s.dist with recs := [] }) ∧
  (∀ (c : Client) (s : State), mayWrite s c 0x1800 3 1 = true →
    ∃ t, exec (.clearDFault (some c) false) s = .next t ∧ t.field = { s.field with dfault := false }) ∧
  (∀ (c : Client) (s : State), mayWrite s c 0x1700 8 3 = true →
    ∃ t, exec (.clearDebugged c) s = .next t ∧ t.integ = { s.integ with debugged := false }) ∧
  (∀ (c : Client) (s : State), mayWrite s c 0x1700 0x0A 1 = true →
    ∃ t, exec (.clearLatentFault c) s = .next t ∧ t.integ = { s.integ with latent := false, conflict := false }) ∧
  (∀ (c : Client) (s : State), mayWrite s c 0x2218 8 2 = true → s.cyc.change.active = false →
    ∃ t, exec (.onlineChangeDiscard c) s = .next t ∧ t.boot.sChange = SlotSt.reset ∧ t.cyc.change.state = 0)

/-- A Clear entry takes the counters of its object to zero. For a client that may write the entry, 1 written to the Clear entry of the
modes, of the redundant ring, of the log, of the records, of the run-time tests or of a task takes the counters named there, and their
flags, to zero, and leaves the rest of the part as it was (the network part, through which the answer may go out, apart). Completion:
under hypotheses on the state and the operands alone, the clauses conclude that execution answers a next state with that effect, for
clearCounters. -/
def Obligations.ClearEntriesClearTheirCounters : Prop :=
  (∀ (c : Client) (s : State), mayWrite s c 0x1100 0x0D 1 = true →
    ∃ t, exec (.clearCounters c 0x1100 0x0D) s = .next t ∧ t.ctl = { s.ctl with changes := Ctr.reset }) ∧
  (∀ (c : Client) (s : State), mayWrite s c 0x1410 0x0A 1 = true →
    ∃ t, exec (.clearCounters c 0x1410 0x0A) s = .next t ∧ t.net.dups = Ctr.reset ∧ t.net.toPair = Ctr.reset ∧
      t.net.wrongLan = Ctr.reset) ∧
  (∀ (c : Client) (s : State), mayWrite s c 0x1A00 0x0D 1 = true →
    ∃ t, exec (.clearCounters c 0x1A00 0x0D) s = .next t ∧ t.log = { s.log with lost := Ctr.reset, bad := Ctr.reset }) ∧
  (∀ (c : Client) (s : State), mayWrite s c 0x1A20 0x0E 1 = true →
    ∃ t, exec (.clearCounters c 0x1A20 0x0E) s = .next t ∧ t.dist = { s.dist with
      truncated := Ctr.reset, discarded := Ctr.reset, deleted := Ctr.reset }) ∧
  (∀ (c : Client) (s : State), mayWrite s c 0x1702 9 1 = true →
    ∃ t, exec (.clearCounters c 0x1702 9) s = .next t ∧ t.integ = { s.integ with
      rotations := Ctr.reset, testFails := Ctr.reset, lockedHits := Ctr.reset, parity := Ctr.reset }) ∧
  (∀ (c : Client) (k : Nat) (s : State), k < 4 → mayWrite s c (0x2201 + k) 0x0A 1 = true →
    ∃ t, exec (.clearCounters c (0x2201 + k) 0x0A) s = .next t ∧ t.cyc = { s.cyc with tasks := lupd s.cyc.tasks k (fun q => { q with
      longestNs := 0, late := Ctr.reset, overruns := Ctr.reset, skipped := Ctr.reset }) })

/-- A PAIR write of a running module is sequenced. For a client that may write the entry, on a side that runs the program and owns it or is
alone, a request that repeats none of the last 10 s and meets the conditions of its entry is sequenced: it takes the next write number
and its target tick, waits for that boundary, and nothing of the program or of the loops changes yet. This holds for forces, their
releases, the activation of a change, loop modes, banks and the memory of the repetitive part, a handover, a manual trigger, TEST, the
keys, the settings, and the preparation and the start of a switchover. Completion: under hypotheses on the state and the operands alone,
the clauses conclude that execution answers a next state with that effect, for setForce, releaseForce, releaseAllForces,
onlineChangeActivate, loopModeSet, loopBankCommand, clearRepetitiveMemory, commandedHandover, manualTrigger, switchover,
prepareSwitchover, testEnter, testLeave, packageKeyA1Write, wrappedRoleKeyWrite, removeRoleKey, confirmSettings. -/
def Obligations.PairWritesAreSequenced : Prop :=
  (∀ (c : Client) (d : Bytes) (s : State), mayWrite s c 0x2210 2 2 = true → d.length = 8 →
    sequences s ⟨c.role, c.reqid, 0x2210, 2, 15, d⟩ = true →
    ∃ t, exec (.setForce c d) s = .next t ∧ s.sequenced ⟨c.role, c.reqid, 0x2210, 2, 15, d⟩ t ∧ t.img = s.img) ∧
  (∀ (c : Client) (d : Bytes) (s : State), mayWrite s c 0x2210 3 1 = true → d.length = 4 →
    sequences s ⟨c.role, c.reqid, 0x2210, 3, 8, d⟩ = true →
    ∃ t, exec (.releaseForce c d) s = .next t ∧ s.sequenced ⟨c.role, c.reqid, 0x2210, 3, 8, d⟩ t ∧ t.img = s.img) ∧
  (∀ (c : Client) (s : State), mayWrite s c 0x2210 4 1 = true → sequences s ⟨c.role, c.reqid, 0x2210, 4, 6, [1]⟩ = true →
    ∃ t, exec (.releaseAllForces c) s = .next t ∧ s.sequenced ⟨c.role, c.reqid, 0x2210, 4, 6, [1]⟩ t ∧ t.img = s.img) ∧
  (∀ (c : Client) (s : State), mayWrite s c 0x2218 4 2 = true → sequences s ⟨c.role, c.reqid, 0x2218, 4, 6, [1]⟩ = true →
    ∃ t, exec (.onlineChangeActivate c) s = .next t ∧ s.sequenced ⟨c.role, c.reqid, 0x2218, 4, 6, [1]⟩ t ∧ t.img = s.img) ∧
  (∀ (c : Client) (n m : Nat) (s : State), n < 32 → mayWrite s c (0x2100 + n) 1 1 = true →
    sequences s ⟨c.role, c.reqid, 0x2100 + n, 1, 6, [BitVec.ofNat 8 m]⟩ = true → ∃ t, exec (.loopModeSet c n m) s = .next t ∧
      s.sequenced ⟨c.role, c.reqid, 0x2100 + n, 1, 6, [BitVec.ofNat 8 m]⟩ t ∧ t.loops = s.loops) ∧
  (∀ (c : Client) (n m : Nat) (s : State), n < 32 → mayWrite s c (0x2100 + n) 0x1A 1 = true →
    sequences s ⟨c.role, c.reqid, 0x2100 + n, 0x1A, 6, [BitVec.ofNat 8 m]⟩ = true → ∃ t, exec (.loopBankCommand c n m) s = .next t ∧
      s.sequenced ⟨c.role, c.reqid, 0x2100 + n, 0x1A, 6, [BitVec.ofNat 8 m]⟩ t ∧ t.loops = s.loops) ∧
  (∀ (c : Client) (n : Nat) (s : State), n < 32 → mayWrite s c (0x2100 + n) 0x2F 2 = true →
    sequences s ⟨c.role, c.reqid, 0x2100 + n, 0x2F, 6, [1]⟩ = true → ∃ t, exec (.clearRepetitiveMemory c n) s = .next t ∧
      s.sequenced ⟨c.role, c.reqid, 0x2100 + n, 0x2F, 6, [1]⟩ t ∧ t.loops = s.loops) ∧
  (∀ (c : Client) (s : State), mayWrite s c 0x1200 0x11 1 = true → sequences s ⟨c.role, c.reqid, 0x1200, 0x11, 6, [1]⟩ = true →
    ∃ t, exec (.commandedHandover c) s = .next t ∧ s.sequenced ⟨c.role, c.reqid, 0x1200, 0x11, 6, [1]⟩ t) ∧
  (∀ (c : Client) (s : State), mayWrite s c 0x1A10 9 1 = true → sequences s ⟨c.role, c.reqid, 0x1A10, 9, 6, [1]⟩ = true →
    ∃ t, exec (.manualTrigger c) s = .next t ∧ s.sequenced ⟨c.role, c.reqid, 0x1A10, 9, 6, [1]⟩ t ∧ t.dist = s.dist) ∧
  (∀ (c : Client) (s : State), mayWrite s c 0x1B00 0x10 2 = true → sequences s ⟨c.role, c.reqid, 0x1B00, 0x10, 6, [1]⟩ = true →
    ∃ t, exec (.switchover c) s = .next t ∧ s.sequenced ⟨c.role, c.reqid, 0x1B00, 0x10, 6, [1]⟩ t ∧ t.boot = s.boot) ∧
  (∀ (c : Client) (s : State), mayWrite s c 0x1B00 0x0E 2 = true → sequences s ⟨c.role, c.reqid, 0x1B00, 0x0E, 6, [1]⟩ = true →
    ∃ t, exec (.prepareSwitchover c) s = .next t ∧ s.sequenced ⟨c.role, c.reqid, 0x1B00, 0x0E, 6, [1]⟩ t ∧ t.boot = s.boot) ∧
  (∀ (c : Client) (s : State), mayWrite s c 0x1100 5 2 = true →
    (sequences s ⟨c.role, c.reqid, 0x1100, 5, 6, [1]⟩ = true → ∃ t, exec (.testEnter c) s = .next t ∧
      s.sequenced ⟨c.role, c.reqid, 0x1100, 5, 6, [1]⟩ t ∧ t.ctl = s.ctl) ∧
    (sequences s ⟨c.role, c.reqid, 0x1100, 5, 6, [0]⟩ = true → ∃ t, exec (.testLeave c) s = .next t ∧
      s.sequenced ⟨c.role, c.reqid, 0x1100, 5, 6, [0]⟩ t ∧ t.ctl = s.ctl)) ∧
  (∀ (c : Client) (d : Bytes) (s : State), mayWrite s c 0x1600 9 3 = true → d.length = 0 ∨ d.length = 32 →
    sequences s ⟨c.role, c.reqid, 0x1600, 9, 15, d⟩ = true → ∃ t, exec (.packageKeyA1Write c d) s = .next t ∧
      s.sequenced ⟨c.role, c.reqid, 0x1600, 9, 15, d⟩ t ∧ t.boot = s.boot) ∧
  (∀ (c : Client) (d : Bytes) (s : State), mayWrite s c 0x1600 0x0C 3 = true → d.length = 68 →
    sequences s ⟨c.role, c.reqid, 0x1600, 0x0C, 15, d⟩ = true → ∃ t, exec (.wrappedRoleKeyWrite c d) s = .next t ∧
      s.sequenced ⟨c.role, c.reqid, 0x1600, 0x0C, 15, d⟩ t ∧ t.boot = s.boot) ∧
  (∀ (c : Client) (v : Byte) (s : State), mayWrite s c 0x1600 0x0D 3 = true →
    sequences s ⟨c.role, c.reqid, 0x1600, 0x0D, 6, [v]⟩ = true → ∃ t, exec (.removeRoleKey c [v]) s = .next t ∧
      s.sequenced ⟨c.role, c.reqid, 0x1600, 0x0D, 6, [v]⟩ t ∧ t.boot = s.boot) ∧
  (∀ (c : Client) (s : State), mayWrite s c 0x1B00 5 2 = true → sequences s ⟨c.role, c.reqid, 0x1B00, 5, 6, [1]⟩ = true →
    ∃ t, exec (.confirmSettings c) s = .next t ∧ s.sequenced ⟨c.role, c.reqid, 0x1B00, 5, 6, [1]⟩ t ∧ t.boot = s.boot)

/-- A PAIR write in STOP takes effect at once. In STOP, for a client that may write the entry: a forceable point that the program uses takes
its force with room for it; a release gives the point its shadow word and takes the force away, and the release of all leaves no force;
a loop's mode, and its bank, are kept for the next start; TEST is wanted or no longer wanted; the key A1 is put or taken away; a wrapped
role key that is good replaces the key of its role and number, and a removal deletes it; the settings are confirmed; the staged package
is prepared where it is good and refused where it is not. Completion: under hypotheses on the state and the operands alone, the clauses
conclude that execution answers a next state with that effect, for setForce, releaseForce, releaseAllForces, loopModeSet,
loopBankCommand, testEnter, testLeave, packageKeyA1Write, wrappedRoleKeyWrite, removeRoleKey, confirmSettings, prepareSwitchover. -/
def Obligations.PairWritesInStop : Prop :=
  (∀ (c : Client) (d : Bytes) (s : State), mayWrite s c 0x2210 2 2 = true → s.ctl.mode = .stop → d.length = 8 → s.pair.seqs = [] →
    beNat (d.take 3) < 131072 → (d.getD 3 0).toNat % 64 = 0 → (descOf s.img (beNat (d.take 3))).source ≠ srcUnused →
    (descOf s.img (beNat (d.take 3))).forceable = true → s.img.forces.length < 4096 → ∃ t, exec (.setForce c d) s = .next t ∧
      forceOn t.img (beNat (d.take 3)) = some ⟨beNat (d.take 3), forcedWord s (beNat (d.take 3)) ((d.getD 3 0).toNat / 64)
        (BitVec.ofNat 32 (beNat (d.drop 4))), ownWord s.img (beNat (d.take 3))⟩) ∧
  (∀ (c : Client) (d : Bytes) (f : Force) (s : State), mayWrite s c 0x2210 3 1 = true → s.ctl.mode = .stop → d.length = 4 →
    beNat d < 131072 → (descOf s.img (beNat d)).source ≠ srcUnused → forceOn s.img (beNat d) = some f →
    ∃ t, exec (.releaseForce c d) s = .next t ∧ t.img = { s.img with
      forces := s.img.forces.filter (fun x => x.point != beNat d), points := mset s.img.points (beNat d) f.shadow }) ∧
  (∀ (c : Client) (s : State), mayWrite s c 0x2210 4 1 = true → s.ctl.mode = .stop →
    ∃ t, exec (.releaseAllForces c) s = .next t ∧ t.img.forces = []) ∧
  (∀ (c : Client) (n m : Nat) (s : State), mayWrite s c (0x2100 + n) 1 1 = true → s.ctl.mode = .stop → n < 32 → m ≤ 2 →
    ∃ t, exec (.loopModeSet c n m) s = .next t ∧ mget t.dict.settings (entryKey (0x2100 + n) 1) = some m) ∧
  (∀ (c : Client) (n m : Nat) (s : State), mayWrite s c (0x2100 + n) 0x1A 1 = true → s.ctl.mode = .stop → n < 32 → m ≤ 1 →
    ∃ t, exec (.loopBankCommand c n m) s = .next t ∧ mget t.dict.settings (entryKey (0x2100 + n) 0x1A) = some m) ∧
  (∀ (c : Client) (s : State), mayWrite s c 0x1100 5 2 = true → s.ctl.mode = .stop →
    (∃ t, exec (.testEnter c) s = .next t ∧ t.ctl = { s.ctl with testWanted := true }) ∧
    (∃ t, exec (.testLeave c) s = .next t ∧ t.ctl = { s.ctl with testWanted := false })) ∧
  (∀ (c : Client) (d : Bytes) (s : State), mayWrite s c 0x1600 9 3 = true → s.ctl.mode = .stop → d.length = 0 ∨ d.length = 32 →
    ∃ t, exec (.packageKeyA1Write c d) s = .next t ∧ t.boot = { s.boot with a1 := if d = [] then none else some d }) ∧
  (∀ (c : Client) (d so : Bytes) (s : State), mayWrite s c 0x1600 0x0C 3 = true → s.ctl.mode = .stop → d.length = 68 →
    (d.getD 0 0).toNat < 4 → (d.getD 1 0).toNat < 4 → roleKey s.boot.roles 3 0 = some so →
    ∃ t, exec (.wrappedRoleKeyWrite c d) s = .next t ∧ t.boot.roles =
      if wrapGood so (parseWrapped d) then putRole s.boot.roles (unwrap so (parseWrapped d)) else s.boot.roles) ∧
  (∀ (c : Client) (v : Byte) (s : State), mayWrite s c 0x1600 0x0D 3 = true → s.ctl.mode = .stop → v.toNat / 16 < 4 →
    v.toNat % 16 < 4 → v ≠ 0x30 → ∃ t, exec (.removeRoleKey c [v]) s = .next t ∧ t.boot.roles =
      s.boot.roles.filter (fun x => !(x.role == v.toNat / 16 && x.num == v.toNat % 16))) ∧
  (∀ (c : Client) (s : State), mayWrite s c 0x1B00 5 2 = true → s.ctl.mode = .stop →
    ∃ t, exec (.confirmSettings c) s = .next t ∧ t.boot = { s.boot with formats := [], olderFmt := 0 }) ∧
  (∀ (c : Client) (i : Installed) (s : State), mayWrite s c 0x1B00 0x0E 2 = true → s.ctl.mode = .stop → stagedPackage s = some i →
    ∃ t, exec (.prepareSwitchover c) s = .next t ∧
      if imageCheck s i.man i.image 3 true = 0 then t.boot.sPkg.state = 3 ∧ t.boot.prepared = some i
      else t.boot.sPkg.state = 4 ∧ t.boot.refusal = BitVec.ofNat 16 (imageCheck s i.man i.image 3 true))

/-- The log's writer, its mirror, operating seconds, requests of a core, and records. The writer takes the oldest record of the queue. The
mirror takes every record it lacks once 10 s have run or 256 records wait. Each second of RAW adds one operating second. A request of a
core pair that runs and that both checks let pass enters the queue with a good header and is busy; with a bad header it sets the error.
A sequenced record start whose tick has been reached by a cutoff that has been confirmed opens its record under its number. A record
whose window has passed is committed, and the event is logged. Completion: under hypotheses on the state and the operands alone, the
clauses conclude that execution answers a next state with that effect, for logRecordWrite, logMirrorCopy, operatingSecond, recLoggo,
recordStart, recordCommit. -/
def Obligations.LogAndRecords : Prop :=
  (∀ (r : LogReq) (rest : List LogReq) (s : State), s.ctl.mode ≠ .silent → s.pins.pgood = true → s.log.lostSince = 0 →
    s.log.queue = r :: rest → ∃ t, exec .logRecordWrite s = .next t ∧ t.log = LogSt.write { s.log with queue := rest } r ∧
      ∀ c, r.app = some c → (cpOf t c).recr = { (cpOf s c).recr with busy := false, done := true, num := t.log.next - 1 }) ∧
  (∀ s : State, s.ctl.mode ≠ .silent → s.pins.pgood = true →
    160000000000 ≤ (s.time.raw - s.log.mirrorAt).toNat ∨ 256 ≤ s.log.sinceMirror → ∃ t, exec .logMirrorCopy s = .next t ∧
      t.log.sinceMirror = 0 ∧ t.log.mirrorAt = s.time.raw ∧ ∃ m, (∀ x, x ∈ m ↔ x ∈ s.log.mirror ∨ (x ∈ s.log.recs ∧
        ∀ y ∈ s.log.mirror, y.number ≠ x.number)) ∧ t.log.mirror = mirrorTrim m.length m) ∧
  (∀ s : State, s.pins.pgood = true → 16000000000 ≤ (s.time.raw - s.log.secRaw).toNat → s.log.seconds ≠ 0xFFFFFFFF →
    exec .operatingSecond s = .next { s with log := { s.log with
      seconds := s.log.seconds + 1, secRaw := s.log.secRaw + 16000000000 } }) ∧
  (∀ (c : Cp) (s : State), mayAccess s c.master 0x400B0004 kWrite = true → (cpOf s c).call = none → (cpOf s c).recr.busy = false →
    0x8000 ≤ (cpOf s c).recr.typ.toNat → (cpOf s c).recr.sev ≠ 3 → (cpOf s c).recr.len.toNat ≤ 976 → s.log.queue.length < 256 →
    ∃ t, exec (.recLoggo c) s = .next t ∧ (cpOf t c).recr.busy = true ∧ t.log.queue = s.log.queue ++
      [mkLog s (cpOf s c).recr.typ.toNat (cpOf s c).recr.sev.toNat (bytesAt (cpOf s c).recr.data 0 (cpOf s c).recr.len.toNat) (some c)]) ∧
  (∀ (c : Cp) (s : State), mayAccess s c.master 0x400B0004 kWrite = true → (cpOf s c).call = none → (cpOf s c).recr.busy = false →
    (cpOf s c).recr.typ.toNat < 0x8000 → exec (.recLoggo c) s =
      .next (modCp s c (fun p => { p with recr := { p.recr with err := true } }))) ∧
  (∀ (i : SeqItem) (rest : List SeqItem) (n : W32) (k : W64) (src : W16) (s : State), clocksRun s = true → s.pair.seqs = i :: rest →
    i.msg.body = .recordStart n k src → s.cyc.confirmed = true → i.msg.target.toNat ≤ s.cyc.cutTick.toNat → ∃ t, exec .recordStart s = .next t ∧
      t.pair.seqs = rest ∧ t.dist.next = n + 1 ∧ ∃ r, t.dist.openRecs = s.dist.openRecs ++ [r] ∧ r.number = n) ∧
  (∀ (r : DRec) (s : State), clocksRun s = true → s.ctl.mode ≠ .cold → s.dist.openRecs = [r] → commitReady s r = true →
    recordsFull (s.dist.recs ++ [{ r with header := recordHeader r }]) = false →
    ∃ t, exec (.recordCommit r.number) s = .next t ∧ t.dist = { s.dist with
      openRecs := [], recs := s.dist.recs ++ [{ r with header := recordHeader r }] })

/-- Interrupt contexts and clock contexts of the core pairs. A register write is one of a core pair that runs and that both checks let pass.
An edge sets its source's pending bit. A claim of a source that is unclaimed clears its pending bit; a completion releases the claim and
starts the hold its source has, and one without a claim counts as stray. SWSET raises its sources in both contexts. A hold that has run
ends. A WFI of a core pair that may sleep, with nothing presented, no call posted and none running, stops its clock; in a mode with its
clock a presented source or a posted call starts it again and the wake is counted. Completion: under hypotheses on the state and the
operands alone, the clauses conclude that execution answers a next state with that effect, for interruptEvent, intcClaim, intcComplete,
intcSwset, intcStrayClear, clkWakesClear, holdExpire, wfi, coreWake. -/
def Obligations.InterruptsAndClocks : Prop :=
  (∀ (c : Cp) (n : Nat) (s : State), reservedSrc n = false → levelSources.contains n = false → exec (.interruptEvent c n) s =
    .next (modCp s c (fun p => { p with intc := { p.intc with pend := p.intc.pend ||| BitVec.twoPow 128 n } }))) ∧
  (∀ (c : Cp) (v : W32) (s : State), mayAccess s c.master 0x40000030 kWrite = true → v.toNat % 128 ≠ 0 →
    reservedSrc (v.toNat % 128) = false → (cpOf s c).intc.claimed.getLsbD (v.toNat % 128) = false → exec (.intcClaim c v) s = .next (modCp s c (fun p => { p with
      intc := { p.intc with
        claimed := setBit p.intc.claimed (v.toNat % 128) true, pend := setBit p.intc.pend (v.toNat % 128) false } }))) ∧
  (∀ (c : Cp) (v : W32) (s : State), mayAccess s c.master 0x40000034 kWrite = true → v.toNat % 128 ≠ 0 →
    reservedSrc (v.toNat % 128) = false → (cpOf s c).intc.claimed.getLsbD (v.toNat % 128) = true → ∃ t, exec (.intcComplete c v) s = .next t ∧
      (cpOf t c).intc.claimed = setBit (cpOf s c).intc.claimed (v.toNat % 128) false ∧ (cpOf t c).intc.pend = (cpOf s c).intc.pend ∧
      (0 < mgetD (cpOf s c).intc.holds (v.toNat % 128) 0 → mget (cpOf t c).intc.heldFrom (v.toNat % 128) =
        some (s.time.raw, mgetD (cpOf s c).intc.holds (v.toNat % 128) 0))) ∧
  (∀ (c : Cp) (v : W32) (s : State), mayAccess s c.master 0x40000034 kWrite = true → v.toNat % 128 ≠ 0 →
    reservedSrc (v.toNat % 128) = false → (cpOf s c).intc.claimed.getLsbD (v.toNat % 128) = false → exec (.intcComplete c v) s = .next (modCp s c (fun p => { p with
      intc := { p.intc with stray := p.intc.stray.inc } }))) ∧
  (∀ (c : Cp) (v : W32) (s : State), mayAccess s c.master 0x4000003C kWrite = true → ∃ t, exec (.intcSwset c v) s = .next t ∧ ∀ d i, i < 128 →
    (cpOf t d).intc.pend.getLsbD i = ((cpOf s d).intc.pend.getLsbD i || (decide (120 ≤ i) && v.getLsbD (i - 120)))) ∧
  (∀ (c : Cp) (s : State), mayAccess s c.master 0x40000038 kWrite = true →
    exec (.intcStrayClear c) s = .next (modCp s c (fun p => { p with intc := { p.intc with stray := Ctr16.reset } }))) ∧
  (∀ (c : Cp) (s : State), mayAccess s c.master 0x4009000C kWrite = true →
    exec (.clkWakesClear c) s = .next (modCp s c (fun p => { p with clk := { p.clk with wakes := Ctr16.reset } }))) ∧
  (∀ (c : Cp) (n us : Nat) (w : W64) (s : State), clocksRun s = true → mget (cpOf s c).intc.heldFrom n = some (w, us) →
    rUs us ≤ (s.time.raw - w).toNat → ∃ t, exec (.holdExpire c n) s = .next t ∧
      (cpOf t c).intc = { (cpOf s c).intc with heldFrom := mdel (cpOf s c).intc.heldFrom n }) ∧
  (∀ (c : Cp) (s : State), coreRuns s c = true → (cpOf s c).clk.sleep = true → firstPresented s c = none → callOut s c = false →
    exec (.wfi c) s = .next (modCp s c (fun p => { p with clk := { p.clk with asleep := true, holdHit := none, latch := none } }))) ∧
  (∀ (c : Cp) (s : State), pllOn s.ctl.mode = true → (cpOf s c).clk.asleep = true →
    callPosted s c = true ∨ (firstPresented s c).isSome = true → ∃ t, exec (.coreWake c) s = .next t ∧
      (cpOf t c).clk.asleep = false ∧ (cpOf t c).clk.byCall = callPosted s c ∧
      (cpOf t c).clk.wakes = (cpOf s c).clk.wakes.inc)

/-- The DMA engine and the event fabric. A register write is one of the core pair that owns the engine, which runs and which both checks let
pass. GO on an idle channel reads the descriptor at the channel's start address: its fields are in force, and the channel is active, or
waits for its trigger. A beat without a trigger copies 8 bytes, advances the addresses and lowers the count. The end of a last
descriptor counts and leaves the channel idle at END. RESUME of a channel that works is kept; STOP leaves it idle; a disable drops every
channel and the events pending for them; a bus error does so too and records the channel and the address; a freeze is lifted by command.
Events go to the targets whose routes are enabled. Completion: under hypotheses on the state and the operands alone, the clauses
conclude that execution answers a next state with that effect, for dmaGo, dmaBeat, dmaDescriptorDone, dmaResume, dmaStop, dmaDisable,
dmaBusError, dmaUnfreeze, eventDelivery, evfSwpulse, evfLostClear. -/
def Obligations.DmaEngineAndEvents : Prop :=
  (∀ (n : Nat) (o : Cp) (s : State), n < 16 → dmaReady s = true → dmaOwner s = some o →
    mayAccess s o.master (0x40010104 + 0x20 * n) kWrite = true → (dmaCh s n).state = 0 ∨ (dmaCh s n).state = 3 →
    targetOf s ((dmaOwner s).getD .n0) ((dmaCh s n).start.toNat * 16) = some 0 →
    checkAccess s .dma ((dmaCh s n).start.toNat * 16) kRead false = none → ∃ t, exec (.dmaGo n) s = .next t ∧
      t = modCh s n (fun c =>
        let d := ({ c with respend := false } : DmaCh).load (BitVec.ofNat 32 (c.start.toNat * 16))
          (cpBytes s ((dmaOwner s).getD .n0) (c.start.toNat * 16) 16)
        { d with state := if d.trig = true ∧ 0 < d.remain.toNat ∧ mget s.evf.pend n = none then 2 else 1 })) ∧
  (∀ (n : Nat) (held : W32) (s : State), n < 16 → dmaReady s = true → (dmaCh s n).state = 1 → 0 < (dmaCh s n).remain.toNat →
    (dmaCh s n).trig = false → (dmaCh s n).src.toNat % 8 = 0 → (dmaCh s n).dst.toNat % 8 = 0 →
    targetOf s ((dmaOwner s).getD .n0) (dmaCh s n).src.toNat = some 0 → targetOf s ((dmaOwner s).getD .n0) (dmaCh s n).dst.toNat = some 0 →
    checkAccess s .dma (dmaCh s n).src.toNat kRead false = none → checkAccess s .dma (dmaCh s n).dst.toNat kWrite false = none →
    exec (.dmaBeat n held) s = .next (modCh (cpPutAll s ((dmaOwner s).getD .n0) (dmaCh s n).dst.toNat
      (cpBytes s ((dmaOwner s).getD .n0) (dmaCh s n).src.toNat 8)) n (fun c => { c with
        state := 1, src := if c.sfix then c.src else c.src + 8, dst := c.dst + 8, remain := c.remain - 1 }))) ∧
  (∀ (n : Nat) (s : State), n < 16 → dmaReady s = true → (dmaCh s n).state = 1 → (dmaCh s n).remain = 0 → (dmaCh s n).evt = false →
    (dmaCh s n).last = true → (dmaCh s n).respend = false → exec (.dmaDescriptorDone n) s = .next (modCh s n (fun c => { c with
      state := 3, done := c.done + 1 }))) ∧
  (∀ (n : Nat) (o : Cp) (s : State), n < 16 → dmaReady s = true → dmaOwner s = some o →
    mayAccess s o.master (0x40010104 + 0x20 * n) kWrite = true → (dmaCh s n).state = 1 ∨ (dmaCh s n).state = 2 →
    exec (.dmaResume n) s = .next (modCh s n (fun c => { c with respend := true }))) ∧
  (∀ (n : Nat) (o : Cp) (s : State), dmaOwner s = some o → mayAccess s o.master (0x40010104 + 0x20 * n) kWrite = true →
    exec (.dmaStop n) s = .next (modCh s n (fun c => { c with state := 0, respend := false }))) ∧
  (∀ (o : Cp) (s : State), dmaOwner s = some o → mayAccess s o.master 0x40010000 kWrite = true → ∃ t, exec .dmaDisable s = .next t ∧ t.dma.enable = false ∧
    t.evf.pend = s.evf.pend.filter (fun x => decide (16 ≤ x.1)) ∧ ∀ n, n < 16 → n < s.dma.chans.length → (dmaCh t n).state = 0) ∧
  (∀ (n : Nat) (a : W32) (s : State), dmaReady s = true → (dmaCh s n).state = 1 ∨ (dmaCh s n).state = 2 →
    ∃ t, exec (.dmaBusError n a) s = .next t ∧ t.dma.busErr = true ∧ t.dma.errCh = BitVec.ofNat 4 n ∧ t.dma.errAddr = a ∧
      ∀ k, k < 16 → k < s.dma.chans.length → (dmaCh t k).state = 0) ∧
  (∀ (c : Cp) (held : Bool) (s : State), mayAccess s c.master 0x40020010 kWrite = true →
    exec (.dmaUnfreeze c held) s = .next { s with mpu := { s.mpu with frDma := s.mpu.frDma && held } }) ∧
  (∀ (k : Nat) (s : State), clocksRun s = true → (∀ r ∈ s.evf.routes, r.enable = true → r.src.toNat ≠ k) →
    exec (.eventDelivery k) s = .next s) ∧
  (∀ (k i : Nat) (s : State), clocksRun s = true → k < 54 → i < 16 → (s.evf.routes.getD i Route.reset).enable = true →
    (s.evf.routes.getD i Route.reset).src.toNat = k → ∃ t, exec (.eventDelivery k) s = .next t ∧
      (mget t.evf.pend i).isSome = true ∧ t.evf.routes = s.evf.routes) ∧
  (∀ (m : Master) (v : W32) (s : State), mayAccess s m 0x40070080 kWrite = true →
    ∃ t, exec (.evfSwpulse v m) s = .next t ∧ t.evf.routes = s.evf.routes ∧
    ∀ b i, b < 8 → i < 16 → v.getLsbD b = true → (s.evf.routes.getD i Route.reset).enable = true →
      (s.evf.routes.getD i Route.reset).src.toNat = 46 + b → (mget t.evf.pend i).isSome = true) ∧
  (∀ (m : Master) (s : State), mayAccess s m 0x40070080 kWrite = true → clocksRun s = true →
    exec (.evfSwpulse 1 m) s = exec (.eventDelivery 46) s) ∧
  (∀ (m : Master) (s : State), mayAccess s m 0x40070084 kWrite = true →
    exec (.evfLostClear m) s = .next { s with evf := { s.evf with lost := Ctr16.reset } })

/-- Rules, violations, faults and stores of native masters. The oldest waiting rule write of a context takes effect and counts; a SYNC read
makes every waiting one effective and answers the count; LOCK of a core pair that both checks let pass fixes its region. An access of a
core pair that runs is a violation where the MPU or the firewall denies it: it freezes the core pair and is recorded with its address;
where neither denies it nothing changes. An access to an unmapped address, or a misaligned one, raises the exception of its kind in the
core pair that made it; an address that is a multiple of 4 is misaligned for none. A store of 1, 2 or 4 aligned bytes of a core pair
that both checks pass enters its TCM; one of 1 or 2 bytes to a register is discarded. Completion: under hypotheses on the state and the
operands alone, the clauses conclude that execution answers a next state with that effect, for mpuRuleWriteEffective, mpuSyncRead,
mpuRegionLock, protectionViolation, accessFault, misalignedAccess, registerWrite. -/
def Obligations.ProtectionAndAccesses : Prop :=
  (∀ (w : RuleWrite) (rest : List RuleWrite) (s : State), clocksRun s = true → s.mpu.ctx0.waiting = w :: rest →
    exec (.mpuRuleWriteEffective .n0) s = .next { s with mpu := { s.mpu with
      ctx0 := { s.mpu.ctx0.apply w with waiting := rest, gen := (s.mpu.ctx0.apply w).gen + 1 } } }) ∧
  (∀ (c : Cp) (s : State), mayAccess s c.master 0x40020008 kRead = true → dmaOwner s ≠ some c → ∃ t, exec (.mpuSyncRead c) s = .next t ∧
    (mpuCtx t c.master).waiting = [] ∧ t.out = s.out ++ [.regRead ((mpuCtx t c.master).gen.zeroExtend 32)]) ∧
  (∀ (c : Cp) (n : Nat) (s : State), mayAccess s c.master (0x40020108 + 16 * n) kWrite = true → selectedCtx s c = c.master →
    n < (mpuCtx s c.master).regions.length → ∃ t, exec (.mpuRegionLock c n) s = .next t ∧
      ((mpuCtx t c.master).regions.getD n Region.reset).lock = true ∧ (mpuCtx t c.master).waiting = []) ∧
  (∀ (c : Cp) (v : Violation) (s : State), coreRuns s c = true → v.master = c.num →
    checkAccess s c.master v.addr.toNat v.kind (cpOf s c).machine = none → exec (.protectionViolation v) s = .next s) ∧
  (∀ (c : Cp) (v x : Violation) (s : State), coreRuns s c = true → v.master = c.num →
    checkAccess s c.master v.addr.toNat v.kind (cpOf s c).machine = some x → s.mpu.lastAt = none →
    ∃ t, exec (.protectionViolation v) s = .next t ∧ (∀ d, (cpOf t d).frozen = (if d = c then true else (cpOf s d).frozen)) ∧
      t.mpu.faddr = v.addr ∧ t.mpu.fmaster = c.num ∧ t.mpu.any = true ∧ t.mpu.fmulti = s.mpu.any) ∧
  (∀ (c : Cp) (a : W32) (k n : Nat) (s : State), coreRuns s c = true → targetOf s c a.toNat = none →
    ∃ t, exec (.accessFault c.master a k n) s = .next t ∧ (cpOf t c).mcause = (if k = 0 then 5 else if k = 1 then 7 else 1) ∧
      (cpOf t c).mtval = a ∧ (cpOf t c).mepc = (cpOf s c).pc ∧ (cpOf t c).machine = true ∧
      (cpOf t c).pc = (cpOf s c).mtvec &&& 0xFFFFFFFC) ∧
  (∀ (c : Cp) (a : W32) (st : Bool) (s : State), a.toNat % 4 = 0 → exec (.misalignedAccess c a st) s = .next s) ∧
  (∀ (c : Cp) (a : W32) (st : Bool) (s : State), coreRuns s c = true → a.toNat % 4 ≠ 0 → ∃ t, exec (.misalignedAccess c a st) s = .next t ∧
    (cpOf t c).mcause = (if st then 6 else 4) ∧ (cpOf t c).mtval = a ∧ (cpOf t c).mepc = (cpOf s c).pc ∧
    (cpOf t c).pc = (cpOf s c).mtvec &&& 0xFFFFFFFC ∧ (cpOf t c).memsOf = (cpOf s c).memsOf) ∧
  (∀ (c : Cp) (a v held : W32) (k : Nat) (s : State), coreRuns s c = true → (k = 1 ∨ k = 2 ∨ k = 4) → a.toNat % k = 0 → a.toNat < 0x200000 →
    checkAccess s c.master a.toNat kWrite (cpOf s c).machine = none → exec (.registerWrite c.master a v k held) s =
      .next (modCp s c (fun p => { p with tcm := putBytes p.tcm a.toNat (leBytes k v.toNat) }))) ∧
  (∀ (c : Cp) (a v held : W32) (k : Nat) (s : State), coreRuns s c = true → (k = 1 ∨ k = 2) → 0x40000000 ≤ a.toNat → a.toNat < 0x50000000 →
    checkAccess s c.master a.toNat kWrite (cpOf s c).machine = none → (cpOf s c).call = none →
    exec (.registerWrite c.master a v k held) s = .next s)

/-- Lockstep, memory errors, the watchdog, monitors, tests and the automatic restart. A mismatch of an armed comparator puts a module
outside COLD, SELFTEST and SILENT in SILENT with reason 1, and one in SELFTEST in SILENT with reason 4 and its unit as the one that
failed; an uncorrectable error of the image memory leads to SILENT with reason 2, the watchdog with reason 5 and a supply fault with
reason 6, OWN_OUT and ALIVE_OUT low and the sessions gone. One in the frame paths breaks the next frame that starts on its port. A
corrected error is counted for its memory. A full pass takes the operating seconds. A comparator that passes its test counts for the
rotation; a decoder that fails is a latent fault, and one tested within the last second is not tested again. 10 s after the latch an
automatic restart leads to COLD where it is set, its reason allows it and fewer than three came in the last hour. Completion: under
hypotheses on the state and the operands alone, the clauses conclude that execution answers a next state with that effect, for
lockstepMismatch, uncorrectableError, correctedError, managementWatchdog, supplyClockFault, scrubStep, runtimeComparatorTest,
eccDecoderTest, automaticRestart. -/
def Obligations.ErrorsAndTests : Prop :=
  (∀ (u : Nat) (d : W32) (s : State), comparatorArmed s u = true → s.ctl.mode = .selftest → ∃ t, exec (.lockstepMismatch u d) s = .next t ∧
    t.ctl.mode = .silent ∧ t.integ.reason = 4 ∧ t.integ.unit = u ∧ t.integ.stUnit = u ∧ t.integ.stResult = 2) ∧
  (∀ (p : Port) (d : W32) (s : State), s.net.ports.length = 5 → ∃ t, exec (.uncorrectableError (.frame p) d) s = .next t ∧
    (portOf t p).broken = true ∧ (∀ q, q ≠ p → portOf t q = portOf s q) ∧ t.out = s.out) ∧
  (∀ (u : Nat) (d : W32) (s : State), comparatorArmed s u = true → s.ctl.mode ≠ .cold → s.ctl.mode ≠ .selftest → s.ctl.mode ≠ .silent →
    ∃ t, exec (.lockstepMismatch u d) s = .next t ∧ t.ctl.mode = .silent ∧ t.integ.reason = 1 ∧ t.integ.unit = u ∧
      t.integ.detail = d ∧ t.pair.ownOut = false ∧ t.pair.aliveOut = false ∧ t.dict.sessions = []) ∧
  (∀ (d : W32) (s : State), s.ctl.mode ≠ .cold → s.ctl.mode ≠ .silent → ∃ t, exec (.uncorrectableError .image d) s = .next t ∧
    t.ctl.mode = .silent ∧ t.integ.reason = 2 ∧ t.integ.unit = 0x40 ∧ t.integ.detail = d) ∧
  (∀ (d : W32) (s : State), d.toNat < 8 → exec (.uncorrectableError .mram d) s = .next { s with
    img := { s.img with copies := mdel s.img.copies d.toNat } }) ∧
  (∀ s : State, ∃ t, exec (.correctedError .image) s = .next t ∧ t.integ = { s.integ with
    lastUnit := 0x40, cImage := s.integ.cImage.inc } ∧ t.n0.intc.pend = s.n0.intc.pend ||| BitVec.twoPow 128 113) ∧
  (∀ s : State, ∃ t, exec (.correctedError .flash) s = .next t ∧ t.integ = { s.integ with
    lastUnit := 0x46, cFlash := s.integ.cFlash.inc }) ∧
  (∀ (w : W64) (s : State), s.ctl.mode.aliveList = true → s.pair.permitAt = some w → 80000000 ≤ (s.time.raw - w).toNat →
    ∃ t, exec .managementWatchdog s = .next t ∧ t.ctl.mode = .silent ∧ t.integ.reason = 5 ∧ t.integ.unit = 0x51) ∧
  (∀ s : State, s.ctl.mode ≠ .cold → s.ctl.mode ≠ .silent → ∃ t, exec (.supplyClockFault 2) s = .next t ∧ t.ctl.mode = .silent ∧
    t.integ.reason = 6 ∧ t.integ.detail = 2) ∧
  (∀ s : State, clocksRun s = true → s.cyc.phase = .slack → exec (.scrubStep .image 0) s = .next { s with
    integ := { s.integ with lastPass := s.log.seconds } }) ∧
  (∀ (u : Nat) (s : State), testAllowed s u = true → 0x20 ≤ u → s.integ.tested.contains u = false → s.integ.tested.length < 39 →
    exec (.runtimeComparatorTest u true) s = .next { s with integ := { s.integ with tested := s.integ.tested ++ [u] } }) ∧
  (∀ (u : Nat) (s : State), s.ctl.mode.run = true → mget s.integ.eccAt u = none ∨ past s (mget s.integ.eccAt u) 16000000000 = true →
    ∃ t, exec (.eccDecoderTest u false) s = .next t ∧ t.integ = { s.integ with
      eccAt := mset s.integ.eccAt u s.time.raw, latent := true, latentUnit := u, testFails := s.integ.testFails.inc }) ∧
  (∀ (u : Nat) (p : Bool) (w : W64) (s : State), mget s.integ.eccAt u = some w → (s.time.raw - w).toNat < 16000000000 →
    exec (.eccDecoderTest u p) s = .next s) ∧
  (∀ (w : W64) (s : State), s.ctl.mode = .silent → setting s 0x1700 6 0 = 1 → s.integ.reason = 1 → s.integ.latchedAt = some w →
    160000000000 ≤ (s.time.raw - w).toNat → s.integ.restarts = [] → ∃ t, exec .automaticRestart s = .next t ∧ t.ctl.mode = .cold)

/-- Debug, JTAG, I2C and the lamps. Through an open debug port a halt of a core pair, and an EBREAK the port has set up, break its lockstep,
set DEBUGGED and lead to DEBUG; before STOP a halt breaks it and sets DEBUGGED too, and the mode stays. A step retires one instruction,
a read of the pc answers it, and a write sets it. Any other EBREAK is the breakpoint exception. A debug access to a locked region
freezes the port and counts; the port's own reset releases it. Management debug is there in DECOMMISSIONED only and changes nothing but
the session. A byte written over I2C below 16 is the pointer, and a read answers that many bytes and moves it. BYPASS shifts by one bit.
A lamp that flashes toggles. Completion: under hypotheses on the state and the operands alone, the clauses conclude that execution
answers a next state with that effect, for debugHalt, ebreak, debugLockedAccess, debugReset, managementDebugOp, i2cWrite, i2cRead,
jtagAccess, ledFlashToggle. -/
def Obligations.DebugAndServicePins : Prop :=
  (∀ (c : Cp) (s : State), dapOpen s = true → debugFrom s.ctl.mode = true → ∃ t, exec (.debugHalt c) s = .next t ∧
    t.ctl.mode = .dbg ∧ t.integ.debugged = true ∧ (cpOf t c).halted = true ∧ (cpOf t c).lockstep = false ∧
    t.pair.ownOut = false ∧ t.pair.aliveOut = false) ∧
  (∀ (c : Cp) (s : State), dapOpen s = true → (s.ctl.mode = .bootwait ∨ s.ctl.mode = .verify ∨ s.ctl.mode = .selftest) →
    ∃ t, exec (.debugHalt c) s = .next t ∧ t.ctl = s.ctl ∧ t.integ.debugged = true ∧ (cpOf t c).halted = true ∧
      (cpOf t c).lockstep = false) ∧
  (∀ (c : Cp) (v : W32) (s : State), dapOpen s = true → s.ctl.mode = .dbg →
    (∃ t, exec (.debugHalt c .step) s = .next t ∧ (cpOf t c).instretCsr = (cpOf s c).instretCsr + 1 ∧ (cpOf t c).halted = true) ∧
    (∃ t, exec (.debugHalt c (.arm true)) s = .next t ∧ (cpOf t c).dbgArmed = true ∧ t.out = s.out) ∧
    (∃ t, exec (.debugHalt c (.writeReg 0x7B1 v)) s = .next t ∧ (cpOf t c).pc = v ∧ t.out = s.out) ∧
    (∃ t, exec (.debugHalt c (.readReg 0x7B1)) s = .next t ∧ (cpOf t c).pc = (cpOf s c).pc ∧
      t.out = s.out ++ [.jtag true (cpOf s c).pc])) ∧
  (∀ (c : Cp) (s : State), coreRuns s c = true → dapOpen s = true → debugFrom s.ctl.mode = true → (cpOf s c).dbgArmed = true →
    ∃ t, exec (.ebreak c) s = .next t ∧ t.ctl.mode = .dbg ∧ t.integ.debugged = true ∧ (cpOf t c).halted = true) ∧
  (∀ (c : Cp) (s : State), coreRuns s c = true → (cpOf s c).dbgArmed = false → ∃ t, exec (.ebreak c) s = .next t ∧
    (cpOf t c).mcause = 3 ∧ (cpOf t c).mepc = (cpOf s c).pc ∧ (cpOf t c).pc = (cpOf s c).mtvec &&& 0xFFFFFFFC ∧ t.ctl = s.ctl) ∧
  (∀ (a : W32) (n : Nat) (s : State), dapOpen s = true → clocksRun s = true → lockedAt s a.toNat = true →
    ∃ t, exec (.debugLockedAccess a n) s = .next t ∧ t.mpu.frDap = true ∧ t.integ.dapSession = false ∧
      t.integ.lockedHits = s.integ.lockedHits.inc) ∧
  (∀ s : State, exec .debugReset s = .next { s with
    mpu := { s.mpu with frDap := false }, integ := { s.integ with dapSession := false } }) ∧
  (∀ s : State, s.ctl.life = .decommissioned → s.mpu.frDap = false → exec .managementDebugOp s = .next { s with
    integ := { s.integ with dapSession := true } }) ∧
  (∀ (b : Byte) (s : State), s.pins.pgood = true → b.toNat < 16 → exec (.i2cWrite b) s = .next { s with
    pins := { s.pins with i2cPtr := b.truncate 4 } }) ∧
  (∀ (n : Nat) (s : State), s.pins.pgood = true → ∃ t b, exec (.i2cRead n) s = .next t ∧ t.out = s.out ++ [.i2c b] ∧ b.length = n ∧
    t.pins = { s.pins with i2cPtr := s.pins.i2cPtr + BitVec.ofNat 4 n } ∧
    (s.pins.i2cPtr = 0 → 0 < n → b.getD 0 0 = BitVec.ofNat 8 s.ctl.mode.code)) ∧
  (∀ (v : W32) (s : State), s.pins.pgood = true → exec (.jtagAccess 1 v) s = .next { s with
    out := s.out ++ [.jtag true (v <<< 1)] }) ∧
  (∀ s : State, (s.ctl.mode = .catchup → exec (.ledFlashToggle true) s = .next { s with
      ctl := { s.ctl with ledPair := !s.ctl.ledPair } }) ∧
    (s.ctl.mode = .stop ∨ s.ctl.mode = .catchup ∨ s.ctl.mode = .test → exec (.ledFlashToggle false) s = .next { s with
      ctl := { s.ctl with ledRun := !s.ctl.ledRun } }))

/-- A timer's scan. For every TON, TOF and TP, every operand IN and PT, every option, every task period and every slot, one scan writes Q
and leaves ET, PREV and Q in the slot as R109 evaluates them, from an ET held at no more than PT (R110). -/
def Obligations.TimersScan : Prop :=
  ∀ (test : Bool) (typ param n : Nat) (a b : TWord) (oc od oe : Option TWord) (slot : W64),
    (let inp := a.val.getLsbD 0
     let prev := slot.getLsbD 48
     let q := slot.getLsbD 49
     let t := n * 250
     let pt := if param / 262144 % 2 = 1 then b.val.toNat * 1000 else b.val.toNat
     let et := min (slot.toNat % 281474976710656) pt
     let scan := fun op => evalBlock op typ 0 param n test (some a) (some b) oc od oe slot
     let is := fun (op e : Nat) (r : Bool) => (scan op).1.val = (if r then 1 else 0) ∧ (scan op).2.toNat % 281474976710656 = e ∧
       (scan op).2.getLsbD 48 = inp ∧ (scan op).2.getLsbD 49 = r
     (let e := if inp && !prev then 0 else if inp then min (et + t) pt else 0
      is 0x09 e (inp && decide (pt ≤ e))) ∧
     (if inp then is 0x0A 0 true
      else if prev then is 0x0A 0 (decide (0 < pt))
      else if q then is 0x0A (min (et + t) pt) (decide (min (et + t) pt < pt))
      else is 0x0A et q) ∧
     (if inp && !prev && !q then is 0x0B 0 (decide (0 < pt))
      else if q then is 0x0B (min (et + t) pt) (decide (min (et + t) pt < pt))
      else if !inp then is 0x0B 0 q
      else is 0x0B et q))

/-- A counter's scan. For every CTU, CTD and CTUD, every operand, option and slot, one scan leaves CV and the previous count inputs in the
slot as R113 evaluates them. -/
def Obligations.CountersScan : Prop :=
  ∀ (test : Bool) (typ param n : Nat) (a b c d : TWord) (oe : Option TWord) (slot : W64),
    (let x := a.val.getLsbD 0
     let y := b.val.getLsbD 0
     let z := c.val.getLsbD 0
     let cv : Int := (slot.truncate 32 : W32).toInt
     let pu := slot.getLsbD 32
     let pd := slot.getLsbD 33
     let after := fun op => (evalBlock op typ 0 param n test (some a) (some b) (some c) (some d) oe slot).2
     let count := fun op => ((after op).truncate 32 : W32).toInt
     (count 0x0C = if y then 0 else if x && !pu && decide (cv < 2147483647) then cv + 1 else cv) ∧
     (after 0x0C).getLsbD 32 = x ∧
     (count 0x0D = if y then c.val.toInt else if x && !pd && decide (-2147483648 < cv) then cv - 1 else cv) ∧
     (after 0x0D).getLsbD 33 = x ∧
     (count 0x0E = if z then 0
       else if (x && !pu) && !(y && !pd) && decide (cv < 2147483647) then cv + 1
       else if (y && !pd) && !(x && !pu) && decide (-2147483648 < cv) then cv - 1
       else cv) ∧
     (after 0x0E).getLsbD 32 = x ∧ (after 0x0E).getLsbD 33 = y)

/-- Division by zero. For every DIV block with a zero divisor, of either sign in F32, every dividend and every tag of the operands, the
result has the value of the table's row, LIM set where the row sets it, and VAL INVALID where the row says so. -/
def Obligations.DivisionByZero : Prop :=
  ∀ (test : Bool) (param n : Nat) (a b : TWord) (oc od oe : Option TWord) (slot : W64),
    (let out := fun typ => (evalBlock 0x18 typ 0 param n test (some a) (some b) oc od oe slot).1
     let invalid := fun (w : TWord) => w.tag.toNat / 64 = 2
     (isZero32 b.val = true → isNan32 a.val = false → isZero32 a.val = false →
       (out tyF32).val = (if xor (a.val.getLsbD 31) (b.val.getLsbD 31) then 0xFF800000 else 0x7F800000) ∧ bitOf (out tyF32).tag 1 = true) ∧
     (isZero32 b.val = true → (isNan32 a.val = true ∨ isZero32 a.val = true) →
       (out tyF32).val = 0x7FC00000 ∧ invalid (out tyF32)) ∧
     (b.val = 0 → ∀ typ, (typ = tyI32 ∨ typ = tyX32) →
       (out typ).val = (if 0 < a.val.toInt then 0x7FFFFFFF else if a.val.toInt < 0 then 0x80000000 else 0) ∧
       bitOf (out typ).tag 1 = true ∧ invalid (out typ)) ∧
     (b.val = 0 → (out tyU32).val = (if a.val = 0 then 0 else 0xFFFFFFFF) ∧ bitOf (out tyU32).tag 1 = true ∧ invalid (out tyU32)))
end

