-- ==== Sys2Proof/Laws/Frame.lean ====
section
/-!
SUPPORT. How frames compose: the lemmas by which the frame of an operation follows from those of the operations it is made of.
-/

namespace Sys2Proof.Machine

theorem State.onlyChanges.refl (s : State) (ps : List Part) : s.onlyChanges ps s := ⟨fun _ _ => rfl⟩

theorem State.onlyChanges.andThen {s t u : State} {ps qs : List Part} (h : t.onlyChanges qs u)
    (hs : qs.all (fun q => ps.contains q) = true) (g : s.onlyChanges ps t) : s.onlyChanges ps u :=
  ⟨fun p hp => (h.same p (fun hq => hp (by simpa using List.all_eq_true.mp hs p hq))).trans (g.same p hp)⟩

theorem State.onlyChanges.foldl {β : Type} {f : State → β → State} {ps : List Part} {l : List β} {s t : State}
    (h : ∀ (u : State) (x : β), u.onlyChanges ps (f u x)) (g : s.onlyChanges ps t) : s.onlyChanges ps (l.foldl f t) := by
  induction l generalizing t with
  | nil => exact g
  | cons x xs ih => exact ih ⟨fun p hp => ((h t x).same p hp).trans (g.same p hp)⟩

theorem State.onlyChanges.ite {c : Prop} [Decidable c] {s t u : State} {ps : List Part} (h : s.onlyChanges ps t)
    (g : s.onlyChanges ps u) : s.onlyChanges ps (if c then t else u) := by split <;> assumption

theorem State.onlyChanges.foldlFst {β γ : Type} {f : State × γ → β → State × γ} {ps : List Part} {l : List β} {s : State} {t : State × γ}
    (h : ∀ (u : State × γ) (x : β), u.1.onlyChanges ps (f u x).1) (g : s.onlyChanges ps t.1) : s.onlyChanges ps (l.foldl f t).1 := by
  induction l generalizing t with
  | nil => exact g
  | cons x xs ih => exact ih ⟨fun p hp => ((h t x).same p hp).trans (g.same p hp)⟩

theorem State.onlyChanges.getD {o : Option State} {s t : State} {ps : List Part} (h : ∀ u, o = some u → s.onlyChanges ps u)
    (g : s.onlyChanges ps t) : s.onlyChanges ps (o.getD t) := by
  cases o with
  | none => exact g
  | some u => exact h u rfl

theorem State.onlyNext.next {s t : State} {ps : List Part} (h : s.onlyChanges ps t) : s.onlyNext ps (.next t) :=
  ⟨fun u hu => by cases hu; exact h⟩

theorem State.onlyNext.ite {c : Prop} [Decidable c] {s : State} {r q : Res} {ps : List Part} (h : s.onlyNext ps r)
    (g : s.onlyNext ps q) : s.onlyNext ps (if c then r else q) := by split <;> assumption

theorem State.onlyNext.weaken {s : State} {r : Res} {ps qs : List Part} (h : s.onlyNext qs r)
    (hs : qs.all (fun q => ps.contains q) = true) : s.onlyNext ps r :=
  ⟨fun t ht => State.onlyChanges.andThen (h.same t ht) hs (State.onlyChanges.refl _ _)⟩

end Sys2Proof.Machine
end

