-- ==== Sys2Proof/Laws/FrameBase.lean ====
section
/-!
SUPPORT. What each operation of Update, Ops, Net, Program, PairOps, Config, Image, Entries, Reset, Field can change: one lemma for each, cited in place of its definition.
-/

namespace Sys2Proof.Machine

theorem State.modPending_frame (s : State) (f : List Instr → List Instr) :
    s.onlyChanges [.pending] (State.modPending s f) := by
  refine ⟨fun p hp => ?_⟩
  cases p <;> first | rfl | exact absurd (by decide) hp

theorem State.modOut_frame (s : State) (f : List Out → List Out) :
    s.onlyChanges [.out] (State.modOut s f) := by
  refine ⟨fun p hp => ?_⟩
  cases p <;> first | rfl | exact absurd (by decide) hp

theorem State.modIdent_frame (s : State) (f : Ident → Ident) :
    s.onlyChanges [.ident] (State.modIdent s f) := by
  refine ⟨fun p hp => ?_⟩
  cases p <;> first | rfl | exact absurd (by decide) hp

theorem State.modPins_frame (s : State) (f : Pins → Pins) :
    s.onlyChanges [.pins] (State.modPins s f) := by
  refine ⟨fun p hp => ?_⟩
  cases p <;> first | rfl | exact absurd (by decide) hp

theorem State.modCtl_frame (s : State) (f : Ctl → Ctl) :
    s.onlyChanges [.ctl, .mode, .life] (State.modCtl s f) := by
  refine ⟨fun p hp => ?_⟩
  cases p <;> first | rfl | exact absurd (by decide) hp

theorem State.modTime_frame (s : State) (f : TimeSt → TimeSt) :
    s.onlyChanges [.time] (State.modTime s f) := by
  refine ⟨fun p hp => ?_⟩
  cases p <;> first | rfl | exact absurd (by decide) hp

theorem State.modImg_frame (s : State) (f : Img → Img) :
    s.onlyChanges [.img] (State.modImg s f) := by
  refine ⟨fun p hp => ?_⟩
  cases p <;> first | rfl | exact absurd (by decide) hp

theorem State.modCyc_frame (s : State) (f : CycSt → CycSt) :
    s.onlyChanges [.cyc, .tick] (State.modCyc s f) := by
  refine ⟨fun p hp => ?_⟩
  cases p <;> first | rfl | exact absurd (by decide) hp

theorem State.modN0_frame (s : State) (f : CpSt → CpSt) :
    s.onlyChanges [.n0, .mem] (State.modN0 s f) := by
  refine ⟨fun p hp => ?_⟩
  cases p <;> first | rfl | exact absurd (by decide) hp

theorem State.modN1_frame (s : State) (f : CpSt → CpSt) :
    s.onlyChanges [.n1, .mem] (State.modN1 s f) := by
  refine ⟨fun p hp => ?_⟩
  cases p <;> first | rfl | exact absurd (by decide) hp

theorem State.modMpu_frame (s : State) (f : Mpu → Mpu) :
    s.onlyChanges [.mpu] (State.modMpu s f) := by
  refine ⟨fun p hp => ?_⟩
  cases p <;> first | rfl | exact absurd (by decide) hp

theorem State.modDma_frame (s : State) (f : DmaSt → DmaSt) :
    s.onlyChanges [.dma] (State.modDma s f) := by
  refine ⟨fun p hp => ?_⟩
  cases p <;> first | rfl | exact absurd (by decide) hp

theorem State.modEvf_frame (s : State) (f : EvfSt → EvfSt) :
    s.onlyChanges [.evf] (State.modEvf s f) := by
  refine ⟨fun p hp => ?_⟩
  cases p <;> first | rfl | exact absurd (by decide) hp

theorem State.modCan0_frame (s : State) (f : CanSt → CanSt) :
    s.onlyChanges [.can0] (State.modCan0 s f) := by
  refine ⟨fun p hp => ?_⟩
  cases p <;> first | rfl | exact absurd (by decide) hp

theorem State.modCan1_frame (s : State) (f : CanSt → CanSt) :
    s.onlyChanges [.can1] (State.modCan1 s f) := by
  refine ⟨fun p hp => ?_⟩
  cases p <;> first | rfl | exact absurd (by decide) hp

theorem State.modBell_frame (s : State) (f : BellSt → BellSt) :
    s.onlyChanges [.bell] (State.modBell s f) := by
  refine ⟨fun p hp => ?_⟩
  cases p <;> first | rfl | exact absurd (by decide) hp

theorem State.modStreams_frame (s : State) (f : List (ℕ × StreamSt) → List (ℕ × StreamSt)) :
    s.onlyChanges [.streams] (State.modStreams s f) := by
  refine ⟨fun p hp => ?_⟩
  cases p <;> first | rfl | exact absurd (by decide) hp

theorem State.modChans_frame (s : State) (f : List (ℕ × ChSt) → List (ℕ × ChSt)) :
    s.onlyChanges [.chans] (State.modChans s f) := by
  refine ⟨fun p hp => ?_⟩
  cases p <;> first | rfl | exact absurd (by decide) hp

theorem State.modLoops_frame (s : State) (f : List (ℕ × LoopSt) → List (ℕ × LoopSt)) :
    s.onlyChanges [.loops] (State.modLoops s f) := by
  refine ⟨fun p hp => ?_⟩
  cases p <;> first | rfl | exact absurd (by decide) hp

theorem State.modPair_frame (s : State) (f : PairSt → PairSt) :
    s.onlyChanges [.pair] (State.modPair s f) := by
  refine ⟨fun p hp => ?_⟩
  cases p <;> first | rfl | exact absurd (by decide) hp

theorem State.modNet_frame (s : State) (f : NetSt → NetSt) :
    s.onlyChanges [.net] (State.modNet s f) := by
  refine ⟨fun p hp => ?_⟩
  cases p <;> first | rfl | exact absurd (by decide) hp

theorem State.modDict_frame (s : State) (f : DictSt → DictSt) :
    s.onlyChanges [.dict] (State.modDict s f) := by
  refine ⟨fun p hp => ?_⟩
  cases p <;> first | rfl | exact absurd (by decide) hp

theorem State.modLog_frame (s : State) (f : LogSt → LogSt) :
    s.onlyChanges [.log] (State.modLog s f) := by
  refine ⟨fun p hp => ?_⟩
  cases p <;> first | rfl | exact absurd (by decide) hp

theorem State.modDist_frame (s : State) (f : DistSt → DistSt) :
    s.onlyChanges [.dist] (State.modDist s f) := by
  refine ⟨fun p hp => ?_⟩
  cases p <;> first | rfl | exact absurd (by decide) hp

theorem State.modField_frame (s : State) (f : FieldSt → FieldSt) :
    s.onlyChanges [.field] (State.modField s f) := by
  refine ⟨fun p hp => ?_⟩
  cases p <;> first | rfl | exact absurd (by decide) hp

theorem State.modInteg_frame (s : State) (f : IntegSt → IntegSt) :
    s.onlyChanges [.integ] (State.modInteg s f) := by
  refine ⟨fun p hp => ?_⟩
  cases p <;> first | rfl | exact absurd (by decide) hp

theorem State.modBoot_frame (s : State) (f : BootSt → BootSt) :
    s.onlyChanges [.boot, .keys] (State.modBoot s f) := by
  refine ⟨fun p hp => ?_⟩
  cases p <;> first | rfl | exact absurd (by decide) hp

theorem State.modCtl_plain {f : Ctl → Ctl} (h0 : ∀ c, Ctl.mode (f c) = Ctl.mode c) (h1 : ∀ c, Ctl.lifeOf (f c) = Ctl.lifeOf c) (s : State) : s.onlyChanges [.ctl] (State.modCtl s f) := by
  refine ⟨fun p hp => ?_⟩
  cases p <;> first | rfl | exact h0 _ | exact h1 _ | exact absurd (by decide) hp

theorem State.modCtl_mode {f : Ctl → Ctl} (h0 : ∀ c, Ctl.lifeOf (f c) = Ctl.lifeOf c) (s : State) : s.onlyChanges [.ctl, .mode] (State.modCtl s f) := by
  refine ⟨fun p hp => ?_⟩
  cases p <;> first | rfl | exact h0 _ | exact absurd (by decide) hp

theorem State.modCtl_life {f : Ctl → Ctl} (h0 : ∀ c, Ctl.mode (f c) = Ctl.mode c) (s : State) : s.onlyChanges [.ctl, .life] (State.modCtl s f) := by
  refine ⟨fun p hp => ?_⟩
  cases p <;> first | rfl | exact h0 _ | exact absurd (by decide) hp

theorem State.modBoot_plain {f : BootSt → BootSt} (h0 : ∀ c, BootSt.keysOf (f c) = BootSt.keysOf c) (s : State) : s.onlyChanges [.boot] (State.modBoot s f) := by
  refine ⟨fun p hp => ?_⟩
  cases p <;> first | rfl | exact h0 _ | exact absurd (by decide) hp

theorem State.modCyc_plain {f : CycSt → CycSt} (h0 : ∀ c, CycSt.tick (f c) = CycSt.tick c) (s : State) : s.onlyChanges [.cyc] (State.modCyc s f) := by
  refine ⟨fun p hp => ?_⟩
  cases p <;> first | rfl | exact h0 _ | exact absurd (by decide) hp

theorem State.modN0_plain {f : CpSt → CpSt} (h : ∀ c, CpSt.memsOf (f c) = CpSt.memsOf c) (s : State) : s.onlyChanges [.n0] (State.modN0 s f) := by
  refine ⟨fun p hp => ?_⟩
  cases p <;> first | rfl | exact Prod.ext (h _) rfl | exact absurd (by decide) hp

theorem State.modN1_plain {f : CpSt → CpSt} (h : ∀ c, CpSt.memsOf (f c) = CpSt.memsOf c) (s : State) : s.onlyChanges [.n1] (State.modN1 s f) := by
  refine ⟨fun p hp => ?_⟩
  cases p <;> first | rfl | exact Prod.ext rfl (h _) | exact absurd (by decide) hp

theorem putSetting_frame (s : State) (index) (sub) (v) :
    s.onlyChanges [.dict] (putSetting s index sub v) := by
  unfold putSetting
  exact .andThen (State.modDict_frame ..) rfl (.refl ..)

theorem send_frame (s : State) (o) :
    s.onlyChanges [.out] (send s o) := by
  unfold send
  exact .andThen (State.modOut_frame ..) rfl (.refl ..)

theorem raiseIrq_frame (s : State) (src) :
    s.onlyChanges [.n0, .n1] (raiseIrq s src) := by
  unfold raiseIrq
  exact .andThen (State.modN1_plain (fun _ => by rfl) ..) rfl (.andThen (State.modN0_plain (fun _ => by rfl) ..) rfl (.refl ..))

theorem addHold_frame (s : State) (e) (input) (r) :
    s.onlyChanges [.field] (addHold s e input r) := by
  unfold addHold
  exact .andThen (State.modField_frame ..) rfl (.refl ..)

theorem seqConsume_frame (s : State) (t) :
    s.onlyChanges [.evf, .field] (seqConsume s t) := by
  unfold seqConsume
  dsimp only
  refine .ite ?_ ?_
  exact .refl ..
  refine .ite ?_ ?_
  refine .ite ?_ ?_
  exact .andThen (State.modEvf_frame ..) rfl (.andThen (addHold_frame ..) rfl (.refl ..))
  exact .andThen (addHold_frame ..) rfl (.refl ..)
  exact .refl ..

theorem holdsBegin_frame (s : State) :
    s.onlyChanges [.evf] (holdsBegin s) := by
  unfold holdsBegin
  dsimp only
  refine .foldl (fun _ _ => ?_) ?_
  split
  refine .ite ?_ ?_
  exact .andThen (State.modEvf_frame ..) rfl (.refl ..)
  exact .refl ..
  exact .refl ..
  exact .refl ..

theorem pulse_frame (s : State) (producer) (v) :
    s.onlyChanges [.evf, .field] (pulse s producer v) := by
  unfold pulse
  refine .ite ?_ ?_
  exact .refl ..
  refine .foldl (fun _ _ => ?_) ?_
  dsimp only
  refine .ite ?_ ?_
  exact .andThen (seqConsume_frame ..) rfl (.andThen (State.modEvf_frame ..) rfl (.refl ..))
  exact .refl ..
  exact .refl ..

theorem pulseNow_frame (s : State) (producer) :
    s.onlyChanges [.evf, .field] (pulseNow s producer) := by
  unfold pulseNow
  exact .andThen (pulse_frame ..) rfl (.refl ..)

theorem queueLog_frame (s : State) (r) :
    s.onlyChanges [.log] (queueLog s r) := by
  unfold queueLog
  refine .ite ?_ ?_
  exact .andThen (State.modLog_frame ..) rfl (.refl ..)
  exact .andThen (State.modLog_frame ..) rfl (.refl ..)

theorem logEvent_frame (s : State) (typ) (body) :
    s.onlyChanges [.log] (logEvent s typ body) := by
  unfold logEvent
  exact .andThen (queueLog_frame ..) rfl (.refl ..)

theorem writeLog_frame (s : State) (r) :
    s.onlyChanges [.out, .log] (writeLog s r) := by
  unfold writeLog
  dsimp only
  refine .foldl (fun _ _ => ?_) ?_
  exact .andThen (send_frame ..) rfl (.refl ..)
  exact .andThen (State.modLog_frame ..) rfl (.refl ..)

theorem closeAcc_frame (s : State) (a) :
    s.onlyChanges [.dist] (closeAcc s a) := by
  unfold closeAcc
  refine .ite ?_ ?_
  exact .refl ..
  dsimp only
  exact .andThen (State.modDist_frame ..) rfl (.refl ..)

theorem closeAll_frame (s : State) :
    s.onlyChanges [.dist] (closeAll s) := by
  unfold closeAll
  dsimp only
  refine .andThen (State.modDist_frame ..) rfl ?_
  refine .foldl (fun _ _ => ?_) ?_
  exact .andThen (closeAcc_frame ..) rfl (.refl ..)
  exact .refl ..

theorem recSample_frame (s : State) (gen) (isPoint) (source) (rate) (period) (inst) (w) (follows) :
    s.onlyChanges [.dist] (recSample s gen isPoint source rate period inst w follows) := by
  unfold recSample
  dsimp only
  refine .ite ?_ ?_
  exact .refl ..
  split
  exact .andThen (State.modDist_frame ..) rfl (.refl ..)
  refine .ite ?_ ?_
  exact .andThen (State.modDist_frame ..) rfl (.andThen (closeAcc_frame ..) rfl (.refl ..))
  refine .ite ?_ ?_
  exact .andThen (State.modDist_frame ..) rfl (.andThen (closeAcc_frame ..) rfl (.refl ..))
  exact .andThen (State.modDist_frame ..) rfl (.refl ..)

theorem discardWrite_frame (s : State) :
    s.onlyChanges [.n0, .n1, .integ] (discardWrite s) := by
  unfold discardWrite
  exact .andThen (raiseIrq_frame ..) rfl (.andThen (State.modInteg_frame ..) rfl (.refl ..))

theorem produce_frame (s : State) (kind) (p) (w) :
    s.onlyChanges [.img, .n0, .n1, .integ] (produce s kind p w) := by
  unfold produce
  refine .ite ?_ ?_
  exact .andThen (State.modImg_frame ..) rfl (.refl ..)
  exact .andThen (discardWrite_frame ..) rfl (.refl ..)

theorem retagForces_frame (s : State) :
    s.onlyChanges [.img] (retagForces s) := by
  unfold retagForces
  dsimp only
  exact .andThen (State.modImg_frame ..) rfl (.refl ..)

theorem applyForce_frame (s : State) (p) (val) (v) :
    s.onlyChanges [.img, .log] (applyForce s p val v) := by
  unfold applyForce
  dsimp only
  exact .andThen (logEvent_frame ..) rfl (.andThen (State.modImg_frame ..) rfl (.refl ..))

theorem releaseForce_frame (s : State) (p) :
    s.onlyChanges [.img, .log] (releaseForce s p) := by
  unfold releaseForce
  split
  exact .refl ..
  dsimp only
  exact .andThen (logEvent_frame ..) rfl (.andThen (State.modImg_frame ..) rfl (.refl ..))

theorem clearForces_frame (s : State) :
    s.onlyChanges [.img, .log] (clearForces s) := by
  unfold clearForces
  dsimp only
  refine .foldl (fun _ _ => ?_) ?_
  exact .andThen (logEvent_frame ..) rfl (.refl ..)
  exact .andThen (State.modImg_frame ..) rfl (.refl ..)

theorem releaseAll_frame (s : State) :
    s.onlyChanges [.img, .log] (releaseAll s) := by
  unfold releaseAll
  refine .foldl (fun _ _ => ?_) ?_
  exact .andThen (releaseForce_frame ..) rfl (.refl ..)
  exact .refl ..

theorem fieldOff_frame (s : State) :
    s.onlyChanges [.field] (fieldOff s) := by
  unfold fieldOff
  exact .andThen (State.modField_frame ..) rfl (.refl ..)

theorem fieldDead_frame (s : State) :
    s.onlyChanges [.field] (fieldDead s) := by
  unfold fieldDead
  exact .andThen (State.modField_frame ..) rfl (.refl ..)

theorem setAgreed_frame (s : State) (st) :
    s.onlyChanges [.time, .n0, .n1] (setAgreed s st) := by
  unfold setAgreed
  refine .ite ?_ ?_
  exact .refl ..
  exact .andThen (raiseIrq_frame ..) rfl (.andThen (State.modTime_frame ..) rfl (.refl ..))

theorem moveMode_frame (s : State) (m) (reason) :
    s.onlyChanges [.ctl, .time, .img, .n0, .n1, .dist, .mode] (moveMode s m reason) := by
  unfold moveMode
  dsimp only
  refine .andThen (raiseIrq_frame ..) rfl ?_
  refine .ite ?_ ?_
  refine .ite ?_ ?_
  refine .andThen (retagForces_frame ..) rfl (.andThen (State.modCtl_mode (fun _ => by rfl) ..) rfl ?_)
  refine .ite ?_ ?_
  refine .andThen (State.modDist_frame ..) rfl ?_
  refine .ite ?_ ?_
  exact .andThen (closeAll_frame ..) rfl (.refl ..)
  exact .refl ..
  refine .ite ?_ ?_
  exact .andThen (closeAll_frame ..) rfl (.refl ..)
  exact .refl ..
  refine .andThen (State.modCtl_mode (fun _ => by rfl) ..) rfl ?_
  refine .ite ?_ ?_
  refine .andThen (State.modDist_frame ..) rfl ?_
  refine .ite ?_ ?_
  exact .andThen (closeAll_frame ..) rfl (.refl ..)
  exact .refl ..
  refine .ite ?_ ?_
  exact .andThen (closeAll_frame ..) rfl (.refl ..)
  exact .refl ..
  refine .andThen (setAgreed_frame ..) rfl ?_
  refine .ite ?_ ?_
  refine .andThen (retagForces_frame ..) rfl (.andThen (State.modCtl_mode (fun _ => by rfl) ..) rfl ?_)
  refine .ite ?_ ?_
  refine .andThen (State.modDist_frame ..) rfl ?_
  refine .ite ?_ ?_
  exact .andThen (closeAll_frame ..) rfl (.refl ..)
  exact .refl ..
  refine .ite ?_ ?_
  exact .andThen (closeAll_frame ..) rfl (.refl ..)
  exact .refl ..
  refine .andThen (State.modCtl_mode (fun _ => by rfl) ..) rfl ?_
  refine .ite ?_ ?_
  refine .andThen (State.modDist_frame ..) rfl ?_
  refine .ite ?_ ?_
  exact .andThen (closeAll_frame ..) rfl (.refl ..)
  exact .refl ..
  refine .ite ?_ ?_
  exact .andThen (closeAll_frame ..) rfl (.refl ..)
  exact .refl ..

theorem setMode_frame (s : State) (m) (reason) :
    s.onlyChanges [.ctl, .time, .img, .n0, .n1, .log, .dist, .mode] (setMode s m reason) := by
  unfold setMode
  exact .andThen (logEvent_frame ..) rfl (.andThen (moveMode_frame ..) rfl (.refl ..))

theorem mjSendOn_frame (s : State) (lanes) (m) :
    s.onlyChanges [.out, .pair] (mjSendOn s lanes m) := by
  unfold mjSendOn
  refine .ite ?_ ?_
  exact .refl ..
  dsimp only
  exact .andThen (send_frame ..) rfl (.andThen (State.modPair_frame ..) rfl (.refl ..))

theorem mjSend_frame (s : State) (m) :
    s.onlyChanges [.out, .pair] (mjSend s m) := by
  unfold mjSend
  refine .ite ?_ ?_
  exact .andThen (mjSendOn_frame ..) rfl (.refl ..)
  exact .refl ..

theorem modCan_frame (s : State) (n) (f) :
    s.onlyChanges [.can0, .can1] (modCan s n f) := by
  unfold modCan
  refine .ite ?_ ?_
  exact .andThen (State.modCan0_frame ..) rfl (.refl ..)
  exact .andThen (State.modCan1_frame ..) rfl (.refl ..)

theorem setCanState_frame (s : State) (n) (st) :
    s.onlyChanges [.n0, .n1, .can0, .can1, .log] (setCanState s n st) := by
  unfold setCanState
  refine .ite ?_ ?_
  exact .refl ..
  dsimp only
  refine .ite ?_ ?_
  exact .andThen (raiseIrq_frame ..) rfl (.andThen (logEvent_frame ..) rfl (.andThen (modCan_frame ..) rfl (.refl ..)))
  exact .andThen (logEvent_frame ..) rfl (.andThen (modCan_frame ..) rfl (.refl ..))

theorem abortTp_frame (s : State) (n) :
    s.onlyChanges [.can0, .can1, .dict] (abortTp s n) := by
  unfold abortTp
  dsimp only
  refine .andThen (modCan_frame ..) rfl ?_
  refine .ite ?_ ?_
  refine .andThen (State.modDict_frame ..) rfl ?_
  refine .ite ?_ ?_
  exact .andThen (State.modDict_frame ..) rfl (.refl ..)
  exact .refl ..
  refine .ite ?_ ?_
  exact .andThen (State.modDict_frame ..) rfl (.refl ..)
  exact .refl ..

theorem canOff_frame (s : State) (n) :
    s.onlyChanges [.out, .n0, .n1, .can0, .can1, .dict, .log] (canOff s n) := by
  unfold canOff
  dsimp only
  refine .andThen (setCanState_frame ..) rfl (.andThen (modCan_frame ..) rfl (.andThen (abortTp_frame ..) rfl ?_))
  refine .ite ?_ ?_
  exact .andThen (send_frame ..) rfl (.refl ..)
  exact .refl ..

theorem enterSilent_frame (s : State) (reason) (unit) (detail) :
    s.onlyChanges [.out, .ctl, .time, .img, .n0, .n1, .can0, .can1, .pair, .dict, .log, .dist, .field, .integ, .boot, .mode] (enterSilent
      s reason unit detail) := by
  unfold enterSilent
  split
  exact .refl ..
  exact .andThen (State.modInteg_frame ..) rfl (.refl ..)
  dsimp only
  refine .andThen (writeLog_frame ..) rfl (.andThen (writeLog_frame ..) rfl (.andThen (State.modCtl_plain (fun _ => by rfl) (fun _ => by
    rfl) ..) rfl (.andThen (State.modBoot_plain (fun _ => by rfl) ..) rfl (.andThen (State.modTime_frame ..) rfl (.andThen
    (State.modPair_frame ..) rfl (.andThen (State.modDict_frame ..) rfl (.andThen (canOff_frame ..) rfl (.andThen (canOff_frame ..) rfl
    (.andThen (send_frame ..) rfl (.andThen (fieldOff_frame ..) rfl (.andThen (mjSendOn_frame ..) rfl (.andThen (moveMode_frame ..) rfl
    (.andThen (State.modPair_frame ..) rfl ?_)))))))))))))
  refine .ite ?_ ?_
  exact .andThen (raiseIrq_frame ..) rfl (.andThen (State.modInteg_frame ..) rfl (.andThen (send_frame ..) rfl (.refl ..)))
  exact .andThen (State.modInteg_frame ..) rfl (.andThen (send_frame ..) rfl (.refl ..))

theorem modPort_frame (s : State) (p) (f) :
    s.onlyChanges [.net] (modPort s p f) := by
  unfold modPort
  exact .andThen (State.modNet_frame ..) rfl (.refl ..)

theorem sepAdd_frame (s : State) (cw) (src) (seq) :
    s.onlyChanges [.net] (sepAdd s cw src seq) := by
  unfold sepAdd
  dsimp only
  exact .andThen (State.modNet_frame ..) rfl (.refl ..)

theorem startOn_frame (s : State) (p) (src) (seq) :
    s.onlyChanges [.net, .integ] (startOn s p src seq).2 := by
  unfold startOn
  split
  dsimp only
  exact .refl ..
  split
  split
  dsimp only
  exact .refl ..
  split
  dsimp only
  exact .andThen (State.modInteg_frame ..) rfl (.andThen (modPort_frame ..) rfl (.refl ..))
  dsimp only
  refine .andThen (modPort_frame ..) rfl ?_
  refine .ite ?_ ?_
  exact .andThen (sepAdd_frame ..) rfl (.refl ..)
  exact .refl ..
  split
  dsimp only
  exact .refl ..
  split
  dsimp only
  exact .andThen (State.modInteg_frame ..) rfl (.andThen (modPort_frame ..) rfl (.refl ..))
  dsimp only
  refine .andThen (modPort_frame ..) rfl ?_
  refine .ite ?_ ?_
  exact .andThen (sepAdd_frame ..) rfl (.refl ..)
  exact .refl ..

theorem portSend_frame (s : State) (p) (seq) (f) :
    s.onlyChanges [.out, .net, .integ] (portSend s p seq f) := by
  unfold portSend
  dsimp only
  refine .ite ?_ ?_
  exact .andThen (send_frame ..) rfl (.andThen (startOn_frame ..) rfl (.refl ..))
  exact .andThen (startOn_frame ..) rfl (.refl ..)

theorem sourceOn_frame (s : State) (ports) (mac) (seq) (size) :
    s.onlyChanges [.net, .integ] (sourceOn s ports mac seq size).2 := by
  unfold sourceOn
  have key : ∀ (l : List Port) (a : List (Port × PortTag)) (u : State), s.onlyChanges [.net, .integ] u →
      s.onlyChanges [.net, .integ] (l.foldl (fun (a : List (Port × PortTag) × State) p =>
        let q := startOn a.2 p mac seq
        (if q.1 then a.1 ++ [(p, portTag seq size p)] else a.1, q.2)) (a, u)).2 := by
    intro l
    induction l with
    | nil => intro a u h; exact h
    | cons p rest ih => intro a u h; exact ih _ _ (.andThen (startOn_frame ..) (by decide) h)
  exact key ports [] s (.refl ..)

theorem takeSeq_frame (s : State) (pairSourced) :
    s.onlyChanges [.net] (takeSeq s pairSourced).2 := by
  unfold takeSeq
  split
  dsimp only
  exact .andThen (State.modNet_frame ..) rfl (.refl ..)
  dsimp only
  exact .andThen (State.modNet_frame ..) rfl (.refl ..)

theorem sourceUnder_frame (s : State) (seq) (ring) (station) (f) :
    s.onlyChanges [.out, .net, .integ] (sourceUnder s seq ring station f) := by
  unfold sourceUnder
  refine .foldl (fun _ _ => ?_) ?_
  exact .andThen (portSend_frame ..) rfl (.refl ..)
  exact .refl ..

theorem sourceFrame_frame (s : State) (pairSourced) (ring) (station) (dst) (vlan) (etype) (payload) :
    s.onlyChanges [.out, .net, .integ] (sourceFrame s pairSourced ring station dst vlan etype payload) := by
  unfold sourceFrame
  dsimp only
  exact .andThen (sourceUnder_frame ..) rfl (.andThen (takeSeq_frame ..) rfl (.refl ..))

theorem modPub_frame (s : State) (n) (f) :
    s.onlyChanges [.net] (modPub s n f) := by
  unfold modPub
  exact .andThen (State.modNet_frame ..) rfl (.refl ..)

theorem pubSeq_frame (s : State) (n) (again) :
    s.onlyChanges [.cyc, .net] (pubSeq s n again).2 := by
  unfold pubSeq
  split
  dsimp only
  exact .andThen (State.modCyc_plain (fun _ => by rfl) ..) rfl (.refl ..)
  exact .andThen (takeSeq_frame ..) rfl (.refl ..)

theorem sendPubWords_frame (s : State) (n) (c) (paced) (cycle) (cut) (ws) :
    s.onlyChanges [.out, .cyc, .net, .integ] (sendPubWords s n c paced cycle cut ws) := by
  unfold sendPubWords
  dsimp only
  refine .andThen (modPub_frame ..) rfl (.andThen (sourceUnder_frame ..) rfl ?_)
  split
  exact .andThen (takeSeq_frame ..) rfl (.refl ..)
  exact .andThen (pubSeq_frame ..) rfl (.refl ..)

theorem sendPub_frame (s : State) (n) (c) (paced) (cycle) (cut) :
    s.onlyChanges [.out, .cyc, .net, .integ] (sendPub s n c paced cycle cut) := by
  unfold sendPub
  exact .andThen (sendPubWords_frame ..) rfl (.refl ..)

theorem gooseOut_frame (s : State) (n) (c) (again) (st) (sq) (due) (interval) :
    s.onlyChanges [.out, .cyc, .net, .integ] (gooseOut s n c again st sq due interval) := by
  unfold gooseOut
  dsimp only
  exact .andThen (modPub_frame ..) rfl (.andThen (send_frame ..) rfl (.andThen (sourceOn_frame ..) rfl (.andThen (pubSeq_frame ..) rfl
    (.refl ..))))

theorem gooseRelease_frame (s : State) (n) (c) :
    s.onlyChanges [.out, .cyc, .net, .integ] (gooseRelease s n c) := by
  unfold gooseRelease
  dsimp only
  refine .ite ?_ ?_
  exact .refl ..
  exact .andThen (gooseOut_frame ..) rfl (.andThen (modPub_frame ..) rfl (.refl ..))

theorem gooseRepeat_frame (s : State) (n) (c) (tick) :
    s.onlyChanges [.out, .cyc, .net, .integ] (gooseRepeat s n c tick) := by
  unfold gooseRepeat
  dsimp only
  split
  exact .refl ..
  refine .ite ?_ ?_
  exact .andThen (gooseOut_frame ..) rfl (.refl ..)
  exact .refl ..

theorem gooseRepeats_frame (s : State) (tick) (last) :
    s.onlyChanges [.out, .cyc, .net, .integ] (gooseRepeats s tick last) := by
  unfold gooseRepeats
  refine .foldl (fun _ _ => ?_) ?_
  refine .ite ?_ ?_
  exact .andThen (gooseRepeat_frame ..) rfl (.refl ..)
  exact .refl ..
  exact .refl ..

theorem sendPublications_frame (s : State) (due) :
    s.onlyChanges [.out, .cyc, .net, .integ] (sendPublications s due) := by
  unfold sendPublications
  refine .foldl (fun _ _ => ?_) ?_
  dsimp only
  refine .ite ?_ ?_
  refine .ite ?_ ?_
  exact .andThen (sendPub_frame ..) rfl (.refl ..)
  refine .ite ?_ ?_
  exact .andThen (gooseRelease_frame ..) rfl (.refl ..)
  exact .refl ..
  exact .refl ..
  exact .andThen (gooseRepeats_frame ..) rfl (.refl ..)

theorem planSeqs_frame (s : State) :
    s.onlyChanges [.out, .cyc, .net, .integ] (planSeqs s) := by
  unfold planSeqs
  refine .ite ?_ ?_
  exact .andThen (State.modCyc_plain (fun _ => by rfl) ..) rfl (.refl ..)
  dsimp only
  exact .andThen (State.modNet_frame ..) rfl (.andThen (State.modCyc_plain (fun _ => by rfl) ..) rfl (.andThen (gooseRepeats_frame ..) rfl
    (.refl ..)))

theorem sendPaced_frame (s : State) (x) :
    s.onlyChanges [.out, .cyc, .net, .integ] (sendPaced s x) := by
  unfold sendPaced
  split
  exact .refl ..
  refine .ite ?_ ?_
  exact .andThen (sendPubWords_frame ..) rfl (.refl ..)
  refine .ite ?_ ?_
  exact .andThen (takeSeq_frame ..) rfl (.refl ..)
  exact .refl ..

theorem leavePaced_frame (s : State) (t) :
    s.onlyChanges [.out, .cyc, .net, .integ] (leavePaced s t) := by
  unfold leavePaced
  dsimp only
  refine .foldl (fun _ _ => ?_) ?_
  exact .andThen (sendPaced_frame ..) rfl (.refl ..)
  exact .andThen (State.modCyc_plain (fun _ => by rfl) ..) rfl (.refl ..)

theorem pacedNow_frame (s : State) :
    s.onlyChanges [.out, .cyc, .net, .integ] (pacedNow s) := by
  unfold pacedNow
  refine .ite ?_ ?_
  exact .refl ..
  exact .andThen (leavePaced_frame ..) rfl (.refl ..)

theorem modSub_frame (s : State) (n) (f) :
    s.onlyChanges [.net] (modSub s n f) := by
  unfold modSub
  exact .andThen (State.modNet_frame ..) rfl (.refl ..)

theorem setSubState_frame (s : State) (n) (st) :
    s.onlyChanges [.n0, .n1, .net] (setSubState s n st) := by
  unfold setSubState
  refine .ite ?_ ?_
  exact .refl ..
  exact .andThen (raiseIrq_frame ..) rfl (.andThen (modSub_frame ..) rfl (.refl ..))

theorem holdPub_frame (s : State) (f) (n) (c) :
    s.onlyChanges [.net] (holdPub s f n c) := by
  unfold holdPub
  dsimp only
  refine .ite ?_ ?_
  exact .andThen (modSub_frame ..) rfl (.refl ..)
  refine .ite ?_ ?_
  exact .andThen (modSub_frame ..) rfl (.refl ..)
  exact .andThen (modSub_frame ..) rfl (.refl ..)

theorem holdGoose_frame (s : State) (g) (n) (c) :
    s.onlyChanges [.net] (holdGoose s g n c) := by
  unfold holdGoose
  dsimp only
  refine .ite ?_ ?_
  exact .andThen (modSub_frame ..) rfl (.refl ..)
  refine .ite ?_ ?_
  exact .andThen (modSub_frame ..) rfl (.andThen (modSub_frame ..) rfl (.refl ..))
  exact .andThen (modSub_frame ..) rfl (.andThen (modSub_frame ..) rfl (.refl ..))

theorem passUp_frame (s : State) (f) (seq) :
    s.onlyChanges [.net] (passUp s f seq) := by
  unfold passUp
  refine .ite ?_ ?_
  exact .refl ..
  refine .ite ?_ ?_
  exact .andThen (State.modNet_frame ..) rfl (.refl ..)
  split
  exact .refl ..
  refine .ite ?_ ?_
  exact .andThen (State.modNet_frame ..) rfl (.refl ..)
  exact .andThen (State.modNet_frame ..) rfl (.refl ..)

theorem hostFrame_frame (s : State) (f) :
    s.onlyChanges [.net] (hostFrame s f) := by
  unfold hostFrame
  refine .ite ?_ ?_
  exact .refl ..
  exact .andThen (modPort_frame ..) rfl (.refl ..)

theorem setLink_frame (s : State) (p) (up) :
    s.onlyChanges [.n0, .n1, .net, .log] (setLink s p up) := by
  unfold setLink
  dsimp only
  refine .ite ?_ ?_
  exact .refl ..
  refine .ite ?_ ?_
  exact .andThen (raiseIrq_frame ..) rfl (.andThen (modPort_frame ..) rfl (.refl ..))
  exact .andThen (logEvent_frame ..) rfl (.andThen (modPort_frame ..) rfl (.andThen (raiseIrq_frame ..) rfl (.andThen (modPort_frame ..)
    rfl (.refl ..))))

theorem sequence_frame (s : State) (body) (task) (originB) (fwd) (own) (sid) (via) (ctr) :
    s.onlyChanges [.out, .pair] (sequence s body task originB fwd own sid via ctr) := by
  unfold sequence
  dsimp only
  refine .ite ?_ ?_
  exact .andThen (mjSend_frame ..) rfl (.andThen (State.modPair_frame ..) rfl (.refl ..))
  exact .andThen (State.modPair_frame ..) rfl (.refl ..)

theorem sequenceOwn_frame (s : State) (body) :
    s.onlyChanges [.out, .pair] (sequenceOwn s body) := by
  unfold sequenceOwn
  exact .andThen (sequence_frame ..) rfl (.refl ..)

theorem logItems_frame (s : State) (tick) (xs) :
    s.onlyChanges [.pair] (logItems s tick xs) := by
  unfold logItems
  refine .ite ?_ ?_
  exact .refl ..
  exact .andThen (State.modPair_frame ..) rfl (.refl ..)

theorem logPair_frame (s : State) (code) (detail) :
    s.onlyChanges [.log] (logPair s code detail) := by
  unfold logPair
  exact .andThen (logEvent_frame ..) rfl (.refl ..)

theorem changePair_frame (s : State) (f) :
    s.onlyChanges [.n0, .n1, .pair] (changePair s f) := by
  unfold changePair
  dsimp only
  refine .ite ?_ ?_
  exact .andThen (State.modPair_frame ..) rfl (.refl ..)
  exact .andThen (raiseIrq_frame ..) rfl (.andThen (State.modPair_frame ..) rfl (.refl ..))

theorem notePair_keeps {s a b : State} {ps : List Part} (hs : [Part.n0, .n1].all (fun q => ps.contains q) = true)
    (g : s.onlyChanges ps b) : s.onlyChanges ps (notePair a b) := by
  unfold notePair
  split
  · exact g
  · exact State.onlyChanges.andThen (raiseIrq_frame ..) hs g

theorem ownerChanged_frame (s : State) :
    s.onlyChanges [.pair, .log] (ownerChanged s) := by
  unfold ownerChanged
  exact .andThen (logPair_frame ..) rfl (.andThen (State.modPair_frame ..) rfl (.refl ..))

theorem logSec_frame (s : State) (code) (role) (detail) :
    s.onlyChanges [.log] (logSec s code role detail) := by
  unfold logSec
  exact .andThen (logEvent_frame ..) rfl (.refl ..)

theorem refuseImage_frame (s : State) (code) :
    s.onlyChanges [.log, .boot] (refuseImage s code) := by
  unfold refuseImage
  exact .andThen (logSec_frame ..) rfl (.andThen (State.modBoot_plain (fun _ => by rfl) ..) rfl (.refl ..))

theorem endKeySessions_frame (s : State) (role) (num) :
    s.onlyChanges [.dict] (endKeySessions s role num) := by
  unfold endKeySessions
  exact .andThen (State.modDict_frame ..) rfl (.refl ..)

theorem keyChanged_frame (s : State) (role) (num) :
    s.onlyChanges [.dict, .log] (keyChanged s role num) := by
  unfold keyChanged
  exact .andThen (endKeySessions_frame ..) rfl (.andThen (logSec_frame ..) rfl (.refl ..))

theorem installKeys_frame (s : State) (ks) :
    s.onlyChanges [.dict, .log, .boot, .keys] (installKeys s ks) := by
  unfold installKeys
  dsimp only
  refine .foldl (fun _ _ => ?_) ?_
  refine .ite ?_ ?_
  exact .refl ..
  exact .andThen (keyChanged_frame ..) rfl (.refl ..)
  exact .andThen (State.modBoot_frame ..) rfl (.refl ..)

theorem packageSettings_frame (s : State) (p) :
    s.onlyChanges [.dict] (packageSettings s p) := by
  unfold packageSettings
  exact .andThen (State.modDict_frame ..) rfl (.refl ..)

theorem installPackage_frame (s : State) (i) :
    s.onlyChanges [.dict, .log, .boot, .keys] (installPackage s i) := by
  unfold installPackage
  dsimp only
  exact .andThen (installKeys_frame ..) rfl (.andThen (packageSettings_frame ..) rfl (.andThen (State.modBoot_plain (fun _ => by rfl) ..)
    rfl (.refl ..)))

theorem takeMedia_frame (s : State) (p) :
    s.onlyChanges [.n0, .n1, .net, .log] (takeMedia s p) := by
  unfold takeMedia
  dsimp only
  split
  refine .andThen (State.modNet_frame ..) rfl ?_
  refine .foldl (fun _ _ => ?_) ?_
  split
  exact .refl ..
  refine .ite ?_ ?_
  exact .refl ..
  exact .andThen (modPort_frame ..) rfl (.andThen (setLink_frame ..) rfl (.refl ..))
  exact .refl ..
  refine .foldl (fun _ _ => ?_) ?_
  split
  exact .refl ..
  refine .ite ?_ ?_
  exact .refl ..
  exact .andThen (modPort_frame ..) rfl (.andThen (setLink_frame ..) rfl (.refl ..))
  exact .refl ..

theorem loadProgram_frame (s : State) :
    s.onlyChanges [.img, .n0, .n1, .net, .log] (loadProgram s) := by
  unfold loadProgram
  split
  exact .andThen (State.modImg_frame ..) rfl (.refl ..)
  exact .andThen (State.modImg_frame ..) rfl (.andThen (takeMedia_frame ..) rfl (.refl ..))

theorem draw_frame (s : State) (n) :
    s.onlyChanges [.dict] (draw s n).2 := by
  unfold draw
  dsimp only
  exact .andThen (State.modDict_frame ..) rfl (.refl ..)

theorem keepState_frame (s : State) :
    s.onlyChanges [.ctl, .time, .img, .cyc, .n0, .n1, .mpu, .dma, .evf, .can0, .can1, .bell, .streams, .chans, .loops, .pair, .net, .dict,
      .log, .dist, .field, .integ, .boot, .mode, .mem, .tick] (keepState s) := by
  unfold keepState
  dsimp only
  refine .andThen (State.modDict_frame ..) rfl (.andThen (draw_frame ..) rfl ?_)
  (refine ⟨fun p hp => ?_⟩; cases p <;> first | rfl | exact absurd (by decide) hp)

theorem wipeLife_frame (s : State) (target) :
    s.onlyChanges [.out, .ctl, .img, .cyc, .n0, .n1, .dict, .log, .dist, .integ, .boot, .life, .keys, .mem, .tick] (wipeLife s target) := by
  unfold wipeLife
  dsimp only
  refine .foldl (fun _ _ => ?_) ?_
  exact .andThen (logEvent_frame ..) rfl (.refl ..)
  refine .andThen (writeLog_frame ..) rfl (.andThen (State.modCtl_life (fun _ => by rfl) ..) rfl ?_)
  (refine ⟨fun p hp => ?_⟩; cases p <;> first | rfl | exact absurd (by decide) hp)

theorem settleLife_frame (s : State) :
    s.onlyChanges [.out, .ctl, .img, .cyc, .n0, .n1, .dict, .log, .dist, .integ, .boot, .life, .keys, .mem, .tick] (settleLife s) := by
  unfold settleLife
  split
  exact .refl ..
  exact .andThen (wipeLife_frame ..) rfl (.refl ..)

theorem resetModule_frame (s : State) (cause) :
    s.onlyChanges [.out, .ctl, .time, .img, .cyc, .n0, .n1, .mpu, .dma, .evf, .can0, .can1, .bell, .streams, .chans, .loops, .pair, .net,
      .dict, .log, .dist, .field, .integ, .boot, .mode, .life, .keys, .mem, .tick] (resetModule s cause) := by
  unfold resetModule
  dsimp only
  refine .foldl (fun _ _ => ?_) ?_
  exact .andThen (logEvent_frame ..) rfl (.refl ..)
  exact .andThen (logEvent_frame ..) rfl (.andThen (logEvent_frame ..) rfl (.andThen (settleLife_frame ..) rfl (.andThen (keepState_frame
    ..) rfl (.refl ..))))

theorem recoverLog_frame (s : State) :
    s.onlyChanges [.log] (recoverLog s) := by
  unfold recoverLog
  dsimp only
  split
  exact .refl ..
  split
  exact .refl ..
  exact .andThen (State.modLog_frame ..) rfl (.refl ..)

theorem modD_frame (s : State) (n) (f) :
    s.onlyChanges [.field] (modD s n f) := by
  unfold modD
  exact .andThen (State.modField_frame ..) rfl (.refl ..)

theorem modL_frame (s : State) (n) (f) :
    s.onlyChanges [.field] (modL s n f) := by
  unfold modL
  exact .andThen (State.modField_frame ..) rfl (.refl ..)

theorem logField_frame (s : State) (group) (code) (detail) :
    s.onlyChanges [.log] (logField s group code detail) := by
  unfold logField
  exact .andThen (logEvent_frame ..) rfl (.refl ..)

theorem setD_frame (s : State) (n) (v) :
    s.onlyChanges [.field] (setD s n v) := by
  unfold setD
  exact .andThen (modD_frame ..) rfl (.refl ..)

theorem driveD_frame (s : State) :
    s.onlyChanges [.field] (driveD s) := by
  unfold driveD
  exact .andThen (State.modField_frame ..) rfl (.refl ..)

theorem setLoopUa_frame (s : State) (n) (ua) :
    s.onlyChanges [.field] (setLoopUa s n ua) := by
  unfold setLoopUa
  exact .andThen (modL_frame ..) rfl (.refl ..)

theorem regulate_frame (s : State) (input) :
    s.onlyChanges [.field] (regulate s input) := by
  unfold regulate
  dsimp only
  refine .ite ?_ ?_
  exact .refl ..
  exact .andThen (modL_frame ..) rfl (.refl ..)

theorem releaseD_frame (due) (s : State) (n) :
    s.onlyChanges [.field] (releaseD due s n) := by
  unfold releaseD
  dsimp only
  split
  refine .ite ?_ ?_
  exact .andThen (setD_frame ..) rfl (.refl ..)
  exact .refl ..
  exact .refl ..

theorem releaseL_frame (due) (s : State) (n) :
    s.onlyChanges [.field] (releaseL due s n) := by
  unfold releaseL
  dsimp only
  split
  refine .ite ?_ ?_
  exact .andThen (setLoopUa_frame ..) rfl (.refl ..)
  exact .refl ..
  exact .refl ..

theorem applyOutputs_frame (s : State) (due) :
    s.onlyChanges [.ctl, .field] (applyOutputs s due) := by
  unfold applyOutputs
  refine .ite ?_ ?_
  exact .refl ..
  dsimp only
  refine .foldl (fun _ _ => ?_) ?_
  exact .andThen (releaseL_frame ..) rfl (.refl ..)
  refine .foldl (fun _ _ => ?_) ?_
  exact .andThen (releaseD_frame ..) rfl (.refl ..)
  exact .andThen (State.modCtl_plain (fun _ => by rfl) (fun _ => by rfl) ..) rfl (.refl ..)

theorem fieldRun_frame (s : State) :
    s.onlyChanges [.field] (fieldRun s) := by
  unfold fieldRun
  refine .ite ?_ ?_
  exact .refl ..
  exact .andThen (State.modField_frame ..) rfl (.refl ..)

theorem holdField_frame (s : State) :
    s.onlyChanges [.field] (holdField s) := by
  unfold holdField
  exact .andThen (State.modField_frame ..) rfl (.refl ..)

theorem judgeField_frame (s : State) (due) :
    s.onlyChanges [.log, .field] (judgeField s due) := by
  unfold judgeField
  dsimp only
  refine .ite ?_ ?_
  exact .andThen (logField_frame ..) rfl (.andThen (State.modField_frame ..) rfl (.refl ..))
  exact .andThen (State.modField_frame ..) rfl (.refl ..)

theorem fieldCutoff_frame (s : State) (due) :
    s.onlyChanges [.field] (fieldCutoff s due) := by
  unfold fieldCutoff
  exact .andThen (State.modField_frame ..) rfl (.refl ..)

theorem fieldTrip_frame (s : State) :
    s.onlyChanges [.field] (fieldTrip s) := by
  unfold fieldTrip
  exact .andThen (State.modField_frame ..) rfl (.refl ..)

theorem holdEntries_frame (s : State) (r) (sel) :
    s.onlyChanges [.field] (holdEntries s r sel) := by
  unfold holdEntries
  refine .foldl (fun _ _ => ?_) ?_
  dsimp only
  refine .ite ?_ ?_
  exact .andThen (addHold_frame ..) rfl (.refl ..)
  exact .refl ..
  exact .refl ..

theorem holdGroup_frame (s : State) (sel) :
    s.onlyChanges [.field] (holdGroup s sel) := by
  unfold holdGroup
  dsimp only
  refine .ite ?_ ?_
  exact .refl ..
  exact .andThen (State.modField_frame ..) rfl (.andThen (holdEntries_frame ..) rfl (.andThen (State.modField_frame ..) rfl (.refl ..)))

theorem powerConverter_frame (s : State) :
    s.onlyChanges [.field] (powerConverter s) := by
  unfold powerConverter
  dsimp only
  exact .andThen (State.modField_frame ..) rfl (.refl ..)

theorem storeConversion_frame (s : State) (h) (code) :
    s.onlyChanges [.evf, .field] (storeConversion s h code) := by
  unfold storeConversion
  dsimp only
  split
  exact .andThen (State.modField_frame ..) rfl (.andThen (regulate_frame ..) rfl (.andThen (powerConverter_frame ..) rfl (.andThen
    (State.modField_frame ..) rfl (.refl ..))))
  refine .andThen (seqConsume_frame ..) rfl ?_
  refine .ite ?_ ?_
  refine .andThen (pulse_frame ..) rfl ?_
  refine .ite ?_ ?_
  exact .andThen (State.modField_frame ..) rfl (.andThen (State.modField_frame ..) rfl (.andThen (regulate_frame ..) rfl (.andThen
    (powerConverter_frame ..) rfl (.andThen (State.modField_frame ..) rfl (.refl ..)))))
  exact .andThen (State.modField_frame ..) rfl (.andThen (regulate_frame ..) rfl (.andThen (powerConverter_frame ..) rfl (.andThen
    (State.modField_frame ..) rfl (.refl ..))))
  refine .ite ?_ ?_
  exact .andThen (State.modField_frame ..) rfl (.andThen (State.modField_frame ..) rfl (.andThen (regulate_frame ..) rfl (.andThen
    (powerConverter_frame ..) rfl (.andThen (State.modField_frame ..) rfl (.refl ..)))))
  exact .andThen (State.modField_frame ..) rfl (.andThen (regulate_frame ..) rfl (.andThen (powerConverter_frame ..) rfl (.andThen
    (State.modField_frame ..) rfl (.refl ..))))

end Sys2Proof.Machine
end

