-- ==== Sys2Proof/Laws/FrameEngines.lean ====
section
/-!
SUPPORT. What each operation of Can, Native, Dma, Time, Channels, Loops, Integ, Recorder can change: one lemma for each, cited in place of its definition.
-/

namespace Sys2Proof.Machine

theorem canArb_frame (s : State) (n) :
    s.onlyChanges [.can0, .can1] (canArb s n) := by
  unfold canArb
  refine .ite ?_ ?_
  exact .andThen (modCan_frame ..) rfl (.refl ..)
  exact .refl ..

theorem canSettle_frame (s : State) (n) :
    s.onlyChanges [.n0, .n1, .can0, .can1, .dict, .log] (canSettle s n) := by
  unfold canSettle
  dsimp only
  refine .ite ?_ ?_
  exact .andThen (abortTp_frame ..) rfl (.andThen (setCanState_frame ..) rfl (.refl ..))
  exact .andThen (canArb_frame ..) rfl (.refl ..)

theorem putSlot_frame (s : State) (n) (k) (f) :
    s.onlyChanges [.can0, .can1] (putSlot s n k f) := by
  unfold putSlot
  exact .andThen (canArb_frame ..) rfl (.andThen (modCan_frame ..) rfl (.refl ..))

theorem bellAgain_frame (s : State) (n) :
    s.onlyChanges [.can0, .can1] (bellAgain s n) := by
  unfold bellAgain
  split
  exact .andThen (modCan_frame ..) rfl (.refl ..)
  exact .andThen (modCan_frame ..) rfl (.refl ..)

theorem canJoin_frame (s : State) (n) :
    s.onlyChanges [.n0, .n1, .can0, .can1, .log] (canJoin s n) := by
  unfold canJoin
  refine .ite ?_ ?_
  exact .refl ..
  exact .andThen (canArb_frame ..) rfl (.andThen (bellAgain_frame ..) rfl (.andThen (setCanState_frame ..) rfl (.refl ..)))

theorem canReprogram_frame (s : State) :
    s.onlyChanges [.out, .n0, .n1, .can0, .can1, .dict, .log] (canReprogram s) := by
  unfold canReprogram
  refine .foldl (fun _ _ => ?_) ?_
  dsimp only
  refine .ite ?_ ?_
  refine .andThen (canJoin_frame ..) rfl ?_
  refine .ite ?_ ?_
  exact .refl ..
  exact .andThen (canOff_frame ..) rfl (.refl ..)
  refine .ite ?_ ?_
  exact .refl ..
  exact .andThen (canOff_frame ..) rfl (.refl ..)
  exact .refl ..

theorem tpStart_frame (s : State) (n) (msg) :
    s.onlyChanges [.can0, .can1] (tpStart s n msg) := by
  unfold tpStart
  refine .ite ?_ ?_
  exact .andThen (putSlot_frame ..) rfl (.refl ..)
  refine .ite ?_ ?_
  exact .andThen (putSlot_frame ..) rfl (.refl ..)
  dsimp only
  exact .andThen (putSlot_frame ..) rfl (.andThen (modCan_frame ..) rfl (.refl ..))

theorem tpTurn_frame (s : State) (n) :
    s.onlyChanges [.can0, .can1] (tpTurn s n) := by
  unfold tpTurn
  dsimp only
  refine .ite ?_ ?_
  exact .refl ..
  split
  exact .refl ..
  exact .andThen (tpStart_frame ..) rfl (.andThen (modCan_frame ..) rfl (.refl ..))

theorem tpConsecOut_frame (s : State) (n) (t) :
    s.onlyChanges [.can0, .can1] (tpConsecOut s n t) := by
  unfold tpConsecOut
  dsimp only
  exact .andThen (putSlot_frame ..) rfl (.andThen (modCan_frame ..) rfl (.refl ..))

theorem tpNext_frame (s : State) (n) :
    s.onlyChanges [.can0, .can1] (tpNext s n) := by
  unfold tpNext
  split
  exact .andThen (tpTurn_frame ..) rfl (.refl ..)
  refine .ite ?_ ?_
  exact .refl ..
  refine .ite ?_ ?_
  exact .andThen (tpTurn_frame ..) rfl (.andThen (modCan_frame ..) rfl (.refl ..))
  refine .ite ?_ ?_
  exact .andThen (modCan_frame ..) rfl (.refl ..)
  refine .ite ?_ ?_
  exact .andThen (tpConsecOut_frame ..) rfl (.refl ..)
  exact .andThen (modCan_frame ..) rfl (.refl ..)

theorem tpSend_frame (s : State) (n) (msg) :
    s.onlyChanges [.can0, .can1] (tpSend s n msg) := by
  unfold tpSend
  refine .ite ?_ ?_
  exact .refl ..
  exact .andThen (tpTurn_frame ..) rfl (.andThen (modCan_frame ..) rfl (.refl ..))

theorem rxGood_frame (s : State) (n) :
    s.onlyChanges [.can0, .can1, .dict] (rxGood s n) := by
  unfold rxGood
  dsimp only
  refine .ite ?_ ?_
  exact .refl ..
  refine .ite ?_ ?_
  exact .andThen (modCan_frame ..) rfl (.refl ..)
  exact .andThen (State.modDict_frame ..) rfl (.andThen (modCan_frame ..) rfl (.refl ..))

theorem arbLost_frame (s : State) (n) :
    s.onlyChanges [.n0, .n1, .can0, .can1, .dict, .log] (arbLost s n) := by
  unfold arbLost
  dsimp only
  refine .andThen (canSettle_frame ..) rfl ?_
  split
  exact .andThen (modCan_frame ..) rfl (.refl ..)
  exact .refl ..

theorem busOff_frame (s : State) (n) :
    s.onlyChanges [.n0, .n1, .can0, .can1, .dict, .log] (busOff s n) := by
  unfold busOff
  dsimp only
  refine .ite ?_ ?_
  exact .andThen (canSettle_frame ..) rfl (.andThen (abortTp_frame ..) rfl (.andThen (modCan_frame ..) rfl (.refl ..)))
  refine .ite ?_ ?_
  exact .andThen (setCanState_frame ..) rfl (.andThen (abortTp_frame ..) rfl (.andThen (modCan_frame ..) rfl (.refl ..)))
  exact .andThen (abortTp_frame ..) rfl (.andThen (modCan_frame ..) rfl (.refl ..))

theorem canWake_frame (s : State) (n) :
    s.onlyChanges [.n0, .n1, .can0, .can1, .log] (canWake s n) := by
  unfold canWake
  dsimp only
  refine .ite ?_ ?_
  exact .andThen (setCanState_frame ..) rfl (.andThen (setCanState_frame ..) rfl (.andThen (bellAgain_frame ..) rfl (.andThen
    (modCan_frame ..) rfl (.refl ..))))
  exact .andThen (canArb_frame ..) rfl (.andThen (setCanState_frame ..) rfl (.andThen (bellAgain_frame ..) rfl (.andThen (modCan_frame ..)
    rfl (.refl ..))))

theorem modCp_frame (s : State) (c) (f) :
    s.onlyChanges [.n0, .n1, .mem] (modCp s c f) := by
  unfold modCp
  split
  exact .andThen (State.modN0_frame ..) rfl (.refl ..)
  exact .andThen (State.modN1_frame ..) rfl (.refl ..)

theorem CpSt.dbgWrite_mems (p : CpSt) (n : Nat) (v : W32) : CpSt.memsOf (p.dbgWrite n v) = CpSt.memsOf p := by
  unfold CpSt.dbgWrite
  split
  · rfl
  · split
    · rfl
    · split <;> rfl

theorem modCp_plain {f : CpSt → CpSt} (h : ∀ c, CpSt.memsOf (f c) = CpSt.memsOf c) (s : State) (c) : s.onlyChanges [.n0, .n1] (modCp s c f) := by
  cases c
  · exact .andThen (State.modN0_plain h _) (by decide) (.refl _ _)
  · exact .andThen (State.modN1_plain h _) (by decide) (.refl _ _)

theorem cpPut_frame (s : State) (c) (a) (b) :
    s.onlyChanges [.n0, .n1, .mem] (cpPut s c a b) := by
  unfold cpPut
  exact .andThen (modCp_frame ..) rfl (.refl ..)

theorem cpPutAll_frame (s : State) (c) (a) (l) : s.onlyChanges [.n0, .n1, .mem] (cpPutAll s c a l) := by
  induction l generalizing s a with
  | nil => exact .refl ..
  | cons b t ih =>
    unfold cpPutAll
    exact .andThen (ih ..) rfl (.andThen (cpPut_frame ..) rfl (.refl ..))

theorem modCtx_frame (s : State) (m) (f) :
    s.onlyChanges [.mpu] (modCtx s m f) := by
  unfold modCtx
  exact .andThen (State.modMpu_frame ..) rfl (.refl ..)

theorem recordViolation_frame (s : State) (v) :
    s.onlyChanges [.mpu] (recordViolation s v) := by
  unfold recordViolation
  dsimp only
  exact .andThen (State.modMpu_frame ..) rfl (.refl ..)

theorem violate_frame (s : State) (v) :
    s.onlyChanges [.out, .ctl, .time, .img, .n0, .n1, .mpu, .dma, .can0, .can1, .pair, .dict, .log, .dist, .field, .integ, .boot, .mode]
      (violate s v) := by
  unfold violate
  dsimp only
  refine .ite ?_ ?_
  exact .refl ..
  split
  exact .andThen (enterSilent_frame ..) rfl (.refl ..)
  exact .andThen (logEvent_frame ..) rfl (.andThen (modCp_plain (fun _ => by rfl) ..) rfl (.andThen (recordViolation_frame ..) rfl (.refl
    ..)))
  exact .andThen (logEvent_frame ..) rfl (.andThen (modCp_plain (fun _ => by rfl) ..) rfl (.andThen (recordViolation_frame ..) rfl (.refl
    ..)))
  exact .andThen (logEvent_frame ..) rfl (.andThen (State.modDma_frame ..) rfl (.andThen (State.modMpu_frame ..) rfl (.andThen
    (recordViolation_frame ..) rfl (.refl ..))))
  refine .ite ?_ ?_
  exact .andThen (logEvent_frame ..) rfl (.andThen (State.modInteg_frame ..) rfl (.andThen (State.modInteg_frame ..) rfl (.andThen
    (State.modMpu_frame ..) rfl (.andThen (recordViolation_frame ..) rfl (.refl ..)))))
  exact .andThen (logEvent_frame ..) rfl (.andThen (State.modInteg_frame ..) rfl (.andThen (State.modMpu_frame ..) rfl (.andThen
    (recordViolation_frame ..) rfl (.refl ..))))

theorem modIntc_frame (s : State) (c) (f) :
    s.onlyChanges [.n0, .n1] (modIntc s c f) := by
  unfold modIntc
  exact .andThen (modCp_plain (fun _ => by rfl) ..) rfl (.refl ..)

theorem modClk_frame (s : State) (c) (f) :
    s.onlyChanges [.n0, .n1] (modClk s c f) := by
  unfold modClk
  exact .andThen (modCp_plain (fun _ => by rfl) ..) rfl (.refl ..)

theorem takeInterrupt_frame (s : State) (c) :
    s.onlyChanges [.n0, .n1] (takeInterrupt s c) := by
  unfold takeInterrupt
  dsimp only
  refine .ite ?_ ?_
  exact .andThen (modCp_plain (fun _ => by rfl) ..) rfl (.refl ..)
  exact .refl ..

theorem wakeCore_frame (s : State) (c) :
    s.onlyChanges [.n0, .n1] (wakeCore s c) := by
  unfold wakeCore
  dsimp only
  refine .ite ?_ ?_
  exact .refl ..
  refine .ite ?_ ?_
  exact .andThen (modClk_frame ..) rfl (.refl ..)
  split
  exact .refl ..
  exact .andThen (takeInterrupt_frame ..) rfl (.andThen (modClk_frame ..) rfl (.refl ..))

theorem takeException_frame (s : State) (c) (cause) (tval) :
    s.onlyChanges [.n0, .n1] (takeException s c cause tval) := by
  unfold takeException
  exact .andThen (modCp_plain (fun _ => by rfl) ..) rfl (.refl ..)

theorem ruleEffective_frame (s : State) (m) :
    s.onlyChanges [.mpu] (ruleEffective s m) := by
  unfold ruleEffective
  split
  exact .refl ..
  dsimp only
  exact .andThen (modCtx_frame ..) rfl (.andThen (modCtx_frame ..) rfl (.refl ..))

theorem allEffective_frame (s : State) (m) :
    s.onlyChanges [.mpu] (allEffective s m) := by
  unfold allEffective
  refine .foldl (fun _ _ => ?_) ?_
  exact .andThen (ruleEffective_frame ..) rfl (.refl ..)
  exact .refl ..

theorem mpuOff_frame (s : State) :
    s.onlyChanges [.mpu] (mpuOff s) := by
  unfold mpuOff
  exact .andThen (State.modMpu_frame ..) rfl (.refl ..)

theorem unfreeze_frame (s : State) :
    s.onlyChanges [.n0, .n1] (unfreeze s) := by
  unfold unfreeze
  exact .andThen (State.modN1_plain (fun _ => by rfl) ..) rfl (.andThen (State.modN0_plain (fun _ => by rfl) ..) rfl (.refl ..))

theorem nativeRelease_frame (s : State) :
    s.onlyChanges [.n0, .n1, .mpu, .mem] (nativeRelease s) := by
  unfold nativeRelease
  split
  exact .refl ..
  dsimp only
  exact .andThen (mpuOff_frame ..) rfl (.andThen (State.modMpu_frame ..) rfl (.andThen (modCp_frame ..) rfl (.andThen (modCp_frame ..) rfl
    (.refl ..))))

theorem modCh_frame (s : State) (n) (f) :
    s.onlyChanges [.dma] (modCh s n f) := by
  unfold modCh
  exact .andThen (State.modDma_frame ..) rfl (.refl ..)

theorem freeValue_frame (s : State) :
    s.onlyChanges [.dict] (freeValue s).2 := by
  unfold freeValue
  dsimp only
  exact .andThen (State.modDict_frame ..) rfl (.refl ..)

theorem loseBeat_frame (s : State) (n) :
    s.onlyChanges [.n0, .n1, .dict, .mem] (loseBeat s n) := by
  unfold loseBeat
  dsimp only
  refine .ite ?_ ?_
  exact .andThen (cpPutAll_frame ..) rfl (.andThen (freeValue_frame ..) rfl (.refl ..))
  exact .refl ..

theorem loseChannel_frame (s : State) (n) :
    s.onlyChanges [.n0, .n1, .dma, .dict, .mem] (loseChannel s n) := by
  unfold loseChannel
  dsimp only
  exact .andThen (modCh_frame ..) rfl (.andThen (freeValue_frame ..) rfl (.andThen (loseBeat_frame ..) rfl (.refl ..)))

theorem dmaDrop_frame (s : State) :
    s.onlyChanges [.n0, .n1, .dma, .evf, .dict, .mem] (dmaDrop s) := by
  unfold dmaDrop
  dsimp only
  refine .andThen (State.modEvf_frame ..) rfl ?_
  refine .foldl (fun _ _ => ?_) ?_
  exact .andThen (loseChannel_frame ..) rfl (.refl ..)
  exact .refl ..

theorem busError_frame (s : State) (ch) (addr) :
    s.onlyChanges [.n0, .n1, .dma, .evf, .dict, .mem] (busError s ch addr) := by
  unfold busError
  exact .andThen (State.modDma_frame ..) rfl (.andThen (dmaDrop_frame ..) rfl (.refl ..))

theorem loadDesc_frame (s : State) (n) (addr) :
    s.onlyChanges [.out, .ctl, .time, .img, .n0, .n1, .mpu, .dma, .evf, .can0, .can1, .pair, .dict, .log, .dist, .field, .integ, .boot,
      .mode, .mem] (loadDesc s n addr) := by
  unfold loadDesc
  dsimp only
  refine .ite ?_ ?_
  exact .andThen (busError_frame ..) rfl (.refl ..)
  split
  exact .andThen (violate_frame ..) rfl (.refl ..)
  exact .andThen (modCh_frame ..) rfl (.andThen (modCh_frame ..) rfl (.refl ..))

theorem resumeCh_frame (s : State) (n) :
    s.onlyChanges [.out, .ctl, .time, .img, .n0, .n1, .mpu, .dma, .evf, .can0, .can1, .pair, .dict, .log, .dist, .field, .integ, .boot,
      .mode, .mem] (resumeCh s n) := by
  unfold resumeCh
  dsimp only
  split
  exact .andThen (violate_frame ..) rfl (.andThen (modCh_frame ..) rfl (.refl ..))
  refine .ite ?_ ?_
  exact .andThen (busError_frame ..) rfl (.andThen (modCh_frame ..) rfl (.refl ..))
  refine .ite ?_ ?_
  exact .andThen (modCh_frame ..) rfl (.refl ..)
  exact .andThen (loadDesc_frame ..) rfl (.andThen (modCh_frame ..) rfl (.refl ..))

theorem peripheralRead_frame (s : State) (a) (held) :
    s.onlyChanges [.field] (peripheralRead s a held).2 := by
  unfold peripheralRead
  dsimp only
  split
  split
  dsimp only
  exact .refl ..
  split
  dsimp only
  exact .andThen (State.modField_frame ..) rfl (.refl ..)
  split
  dsimp only
  exact .refl ..
  split
  dsimp only
  exact .andThen (State.modField_frame ..) rfl (.refl ..)
  dsimp only
  exact .refl ..
  split
  split
  dsimp only
  exact .refl ..
  split
  dsimp only
  exact .refl ..
  split
  dsimp only
  exact .refl ..
  split
  dsimp only
  exact .refl ..
  split
  dsimp only
  exact .refl ..
  split
  dsimp only
  exact .refl ..
  split
  dsimp only
  exact .refl ..
  dsimp only
  exact .refl ..
  dsimp only
  exact .refl ..

theorem beatData_frame (s : State) (o) (c) (ns) (held) :
    s.onlyChanges [.field] (beatData s o c ns held).2 := by
  unfold beatData
  split
  dsimp only
  exact .refl ..
  dsimp only
  exact .andThen (peripheralRead_frame ..) rfl (.refl ..)

theorem moveBeat_frame (s : State) (n) (ns) (held) :
    s.onlyChanges [.n0, .n1, .dma, .field, .mem] (moveBeat s n ns held) := by
  unfold moveBeat
  dsimp only
  refine .andThen (modCh_frame ..) rfl (.andThen (modCh_frame ..) rfl ?_)
  refine .ite ?_ ?_
  exact .andThen (cpPutAll_frame ..) rfl (.andThen (beatData_frame ..) rfl (.refl ..))
  exact .andThen (beatData_frame ..) rfl (.refl ..)

theorem writeRate_frame (s : State) (rate) :
    s.onlyChanges [.time] (writeRate s rate) := by
  unfold writeRate
  dsimp only
  exact .andThen (State.modTime_frame ..) rfl (.refl ..)

theorem logTime_frame (s : State) (code) (offset) :
    s.onlyChanges [.log] (logTime s code offset) := by
  unfold logTime
  exact .andThen (logEvent_frame ..) rfl (.refl ..)

theorem fireAlarm_frame (s : State) :
    s.onlyChanges [.time, .n0, .n1, .evf, .field] (fireAlarm s) := by
  unfold fireAlarm
  exact .andThen (pulse_frame ..) rfl (.andThen (raiseIrq_frame ..) rfl (.andThen (State.modTime_frame ..) rfl (.refl ..)))

theorem announce_frame (s : State) (a) :
    s.onlyChanges [.out, .time, .pair] (announce s a) := by
  unfold announce
  dsimp only
  exact .andThen (mjSend_frame ..) rfl (.andThen (State.modTime_frame ..) rfl (.andThen (State.modPair_frame ..) rfl (.refl ..)))

theorem announceState_frame (s : State) :
    s.onlyChanges [.out, .time, .pair] (announceState s) := by
  unfold announceState
  exact .andThen (announce_frame ..) rfl (.refl ..)

theorem setOwnTime_frame (s : State) (st) :
    s.onlyChanges [.out, .time, .n0, .n1, .pair, .log] (setOwnTime s st) := by
  unfold setOwnTime
  refine .ite ?_ ?_
  exact .refl ..
  dsimp only
  refine .ite ?_ ?_
  exact .andThen (setAgreed_frame ..) rfl (.andThen (logTime_frame ..) rfl (.andThen (State.modTime_frame ..) rfl (.refl ..)))
  refine .ite ?_ ?_
  exact .andThen (announceState_frame ..) rfl (.andThen (logTime_frame ..) rfl (.andThen (State.modTime_frame ..) rfl (.refl ..)))
  exact .andThen (logTime_frame ..) rfl (.andThen (State.modTime_frame ..) rfl (.refl ..))

theorem applyStepAt_frame (s : State) (r) (offset) :
    s.onlyChanges [.out, .time, .cyc, .n0, .n1, .evf, .pair, .log, .field] (applyStepAt s r offset) := by
  unfold applyStepAt
  dsimp only
  refine .ite ?_ ?_
  refine .andThen (fireAlarm_frame ..) rfl ?_
  refine .ite ?_ ?_
  exact .andThen (setOwnTime_frame ..) rfl (.andThen (raiseIrq_frame ..) rfl (.andThen (logTime_frame ..) rfl (.andThen
    (State.modCyc_plain (fun _ => by rfl) ..) rfl (.andThen (State.modTime_frame ..) rfl (.refl ..)))))
  exact .andThen (raiseIrq_frame ..) rfl (.andThen (logTime_frame ..) rfl (.andThen (State.modCyc_plain (fun _ => by rfl) ..) rfl
    (.andThen (State.modTime_frame ..) rfl (.refl ..))))
  refine .ite ?_ ?_
  exact .andThen (setOwnTime_frame ..) rfl (.andThen (raiseIrq_frame ..) rfl (.andThen (logTime_frame ..) rfl (.andThen
    (State.modCyc_plain (fun _ => by rfl) ..) rfl (.andThen (State.modTime_frame ..) rfl (.refl ..)))))
  exact .andThen (raiseIrq_frame ..) rfl (.andThen (logTime_frame ..) rfl (.andThen (State.modCyc_plain (fun _ => by rfl) ..) rfl
    (.andThen (State.modTime_frame ..) rfl (.refl ..))))

theorem applyStep_frame (s : State) (offset) :
    s.onlyChanges [.out, .time, .cyc, .n0, .n1, .evf, .pair, .log, .field] (applyStep s offset) := by
  unfold applyStep
  exact .andThen (applyStepAt_frame ..) rfl (.refl ..)

theorem agreedAtTick_frame (s : State) (due) :
    s.onlyChanges [.time, .n0, .n1] (agreedAtTick s due) := by
  unfold agreedAtTick
  refine .ite ?_ ?_
  exact .andThen (setAgreed_frame ..) rfl (.refl ..)
  refine .ite ?_ ?_
  exact .refl ..
  refine .ite ?_ ?_
  exact .refl ..
  refine .ite ?_ ?_
  exact .refl ..
  exact .andThen (setAgreed_frame ..) rfl (.refl ..)

theorem applyAnnounce_frame (s : State) (a) :
    s.onlyChanges [.out, .time, .cyc, .n0, .n1, .evf, .pair, .log, .field] (applyAnnounce s a) := by
  unfold applyAnnounce
  dsimp only
  refine .ite ?_ ?_
  refine .andThen (setAgreed_frame ..) rfl (.andThen (State.modTime_frame ..) rfl ?_)
  refine .ite ?_ ?_
  exact .andThen (applyStepAt_frame ..) rfl (.refl ..)
  exact .refl ..
  refine .ite ?_ ?_
  exact .andThen (applyStepAt_frame ..) rfl (.refl ..)
  exact .refl ..

theorem applyAnnounced_frame (s : State) :
    s.onlyChanges [.out, .time, .cyc, .n0, .n1, .evf, .pair, .log, .field] (applyAnnounced s) := by
  unfold applyAnnounced
  dsimp only
  refine .foldl (fun _ _ => ?_) ?_
  exact .andThen (applyAnnounce_frame ..) rfl (.refl ..)
  exact .andThen (State.modTime_frame ..) rfl (.refl ..)

theorem masterChange_frame (s : State) :
    s.onlyChanges [.out, .time, .n0, .n1, .pair, .log] (masterChange s) := by
  unfold masterChange
  dsimp only
  refine .ite ?_ ?_
  exact .andThen (setOwnTime_frame ..) rfl (.andThen (logTime_frame ..) rfl (.andThen (State.modTime_frame ..) rfl (.refl ..)))
  exact .andThen (logTime_frame ..) rfl (.andThen (State.modTime_frame ..) rfl (.refl ..))

theorem chooseMaster_frame (s : State) :
    s.onlyChanges [.out, .time, .n0, .n1, .pair, .log] (chooseMaster s) := by
  unfold chooseMaster
  split
  refine .ite ?_ ?_
  exact .refl ..
  exact .andThen (masterChange_frame ..) rfl (.andThen (State.modTime_frame ..) rfl (.refl ..))
  dsimp only
  refine .ite ?_ ?_
  exact .andThen (State.modTime_frame ..) rfl (.refl ..)
  refine .ite ?_ ?_
  exact .andThen (State.modTime_frame ..) rfl (.andThen (State.modTime_frame ..) rfl (.andThen (State.modTime_frame ..) rfl (.refl ..)))
  exact .andThen (masterChange_frame ..) rfl (.andThen (State.modTime_frame ..) rfl (.andThen (State.modTime_frame ..) rfl (.refl ..)))

theorem settlePort_frame (s : State) :
    s.onlyChanges [.out, .time, .n0, .n1, .pair, .log] (settlePort s) := by
  unfold settlePort
  dsimp only
  refine .ite ?_ ?_
  exact .refl ..
  refine .ite ?_ ?_
  exact .andThen (State.modTime_frame ..) rfl (.refl ..)
  exact .andThen (masterChange_frame ..) rfl (.andThen (State.modTime_frame ..) rfl (.refl ..))

theorem decideStep_frame (s : State) (offset) :
    s.onlyChanges [.out, .time, .cyc, .n0, .n1, .evf, .pair, .log, .field] (decideStep s offset) := by
  unfold decideStep
  refine .ite ?_ ?_
  exact .andThen (applyStep_frame ..) rfl (.refl ..)
  dsimp only
  refine .ite ?_ ?_
  refine .ite ?_ ?_
  exact .andThen (announce_frame ..) rfl (.refl ..)
  exact .refl ..
  exact .andThen (State.modTime_frame ..) rfl (.refl ..)

theorem servoState_frame (s : State) (inLim) :
    s.onlyChanges [.out, .time, .n0, .n1, .pair, .log] (servoState s inLim) := by
  unfold servoState
  refine .ite ?_ ?_
  exact .refl ..
  refine .ite ?_ ?_
  exact .andThen (setOwnTime_frame ..) rfl (.refl ..)
  refine .ite ?_ ?_
  exact .andThen (setOwnTime_frame ..) rfl (.refl ..)
  exact .refl ..

theorem servo_frame (s : State) (o) (ingress) :
    s.onlyChanges [.out, .time, .cyc, .n0, .n1, .evf, .pair, .log, .field] (servo s o ingress) := by
  unfold servo
  dsimp only
  refine .ite ?_ ?_
  exact .andThen (State.modTime_frame ..) rfl (.refl ..)
  refine .andThen (servoState_frame ..) rfl ?_
  refine .ite ?_ ?_
  refine .ite ?_ ?_
  exact .andThen (State.modTime_frame ..) rfl (.andThen (decideStep_frame ..) rfl (.andThen (State.modTime_frame ..) rfl (.refl ..)))
  exact .andThen (State.modTime_frame ..) rfl (.refl ..)
  refine .andThen (writeRate_frame ..) rfl ?_
  refine .ite ?_ ?_
  exact .andThen (State.modTime_frame ..) rfl (.andThen (decideStep_frame ..) rfl (.andThen (State.modTime_frame ..) rfl (.refl ..)))
  exact .andThen (State.modTime_frame ..) rfl (.refl ..)

theorem takeSync_frame (s : State) (given) :
    s.onlyChanges [.out, .time, .cyc, .n0, .n1, .evf, .pair, .log, .field] (takeSync s given) := by
  unfold takeSync
  dsimp only
  refine .ite ?_ ?_
  exact .andThen (settlePort_frame ..) rfl (.andThen (State.modTime_frame ..) rfl (.refl ..))
  refine .ite ?_ ?_
  exact .andThen (State.modTime_frame ..) rfl (.andThen (settlePort_frame ..) rfl (.andThen (State.modTime_frame ..) rfl (.refl ..)))
  exact .andThen (servo_frame ..) rfl (.andThen (settlePort_frame ..) rfl (.andThen (State.modTime_frame ..) rfl (.refl ..)))

theorem modPd_frame (s : State) (port) (f) :
    s.onlyChanges [.time] (modPd s port f) := by
  unfold modPd
  exact .andThen (State.modTime_frame ..) rfl (.refl ..)

theorem ptpSend_frame (s : State) (port) (kind) (seq) (correction) :
    s.onlyChanges [.out, .net, .integ] (ptpSend s port kind seq correction) := by
  unfold ptpSend
  dsimp only
  refine .ite ?_ ?_
  exact .andThen (State.modInteg_frame ..) rfl (.andThen (modPort_frame ..) rfl (.refl ..))
  exact .andThen (send_frame ..) rfl (.andThen (modPort_frame ..) rfl (.refl ..))

theorem tcAdd_frame (s : State) (e) :
    s.onlyChanges [.time] (tcAdd s e) := by
  unfold tcAdd
  dsimp only
  exact .andThen (State.modTime_frame ..) rfl (.refl ..)

theorem refSwitch_frame (s : State) :
    s.onlyChanges [.time] (refSwitch s) := by
  unfold refSwitch
  dsimp only
  refine .ite ?_ ?_
  exact .refl ..
  exact .andThen (State.modTime_frame ..) rfl (.andThen (writeRate_frame ..) rfl (.refl ..))

theorem refLose_frame (s : State) :
    s.onlyChanges [.time, .n0, .n1, .log] (refLose s) := by
  unfold refLose
  refine .ite ?_ ?_
  dsimp only
  exact .andThen (refSwitch_frame ..) rfl (.andThen (logTime_frame ..) rfl (.andThen (raiseIrq_frame ..) rfl (.andThen
    (State.modTime_frame ..) rfl (.refl ..))))
  exact .refl ..

theorem timeRead_frame (s : State) (o) :
    s.onlyChanges [.time] (timeRead s o).2 := by
  unfold timeRead
  dsimp only
  split
  dsimp only
  exact .refl ..
  dsimp only
  exact .refl ..
  dsimp only
  exact .andThen (State.modTime_frame ..) rfl (.refl ..)
  dsimp only
  exact .refl ..
  dsimp only
  exact .refl ..
  dsimp only
  exact .refl ..
  dsimp only
  exact .refl ..
  dsimp only
  exact .andThen (State.modTime_frame ..) rfl (.refl ..)
  dsimp only
  exact .refl ..
  dsimp only
  exact .refl ..
  dsimp only
  exact .refl ..
  dsimp only
  exact .refl ..
  dsimp only
  exact .refl ..
  dsimp only
  exact .refl ..
  dsimp only
  exact .refl ..
  dsimp only
  exact .refl ..
  dsimp only
  exact .andThen (State.modTime_frame ..) rfl (.refl ..)
  dsimp only
  exact .refl ..
  dsimp only
  exact .refl ..
  dsimp only
  exact .refl ..
  dsimp only
  exact .refl ..
  dsimp only
  exact .refl ..
  dsimp only
  exact .refl ..
  dsimp only
  exact .andThen (State.modTime_frame ..) rfl (.refl ..)
  dsimp only
  exact .refl ..
  dsimp only
  exact .refl ..

theorem advanceTime_frame (s : State) :
    s.onlyChanges [.time] (advanceTime s) := by
  unfold advanceTime
  exact .andThen (State.modTime_frame ..) rfl (.refl ..)

theorem countCores_frame (s : State) :
    s.onlyChanges [.n0, .n1] (countCores s) := by
  unfold countCores
  refine .ite ?_ ?_
  exact .andThen (State.modN1_plain (fun _ => by unfold CpSt.count; split <;> rfl) ..) rfl (.andThen (State.modN0_plain (fun _ => by
    unfold CpSt.count; split <;> rfl) ..) rfl (.refl ..))
  exact .refl ..

theorem aonTick_frame (s : State) :
    s.onlyChanges [.out, .time, .cyc, .n0, .n1, .evf, .net, .field, .integ] (aonTick s) := by
  unfold aonTick
  dsimp only
  refine notePair_keeps (by decide) ?_
  exact .andThen (takeInterrupt_frame ..) rfl (.andThen (takeInterrupt_frame ..) rfl (.andThen (pacedNow_frame ..) rfl (.andThen
    (powerConverter_frame ..) rfl (.andThen (holdsBegin_frame ..) rfl (.andThen (advanceTime_frame ..) rfl (.andThen (countCores_frame ..)
    rfl (.refl ..)))))))

theorem modChan_frame (s : State) (n) (f) :
    s.onlyChanges [.chans] (modChan s n f) := by
  unfold modChan
  exact .andThen (State.modChans_frame ..) rfl (.refl ..)

theorem modStream_frame (s : State) (k) (f) :
    s.onlyChanges [.streams] (modStream s k f) := by
  unfold modStream
  exact .andThen (State.modStreams_frame ..) rfl (.refl ..)

theorem setChBit_frame (s : State) (n) (bit) (v) :
    s.onlyChanges [.n0, .n1, .chans] (setChBit s n bit v) := by
  unfold setChBit
  refine .ite ?_ ?_
  exact .refl ..
  exact .andThen (raiseIrq_frame ..) rfl (.andThen (modChan_frame ..) rfl (.refl ..))

theorem addTap_frame (s : State) (n) (inst) (w) :
    s.onlyChanges [.n0, .n1, .chans] (addTap s n inst w) := by
  unfold addTap
  dsimp only
  exact .andThen (setChBit_frame ..) rfl (.andThen (modChan_frame ..) rfl (.refl ..))

theorem addMissing_frame (s : State) (n) (inst) :
    s.onlyChanges [.n0, .n1, .chans] (addMissing s n inst) := by
  unfold addMissing
  dsimp only
  exact .andThen (setChBit_frame ..) rfl (.andThen (modChan_frame ..) rfl (.refl ..))

theorem svDiscard_frame (s : State) (k) :
    s.onlyChanges [.n0, .n1, .chans] (svDiscard s k) := by
  unfold svDiscard
  refine .foldl (fun _ _ => ?_) ?_
  exact .andThen (setChBit_frame ..) rfl (.andThen (modChan_frame ..) rfl (.refl ..))
  exact .refl ..

theorem svHold_frame (s : State) (k) (f) (arrival) :
    s.onlyChanges [.streams, .chans] (svHold s k f arrival) := by
  unfold svHold
  dsimp only
  refine .ite ?_ ?_
  refine .foldl (fun _ _ => ?_) ?_
  exact .andThen (modChan_frame ..) rfl (.refl ..)
  exact .refl ..
  refine .andThen (modStream_frame ..) rfl ?_
  refine .foldl (fun _ _ => ?_) ?_
  exact .andThen (modChan_frame ..) rfl (.refl ..)
  exact .refl ..

theorem useSample_frame (s : State) (k) (f) (i) (inst) (sgl) :
    s.onlyChanges [.n0, .n1, .streams, .chans] (useSample s k f i inst sgl) := by
  unfold useSample
  dsimp only
  refine .andThen (modStream_frame ..) rfl ?_
  refine .foldl (fun _ _ => ?_) ?_
  exact .andThen (setChBit_frame ..) rfl (.andThen (addTap_frame ..) rfl (.refl ..))
  exact .refl ..

theorem missSample_frame (s : State) (k) (t) :
    s.onlyChanges [.n0, .n1, .chans] (missSample s k t) := by
  unfold missSample
  refine .foldl (fun _ _ => ?_) ?_
  exact .andThen (addMissing_frame ..) rfl (.refl ..)
  exact .refl ..

theorem endSample_frame (s : State) (k) (inst) (cnt) :
    s.onlyChanges [.streams] (endSample s k inst cnt) := by
  unfold endSample
  dsimp only
  exact .andThen (modStream_frame ..) rfl (.refl ..)

theorem fixSample_frame (s : State) (k) (t) :
    s.onlyChanges [.n0, .n1, .streams, .chans, .pair] (fixSample s k t) := by
  unfold fixSample
  dsimp only
  split
  exact .andThen (endSample_frame ..) rfl (.andThen (logItems_frame ..) rfl (.andThen (missSample_frame ..) rfl (.refl ..)))
  exact .andThen (endSample_frame ..) rfl (.andThen (logItems_frame ..) rfl (.andThen (useSample_frame ..) rfl (.refl ..)))

theorem modHeld_frame (s : State) (k) (h) (f) :
    s.onlyChanges [.streams] (modHeld s k h f) := by
  unfold modHeld
  exact .andThen (modStream_frame ..) rfl (.refl ..)

theorem countStream_frame (s : State) (k) (f) :
    s.onlyChanges [.chans] (countStream s k f) := by
  unfold countStream
  refine .foldl (fun _ _ => ?_) ?_
  exact .andThen (modChan_frame ..) rfl (.refl ..)
  exact .refl ..

theorem supplySample_frame (s : State) (k) (t) :
    s.onlyChanges [.out, .streams, .chans, .pair] (supplySample s k t) := by
  unfold supplySample
  split
  dsimp only
  refine .ite ?_ ?_
  refine .andThen (modHeld_frame ..) rfl ?_
  refine .ite ?_ ?_
  refine .andThen (countStream_frame ..) rfl ?_
  refine .ite ?_ ?_
  exact .andThen (mjSend_frame ..) rfl (.refl ..)
  exact .refl ..
  refine .ite ?_ ?_
  exact .andThen (mjSend_frame ..) rfl (.refl ..)
  exact .refl ..
  refine .ite ?_ ?_
  refine .andThen (countStream_frame ..) rfl ?_
  refine .ite ?_ ?_
  exact .andThen (mjSend_frame ..) rfl (.refl ..)
  exact .refl ..
  refine .ite ?_ ?_
  exact .andThen (mjSend_frame ..) rfl (.refl ..)
  exact .refl ..
  exact .refl ..

theorem skipSamples_frame (n) (s : State) (k) : s.onlyChanges [.n0, .n1, .streams, .chans] (skipSamples n s k) := by
  induction n generalizing s with
  | zero => exact .refl ..
  | succ n ih =>
    unfold skipSamples
    split
    exact .refl ..
    refine .ite ?_ ?_
    exact .andThen (ih ..) rfl (.andThen (endSample_frame ..) rfl (.andThen (missSample_frame ..) rfl (.refl ..)))
    exact .refl ..

theorem takePeerSample_frame (s : State) (m) :
    s.onlyChanges [.out, .n0, .n1, .streams, .chans, .pair] (takePeerSample s m) := by
  unfold takePeerSample
  dsimp only
  split
  exact .andThen (modStream_frame ..) rfl (.refl ..)
  refine .ite ?_ ?_
  exact .andThen (fixSample_frame ..) rfl (.andThen (supplySample_frame ..) rfl (.andThen (modStream_frame ..) rfl (.refl ..)))
  exact .andThen (supplySample_frame ..) rfl (.andThen (modStream_frame ..) rfl (.refl ..))

theorem takeSvSupply_frame (s : State) (k) (f) :
    s.onlyChanges [.n0, .n1, .streams, .chans, .pair] (takeSvSupply s k f) := by
  unfold takeSvSupply
  dsimp only
  split
  split
  exact .andThen (modHeld_frame ..) rfl (.refl ..)
  exact .andThen (countStream_frame ..) rfl (.andThen (modStream_frame ..) rfl (.refl ..))
  refine .ite ?_ ?_
  refine .andThen (fixSample_frame ..) rfl ?_
  split
  exact .andThen (modHeld_frame ..) rfl (.refl ..)
  exact .andThen (countStream_frame ..) rfl (.andThen (modStream_frame ..) rfl (.refl ..))
  split
  exact .andThen (modHeld_frame ..) rfl (.refl ..)
  exact .andThen (countStream_frame ..) rfl (.andThen (modStream_frame ..) rfl (.refl ..))

theorem forceSamples_frame (s : State) :
    s.onlyChanges [.n0, .n1, .streams, .chans, .pair] (forceSamples s) := by
  unfold forceSamples
  refine .foldl (fun _ _ => ?_) ?_
  split
  refine .ite ?_ ?_
  exact .andThen (fixSample_frame ..) rfl (.refl ..)
  exact .refl ..
  exact .refl ..
  exact .refl ..

theorem converterTap_frame (s : State) (n) (inst) (code) :
    s.onlyChanges [.chans] (converterTap s n inst code) := by
  unfold converterTap
  split
  refine .ite ?_ ?_
  exact .andThen (modChan_frame ..) rfl (.refl ..)
  exact .refl ..
  exact .refl ..

theorem takeConverter_frame (n) (s : State) (k) (c) : s.onlyChanges [.n0, .n1, .chans] (takeConverter n s k c) := by
  induction n generalizing s with
  | zero => exact .refl ..
  | succ n ih =>
    unfold takeConverter
    dsimp only
    split
    exact .refl ..
    split
    refine .ite ?_ ?_
    exact .andThen (ih ..) rfl (.andThen (modChan_frame ..) rfl (.andThen (addTap_frame ..) rfl (.refl ..)))
    exact .refl ..
    refine .ite ?_ ?_
    exact .andThen (ih ..) rfl (.andThen (modChan_frame ..) rfl (.andThen (addMissing_frame ..) rfl (.refl ..)))
    exact .refl ..

theorem forceConverter_frame (s : State) (n) (c) :
    s.onlyChanges [.n0, .n1, .chans] (forceConverter s n c) := by
  unfold forceConverter
  refine .ite ?_ ?_
  exact .andThen (takeConverter_frame ..) rfl (.refl ..)
  exact .refl ..

theorem takeGrid_frame (s : State) (n) (g) (t) (c) (y) (tag) :
    s.onlyChanges [.n0, .n1, .chans, .dist] (takeGrid s n g t c y tag) := by
  unfold takeGrid
  dsimp only
  refine .ite ?_ ?_
  refine .andThen (recSample_frame ..) rfl ?_
  refine .ite ?_ ?_
  exact .andThen (setChBit_frame ..) rfl (.andThen (modChan_frame ..) rfl (.refl ..))
  exact .andThen (modChan_frame ..) rfl (.refl ..)
  refine .ite ?_ ?_
  exact .andThen (setChBit_frame ..) rfl (.andThen (modChan_frame ..) rfl (.refl ..))
  exact .andThen (modChan_frame ..) rfl (.refl ..)

theorem formGrid_frame (n) (s : State) (k) (c) : s.onlyChanges [.n0, .n1, .chans, .dist] (formGrid n s k c) := by
  induction n generalizing s with
  | zero => exact .refl ..
  | succ n ih =>
    unfold formGrid
    dsimp only
    split
    exact .refl ..
    split
    exact .andThen (ih ..) rfl (.andThen (modChan_frame ..) rfl (.refl ..))
    split
    exact .refl ..
    exact .andThen (ih ..) rfl (.andThen (takeGrid_frame ..) rfl (.refl ..))

theorem latchMeasure_frame (s : State) (n) (r) (skip) :
    s.onlyChanges [.chans] (latchMeasure s n r skip) := by
  unfold latchMeasure
  dsimp only
  exact .andThen (modChan_frame ..) rfl (.refl ..)

theorem measure_frame (s : State) (n) (c) :
    s.onlyChanges [.chans] (measure s n c) := by
  unfold measure
  dsimp only
  refine .andThen (latchMeasure_frame ..) rfl ?_
  refine .ite ?_ ?_
  exact .andThen (modChan_frame ..) rfl (.andThen (modChan_frame ..) rfl (.refl ..))
  exact .andThen (modChan_frame ..) rfl (.andThen (modChan_frame ..) rfl (.andThen (modChan_frame ..) rfl (.refl ..)))

theorem trackingLost_frame (s : State) (n) (a) (c) :
    s.onlyChanges [.chans] (trackingLost s n a c) := by
  unfold trackingLost
  split
  exact .refl ..
  refine .ite ?_ ?_
  exact .andThen (modChan_frame ..) rfl (.refl ..)
  exact .refl ..

theorem trackRef_frame (s : State) (n) (a) (c) :
    s.onlyChanges [.chans] (trackRef s n a c) := by
  unfold trackRef
  dsimp only
  refine .andThen (modChan_frame ..) rfl (.andThen (trackingLost_frame ..) rfl (.andThen (modChan_frame ..) rfl ?_))
  refine .ite ?_ ?_
  exact .andThen (measure_frame ..) rfl (.refl ..)
  exact .refl ..

theorem followRef_frame (s : State) (n) (a) (c) :
    s.onlyChanges [.chans] (followRef s n a c) := by
  unfold followRef
  dsimp only
  split
  exact .refl ..
  refine .ite ?_ ?_
  exact .andThen (latchMeasure_frame ..) rfl (.andThen (modChan_frame ..) rfl (.refl ..))
  exact .andThen (modChan_frame ..) rfl (.refl ..)

theorem takeAnalysis_frame (s : State) (n) (a) (c) (y) (tag) :
    s.onlyChanges [.n0, .n1, .chans] (takeAnalysis s n a c y tag) := by
  unfold takeAnalysis
  dsimp only
  refine .andThen (setChBit_frame ..) rfl (.andThen (setChBit_frame ..) rfl ?_)
  refine .ite ?_ ?_
  exact .andThen (trackRef_frame ..) rfl (.andThen (setChBit_frame ..) rfl (.andThen (modChan_frame ..) rfl (.refl ..)))
  exact .andThen (followRef_frame ..) rfl (.andThen (setChBit_frame ..) rfl (.andThen (modChan_frame ..) rfl (.refl ..)))

theorem settleResults_frame (s : State) (n) (c) :
    s.onlyChanges [.chans] (settleResults s n c) := by
  unfold settleResults
  dsimp only
  split
  exact .refl ..
  exact .andThen (modChan_frame ..) rfl (.refl ..)

theorem analyse_frame (s : State) (n) (c) (t) (ht : analyse s n c = some t) : s.onlyChanges [.n0, .n1, .chans] t := by
  unfold analyse at ht
  split at ht
  · cases ht
  · split at ht
    · cases ht
    · obtain rfl := Option.some.inj ht
      refine .andThen (settleResults_frame ..) rfl ?_
      refine .ite ?_ ?_
      exact .andThen (modChan_frame ..) rfl (.andThen (takeAnalysis_frame ..) rfl (.andThen (settleResults_frame ..) rfl (.refl ..)))
      exact .andThen (takeAnalysis_frame ..) rfl (.andThen (settleResults_frame ..) rfl (.refl ..))

theorem modLoop_frame (s : State) (n) (f) :
    s.onlyChanges [.loops] (modLoop s n f) := by
  unfold modLoop
  exact .andThen (State.modLoops_frame ..) rfl (.refl ..)

theorem putPulse_frame (s : State) (n) (inst) (cnt) :
    s.onlyChanges [.loops] (putPulse s n inst cnt) := by
  unfold putPulse
  exact .andThen (modLoop_frame ..) rfl (.refl ..)

theorem latchPulses_frame (s : State) (g) :
    s.onlyChanges [.out, .loops, .pair] (latchPulses s g) := by
  unfold latchPulses
  refine .foldl (fun _ _ => ?_) ?_
  dsimp only
  refine .ite ?_ ?_
  refine .ite ?_ ?_
  exact .andThen (mjSend_frame ..) rfl (.andThen (logItems_frame ..) rfl (.andThen (putPulse_frame ..) rfl (.refl ..)))
  exact .andThen (logItems_frame ..) rfl (.andThen (putPulse_frame ..) rfl (.refl ..))
  exact .refl ..
  exact .refl ..

theorem analyseRound_frame (s : State) (t) (ht : analyseRound s = some t) : s.onlyChanges [.n0, .n1, .chans] t := by
  unfold analyseRound at ht
  dsimp only at ht
  split at ht
  · obtain rfl := Option.some.inj ht
    refine State.onlyChanges.foldlFst (fun _ _ => ?_) (.refl ..)
    split
    dsimp only
    exact .andThen (analyse_frame (ht := by assumption) ..) rfl (.refl ..)
    exact .refl ..
  · cases ht

theorem analyseAll_frame (n) (s : State) : s.onlyChanges [.n0, .n1, .chans] (analyseAll n s) := by
  induction n generalizing s with
  | zero => exact .refl ..
  | succ n ih =>
    unfold analyseAll
    split
    exact .andThen (ih ..) rfl (.andThen (analyseRound_frame (ht := by assumption) ..) rfl (.refl ..))
    exact .refl ..

theorem channelsNow_frame (s : State) :
    s.onlyChanges [.n0, .n1, .chans, .dist] (channelsNow s) := by
  unfold channelsNow
  dsimp only
  refine .foldl (fun _ _ => ?_) ?_
  exact .andThen (settleResults_frame ..) rfl (.refl ..)
  refine .andThen (analyseAll_frame ..) rfl ?_
  refine .foldl (fun _ _ => ?_) ?_
  exact .andThen (settleResults_frame ..) rfl (.andThen (formGrid_frame ..) rfl (.andThen (forceConverter_frame ..) rfl (.refl ..)))
  exact .refl ..

theorem discardsAge_frame (s : State) :
    s.onlyChanges [.n0, .n1, .chans] (discardsAge s) := by
  unfold discardsAge
  refine .foldl (fun _ _ => ?_) ?_
  exact .andThen (setChBit_frame ..) rfl (.refl ..)
  exact .refl ..

theorem channelsStart_frame (s : State) :
    s.onlyChanges [.n0, .n1, .streams, .chans] (channelsStart s) := by
  unfold channelsStart
  dsimp only
  refine .foldl (fun _ _ => ?_) ?_
  refine .ite ?_ ?_
  exact .refl ..
  exact .andThen (setChBit_frame ..) rfl (.andThen (modChan_frame ..) rfl (.refl ..))
  refine .foldl (fun _ _ => ?_) ?_
  exact .andThen (modStream_frame ..) rfl (.refl ..)
  exact .andThen (State.modChans_frame ..) rfl (.refl ..)

theorem setLoopBit_frame (s : State) (n) (bit) (v) :
    s.onlyChanges [.n0, .n1, .loops] (setLoopBit s n bit v) := by
  unfold setLoopBit
  refine .ite ?_ ?_
  exact .refl ..
  dsimp only
  refine .ite ?_ ?_
  exact .andThen (raiseIrq_frame ..) rfl (.andThen (modLoop_frame ..) rfl (.refl ..))
  refine .ite ?_ ?_
  exact .andThen (raiseIrq_frame ..) rfl (.andThen (modLoop_frame ..) rfl (.refl ..))
  exact .andThen (modLoop_frame ..) rfl (.refl ..)

theorem takeWants_frame (s : State) (n) (t) :
    s.onlyChanges [.loops] (takeWants s n t) := by
  unfold takeWants
  dsimp only
  exact .andThen (modLoop_frame ..) rfl (.refl ..)

theorem takeMode_frame (s : State) (n) :
    s.onlyChanges [.n0, .n1, .loops] (takeMode s n) := by
  unfold takeMode
  dsimp only
  refine .ite ?_ ?_
  exact .refl ..
  refine .ite ?_ ?_
  exact .andThen (modLoop_frame ..) rfl (.refl ..)
  refine .ite ?_ ?_
  refine .foldl (fun _ _ => ?_) ?_
  exact .andThen (setLoopBit_frame ..) rfl (.refl ..)
  exact .andThen (modLoop_frame ..) rfl (.refl ..)
  exact .andThen (modLoop_frame ..) rfl (.refl ..)

theorem swapBank_frame (s : State) (n) (bank) (step) :
    s.onlyChanges [.n0, .n1, .loops] (swapBank s n bank step) := by
  unfold swapBank
  refine .ite ?_ ?_
  exact .refl ..
  dsimp only
  exact .andThen (raiseIrq_frame ..) rfl (.andThen (setLoopBit_frame ..) rfl (.andThen (modLoop_frame ..) rfl (.refl ..)))

theorem takeClear_frame (s : State) (n) :
    s.onlyChanges [.loops] (takeClear s n) := by
  unfold takeClear
  refine .ite ?_ ?_
  exact .andThen (modLoop_frame ..) rfl (.refl ..)
  exact .refl ..

theorem driveLoop_frame (s : State) (c) (ua) :
    s.onlyChanges [.field] (driveLoop s c ua) := by
  unfold driveLoop
  split
  exact .refl ..
  refine .ite ?_ ?_
  exact .refl ..
  exact .andThen (setLoopUa_frame ..) rfl (.refl ..)

theorem undrive_frame (s : State) :
    s.onlyChanges [.field] (undrive s) := by
  unfold undrive
  refine .ite ?_ ?_
  exact .refl ..
  refine .foldl (fun _ _ => ?_) ?_
  split
  refine .ite ?_ ?_
  exact .andThen (modL_frame ..) rfl (.refl ..)
  exact .refl ..
  exact .refl ..
  exact .refl ..

theorem putResults_frame (s : State) (n) (c) (t) (ws) :
    s.onlyChanges [.cyc, .loops] (putResults s n c t ws) := by
  unfold putResults
  dsimp only
  split
  exact .andThen (modLoop_frame ..) rfl (.refl ..)
  split
  exact .andThen (modLoop_frame ..) rfl (.refl ..)
  refine .ite ?_ ?_
  exact .andThen (modLoop_frame ..) rfl (.refl ..)
  exact .andThen (State.modCyc_plain (fun _ => by rfl) ..) rfl (.andThen (modLoop_frame ..) rfl (.refl ..))

theorem lateUpdate_frame (s : State) (n) (c) (t) (invalid) :
    s.onlyChanges [.cyc, .n0, .n1, .loops, .field] (lateUpdate s n c t invalid) := by
  unfold lateUpdate
  dsimp only
  refine .ite ?_ ?_
  refine .andThen (driveLoop_frame ..) rfl (.andThen (putResults_frame ..) rfl (.andThen (setLoopBit_frame ..) rfl (.andThen
    (modLoop_frame ..) rfl ?_)))
  refine .foldl (fun _ _ => ?_) ?_
  exact .andThen (setLoopBit_frame ..) rfl (.refl ..)
  exact .refl ..
  refine .andThen (driveLoop_frame ..) rfl (.andThen (putResults_frame ..) rfl (.andThen (modLoop_frame ..) rfl ?_))
  refine .foldl (fun _ _ => ?_) ?_
  exact .andThen (setLoopBit_frame ..) rfl (.refl ..)
  exact .refl ..

theorem runUpdate_frame (s : State) (n) (c) (t) (bank) (pv) (sp) (ff) :
    s.onlyChanges [.cyc, .n0, .n1, .loops, .field] (runUpdate s n c t bank pv sp ff) := by
  unfold runUpdate
  dsimp only
  refine .andThen (driveLoop_frame ..) rfl (.andThen (putResults_frame ..) rfl (.andThen (modLoop_frame ..) rfl ?_))
  refine .foldl (fun _ _ => ?_) ?_
  exact .andThen (setLoopBit_frame ..) rfl (.refl ..)
  exact .andThen (modLoop_frame ..) rfl (.andThen (takeClear_frame ..) rfl (.andThen (takeMode_frame ..) rfl (.andThen (swapBank_frame ..)
    rfl (.andThen (modLoop_frame ..) rfl (.refl ..)))))

theorem turnOff_frame (s : State) (n) (c) (t) :
    s.onlyChanges [.n0, .n1, .loops] (turnOff s n c t) := by
  unfold turnOff
  refine .andThen (takeClear_frame ..) rfl (.andThen (takeMode_frame ..) rfl ?_)
  refine .ite ?_ ?_
  exact .andThen (swapBank_frame ..) rfl (.refl ..)
  exact .refl ..

theorem updateLoop_frame (s : State) (n) (c) (g) (t) :
    s.onlyChanges [.cyc, .n0, .n1, .loops, .field] (updateLoop s n c g t) := by
  unfold updateLoop
  dsimp only
  split
  refine .ite ?_ ?_
  exact .andThen (lateUpdate_frame ..) rfl (.refl ..)
  refine .ite ?_ ?_
  exact .andThen (lateUpdate_frame ..) rfl (.refl ..)
  exact .andThen (runUpdate_frame ..) rfl (.refl ..)
  exact .andThen (lateUpdate_frame ..) rfl (.refl ..)

theorem loopStep_frame (s : State) (n) (c) (t) (ht : loopStep s n c = some t) : s.onlyChanges [.cyc, .n0, .n1, .loops, .field] t := by
  unfold loopStep at ht
  dsimp only at ht
  split at ht
  · obtain rfl := Option.some.inj ht
    exact .andThen (modLoop_frame ..) rfl (.refl ..)
  · split at ht
    · cases ht
    · split at ht
      · obtain rfl := Option.some.inj ht
        exact .andThen (driveLoop_frame ..) rfl (.andThen (takeWants_frame ..) rfl (.andThen (modLoop_frame ..) rfl (.refl ..)))
      · split at ht
        · obtain rfl := Option.some.inj ht
          exact .andThen (driveLoop_frame ..) rfl (.andThen (turnOff_frame ..) rfl (.andThen (takeWants_frame ..) rfl (.andThen
            (modLoop_frame ..) rfl (.refl ..))))
        · split at ht
          · obtain rfl := Option.some.inj ht
            exact .andThen (updateLoop_frame ..) rfl (.andThen (takeMode_frame ..) rfl (.andThen (takeWants_frame ..) rfl (.andThen
              (modLoop_frame ..) rfl (.refl ..))))
          · obtain rfl := Option.some.inj ht
            exact .andThen (updateLoop_frame ..) rfl (.andThen (takeWants_frame ..) rfl (.andThen (modLoop_frame ..) rfl (.refl ..)))

theorem loopsLanded_frame (s : State) (due) (cut) :
    s.onlyChanges [.loops] (loopsLanded s due cut) := by
  unfold loopsLanded
  refine .foldl (fun _ _ => ?_) ?_
  refine .ite ?_ ?_
  exact .refl ..
  split
  exact .refl ..
  exact .andThen (modLoop_frame ..) rfl (.refl ..)
  exact .refl ..

theorem loopsStart_frame (s : State) :
    s.onlyChanges [.loops] (loopsStart s) := by
  unfold loopsStart
  refine .foldl (fun _ _ => ?_) ?_
  dsimp only
  exact .andThen (modLoop_frame ..) rfl (.refl ..)
  exact .refl ..

theorem loopWrite_frame (s : State) (n) (sub) (old) (new) :
    s.onlyChanges [.loops] (loopWrite s n sub old new) := by
  unfold loopWrite
  exact .andThen (modLoop_frame ..) rfl (.refl ..)

theorem ringError_frame (s : State) (word) :
    s.onlyChanges [.dist, .integ] (ringError s word) := by
  unfold ringError
  dsimp only
  split
  exact .andThen (State.modInteg_frame ..) rfl (.refl ..)
  split
  exact .andThen (State.modInteg_frame ..) rfl (.refl ..)
  exact .andThen (State.modDist_frame ..) rfl (.andThen (State.modInteg_frame ..) rfl (.refl ..))

theorem mramError_frame (s : State) (word) :
    s.onlyChanges [.img, .dict, .log] (mramError s word) := by
  unfold mramError
  refine .ite ?_ ?_
  exact .andThen (State.modImg_frame ..) rfl (.refl ..)
  dsimp only
  exact .andThen (State.modLog_frame ..) rfl (.andThen (freeValue_frame ..) rfl (.refl ..))

theorem flashError_frame (s : State) (word) :
    s.onlyChanges [.dict, .log, .dist] (flashError s word) := by
  unfold flashError
  dsimp only
  exact .andThen (State.modLog_frame ..) rfl (.andThen (State.modDist_frame ..) rfl (.andThen (freeValue_frame ..) rfl (.refl ..)))

theorem latentFault_frame (s : State) (unit) :
    s.onlyChanges [.dict, .log, .integ] (latentFault s unit) := by
  unfold latentFault
  dsimp only
  exact .andThen (logEvent_frame ..) rfl (.andThen (State.modInteg_frame ..) rfl (.andThen (freeValue_frame ..) rfl (.refl ..)))

theorem holdTrigger_frame (s : State) (d) :
    s.onlyChanges [.log, .dist] (holdTrigger s d) := by
  unfold holdTrigger
  refine .ite ?_ ?_
  exact .andThen (logEvent_frame ..) rfl (.refl ..)
  exact .andThen (State.modDist_frame ..) rfl (.refl ..)

theorem startRecord_frame (s : State) (d) :
    s.onlyChanges [.out, .pair, .dist] (startRecord s d) := by
  unfold startRecord
  dsimp only
  refine .ite ?_ ?_
  exact .andThen (sequenceOwn_frame ..) rfl (.andThen (State.modDist_frame ..) rfl (.refl ..))
  exact .andThen (State.modDist_frame ..) rfl (.refl ..)

theorem placeTrigger_frame (s : State) (d) :
    s.onlyChanges [.out, .pair, .log, .dist] (placeTrigger s d) := by
  unfold placeTrigger
  dsimp only
  split
  refine .ite ?_ ?_
  exact .andThen (holdTrigger_frame ..) rfl (.refl ..)
  exact .andThen (startRecord_frame ..) rfl (.refl ..)
  refine .ite ?_ ?_
  exact .andThen (State.modDist_frame ..) rfl (.refl ..)
  refine .ite ?_ ?_
  exact .andThen (holdTrigger_frame ..) rfl (.refl ..)
  exact .andThen (startRecord_frame ..) rfl (.refl ..)

theorem trigger_frame (s : State) (source) :
    s.onlyChanges [.out, .pair, .log, .dist] (trigger s source) := by
  unfold trigger
  refine .ite ?_ ?_
  exact .refl ..
  exact .andThen (placeTrigger_frame ..) rfl (.refl ..)

theorem detectTriggers_frame (s : State) (due) :
    s.onlyChanges [.out, .pair, .log, .dist] (detectTriggers s due) := by
  unfold detectTriggers
  refine .foldl (fun _ _ => ?_) ?_
  refine .ite ?_ ?_
  exact .refl ..
  dsimp only
  refine .ite ?_ ?_
  exact .andThen (trigger_frame ..) rfl (.andThen (State.modDist_frame ..) rfl (.refl ..))
  exact .andThen (State.modDist_frame ..) rfl (.refl ..)
  exact .refl ..

theorem placeHeld_frame (s : State) :
    s.onlyChanges [.out, .pair, .log, .dist] (placeHeld s) := by
  unfold placeHeld
  dsimp only
  refine .foldl (fun _ _ => ?_) ?_
  exact .andThen (placeTrigger_frame ..) rfl (.refl ..)
  exact .andThen (State.modDist_frame ..) rfl (.refl ..)

theorem recordSkip_frame (s : State) (k) :
    s.onlyChanges [.dist] (recordSkip s k) := by
  unfold recordSkip
  refine .foldl (fun _ _ => ?_) ?_
  dsimp only
  split
  exact .refl ..
  refine .ite ?_ ?_
  exact .andThen (recSample_frame ..) rfl (.refl ..)
  exact .refl ..
  exact .refl ..

theorem recordPoints_frame (s : State) (due) :
    s.onlyChanges [.dist] (recordPoints s due) := by
  unfold recordPoints
  refine .ite ?_ ?_
  exact .refl ..
  dsimp only
  refine .foldl (fun _ _ => ?_) ?_
  exact .andThen (recordSkip_frame ..) rfl (.refl ..)
  refine .andThen (State.modDist_frame ..) rfl ?_
  refine .foldl (fun _ _ => ?_) ?_
  refine .ite ?_ ?_
  exact .andThen (recSample_frame ..) rfl (.refl ..)
  exact .refl ..
  exact .andThen (State.modDist_frame ..) rfl (.refl ..)

theorem recordSkipped_frame (s : State) (due) (waits) :
    s.onlyChanges [.dist] (recordSkipped s due waits) := by
  unfold recordSkipped
  dsimp only
  refine .ite ?_ ?_
  exact .refl ..
  refine .ite ?_ ?_
  exact .andThen (State.modDist_frame ..) rfl (.refl ..)
  exact .andThen (recordSkip_frame ..) rfl (.refl ..)

theorem openRecord_frame (s : State) (number) (tick) (source) :
    s.onlyChanges [.n0, .n1, .log, .dist] (openRecord s number tick source) := by
  unfold openRecord
  dsimp only
  refine .ite ?_ ?_
  refine .andThen (raiseIrq_frame ..) rfl ?_
  refine .ite ?_ ?_
  exact .andThen (logEvent_frame ..) rfl (.andThen (State.modDist_frame ..) rfl (.refl ..))
  exact .andThen (State.modDist_frame ..) rfl (.refl ..)
  refine .ite ?_ ?_
  exact .andThen (logEvent_frame ..) rfl (.andThen (State.modDist_frame ..) rfl (.refl ..))
  exact .andThen (State.modDist_frame ..) rfl (.refl ..)

theorem makeRoom_frame (s : State) (n) : s.onlyChanges [.log, .dist] (makeRoom s n) := by
  induction n generalizing s with
  | zero => exact .refl ..
  | succ n ih =>
    unfold makeRoom
    refine .ite ?_ ?_
    split
    exact .refl ..
    dsimp only
    exact .andThen (ih ..) rfl (.andThen (logEvent_frame ..) rfl (.andThen (State.modDist_frame ..) rfl (.refl ..)))
    exact .refl ..

theorem deleteRecords_frame (s : State) :
    s.onlyChanges [.log, .dist] (deleteRecords s) := by
  unfold deleteRecords
  dsimp only
  refine .foldl (fun _ _ => ?_) ?_
  exact .andThen (logEvent_frame ..) rfl (.refl ..)
  exact .andThen (State.modDist_frame ..) rfl (.refl ..)

end Sys2Proof.Machine
end

