-- ==== Sys2Proof/Laws/FrameService.lean ====
section
/-!
SUPPORT. What each operation of Read, Reply, Start, Stage, Change, Apply, Serve, Dict, Commands can change: one lemma for each, cited in place of its definition.
-/

namespace Sys2Proof.Machine

theorem ownFrame_frame (s : State) (p) (payload) :
    s.onlyChanges [.net, .integ] (ownFrame s p payload).2 := by
  unfold ownFrame
  split
  exact .andThen (sourceOn_frame ..) rfl (.refl ..)
  dsimp only
  exact .andThen (sourceOn_frame ..) rfl (.andThen (takeSeq_frame ..) rfl (.refl ..))

theorem dictOut_frame (s : State) (via) (msg) :
    s.onlyChanges [.out, .can0, .can1, .net, .integ] (dictOut s via msg) := by
  unfold dictOut
  split
  dsimp only
  exact .andThen (send_frame ..) rfl (.andThen (ownFrame_frame ..) rfl (.refl ..))
  exact .andThen (tpSend_frame ..) rfl (.refl ..)
  exact .refl ..

theorem modSession_frame (s : State) (sid) (f) :
    s.onlyChanges [.dict] (modSession s sid f) := by
  unfold modSession
  exact .andThen (State.modDict_frame ..) rfl (.refl ..)

theorem endSession_frame (s : State) (sid) :
    s.onlyChanges [.dict] (endSession s sid) := by
  unfold endSession
  exact .andThen (State.modDict_frame ..) rfl (.refl ..)

theorem closeFull_frame (s : State) (sid) :
    s.onlyChanges [.dict] (closeFull s sid) := by
  unfold closeFull
  split
  exact .refl ..
  refine .ite ?_ ?_
  exact .andThen (endSession_frame ..) rfl (.refl ..)
  exact .refl ..

theorem answerSession_frame (s : State) (via) (sid) (ctr) (reqid) (type) (body) :
    s.onlyChanges [.out, .can0, .can1, .net, .dict, .integ] (answerSession s via sid ctr reqid type body) := by
  unfold answerSession
  split
  exact .refl ..
  dsimp only
  exact .andThen (closeFull_frame ..) rfl (.andThen (dictOut_frame ..) rfl (.andThen (modSession_frame ..) rfl (.refl ..)))

theorem answerClient_frame (s : State) (c) (type) (body) :
    s.onlyChanges [.out, .can0, .can1, .net, .dict, .integ] (answerClient s c type body) := by
  unfold answerClient
  refine .ite ?_ ?_
  exact .andThen (dictOut_frame ..) rfl (.refl ..)
  exact .andThen (answerSession_frame ..) rfl (.refl ..)

theorem answerError_frame (s : State) (c) (status) :
    s.onlyChanges [.out, .can0, .can1, .net, .dict, .integ] (answerError s c status) := by
  unfold answerError
  exact .andThen (answerClient_frame ..) rfl (.refl ..)

theorem countStatus_frame (s : State) (status) :
    s.onlyChanges [.dict] (countStatus s status) := by
  unfold countStatus
  refine .ite ?_ ?_
  exact .andThen (State.modDict_frame ..) rfl (.refl ..)
  refine .ite ?_ ?_
  exact .andThen (State.modDict_frame ..) rfl (.refl ..)
  exact .refl ..

theorem dmbReady_frame (s : State) (c) (status) (data) (more) (tick) :
    s.onlyChanges [.n0, .n1] (dmbReady s c status data more tick) := by
  unfold dmbReady
  exact .andThen (modCp_plain (fun _ => by rfl) ..) rfl (.refl ..)

theorem answerWrite_frame (s : State) (c) (index) (sub) (status) (wsn) (tick) :
    s.onlyChanges [.out, .n0, .n1, .can0, .can1, .net, .dict, .integ] (answerWrite s c index sub status wsn tick) := by
  unfold answerWrite
  dsimp only
  split
  exact .andThen (dmbReady_frame ..) rfl (.andThen (countStatus_frame ..) rfl (.refl ..))
  exact .andThen (answerClient_frame ..) rfl (.andThen (countStatus_frame ..) rfl (.refl ..))
  exact .andThen (answerClient_frame ..) rfl (.andThen (countStatus_frame ..) rfl (.refl ..))

theorem answerFwd_frame (s : State) (f) (status) (wsn) (tick) :
    s.onlyChanges [.out, .n0, .n1, .can0, .can1, .net, .dict, .integ] (answerFwd s f status wsn tick) := by
  unfold answerFwd
  exact .andThen (answerWrite_frame ..) rfl (.refl ..)

theorem sendReply_frame (s : State) (r) :
    s.onlyChanges [.out, .n0, .n1, .can0, .can1, .net, .dict, .integ] (sendReply s r) := by
  unfold sendReply
  exact .andThen (answerWrite_frame ..) rfl (.refl ..)

theorem answerSeq_frame (s : State) (i) (status) :
    s.onlyChanges [.out, .n0, .n1, .can0, .can1, .net, .dict, .integ] (answerSeq s i status) := by
  unfold answerSeq
  split
  exact .andThen (answerWrite_frame ..) rfl (.refl ..)
  exact .refl ..

theorem dropRequests_frame (s : State) :
    s.onlyChanges [.out, .n0, .n1, .can0, .can1, .pair, .net, .dict, .integ] (dropRequests s) := by
  unfold dropRequests
  dsimp only
  refine .foldl (fun _ _ => ?_) ?_
  exact .andThen (answerFwd_frame ..) rfl (.refl ..)
  refine .foldl (fun _ _ => ?_) ?_
  exact .andThen (answerFwd_frame ..) rfl (.refl ..)
  refine .foldl (fun _ _ => ?_) ?_
  exact .andThen (sendReply_frame ..) rfl (.refl ..)
  refine .foldl (fun _ _ => ?_) ?_
  exact .andThen (sendReply_frame ..) rfl (.refl ..)
  refine .foldl (fun _ _ => ?_) ?_
  exact .andThen (answerSeq_frame ..) rfl (.refl ..)
  refine .foldl (fun _ _ => ?_) ?_
  exact .andThen (answerFwd_frame ..) rfl (.refl ..)
  exact .andThen (State.modPair_frame ..) rfl (.refl ..)

theorem lowerOwn_frame (s : State) :
    s.onlyChanges [.n0, .n1, .pair, .field] (lowerOwn s) := by
  unfold lowerOwn
  exact .andThen (changePair_frame ..) rfl (.andThen (undrive_frame ..) rfl (.refl ..))

theorem requestOwn_frame (s : State) :
    s.onlyChanges [.pair] (requestOwn s) := by
  unfold requestOwn
  refine .ite ?_ ?_
  exact .refl ..
  exact .andThen (State.modPair_frame ..) rfl (.refl ..)

theorem checkProgram_frame (s : State) :
    s.onlyChanges [.cyc, .boot] (checkProgram s) := by
  unfold checkProgram
  split
  exact .refl ..
  split
  exact .andThen (State.modCyc_plain (fun _ => by rfl) ..) rfl (.andThen (State.modBoot_plain (fun _ => by rfl) ..) rfl (.refl ..))
  refine .ite ?_ ?_
  exact .andThen (State.modBoot_plain (fun _ => by rfl) ..) rfl (.refl ..)
  exact .refl ..

theorem measureDelay_frame (s : State) :
    s.onlyChanges [.out, .pair] (measureDelay s) := by
  unfold measureDelay
  refine .foldl (fun _ _ => ?_) ?_
  exact .andThen (mjSendOn_frame ..) rfl (.refl ..)
  exact .andThen (State.modPair_frame ..) rfl (.refl ..)

theorem raiseLink_frame (s : State) :
    s.onlyChanges [.out, .n0, .n1, .pair] (raiseLink s) := by
  unfold raiseLink
  refine .ite ?_ ?_
  exact .refl ..
  exact .andThen (measureDelay_frame ..) rfl (.andThen (changePair_frame ..) rfl (.refl ..))

theorem sayHello_frame (s : State) :
    s.onlyChanges [.out, .n0, .n1, .pair] (sayHello s) := by
  unfold sayHello
  refine .ite ?_ ?_
  dsimp only
  refine .andThen (raiseLink_frame ..) rfl ?_
  refine .ite ?_ ?_
  exact .andThen (mjSend_frame ..) rfl (.refl ..)
  exact .andThen (State.modPair_frame ..) rfl (.andThen (mjSend_frame ..) rfl (.refl ..))
  exact .refl ..

theorem changeMode_frame (s : State) (m) (reason) :
    s.onlyChanges [.out, .ctl, .time, .img, .n0, .n1, .pair, .log, .dist, .mode] (changeMode s m reason) := by
  unfold changeMode
  exact .andThen (sayHello_frame ..) rfl (.andThen (setMode_frame ..) rfl (.refl ..))

theorem dropAnnounced_frame (s : State) :
    s.onlyChanges [.time, .pair] (dropAnnounced s) := by
  unfold dropAnnounced
  exact .andThen (State.modPair_frame ..) rfl (.andThen (State.modTime_frame ..) rfl (.refl ..))

theorem clearCycle_frame (s : State) :
    s.onlyChanges [.cyc, .n0, .n1] (clearCycle s) := by
  unfold clearCycle
  dsimp only
  exact .andThen (State.modN1_plain (fun _ => by (repeat' split) <;> rfl) ..) rfl (.andThen (State.modN0_plain (fun _ => by (repeat'
    split) <;> rfl) ..) rfl (.andThen (State.modCyc_plain (fun _ => by rfl) ..) rfl (.refl ..)))

theorem leaveTest_frame (s : State) :
    s.onlyChanges [.n0, .n1, .streams, .chans, .net] (leaveTest s) := by
  unfold leaveTest
  dsimp only
  refine .foldl (fun _ _ => ?_) ?_
  exact .andThen (setChBit_frame ..) rfl (.refl ..)
  exact .andThen (State.modNet_frame ..) rfl (.andThen (State.modStreams_frame ..) rfl (.refl ..))

theorem restartForces_frame (s : State) (warm) :
    s.onlyChanges [.img, .log] (restartForces s warm) := by
  unfold restartForces
  refine .ite ?_ ?_
  dsimp only
  exact .andThen (State.modImg_frame ..) rfl (.refl ..)
  exact .andThen (clearForces_frame ..) rfl (.refl ..)

theorem restartCounts_frame (s : State) :
    s.onlyChanges [.cyc, .tick] (restartCounts s) := by
  unfold restartCounts
  dsimp only
  exact .andThen (State.modCyc_frame ..) rfl (.refl ..)

theorem restart_frame (s : State) :
    s.onlyChanges [.ctl, .img, .cyc, .n0, .n1, .streams, .chans, .loops, .net, .log, .mem, .tick] (restart s) := by
  unfold restart
  dsimp only
  refine .andThen (State.modCtl_plain (fun _ => by rfl) (fun _ => by rfl) ..) rfl (.andThen (loopsStart_frame ..) rfl (.andThen
    (channelsStart_frame ..) rfl (.andThen (State.modCyc_plain (fun _ => by rfl) ..) rfl ?_)))
  refine .ite ?_ ?_
  exact .andThen (State.modImg_frame ..) rfl (.andThen (restartForces_frame ..) rfl (.andThen (State.modImg_frame ..) rfl (.andThen
    (restartCounts_frame ..) rfl (.andThen (clearCycle_frame ..) rfl (.andThen (loadProgram_frame ..) rfl (.refl ..))))))
  exact .andThen (State.modN1_frame ..) rfl (.andThen (State.modN0_frame ..) rfl (.andThen (State.modImg_frame ..) rfl (.andThen
    (restartForces_frame ..) rfl (.andThen (State.modImg_frame ..) rfl (.andThen (restartCounts_frame ..) rfl (.andThen (clearCycle_frame
    ..) rfl (.andThen (loadProgram_frame ..) rfl (.refl ..))))))))

theorem enterRun_frame (s : State) (m) (reason) :
    s.onlyChanges [.out, .ctl, .time, .img, .n0, .n1, .mpu, .can0, .can1, .pair, .log, .dist, .field, .mode, .mem] (enterRun s m reason)
      := by
  unfold enterRun
  dsimp only
  exact .andThen (canJoin_frame ..) rfl (.andThen (canJoin_frame ..) rfl (.andThen (fieldRun_frame ..) rfl (.andThen (nativeRelease_frame
    ..) rfl (.andThen (unfreeze_frame ..) rfl (.andThen (State.modCtl_plain (fun _ => by rfl) (fun _ => by rfl) ..) rfl (.andThen
    (changeMode_frame ..) rfl (.refl ..)))))))

theorem stopServing_frame (s : State) :
    s.onlyChanges [.pair] (stopServing s) := by
  unfold stopServing
  exact .andThen (State.modPair_frame ..) rfl (.refl ..)

theorem enterTest_frame (s : State) :
    s.onlyChanges [.out, .ctl, .time, .img, .n0, .n1, .pair, .log, .dist, .mode] (enterTest s) := by
  unfold enterTest
  dsimp only
  refine .andThen (State.modCtl_plain (fun _ => by rfl) (fun _ => by rfl) ..) rfl (.andThen (changeMode_frame ..) rfl ?_)
  refine .ite ?_ ?_
  exact .refl ..
  exact .andThen (stopServing_frame ..) rfl (.refl ..)

theorem exitTest_frame (s : State) :
    s.onlyChanges [.out, .ctl, .time, .img, .n0, .n1, .streams, .chans, .pair, .net, .log, .dist, .mode] (exitTest s) := by
  unfold exitTest
  dsimp only
  exact .andThen (leaveTest_frame ..) rfl (.andThen (State.modCtl_plain (fun _ => by rfl) (fun _ => by rfl) ..) rfl (.andThen
    (changeMode_frame ..) rfl (.refl ..)))

theorem followTest_frame (s : State) :
    s.onlyChanges [.out, .ctl, .time, .img, .n0, .n1, .streams, .chans, .pair, .net, .log, .dist, .mode] (followTest s) := by
  unfold followTest
  refine .ite ?_ ?_
  exact .andThen (enterTest_frame ..) rfl (.refl ..)
  refine .ite ?_ ?_
  exact .andThen (exitTest_frame ..) rfl (.refl ..)
  exact .refl ..

theorem enterStopAs_frame (s : State) (reason) (keepOwn) :
    s.onlyChanges [.out, .ctl, .time, .img, .cyc, .n0, .n1, .can0, .can1, .streams, .chans, .pair, .net, .dict, .log, .dist, .field,
      .integ, .mode] (enterStopAs s reason keepOwn) := by
  unfold enterStopAs
  dsimp only
  refine .andThen (leaveTest_frame ..) rfl (.andThen (fieldOff_frame ..) rfl (.andThen (dropAnnounced_frame ..) rfl (.andThen
    (State.modCtl_plain (fun _ => by rfl) (fun _ => by rfl) ..) rfl (.andThen (setMode_frame ..) rfl (.andThen (changePair_frame ..) rfl
    ?_)))))
  refine .ite ?_ ?_
  exact .andThen (clearCycle_frame ..) rfl (.andThen (dropRequests_frame ..) rfl (.refl ..))
  exact .andThen (lowerOwn_frame ..) rfl (.andThen (clearCycle_frame ..) rfl (.andThen (dropRequests_frame ..) rfl (.refl ..)))

theorem enterStop_frame (s : State) (reason) :
    s.onlyChanges [.out, .ctl, .time, .img, .cyc, .n0, .n1, .can0, .can1, .streams, .chans, .pair, .net, .dict, .log, .dist, .field,
      .integ, .mode] (enterStop s reason) := by
  unfold enterStop
  exact .andThen (enterStopAs_frame ..) rfl (.refl ..)

theorem beginPhase1_frame (s : State) :
    s.onlyChanges [.out, .pair] (beginPhase1 s) := by
  unfold beginPhase1
  dsimp only
  exact .andThen (mjSend_frame ..) rfl (.andThen (State.modPair_frame ..) rfl (.refl ..))

theorem catchFail_frame (s : State) (reason) :
    s.onlyChanges [.out, .pair, .log] (catchFail s reason) := by
  unfold catchFail
  dsimp only
  refine .ite ?_ ?_
  exact .andThen (mjSend_frame ..) rfl (.andThen (State.modPair_frame ..) rfl (.andThen (State.modPair_frame ..) rfl (.andThen
    (logPair_frame ..) rfl (.refl ..))))
  exact .andThen (mjSend_frame ..) rfl (.andThen (State.modPair_frame ..) rfl (.andThen (State.modPair_frame ..) rfl (.andThen
    (logPair_frame ..) rfl (.refl ..))))

theorem enterCatchup_frame (s : State) (reason) (mismatch) :
    s.onlyChanges [.out, .ctl, .time, .img, .cyc, .n0, .n1, .can0, .can1, .streams, .chans, .pair, .net, .dict, .log, .dist, .field,
      .integ, .mode] (enterCatchup s reason mismatch) := by
  unfold enterCatchup
  dsimp only
  split
  refine .andThen (enterStop_frame ..) rfl ?_
  refine .ite ?_ ?_
  exact .andThen (catchFail_frame ..) rfl (.andThen (State.modPair_frame ..) rfl (.andThen (canJoin_frame ..) rfl (.andThen (canJoin_frame
    ..) rfl (.andThen (leaveTest_frame ..) rfl (.andThen (fieldOff_frame ..) rfl (.andThen (dropAnnounced_frame ..) rfl (.andThen
    (State.modCtl_plain (fun _ => by rfl) (fun _ => by rfl) ..) rfl (.andThen (changeMode_frame ..) rfl (.andThen (changePair_frame ..)
    rfl (.andThen (lowerOwn_frame ..) rfl (.andThen (clearCycle_frame ..) rfl (.andThen (dropRequests_frame ..) rfl (.refl ..)))))))))))))
  exact .andThen (beginPhase1_frame ..) rfl (.andThen (canJoin_frame ..) rfl (.andThen (canJoin_frame ..) rfl (.andThen (leaveTest_frame
    ..) rfl (.andThen (fieldOff_frame ..) rfl (.andThen (dropAnnounced_frame ..) rfl (.andThen (State.modCtl_plain (fun _ => by rfl) (fun
    _ => by rfl) ..) rfl (.andThen (changeMode_frame ..) rfl (.andThen (changePair_frame ..) rfl (.andThen (lowerOwn_frame ..) rfl
    (.andThen (clearCycle_frame ..) rfl (.andThen (dropRequests_frame ..) rfl (.refl ..))))))))))))
  refine .ite ?_ ?_
  exact .andThen (catchFail_frame ..) rfl (.andThen (State.modPair_frame ..) rfl (.andThen (canJoin_frame ..) rfl (.andThen (canJoin_frame
    ..) rfl (.andThen (leaveTest_frame ..) rfl (.andThen (fieldOff_frame ..) rfl (.andThen (dropAnnounced_frame ..) rfl (.andThen
    (State.modCtl_plain (fun _ => by rfl) (fun _ => by rfl) ..) rfl (.andThen (changeMode_frame ..) rfl (.andThen (changePair_frame ..)
    rfl (.andThen (lowerOwn_frame ..) rfl (.andThen (clearCycle_frame ..) rfl (.andThen (dropRequests_frame ..) rfl (.refl ..)))))))))))))
  exact .andThen (beginPhase1_frame ..) rfl (.andThen (canJoin_frame ..) rfl (.andThen (canJoin_frame ..) rfl (.andThen (leaveTest_frame
    ..) rfl (.andThen (fieldOff_frame ..) rfl (.andThen (dropAnnounced_frame ..) rfl (.andThen (State.modCtl_plain (fun _ => by rfl) (fun
    _ => by rfl) ..) rfl (.andThen (changeMode_frame ..) rfl (.andThen (changePair_frame ..) rfl (.andThen (lowerOwn_frame ..) rfl
    (.andThen (clearCycle_frame ..) rfl (.andThen (dropRequests_frame ..) rfl (.refl ..))))))))))))

theorem leaveForCatchup_frame (s : State) (reason) (mismatch) :
    s.onlyChanges [.out, .ctl, .time, .img, .cyc, .n0, .n1, .can0, .can1, .streams, .chans, .pair, .net, .dict, .log, .dist, .field,
      .integ, .mode] (leaveForCatchup s reason mismatch) := by
  unfold leaveForCatchup
  refine .ite ?_ ?_
  exact .andThen (enterCatchup_frame ..) rfl (.refl ..)
  exact .refl ..

theorem gainOwner_frame (s : State) (reason) :
    s.onlyChanges [.out, .ctl, .time, .img, .n0, .n1, .pair, .log, .dist, .mode] (gainOwner s reason) := by
  unfold gainOwner
  dsimp only
  refine .andThen (placeHeld_frame ..) rfl ?_
  refine .ite ?_ ?_
  refine .andThen (announceState_frame ..) rfl (.andThen (ownerChanged_frame ..) rfl (.andThen (changePair_frame ..) rfl ?_))
  refine .ite ?_ ?_
  exact .andThen (changeMode_frame ..) rfl (.refl ..)
  exact .refl ..
  refine .andThen (ownerChanged_frame ..) rfl (.andThen (changePair_frame ..) rfl ?_)
  refine .ite ?_ ?_
  exact .andThen (changeMode_frame ..) rfl (.refl ..)
  exact .refl ..

theorem enterAlone_frame (s : State) (reason) :
    s.onlyChanges [.out, .ctl, .time, .img, .cyc, .n0, .n1, .mpu, .can0, .can1, .streams, .chans, .loops, .pair, .net, .log, .dist,
      .field, .mode, .mem, .tick] (enterAlone s reason) := by
  unfold enterAlone
  dsimp only
  exact .andThen (followTest_frame ..) rfl (.andThen (placeHeld_frame ..) rfl (.andThen (ownerChanged_frame ..) rfl (.andThen
    (enterRun_frame ..) rfl (.andThen (restart_frame ..) rfl (.refl ..)))))

theorem modSlot_frame (s : State) (kind) (f) :
    s.onlyChanges [.boot] (modSlot s kind f) := by
  unfold modSlot
  exact .andThen (State.modBoot_plain (fun _ => by (repeat' split) <;> rfl) ..) rfl (.refl ..)

theorem emptySlot_frame (s : State) (kind) (state) :
    s.onlyChanges [.cyc, .boot] (emptySlot s kind state) := by
  unfold emptySlot
  dsimp only
  refine .ite ?_ ?_
  refine .andThen (State.modCyc_plain (fun _ => by rfl) ..) rfl ?_
  refine .ite ?_ ?_
  exact .andThen (State.modBoot_plain (fun _ => by rfl) ..) rfl (.andThen (modSlot_frame ..) rfl (.refl ..))
  exact .andThen (modSlot_frame ..) rfl (.refl ..)
  refine .ite ?_ ?_
  exact .andThen (State.modBoot_plain (fun _ => by rfl) ..) rfl (.andThen (modSlot_frame ..) rfl (.refl ..))
  exact .andThen (modSlot_frame ..) rfl (.refl ..)

theorem beginStaging_frame (s : State) (kind) :
    s.onlyChanges [.cyc, .boot] (beginStaging s kind).2 := by
  unfold beginStaging
  split
  dsimp only
  exact .refl ..
  split
  dsimp only
  exact .refl ..
  dsimp only
  exact .andThen (State.modBoot_plain (fun _ => by rfl) ..) rfl (.andThen (emptySlot_frame ..) rfl (.refl ..))

theorem completeSlot_frame (s : State) (kind) :
    s.onlyChanges [.cyc, .boot] (completeSlot s kind) := by
  unfold completeSlot
  refine .ite ?_ ?_
  dsimp only
  refine .ite ?_ ?_
  exact .andThen (State.modCyc_plain (fun _ => by rfl) ..) rfl (.andThen (modSlot_frame ..) rfl (.refl ..))
  exact .andThen (modSlot_frame ..) rfl (.refl ..)
  exact .refl ..

theorem streamWrite_frame (s : State) (image) (off) (data) :
    s.onlyChanges [.cyc, .boot] (streamWrite s image off data).2 := by
  unfold streamWrite
  dsimp only
  split
  dsimp only
  exact .refl ..
  split
  split
  dsimp only
  exact .refl ..
  dsimp only
  exact .andThen (completeSlot_frame ..) rfl (.andThen (modSlot_frame ..) rfl (.refl ..))
  split
  dsimp only
  exact .refl ..
  dsimp only
  exact .andThen (completeSlot_frame ..) rfl (.andThen (modSlot_frame ..) rfl (.refl ..))

theorem discardSlot_frame (s : State) :
    s.onlyChanges [.cyc, .boot] (discardSlot s).2 := by
  unfold discardSlot
  dsimp only
  split
  dsimp only
  exact .refl ..
  dsimp only
  exact .andThen (emptySlot_frame ..) rfl (.refl ..)

theorem discardChange_frame (s : State) :
    s.onlyChanges [.cyc, .boot] (discardChange s).2 := by
  unfold discardChange
  split
  dsimp only
  exact .refl ..
  dsimp only
  exact .andThen (emptySlot_frame ..) rfl (.refl ..)

theorem confirmSettings_frame (s : State) :
    s.onlyChanges [.boot] (confirmSettings s) := by
  unfold confirmSettings
  exact .andThen (State.modBoot_plain (fun _ => by rfl) ..) rfl (.refl ..)

theorem prepareSwitch_frame (s : State) :
    s.onlyChanges [.log, .boot] (prepareSwitch s) := by
  unfold prepareSwitch
  split
  exact .refl ..
  dsimp only
  refine .ite ?_ ?_
  exact .andThen (State.modBoot_plain (fun _ => by rfl) ..) rfl (.refl ..)
  exact .andThen (refuseImage_frame ..) rfl (.andThen (modSlot_frame ..) rfl (.refl ..))

theorem takeWrapped_frame (s : State) (data) :
    s.onlyChanges [.dict, .log, .boot, .keys] (takeWrapped s data) := by
  unfold takeWrapped
  split
  exact .refl ..
  dsimp only
  exact .andThen (keyChanged_frame ..) rfl (.andThen (State.modBoot_frame ..) rfl (.refl ..))

theorem removeRole_frame (s : State) (v) :
    s.onlyChanges [.dict, .log, .boot, .keys] (removeRole s v) := by
  unfold removeRole
  refine .ite ?_ ?_
  exact .refl ..
  exact .andThen (keyChanged_frame ..) rfl (.andThen (State.modBoot_frame ..) rfl (.refl ..))

theorem putA1_frame (s : State) (data) :
    s.onlyChanges [.boot, .keys] (putA1 s data) := by
  unfold putA1
  exact .andThen (State.modBoot_frame ..) rfl (.refl ..)

theorem raiseSvn_frame (s : State) :
    s.onlyChanges [.boot, .keys] (raiseSvn s) := by
  unfold raiseSvn
  dsimp only
  exact .andThen (State.modBoot_frame ..) rfl (.refl ..)

theorem startReport_frame (s : State) (nonce) (host) :
    s.onlyChanges [.boot] (startReport s nonce host).2 := by
  unfold startReport
  split
  dsimp only
  exact .refl ..
  dsimp only
  exact .andThen (State.modBoot_plain (fun _ => by rfl) ..) rfl (.refl ..)

theorem pendLife_frame (s : State) (target) (keys) :
    s.onlyChanges [.ctl, .boot, .life, .keys] (pendLife s target keys) := by
  unfold pendLife
  exact .andThen (State.modBoot_frame ..) rfl (.andThen (State.modCtl_life (fun _ => by rfl) ..) rfl (.refl ..))

theorem lifeCommand_frame (s : State) (v) :
    s.onlyChanges [.ctl, .boot, .life, .keys] (lifeCommand s v) := by
  unfold lifeCommand
  split
  dsimp only
  exact .andThen (pendLife_frame ..) rfl (.refl ..)
  exact .andThen (pendLife_frame ..) rfl (.refl ..)
  exact .andThen (pendLife_frame ..) rfl (.refl ..)

theorem settleReplies_frame (s : State) :
    s.onlyChanges [.pair] (settleReplies s) := by
  unfold settleReplies
  dsimp only
  exact .andThen (State.modPair_frame ..) rfl (.refl ..)

theorem refuseChange_frame (s : State) (reason) :
    s.onlyChanges [.cyc, .pair, .log] (refuseChange s reason) := by
  unfold refuseChange
  dsimp only
  exact .andThen (settleReplies_frame ..) rfl (.andThen (logEvent_frame ..) rfl (.andThen (State.modCyc_plain (fun _ => by rfl) ..) rfl
    (.refl ..)))

theorem scheduleChange_frame (s : State) (tick) :
    s.onlyChanges [.cyc] (scheduleChange s tick) := by
  unfold scheduleChange
  exact .andThen (State.modCyc_plain (fun _ => by rfl) ..) rfl (.refl ..)

theorem decideChange_frame (s : State) :
    s.onlyChanges [.out, .cyc, .pair] (decideChange s) := by
  unfold decideChange
  refine .ite ?_ ?_
  exact .refl ..
  split
  exact .refl ..
  dsimp only
  refine .ite ?_ ?_
  refine .ite ?_ ?_
  exact .andThen (scheduleChange_frame ..) rfl (.andThen (sequenceOwn_frame ..) rfl (.refl ..))
  exact .andThen (sequenceOwn_frame ..) rfl (.refl ..)
  split
  exact .refl ..
  refine .ite ?_ ?_
  exact .andThen (scheduleChange_frame ..) rfl (.andThen (sequenceOwn_frame ..) rfl (.refl ..))
  exact .andThen (sequenceOwn_frame ..) rfl (.refl ..)

theorem startCheck_frame (s : State) :
    s.onlyChanges [.out, .cyc, .pair] (startCheck s) := by
  unfold startCheck
  dsimp only
  refine .ite ?_ ?_
  exact .andThen (decideChange_frame ..) rfl (.andThen (State.modCyc_plain (fun _ => by rfl) ..) rfl (.refl ..))
  exact .andThen (mjSend_frame ..) rfl (.andThen (State.modCyc_plain (fun _ => by rfl) ..) rfl (.refl ..))

theorem tellCheck_frame (s : State) :
    s.onlyChanges [.out, .pair] (tellCheck s) := by
  unfold tellCheck
  split
  refine .ite ?_ ?_
  exact .andThen (mjSend_frame ..) rfl (.refl ..)
  exact .refl ..
  exact .refl ..

theorem dropForce_frame (s : State) (p) :
    s.onlyChanges [.log] (dropForce s p) := by
  unfold dropForce
  exact .andThen (logEvent_frame ..) rfl (.refl ..)

theorem applyChange_frame (s : State) :
    s.onlyChanges [.img, .cyc, .n0, .n1, .pair, .log, .boot] (applyChange s) := by
  unfold applyChange
  split
  dsimp only
  refine .andThen (settleReplies_frame ..) rfl (.andThen (raiseIrq_frame ..) rfl (.andThen (logEvent_frame ..) rfl (.andThen
    (State.modCyc_plain (fun _ => by rfl) ..) rfl ?_)))
  refine .foldl (fun _ _ => ?_) ?_
  exact .andThen (dropForce_frame ..) rfl (.refl ..)
  exact .andThen (State.modBoot_plain (fun _ => by rfl) ..) rfl (.andThen (State.modImg_frame ..) rfl (.refl ..))
  exact .refl ..

theorem boundaryChange_frame (s : State) :
    s.onlyChanges [.out, .img, .cyc, .n0, .n1, .pair, .log, .boot] (boundaryChange s) := by
  unfold boundaryChange
  dsimp only
  refine .ite ?_ ?_
  exact .andThen (applyChange_frame ..) rfl (.refl ..)
  exact .andThen (decideChange_frame ..) rfl (.refl ..)

theorem writePoint_frame (s : State) (p) (w) :
    s.onlyChanges [.img, .n0, .n1, .integ] (writePoint s p w) := by
  unfold writePoint
  exact .andThen (produce_frame ..) rfl (.refl ..)

theorem keepPoint_frame (s : State) (p) :
    s.onlyChanges [.img] (keepPoint s p) := by
  unfold keepPoint
  dsimp only
  refine .ite ?_ ?_
  exact .refl ..
  split
  exact .refl ..
  exact .andThen (State.modImg_frame ..) rfl (.refl ..)

theorem markRevert_frame (s : State) (index) (sub) :
    s.onlyChanges [.cyc] (markRevert s index sub) := by
  unfold markRevert
  refine .ite ?_ ?_
  exact .andThen (State.modCyc_plain (fun _ => by rfl) ..) rfl (.refl ..)
  exact .refl ..

theorem writeSetting_frame (s : State) (index) (sub) (v) :
    s.onlyChanges [.loops, .dict, .dist] (writeSetting s index sub v) := by
  unfold writeSetting
  refine .ite ?_ ?_
  dsimp only
  refine .ite ?_ ?_
  refine .ite ?_ ?_
  exact .refl ..
  exact .andThen (putSetting_frame ..) rfl (.refl ..)
  refine .andThen (loopWrite_frame ..) rfl ?_
  refine .ite ?_ ?_
  exact .refl ..
  exact .andThen (putSetting_frame ..) rfl (.refl ..)
  refine .ite ?_ ?_
  exact .andThen (putSetting_frame ..) rfl (.andThen (closeAll_frame ..) rfl (.refl ..))
  exact .andThen (putSetting_frame ..) rfl (.refl ..)

theorem showForces_frame (s : State) :
    s.onlyChanges [.img] (showForces s) := by
  unfold showForces
  refine .ite ?_ ?_
  exact .andThen (State.modImg_frame ..) rfl (.refl ..)
  exact .refl ..

theorem applyPair_frame (s : State) (r) :
    s.onlyChanges [.out, .ctl, .time, .img, .cyc, .n0, .n1, .streams, .chans, .loops, .pair, .net, .dict, .log, .dist, .integ, .boot,
      .mode, .keys] (applyPair s r).2 := by
  unfold applyPair
  dsimp only
  split
  split
  dsimp only
  exact .refl ..
  split
  dsimp only
  exact .refl ..
  dsimp only
  exact .andThen (showForces_frame ..) rfl (.andThen (applyForce_frame ..) rfl (.refl ..))
  split
  split
  dsimp only
  exact .refl ..
  dsimp only
  exact .andThen (showForces_frame ..) rfl (.andThen (releaseForce_frame ..) rfl (.refl ..))
  split
  dsimp only
  exact .andThen (showForces_frame ..) rfl (.andThen (releaseAll_frame ..) rfl (.refl ..))
  split
  split
  dsimp only
  exact .refl ..
  dsimp only
  exact .andThen (markRevert_frame ..) rfl (.andThen (keepPoint_frame ..) rfl (.andThen (writePoint_frame ..) rfl (.refl ..)))
  split
  split
  dsimp only
  exact .refl ..
  split
  dsimp only
  exact .refl ..
  dsimp only
  exact .andThen (markRevert_frame ..) rfl (.andThen (keepPoint_frame ..) rfl (.andThen (writePoint_frame ..) rfl (.refl ..)))
  split
  dsimp only
  exact .refl ..
  split
  dsimp only
  exact .andThen (followTest_frame ..) rfl (.andThen (State.modCtl_plain (fun _ => by rfl) (fun _ => by rfl) ..) rfl (.refl ..))
  dsimp only
  exact .andThen (State.modPair_frame ..) rfl (.refl ..)
  split
  dsimp only
  exact .refl ..
  dsimp only
  exact .andThen (startCheck_frame ..) rfl (.refl ..)
  dsimp only
  exact .andThen (markRevert_frame ..) rfl (.andThen (trigger_frame ..) rfl (.andThen (putSetting_frame ..) rfl (.refl ..)))
  dsimp only
  exact .andThen (putA1_frame ..) rfl (.refl ..)
  dsimp only
  exact .andThen (takeWrapped_frame ..) rfl (.refl ..)
  dsimp only
  exact .andThen (removeRole_frame ..) rfl (.refl ..)
  dsimp only
  exact .andThen (confirmSettings_frame ..) rfl (.refl ..)
  dsimp only
  exact .andThen (prepareSwitch_frame ..) rfl (.refl ..)
  dsimp only
  exact .andThen (markRevert_frame ..) rfl (.andThen (State.modBoot_plain (fun _ => by rfl) ..) rfl (.andThen (putSetting_frame ..) rfl
    (.refl ..)))
  split
  dsimp only
  exact .refl ..
  dsimp only
  exact .andThen (markRevert_frame ..) rfl (.andThen (writeSetting_frame ..) rfl (.refl ..))

theorem revertEntry_frame (s : State) (key) :
    s.onlyChanges [.img, .loops, .dict, .dist] (revertEntry s key) := by
  unfold revertEntry
  dsimp only
  refine .ite ?_ ?_
  refine .ite ?_ ?_
  exact .andThen (State.modImg_frame ..) rfl (.refl ..)
  exact .refl ..
  refine .ite ?_ ?_
  split
  exact .andThen (State.modImg_frame ..) rfl (.refl ..)
  exact .refl ..
  refine .ite ?_ ?_
  exact .andThen (State.modDict_frame ..) rfl (.refl ..)
  exact .andThen (writeSetting_frame ..) rfl (.refl ..)

theorem boundaryRevert_frame (s : State) :
    s.onlyChanges [.img, .cyc, .loops, .dict, .dist] (boundaryRevert s) := by
  unfold boundaryRevert
  dsimp only
  refine .foldl (fun _ _ => ?_) ?_
  exact .andThen (revertEntry_frame ..) rfl (.refl ..)
  exact .andThen (State.modCyc_plain (fun _ => by rfl) ..) rfl (.refl ..)

theorem clearEntry_frame (s : State) (index) (sub) (v) :
    s.onlyChanges [.ctl, .time, .cyc, .can0, .can1, .chans, .loops, .pair, .net, .dict, .log, .dist, .field, .integ] (clearEntry s index
      sub v) := by
  unfold clearEntry
  dsimp only
  split
  exact .andThen (State.modDict_frame ..) rfl (.refl ..)
  exact .andThen (State.modCtl_plain (fun _ => by rfl) (fun _ => by rfl) ..) rfl (.refl ..)
  exact .andThen (State.modPair_frame ..) rfl (.refl ..)
  exact .andThen (State.modTime_frame ..) rfl (.refl ..)
  exact .andThen (State.modNet_frame ..) rfl (.refl ..)
  exact .andThen (State.modLog_frame ..) rfl (.refl ..)
  exact .andThen (State.modDist_frame ..) rfl (.refl ..)
  exact .andThen (State.modField_frame ..) rfl (.refl ..)
  exact .andThen (State.modField_frame ..) rfl (.refl ..)
  exact .andThen (State.modInteg_frame ..) rfl (.refl ..)
  exact .andThen (State.modInteg_frame ..) rfl (.refl ..)
  refine .ite ?_ ?_
  exact .andThen (State.modNet_frame ..) rfl (.refl ..)
  refine .ite ?_ ?_
  exact .andThen (modCan_frame ..) rfl (.refl ..)
  refine .ite ?_ ?_
  exact .andThen (modL_frame ..) rfl (.refl ..)
  refine .ite ?_ ?_
  exact .andThen (modChan_frame ..) rfl (.refl ..)
  refine .ite ?_ ?_
  exact .andThen (modLoop_frame ..) rfl (.refl ..)
  refine .ite ?_ ?_
  exact .andThen (State.modCyc_plain (fun _ => by rfl) ..) rfl (.refl ..)
  refine .ite ?_ ?_
  exact .andThen (modPub_frame ..) rfl (.refl ..)
  refine .ite ?_ ?_
  exact .andThen (modSub_frame ..) rfl (.refl ..)
  exact .refl ..

theorem writeLocal_frame (s : State) (index) (sub) (v) :
    s.onlyChanges [.time, .can0, .can1, .dict] (writeLocal s index sub v) := by
  unfold writeLocal
  dsimp only
  refine .ite ?_ ?_
  exact .andThen (refSwitch_frame ..) rfl (.andThen (putSetting_frame ..) rfl (.refl ..))
  refine .ite ?_ ?_
  exact .andThen (State.modTime_frame ..) rfl (.andThen (putSetting_frame ..) rfl (.refl ..))
  refine .ite ?_ ?_
  exact .andThen (bellAgain_frame ..) rfl (.andThen (putSetting_frame ..) rfl (.refl ..))
  exact .andThen (putSetting_frame ..) rfl (.refl ..)

theorem stopAtRelease_frame (s : State) :
    s.onlyChanges [.out, .ctl, .time, .img, .cyc, .n0, .n1, .can0, .can1, .streams, .chans, .pair, .net, .dict, .log, .dist, .field,
      .integ, .mode] (stopAtRelease s) := by
  unfold stopAtRelease
  refine .ite ?_ ?_
  refine .ite ?_ ?_
  exact .andThen (enterStop_frame ..) rfl (.refl ..)
  exact .andThen (State.modCtl_plain (fun _ => by rfl) (fun _ => by rfl) ..) rfl (.refl ..)
  refine .ite ?_ ?_
  exact .andThen (enterStop_frame ..) rfl (.refl ..)
  exact .refl ..

theorem commandStop_frame (s : State) :
    s.onlyChanges [.out, .ctl, .time, .img, .cyc, .n0, .n1, .can0, .can1, .streams, .chans, .pair, .net, .dict, .log, .dist, .field,
      .integ, .mode] (commandStop s) := by
  unfold commandStop
  dsimp only
  refine .ite ?_ ?_
  exact .andThen (State.modPair_frame ..) rfl (.andThen (State.modCtl_plain (fun _ => by rfl) (fun _ => by rfl) ..) rfl (.andThen
    (lowerOwn_frame ..) rfl (.andThen (State.modCtl_plain (fun _ => by rfl) (fun _ => by rfl) ..) rfl (.refl ..))))
  exact .andThen (stopAtRelease_frame ..) rfl (.andThen (State.modCtl_plain (fun _ => by rfl) (fun _ => by rfl) ..) rfl (.refl ..))

theorem liftStop_frame (s : State) :
    s.onlyChanges [.ctl] (liftStop s) := by
  unfold liftStop
  exact .andThen (State.modCtl_plain (fun _ => by rfl) (fun _ => by rfl) ..) rfl (.refl ..)

theorem commandRestart_frame (s : State) (cold) :
    s.onlyChanges [.out, .ctl, .time, .img, .cyc, .n0, .n1, .can0, .can1, .streams, .chans, .pair, .net, .dict, .log, .dist, .field,
      .integ, .mode] (commandRestart s cold) := by
  unfold commandRestart
  exact .andThen (stopAtRelease_frame ..) rfl (.andThen (State.modCtl_plain (fun _ => by rfl) (fun _ => by rfl) ..) rfl (.refl ..))

theorem retryCatchup_frame (s : State) :
    s.onlyChanges [.out, .pair] (retryCatchup s) := by
  unfold retryCatchup
  refine .ite ?_ ?_
  exact .andThen (beginPhase1_frame ..) rfl (.andThen (State.modPair_frame ..) rfl (.refl ..))
  exact .refl ..

theorem unlockService_frame (s : State) (sig) :
    s.onlyChanges [.dict] (unlockService s sig).2 := by
  unfold unlockService
  dsimp only
  exact .andThen (State.modDict_frame ..) rfl (.andThen (draw_frame ..) rfl (.refl ..))

theorem runCommand_frame (s : State) (index) (sub) (v) (data) :
    s.onlyChanges [.out, .ctl, .time, .img, .cyc, .n0, .n1, .can0, .can1, .streams, .chans, .loops, .pair, .net, .dict, .log, .dist,
      .field, .integ, .boot, .mode, .keys] (runCommand s index sub v data).2 := by
  unfold runCommand
  split
  dsimp only
  refine .ite ?_ ?_
  exact .andThen (commandStop_frame ..) rfl (.refl ..)
  refine .ite ?_ ?_
  exact .andThen (liftStop_frame ..) rfl (.refl ..)
  exact .refl ..
  dsimp only
  exact .andThen (retryCatchup_frame ..) rfl (.refl ..)
  dsimp only
  exact .andThen (raiseSvn_frame ..) rfl (.refl ..)
  exact .andThen (startReport_frame ..) rfl (.refl ..)
  dsimp only
  exact .andThen (State.modInteg_frame ..) rfl (.refl ..)
  dsimp only
  exact .andThen (State.modInteg_frame ..) rfl (.refl ..)
  dsimp only
  exact .andThen (State.modField_frame ..) rfl (.refl ..)
  dsimp only
  exact .andThen (deleteRecords_frame ..) rfl (.refl ..)
  exact .andThen (beginStaging_frame ..) rfl (.refl ..)
  exact .andThen (discardSlot_frame ..) rfl (.refl ..)
  dsimp only
  exact .andThen (State.modBoot_plain (fun _ => by rfl) ..) rfl (.refl ..)
  split
  dsimp only
  exact .refl ..
  dsimp only
  exact .andThen (commandRestart_frame ..) rfl (.refl ..)
  exact .andThen (discardChange_frame ..) rfl (.refl ..)
  exact .andThen (unlockService_frame ..) rfl (.refl ..)
  dsimp only
  exact .andThen (clearEntry_frame ..) rfl (.refl ..)

theorem serveCommand_frame (s : State) (c) (index) (sub) (typ) (data) :
    s.onlyChanges [.out, .ctl, .time, .img, .cyc, .n0, .n1, .mpu, .dma, .evf, .can0, .can1, .bell, .streams, .chans, .loops, .pair, .net,
      .dict, .log, .dist, .field, .integ, .boot, .mode, .life, .keys, .mem, .tick] (serveCommand s c index sub typ data) := by
  unfold serveCommand
  dsimp only
  refine .ite ?_ ?_
  refine .ite ?_ ?_
  exact .andThen (answerWrite_frame ..) rfl (.refl ..)
  exact .andThen (resetModule_frame ..) rfl (.andThen (answerWrite_frame ..) rfl (.andThen (lifeCommand_frame ..) rfl (.refl ..)))
  refine .ite ?_ ?_
  exact .andThen (answerWrite_frame ..) rfl (.refl ..)
  refine .ite ?_ ?_
  exact .andThen (resetModule_frame ..) rfl (.andThen (answerWrite_frame ..) rfl (.refl ..))
  exact .andThen (answerWrite_frame ..) rfl (.andThen (runCommand_frame ..) rfl (.refl ..))

theorem remember_frame (s : State) (m) :
    s.onlyChanges [.pair] (remember s m) := by
  unfold remember
  exact .andThen (State.modPair_frame ..) rfl (.refl ..)

theorem answerRepeat_frame (s : State) (x) (f) :
    s.onlyChanges [.out, .n0, .n1, .can0, .can1, .pair, .net, .dict, .integ] (answerRepeat s x f) := by
  unfold answerRepeat
  split
  exact .andThen (answerFwd_frame ..) rfl (.refl ..)
  exact .andThen (State.modPair_frame ..) rfl (.refl ..)

theorem ownerTake_frame (s : State) (f) :
    s.onlyChanges [.out, .n0, .n1, .can0, .can1, .pair, .net, .dict, .integ] (ownerTake s f) := by
  unfold ownerTake
  split
  exact .andThen (answerRepeat_frame ..) rfl (.refl ..)
  dsimp only
  refine .ite ?_ ?_
  exact .andThen (answerFwd_frame ..) rfl (.refl ..)
  exact .andThen (sequence_frame ..) rfl (.andThen (remember_frame ..) rfl (.refl ..))

theorem queueReq_frame (s : State) (f) :
    s.onlyChanges [.out, .n0, .n1, .can0, .can1, .pair, .net, .dict, .integ] (queueReq s f) := by
  unfold queueReq
  refine .ite ?_ ?_
  exact .andThen (answerFwd_frame ..) rfl (.refl ..)
  exact .andThen (State.modPair_frame ..) rfl (.refl ..)

theorem forwardReq_frame (s : State) (f) :
    s.onlyChanges [.out, .pair] (forwardReq s f) := by
  unfold forwardReq
  dsimp only
  exact .andThen (mjSend_frame ..) rfl (.andThen (State.modPair_frame ..) rfl (.refl ..))

theorem servePair_frame (s : State) (c) (r) :
    s.onlyChanges [.out, .ctl, .time, .img, .cyc, .n0, .n1, .can0, .can1, .streams, .chans, .loops, .pair, .net, .dict, .log, .dist,
      .integ, .boot, .mode, .keys] (servePair s c r) := by
  unfold servePair
  dsimp only
  refine .ite ?_ ?_
  refine .ite ?_ ?_
  exact .andThen (answerFwd_frame ..) rfl (.refl ..)
  refine .ite ?_ ?_
  exact .andThen (answerFwd_frame ..) rfl (.refl ..)
  exact .andThen (answerFwd_frame ..) rfl (.andThen (applyPair_frame ..) rfl (.refl ..))
  refine .ite ?_ ?_
  exact .andThen (answerFwd_frame ..) rfl (.refl ..)
  refine .ite ?_ ?_
  exact .andThen (ownerTake_frame ..) rfl (.refl ..)
  refine .ite ?_ ?_
  exact .andThen (queueReq_frame ..) rfl (.refl ..)
  exact .andThen (forwardReq_frame ..) rfl (.refl ..)

theorem serveWrite_frame (s : State) (c) (index) (sub) (typ) (data) :
    s.onlyChanges [.out, .ctl, .time, .img, .cyc, .n0, .n1, .mpu, .dma, .evf, .can0, .can1, .bell, .streams, .chans, .loops, .pair, .net,
      .dict, .log, .dist, .field, .integ, .boot, .mode, .life, .keys, .mem, .tick] (serveWrite s c index sub typ data) := by
  unfold serveWrite
  split
  exact .andThen (answerWrite_frame ..) rfl (.refl ..)
  split
  exact .andThen (servePair_frame ..) rfl (.refl ..)
  exact .andThen (serveCommand_frame ..) rfl (.refl ..)
  refine .ite ?_ ?_
  exact .andThen (answerWrite_frame ..) rfl (.andThen (writeLocal_frame ..) rfl (.refl ..))
  exact .andThen (answerWrite_frame ..) rfl (.refl ..)
  exact .refl ..
  exact .refl ..

theorem serveStream_frame (s : State) (c) (sub) (typ) (off) (data) :
    s.onlyChanges [.out, .cyc, .n0, .n1, .can0, .can1, .net, .dict, .integ, .boot] (serveStream s c sub typ off data) := by
  unfold serveStream
  split
  exact .andThen (answerWrite_frame ..) rfl (.refl ..)
  dsimp only
  exact .andThen (answerWrite_frame ..) rfl (.andThen (streamWrite_frame ..) rfl (.refl ..))

theorem rowWrite_frame (s : State) (c) (index) (sub) (typ) (data) :
    s.onlyChanges [.out, .ctl, .time, .img, .cyc, .n0, .n1, .mpu, .dma, .evf, .can0, .can1, .bell, .streams, .chans, .loops, .pair, .net,
      .dict, .log, .dist, .field, .integ, .boot, .mode, .life, .keys, .mem, .tick] (rowWrite s c index sub typ data) := by
  unfold rowWrite
  refine .ite ?_ ?_
  exact .refl ..
  refine .ite ?_ ?_
  exact .andThen (dictOut_frame ..) rfl (.refl ..)
  exact .andThen (serveWrite_frame ..) rfl (.refl ..)

theorem drawSid_frame (n) (s : State) : s.onlyChanges [.dict] (drawSid n s).2 := by
  induction n generalizing s with
  | zero => exact .refl ..
  | succ n ih =>
    unfold drawSid
    dsimp only
    split
    exact .andThen (ih ..) rfl (.andThen (draw_frame ..) rfl (.refl ..))
    dsimp only
    exact .andThen (draw_frame ..) rfl (.refl ..)

theorem strangerError_frame (s : State) (h) (status) :
    s.onlyChanges [.out, .can0, .can1, .net, .dict, .integ] (strangerError s h status) := by
  unfold strangerError
  exact .andThen (answerError_frame ..) rfl (.refl ..)

theorem serveOpen_frame (s : State) (h) (body) :
    s.onlyChanges [.out, .can0, .can1, .net, .dict, .log, .integ] (serveOpen s h body) := by
  unfold serveOpen
  dsimp only
  refine .ite ?_ ?_
  exact .andThen (strangerError_frame ..) rfl (.refl ..)
  split
  exact .andThen (strangerError_frame ..) rfl (.refl ..)
  refine .ite ?_ ?_
  exact .andThen (strangerError_frame ..) rfl (.refl ..)
  split
  exact .andThen (drawSid_frame ..) rfl (.refl ..)
  exact .andThen (dictOut_frame ..) rfl (.andThen (logSec_frame ..) rfl (.andThen (State.modDict_frame ..) rfl (.andThen (draw_frame ..)
    rfl (.andThen (drawSid_frame ..) rfl (.refl ..)))))

theorem closeSession_frame (s : State) (sid) :
    s.onlyChanges [.dict, .log] (closeSession s sid) := by
  unfold closeSession
  split
  exact .refl ..
  exact .andThen (logSec_frame ..) rfl (.andThen (endSession_frame ..) rfl (.refl ..))

theorem receive_frame (t : State) (h type body) :
    t.onlyChanges [.out, .can0, .can1, .net, .dict, .integ]
      (match receive t h type body with | .unknown => t | .ended u => u | .accepted _ u => u) := by
  unfold receive
  cases findSession t h.sid with
  | none => exact .refl ..
  | some x =>
    dsimp only
    by_cases h1 : h.tag = dictTag x.key (dictHead type body.length h.sid h.ctr h.reqid ++ body)
    · rw [if_neg (not_not.mpr h1)]
      by_cases h2 : x.rxCtr.toNat < h.ctr.toNat
      · rw [if_pos h2]
        exact (modSession_frame ..).andThen (by decide) (.refl ..)
      · rw [if_neg h2]
        by_cases h3 : x.established = true ∧ h.ctr = x.rxCtr ∧ h.reqid = x.reqid
        · rw [if_pos h3]
          cases x.stored with
          | none => exact (modSession_frame ..).andThen (by decide) (.refl ..)
          | some r => exact (dictOut_frame ..).andThen (by decide) ((modSession_frame ..).andThen (by decide) (.refl ..))
        · rw [if_neg h3]
          exact (State.modDict_frame ..).andThen (by decide) (.refl ..)
    · rw [if_pos h1]
      exact (State.modDict_frame ..).andThen (by decide) (.refl ..)

theorem inSession_keeps {s t : State} {ps : List Part} {h type body} {f : Client → State → State}
    (hf : ∀ (c : Client) (u : State), u.onlyChanges ps (f c u)) (hs : [Part.out, .can0, .can1, .net, .dict, .integ].all (fun q =>
      ps.contains q) = true)
    (g : s.onlyChanges ps t) : s.onlyChanges ps (inSession t h type body f) := by
  have key := receive_frame t h type body
  unfold inSession
  cases hr : receive t h type body with
  | unknown => exact .andThen (strangerError_frame ..) hs g
  | ended u => rw [hr] at key; exact .andThen key hs g
  | accepted c u =>
    rw [hr] at key
    exact ⟨fun p hp => ((hf _ _).same p hp).trans ((State.onlyChanges.andThen key hs g).same p hp)⟩

theorem serveClose_frame (s : State) (h) :
    s.onlyChanges [.out, .can0, .can1, .net, .dict, .log, .integ] (serveClose s h) := by
  unfold serveClose
  refine .ite ?_ ?_
  exact .andThen (strangerError_frame ..) rfl (.refl ..)
  refine inSession_keeps (fun _ _ => ?_) (by decide) ?_
  exact .andThen (closeSession_frame ..) rfl (.refl ..)
  exact .refl ..

theorem countItems_frame (s : State) (role) (items) :
    s.onlyChanges [.dict] (countItems s role items) := by
  unfold countItems
  refine .foldl (fun _ _ => ?_) ?_
  refine .ite ?_ ?_
  exact .andThen (countStatus_frame ..) rfl (.refl ..)
  exact .refl ..
  exact .refl ..

theorem serveRead_frame (s : State) (h) (items) (body) :
    s.onlyChanges [.out, .can0, .can1, .net, .dict, .integ] (serveRead s h items body) := by
  unfold serveRead
  dsimp only
  refine .ite ?_ ?_
  refine .ite ?_ ?_
  exact .andThen (answerError_frame ..) rfl (.refl ..)
  exact .andThen (answerClient_frame ..) rfl (.andThen (countStatus_frame ..) rfl (.andThen (countItems_frame ..) rfl (.refl ..)))
  refine inSession_keeps (fun _ _ => ?_) (by decide) ?_
  refine .ite ?_ ?_
  exact .andThen (answerError_frame ..) rfl (.refl ..)
  exact .andThen (answerClient_frame ..) rfl (.andThen (countStatus_frame ..) rfl (.andThen (countItems_frame ..) rfl (.refl ..)))
  exact .refl ..

theorem sessionWrite_frame (s : State) (c) (w) :
    s.onlyChanges [.out, .ctl, .time, .img, .cyc, .n0, .n1, .mpu, .dma, .evf, .can0, .can1, .bell, .streams, .chans, .loops, .pair, .net,
      .dict, .log, .dist, .field, .integ, .boot, .mode, .life, .keys, .mem, .tick] (sessionWrite s c w) := by
  unfold sessionWrite
  dsimp only
  refine .ite ?_ ?_
  exact .andThen (answerError_frame ..) rfl (.refl ..)
  refine .ite ?_ ?_
  exact .andThen (serveStream_frame ..) rfl (.refl ..)
  split
  exact .andThen (answerWrite_frame ..) rfl (.andThen (modSession_frame ..) rfl (.refl ..))
  refine .ite ?_ ?_
  exact .andThen (answerWrite_frame ..) rfl (.andThen (modSession_frame ..) rfl (.refl ..))
  exact .andThen (serveWrite_frame ..) rfl (.andThen (modSession_frame ..) rfl (.refl ..))

theorem strangerWrite_frame (s : State) (h) (w) :
    s.onlyChanges [.out, .ctl, .time, .img, .cyc, .n0, .n1, .mpu, .dma, .evf, .can0, .can1, .bell, .streams, .chans, .loops, .pair, .net,
      .dict, .log, .dist, .field, .integ, .boot, .mode, .life, .keys, .mem, .tick] (strangerWrite s h w) := by
  unfold strangerWrite
  dsimp only
  refine .ite ?_ ?_
  exact .andThen (strangerError_frame ..) rfl (.refl ..)
  refine .ite ?_ ?_
  exact .andThen (strangerError_frame ..) rfl (.refl ..)
  refine .ite ?_ ?_
  exact .andThen (serveWrite_frame ..) rfl (.refl ..)
  split
  exact .andThen (answerWrite_frame ..) rfl (.andThen (State.modDict_frame ..) rfl (.refl ..))
  refine .ite ?_ ?_
  exact .andThen (answerWrite_frame ..) rfl (.andThen (State.modDict_frame ..) rfl (.refl ..))
  exact .andThen (serveWrite_frame ..) rfl (.andThen (State.modDict_frame ..) rfl (.refl ..))

theorem serveWriteMsg_frame (s : State) (h) (w) (body) :
    s.onlyChanges [.out, .ctl, .time, .img, .cyc, .n0, .n1, .mpu, .dma, .evf, .can0, .can1, .bell, .streams, .chans, .loops, .pair, .net,
      .dict, .log, .dist, .field, .integ, .boot, .mode, .life, .keys, .mem, .tick] (serveWriteMsg s h w body) := by
  unfold serveWriteMsg
  refine .ite ?_ ?_
  exact .andThen (strangerWrite_frame ..) rfl (.refl ..)
  refine inSession_keeps (fun _ _ => ?_) (by decide) ?_
  exact .andThen (sessionWrite_frame ..) rfl (.refl ..)
  exact .refl ..

theorem serveMalformed_frame (s : State) (h) (type) (body) :
    s.onlyChanges [.out, .can0, .can1, .net, .dict, .integ] (serveMalformed s h type body) := by
  unfold serveMalformed
  dsimp only
  refine .ite ?_ ?_
  exact .andThen (strangerError_frame ..) rfl (.refl ..)
  refine inSession_keeps (fun _ _ => ?_) (by decide) ?_
  exact .andThen (answerError_frame ..) rfl (.refl ..)
  exact .refl ..

theorem dictMessage_frame (s : State) (via) (m) :
    s.onlyChanges [.out, .ctl, .time, .img, .cyc, .n0, .n1, .mpu, .dma, .evf, .can0, .can1, .bell, .streams, .chans, .loops, .pair, .net,
      .dict, .log, .dist, .field, .integ, .boot, .mode, .life, .keys, .mem, .tick] (dictMessage s via m) := by
  unfold dictMessage
  dsimp only
  refine .ite ?_ ?_
  exact .refl ..
  refine .ite ?_ ?_
  exact .andThen (serveMalformed_frame ..) rfl (.refl ..)
  refine .ite ?_ ?_
  exact .andThen (serveOpen_frame ..) rfl (.refl ..)
  refine .ite ?_ ?_
  exact .andThen (serveClose_frame ..) rfl (.refl ..)
  refine .ite ?_ ?_
  exact .andThen (serveRead_frame ..) rfl (.refl ..)
  refine .ite ?_ ?_
  exact .andThen (serveWriteMsg_frame ..) rfl (.refl ..)
  exact .andThen (serveMalformed_frame ..) rfl (.refl ..)

theorem abortRx_frame (s : State) (n) :
    s.onlyChanges [.can0, .can1, .dict] (abortRx s n) := by
  unfold abortRx
  refine .ite ?_ ?_
  exact .refl ..
  exact .andThen (State.modDict_frame ..) rfl (.andThen (modCan_frame ..) rfl (.refl ..))

theorem abortTx_frame (s : State) (n) :
    s.onlyChanges [.can0, .can1, .dict] (abortTx s n) := by
  unfold abortTx
  refine .ite ?_ ?_
  exact .refl ..
  exact .andThen (tpTurn_frame ..) rfl (.andThen (State.modDict_frame ..) rfl (.andThen (modCan_frame ..) rfl (.refl ..)))

theorem sendFlow_frame (s : State) (n) :
    s.onlyChanges [.can0, .can1] (sendFlow s n) := by
  unfold sendFlow
  refine .ite ?_ ?_
  exact .refl ..
  exact .andThen (putSlot_frame ..) rfl (.refl ..)

theorem tpSingle_frame (s : State) (n) (d) :
    s.onlyChanges [.out, .ctl, .time, .img, .cyc, .n0, .n1, .mpu, .dma, .evf, .can0, .can1, .bell, .streams, .chans, .loops, .pair, .net,
      .dict, .log, .dist, .field, .integ, .boot, .mode, .life, .keys, .mem, .tick] (tpSingle s n d) := by
  unfold tpSingle
  dsimp only
  refine .ite ?_ ?_
  exact .refl ..
  exact .andThen (dictMessage_frame ..) rfl (.andThen (abortRx_frame ..) rfl (.refl ..))

theorem tpFirst_frame (s : State) (n) (d) :
    s.onlyChanges [.can0, .can1, .dict] (tpFirst s n d) := by
  unfold tpFirst
  dsimp only
  refine .ite ?_ ?_
  exact .refl ..
  exact .andThen (sendFlow_frame ..) rfl (.andThen (modCan_frame ..) rfl (.andThen (abortRx_frame ..) rfl (.refl ..)))

theorem tpConsec_frame (s : State) (n) (d) :
    s.onlyChanges [.out, .ctl, .time, .img, .cyc, .n0, .n1, .mpu, .dma, .evf, .can0, .can1, .bell, .streams, .chans, .loops, .pair, .net,
      .dict, .log, .dist, .field, .integ, .boot, .mode, .life, .keys, .mem, .tick] (tpConsec s n d) := by
  unfold tpConsec
  split
  exact .refl ..
  refine .ite ?_ ?_
  exact .andThen (abortRx_frame ..) rfl (.refl ..)
  dsimp only
  refine .ite ?_ ?_
  exact .andThen (dictMessage_frame ..) rfl (.andThen (modCan_frame ..) rfl (.refl ..))
  refine .ite ?_ ?_
  exact .andThen (sendFlow_frame ..) rfl (.andThen (modCan_frame ..) rfl (.refl ..))
  exact .andThen (modCan_frame ..) rfl (.refl ..)

theorem tpFlow_frame (s : State) (n) (d) :
    s.onlyChanges [.can0, .can1, .dict] (tpFlow s n d) := by
  unfold tpFlow
  split
  exact .refl ..
  dsimp only
  split
  refine .ite ?_ ?_
  exact .refl ..
  exact .andThen (tpConsecOut_frame ..) rfl (.refl ..)
  refine .ite ?_ ?_
  exact .andThen (modCan_frame ..) rfl (.refl ..)
  exact .refl ..
  refine .ite ?_ ?_
  exact .andThen (abortTx_frame ..) rfl (.refl ..)
  exact .refl ..

theorem modDmb_frame (s : State) (c) (f) :
    s.onlyChanges [.n0, .n1] (modDmb s c f) := by
  unfold modDmb
  exact .andThen (modCp_plain (fun _ => by rfl) ..) rfl (.refl ..)

theorem dmbDiscard_frame (s : State) :
    s.onlyChanges [.dict] (dmbDiscard s) := by
  unfold dmbDiscard
  exact .andThen (State.modDict_frame ..) rfl (.refl ..)

theorem dmbServe_frame (s : State) (c) :
    s.onlyChanges [.out, .ctl, .time, .img, .cyc, .n0, .n1, .mpu, .dma, .evf, .can0, .can1, .bell, .streams, .chans, .loops, .pair, .net,
      .dict, .log, .dist, .field, .integ, .boot, .mode, .life, .keys, .mem, .tick] (dmbServe s c) := by
  unfold dmbServe
  dsimp only
  refine .ite ?_ ?_
  exact .andThen (dmbReady_frame ..) rfl (.refl ..)
  refine .ite ?_ ?_
  exact .andThen (dmbReady_frame ..) rfl (.andThen (countStatus_frame ..) rfl (.refl ..))
  refine .ite ?_ ?_
  exact .andThen (serveStream_frame ..) rfl (.refl ..)
  refine .ite ?_ ?_
  exact .andThen (answerWrite_frame ..) rfl (.refl ..)
  exact .andThen (serveWrite_frame ..) rfl (.refl ..)

theorem clientWrites_frame (s : State) (c) (index) (sub) (data) :
    s.onlyNext [.out, .ctl, .time, .img, .cyc, .n0, .n1, .mpu, .dma, .evf, .can0, .can1, .bell, .streams, .chans, .loops, .pair, .net,
      .dict, .log, .dist, .field, .integ, .boot, .mode, .life, .keys, .mem, .tick] (clientWrites s c index sub data) := by
  unfold clientWrites
  refine .next ?_
  exact .andThen (rowWrite_frame ..) rfl (.refl ..)

theorem clientStreams_frame (s : State) (c) (sub) (offset) (data) :
    s.onlyNext [.out, .ctl, .time, .img, .cyc, .n0, .n1, .mpu, .dma, .evf, .can0, .can1, .bell, .streams, .chans, .loops, .pair, .net,
      .dict, .log, .dist, .field, .integ, .boot, .mode, .life, .keys, .mem, .tick] (clientStreams s c sub offset data) := by
  unfold clientStreams
  refine .ite ?_ ?_
  exact .weaken (clientWrites_frame ..) (by decide)
  refine .next ?_
  exact .andThen (serveStream_frame ..) rfl (.refl ..)

end Sys2Proof.Machine
end

