-- ==== Sys2Proof/Laws/FrameCycle.lean ====
section
/-!
SUPPORT. What each operation of Cycle, Catchup, Release, Access, Ports, Debug, Pair, Boot, Settle, Connector can change: one lemma for each, cited in place of its definition.
-/

namespace Sys2Proof.Machine

theorem freezeSubs_frame (s : State) (due) :
    s.onlyChanges [.net] (freezeSubs s due) := by
  unfold freezeSubs
  refine .foldl (fun _ _ => ?_) ?_
  exact .andThen (modSub_frame ..) rfl (.refl ..)
  exact .refl ..

theorem thawSubs_frame (s : State) (due) :
    s.onlyChanges [.net] (thawSubs s due) := by
  unfold thawSubs
  refine .foldl (fun _ _ => ?_) ?_
  exact .andThen (modSub_frame ..) rfl (.refl ..)
  exact .refl ..

theorem supplyOne_frame (s : State) (n) (f) :
    s.onlyChanges [.out, .pair] (supplyOne s n f) := by
  unfold supplyOne
  dsimp only
  split
  exact .andThen (mjSend_frame ..) rfl (.andThen (State.modPair_frame ..) rfl (.refl ..))
  exact .andThen (mjSend_frame ..) rfl (.andThen (State.modPair_frame ..) rfl (.refl ..))

theorem supplyPartner_frame (s : State) (t) :
    s.onlyChanges [.out, .pair] (supplyPartner s t) := by
  unfold supplyPartner
  refine .foldl (fun _ _ => ?_) ?_
  split
  exact .andThen (supplyOne_frame ..) rfl (.refl ..)
  refine .ite ?_ ?_
  exact .andThen (supplyOne_frame ..) rfl (.refl ..)
  exact .refl ..
  exact .refl ..
  exact .refl ..

theorem landPoint_frame (s : State) (xs) (p) (d) :
    s.onlyChanges [.img] (landPoint s xs p d) := by
  unfold landPoint
  split
  exact .andThen (State.modImg_frame ..) rfl (.refl ..)
  dsimp only
  exact .andThen (State.modImg_frame ..) rfl (.refl ..)

theorem settleSlot_frame (s : State) (xs) (cut) (x) :
    s.onlyChanges [.n0, .n1, .net] (settleSlot s xs cut x) := by
  unfold settleSlot
  dsimp only
  split
  exact .andThen (setSubState_frame ..) rfl (.andThen (modSub_frame ..) rfl (.andThen (modSub_frame ..) rfl (.refl ..)))
  exact .andThen (setSubState_frame ..) rfl (.andThen (modSub_frame ..) rfl (.refl ..))
  refine .ite ?_ ?_
  exact .andThen (setSubState_frame ..) rfl (.andThen (modSub_frame ..) rfl (.refl ..))
  refine .ite ?_ ?_
  refine .ite ?_ ?_
  exact .andThen (setSubState_frame ..) rfl (.andThen (modSub_frame ..) rfl (.andThen (modSub_frame ..) rfl (.refl ..)))
  exact .andThen (setSubState_frame ..) rfl (.andThen (modSub_frame ..) rfl (.andThen (modSub_frame ..) rfl (.refl ..)))
  refine .ite ?_ ?_
  exact .andThen (setSubState_frame ..) rfl (.andThen (modSub_frame ..) rfl (.refl ..))
  exact .andThen (setSubState_frame ..) rfl (.andThen (modSub_frame ..) rfl (.refl ..))

theorem pushHist_frame (s : State) (due) (cut) :
    s.onlyChanges [.img] (pushHist s due cut) := by
  unfold pushHist
  dsimp only
  exact .andThen (State.modImg_frame ..) rfl (.refl ..)

theorem discardOthers_frame (s : State) (kind) (xs) :
    s.onlyChanges [.n0, .n1, .integ] (discardOthers s kind xs) := by
  unfold discardOthers
  refine .foldl (fun _ _ => ?_) ?_
  exact .andThen (discardWrite_frame ..) rfl (.refl ..)
  exact .refl ..

theorem land_frame (s : State) (xs) (inputs) :
    s.onlyChanges [.img, .n0, .n1, .loops, .net, .integ] (land s xs inputs) := by
  unfold land
  dsimp only
  refine .andThen (pushHist_frame ..) rfl (.andThen (loopsLanded_frame ..) rfl ?_)
  refine .foldl (fun _ _ => ?_) ?_
  exact .andThen (settleSlot_frame ..) rfl (.refl ..)
  refine .foldl (fun _ _ => ?_) ?_
  refine .ite ?_ ?_
  exact .andThen (landPoint_frame ..) rfl (.refl ..)
  exact .refl ..
  refine .foldl (fun _ _ => ?_) ?_
  exact .andThen (discardOthers_frame ..) rfl (.refl ..)
  exact .refl ..

theorem modDue_frame (s : State) (due) (f) :
    s.onlyChanges [.cyc] (modDue s due f) := by
  unfold modDue
  exact .andThen (State.modCyc_plain (fun _ => by rfl) ..) rfl (.refl ..)

theorem markTick_frame (s : State) (m) :
    s.onlyChanges [.cyc] (markTick s m) := by
  unfold markTick
  exact .andThen (State.modCyc_plain (fun _ => by rfl) ..) rfl (.refl ..)

theorem advanceTick_frame (s : State) :
    s.onlyChanges [.cyc, .tick] (advanceTick s) := by
  unfold advanceTick
  dsimp only
  exact .andThen (modDue_frame ..) rfl (.andThen (State.modCyc_frame ..) rfl (.refl ..))

theorem dueEvents_frame (s : State) (due) (irq) (producer) (v) :
    s.onlyChanges [.n0, .n1, .evf, .field] (dueEvents s due irq producer v) := by
  unfold dueEvents
  refine .foldl (fun _ _ => ?_) ?_
  refine .ite ?_ ?_
  exact .andThen (pulse_frame ..) rfl (.andThen (raiseIrq_frame ..) rfl (.refl ..))
  exact .refl ..
  exact .refl ..

theorem sendTick_frame (s : State) (prevReleased) :
    s.onlyChanges [.out, .pair] (sendTick s prevReleased) := by
  unfold sendTick
  refine .ite ?_ ?_
  exact .refl ..
  exact .andThen (mjSend_frame ..) rfl (.refl ..)

theorem countSkip_frame (s : State) (due) (waits) :
    s.onlyChanges [.cyc, .n0, .n1, .pair, .dist] (countSkip s due waits) := by
  unfold countSkip
  dsimp only
  exact .andThen (logItems_frame ..) rfl (.andThen (raiseIrq_frame ..) rfl (.andThen (recordSkipped_frame ..) rfl (.andThen (modDue_frame
    ..) rfl (.refl ..))))

theorem logTimeChange_frame (s t : State) : t.onlyChanges [.pair] (logTimeChange s t) := by
  unfold logTimeChange
  exact State.onlyChanges.ite (State.onlyChanges.refl _ _) ((logItems_frame ..).andThen (by decide) (State.onlyChanges.refl _ _))

theorem tickTime_frame (s : State) :
    s.onlyChanges [.out, .time, .cyc, .n0, .n1, .evf, .pair, .log, .field] (tickTime s) := by
  unfold tickTime
  dsimp only
  exact .andThen (logTimeChange_frame ..) rfl (.andThen (agreedAtTick_frame ..) rfl (.andThen (logItems_frame ..) rfl (.andThen
    (applyAnnounced_frame ..) rfl (.refl ..))))

theorem reachEngines_frame (s : State) :
    s.onlyChanges [.cyc, .loops] (reachEngines s) := by
  unfold reachEngines
  dsimp only
  refine .foldl (fun _ _ => ?_) ?_
  split
  refine .ite ?_ ?_
  refine .ite ?_ ?_
  exact .andThen (loopWrite_frame ..) rfl (.andThen (State.modCyc_plain (fun _ => by rfl) ..) rfl (.refl ..))
  exact .andThen (State.modCyc_plain (fun _ => by rfl) ..) rfl (.refl ..)
  exact .refl ..
  exact .refl ..
  exact .refl ..
  exact .refl ..
  exact .andThen (State.modCyc_plain (fun _ => by rfl) ..) rfl (.refl ..)

theorem confirmTick_frame (s : State) :
    s.onlyChanges [.out, .time, .cyc, .n0, .n1, .evf, .loops, .pair, .net, .log, .field, .integ] (confirmTick s) := by
  unfold confirmTick
  refine .ite ?_ ?_
  exact .refl ..
  dsimp only
  exact .andThen (planSeqs_frame ..) rfl (.andThen (reachEngines_frame ..) rfl (.andThen (fieldCutoff_frame ..) rfl (.andThen
    (judgeField_frame ..) rfl (.andThen (dueEvents_frame ..) rfl (.andThen (State.modCyc_plain (fun _ => by rfl) ..) rfl (.andThen
    (tickTime_frame ..) rfl (.andThen (leavePaced_frame ..) rfl (.refl ..))))))))

theorem cutoff_frame (s : State) (m) :
    s.onlyChanges [.out, .time, .cyc, .n0, .n1, .evf, .loops, .pair, .net, .log, .field, .integ] (cutoff s m) := by
  unfold cutoff
  dsimp only
  split
  refine .ite ?_ ?_
  exact .andThen (supplyPartner_frame ..) rfl (.andThen (confirmTick_frame ..) rfl (.andThen (sendTick_frame ..) rfl (.andThen
    (State.modCyc_plain (fun _ => by rfl) ..) rfl (.andThen (holdField_frame ..) rfl (.andThen (freezeSubs_frame ..) rfl (.refl ..))))))
  exact .andThen (sendTick_frame ..) rfl (.andThen (State.modCyc_plain (fun _ => by rfl) ..) rfl (.andThen (holdField_frame ..) rfl
    (.andThen (freezeSubs_frame ..) rfl (.refl ..))))
  refine .ite ?_ ?_
  exact .andThen (sendTick_frame ..) rfl (.andThen (State.modCyc_plain (fun _ => by rfl) ..) rfl (.andThen (holdField_frame ..) rfl
    (.andThen (freezeSubs_frame ..) rfl (.refl ..))))
  exact .andThen (confirmTick_frame ..) rfl (.andThen (sendTick_frame ..) rfl (.andThen (State.modCyc_plain (fun _ => by rfl) ..) rfl
    (.andThen (holdField_frame ..) rfl (.andThen (freezeSubs_frame ..) rfl (.refl ..)))))

theorem settleRepeat_frame (s : State) (wsn) (status) (tick) :
    s.onlyChanges [.pair] (settleRepeat s wsn status tick) := by
  unfold settleRepeat
  dsimp only
  exact .andThen (State.modPair_frame ..) rfl (.refl ..)

theorem holdReply_frame (s : State) (i) (r) (status) :
    s.onlyChanges [.pair] (holdReply s i r status) := by
  unfold holdReply
  refine .ite ?_ ?_
  exact .refl ..
  dsimp only
  refine .ite ?_ ?_
  exact .andThen (State.modPair_frame ..) rfl (.refl ..)
  exact .andThen (State.modPair_frame ..) rfl (.refl ..)

theorem applyRequest_frame (s : State) (wsn) (r) :
    s.onlyChanges [.out, .ctl, .time, .img, .cyc, .n0, .n1, .streams, .chans, .loops, .pair, .net, .dict, .log, .dist, .integ, .boot,
      .mode, .keys] (applyRequest s wsn r).2 := by
  unfold applyRequest
  split
  dsimp only
  refine .andThen (markRevert_frame ..) rfl ?_
  refine .ite ?_ ?_
  exact .refl ..
  exact .andThen (putSetting_frame ..) rfl (.refl ..)
  dsimp only
  exact .refl ..
  exact .andThen (applyPair_frame ..) rfl (.refl ..)

theorem applySeq_frame (s : State) (i) :
    s.onlyChanges [.out, .ctl, .time, .img, .cyc, .n0, .n1, .streams, .chans, .loops, .pair, .net, .dict, .log, .dist, .integ, .boot,
      .mode, .keys] (applySeq s i) := by
  unfold applySeq
  dsimp only
  split
  refine .andThen (settleRepeat_frame ..) rfl (.andThen (holdReply_frame ..) rfl ?_)
  refine .ite ?_ ?_
  exact .andThen (raiseIrq_frame ..) rfl (.andThen (applyRequest_frame ..) rfl (.andThen (logItems_frame ..) rfl (.andThen
    (State.modPair_frame ..) rfl (.refl ..))))
  exact .andThen (applyRequest_frame ..) rfl (.andThen (logItems_frame ..) rfl (.andThen (State.modPair_frame ..) rfl (.refl ..)))
  exact .andThen (logItems_frame ..) rfl (.andThen (State.modPair_frame ..) rfl (.refl ..))
  exact .andThen (logItems_frame ..) rfl (.andThen (State.modPair_frame ..) rfl (.refl ..))
  exact .andThen (refuseChange_frame ..) rfl (.andThen (logItems_frame ..) rfl (.andThen (State.modPair_frame ..) rfl (.refl ..)))

theorem boundarySeqs_frame (s : State) :
    s.onlyChanges [.out, .ctl, .time, .img, .cyc, .n0, .n1, .streams, .chans, .loops, .pair, .net, .dict, .log, .dist, .integ, .boot,
      .mode, .keys] (boundarySeqs s) := by
  unfold boundarySeqs
  dsimp only
  refine .foldl (fun _ _ => ?_) ?_
  exact .andThen (applySeq_frame ..) rfl (.refl ..)
  exact .andThen (State.modPair_frame ..) rfl (.refl ..)

theorem boundary_frame (s : State) :
    s.onlyChanges [.out, .ctl, .time, .img, .cyc, .n0, .n1, .streams, .chans, .loops, .pair, .net, .dict, .log, .dist, .integ, .boot,
      .mode, .keys] (boundary s) := by
  unfold boundary
  exact .andThen (boundarySeqs_frame ..) rfl (.andThen (boundaryRevert_frame ..) rfl (.andThen (boundaryChange_frame ..) rfl (.refl ..)))

theorem postCall_frame (s : State) (t) (b) :
    s.onlyChanges [.img, .cyc, .n0, .n1, .integ] (postCall s t b) := by
  unfold postCall
  dsimp only
  refine .ite ?_ ?_
  exact .andThen (produce_frame ..) rfl (.refl ..)
  exact .andThen (State.modCyc_plain (fun _ => by rfl) ..) rfl (.andThen (raiseIrq_frame ..) rfl (.andThen (modCp_plain (fun _ => by rfl)
    ..) rfl (.refl ..)))

theorem evalRank_frame (s : State) (t) (r) :
    s.onlyChanges [.img, .cyc, .n0, .n1, .integ] (evalRank s t r) := by
  unfold evalRank
  dsimp only
  refine .andThen (State.modCyc_plain (fun _ => by rfl) ..) rfl (.andThen (State.modImg_frame ..) rfl ?_)
  refine .foldl (fun _ _ => ?_) ?_
  exact .andThen (produce_frame ..) rfl (.refl ..)
  refine .foldl (fun _ _ => ?_) ?_
  exact .andThen (postCall_frame ..) rfl (.refl ..)
  exact .refl ..

theorem runRanks_frame (t) (l) (s : State) : s.onlyChanges [.img, .cyc, .n0, .n1, .integ] (runRanks t l s) := by
  induction l generalizing s with
  | nil => exact .refl ..
  | cons r rest ih =>
    unfold runRanks
    dsimp only
    refine .ite ?_ ?_
    exact .andThen (ih ..) rfl (.andThen (evalRank_frame ..) rfl (.refl ..))
    exact .andThen (evalRank_frame ..) rfl (.refl ..)

theorem runTasks_frame (l) (s : State) : s.onlyChanges [.img, .cyc, .n0, .n1, .integ] (runTasks l s) := by
  induction l generalizing s with
  | nil => exact .andThen (State.modCyc_plain (fun _ => by rfl) ..) (by decide) (.refl ..)
  | cons t rest ih =>
    unfold runTasks
    dsimp only
    refine .ite ?_ ?_
    exact .andThen (ih ..) rfl (.andThen (State.modCyc_plain (fun _ => by rfl) ..) rfl (.andThen (runRanks_frame ..) rfl (.refl ..)))
    exact .andThen (runRanks_frame ..) rfl (.refl ..)

theorem runOn_frame (s : State) :
    s.onlyChanges [.img, .cyc, .n0, .n1, .integ] (runOn s) := by
  unfold runOn
  refine .ite ?_ ?_
  exact .andThen (runTasks_frame ..) rfl (.refl ..)
  exact .refl ..

theorem countLate_frame (s : State) :
    s.onlyChanges [.cyc, .n0, .n1] (countLate s) := by
  unfold countLate
  refine .ite ?_ ?_
  exact .andThen (raiseIrq_frame ..) rfl (.andThen (modDue_frame ..) rfl (.refl ..))
  exact .refl ..

theorem undoCutoff_frame (s : State) :
    s.onlyChanges [.cyc, .n0, .n1, .pair, .net, .dist] (undoCutoff s) := by
  unfold undoCutoff
  dsimp only
  exact .andThen (State.modCyc_plain (fun _ => by rfl) ..) rfl (.andThen (countSkip_frame ..) rfl (.andThen (thawSubs_frame ..) rfl (.refl
    ..)))

theorem logLanding_frame (s : State) (xs) (inputs) :
    s.onlyChanges [.pair] (logLanding s xs inputs) := by
  unfold logLanding
  exact .andThen (logItems_frame ..) rfl (.refl ..)

theorem beginExecution_frame (s : State) (xs) (inputs) :
    s.onlyChanges [.out, .ctl, .time, .img, .cyc, .n0, .n1, .evf, .streams, .chans, .loops, .pair, .net, .dict, .log, .dist, .field,
      .integ, .boot, .mode, .keys] (beginExecution s xs inputs) := by
  unfold beginExecution
  dsimp only
  exact .andThen (runOn_frame ..) rfl (.andThen (State.modCyc_plain (fun _ => by rfl) ..) rfl (.andThen (boundary_frame ..) rfl (.andThen
    (State.modCyc_plain (fun _ => by rfl) ..) rfl (.andThen (land_frame ..) rfl (.andThen (confirmTick_frame ..) rfl (.refl ..))))))

theorem endCall_frame (s : State) (c) (inst) (word) :
    s.onlyChanges [.img, .cyc, .n0, .n1, .integ] (endCall s c inst word) := by
  unfold endCall
  dsimp only
  refine .andThen (runOn_frame ..) rfl (.andThen (State.modCyc_plain (fun _ => by rfl) ..) rfl ?_)
  split
  exact .andThen (produce_frame ..) rfl (.refl ..)
  exact .refl ..

theorem noteRetired_frame (s : State) (c) (n) :
    s.onlyChanges [.n0, .n1] (noteRetired s c n) := by
  unfold noteRetired
  exact .andThen (modCp_plain (fun _ => by rfl) ..) rfl (.refl ..)

theorem abandonCall_frame (s : State) (c) :
    s.onlyChanges [.img, .cyc, .n0, .n1, .integ] (abandonCall s c) := by
  unfold abandonCall
  split
  exact .refl ..
  exact .andThen (endCall_frame ..) rfl (.andThen (modCp_plain (fun _ => by rfl) ..) rfl (.refl ..))

theorem abandonPosted_frame (s : State) (c) :
    s.onlyChanges [.img, .cyc, .n0, .n1, .integ] (abandonPosted s c) := by
  unfold abandonPosted
  dsimp only
  refine .foldl (fun _ _ => ?_) ?_
  exact .andThen (endCall_frame ..) rfl (.refl ..)
  exact .andThen (modCp_plain (fun _ => by rfl) ..) rfl (.refl ..)

theorem publishWords_frame (s : State) :
    s.onlyChanges [.img] (publishWords s) := by
  unfold publishWords
  exact .andThen (State.modImg_frame ..) rfl (.refl ..)

theorem commitTask_frame (s : State) (t) :
    s.onlyChanges [.img] (commitTask s t) := by
  unfold commitTask
  dsimp only
  exact .andThen (State.modImg_frame ..) rfl (.refl ..)

theorem commit_frame (s : State) :
    s.onlyChanges [.img] (commit s) := by
  unfold commit
  dsimp only
  refine .andThen (State.modImg_frame ..) rfl ?_
  refine .foldl (fun _ _ => ?_) ?_
  exact .andThen (commitTask_frame ..) rfl (.refl ..)
  exact .refl ..

theorem flushReplies_frame (s : State) :
    s.onlyChanges [.out, .n0, .n1, .can0, .can1, .pair, .net, .dict, .integ] (flushReplies s) := by
  unfold flushReplies
  dsimp only
  refine .foldl (fun _ _ => ?_) ?_
  exact .andThen (sendReply_frame ..) rfl (.refl ..)
  exact .andThen (State.modPair_frame ..) rfl (.refl ..)

theorem handOver_frame (s : State) :
    s.onlyChanges [.out, .ctl, .time, .img, .n0, .n1, .pair, .log, .dist, .field, .mode] (handOver s) := by
  unfold handOver
  refine .ite ?_ ?_
  exact .refl ..
  dsimp only
  refine .ite ?_ ?_
  exact .andThen (State.modPair_frame ..) rfl (.refl ..)
  refine .ite ?_ ?_
  exact .andThen (changeMode_frame ..) rfl (.andThen (logPair_frame ..) rfl (.andThen (changePair_frame ..) rfl (.andThen (lowerOwn_frame
    ..) rfl (.andThen (mjSend_frame ..) rfl (.andThen (State.modPair_frame ..) rfl (.refl ..))))))
  exact .andThen (logPair_frame ..) rfl (.andThen (changePair_frame ..) rfl (.andThen (lowerOwn_frame ..) rfl (.andThen (mjSend_frame ..)
    rfl (.andThen (State.modPair_frame ..) rfl (.refl ..)))))

theorem takePrepared_frame (s : State) (i : Installed) (own : Bool) (tick : W64) :
    s.onlyChanges [.out, .ctl, .time, .img, .cyc, .n0, .n1, .can0, .can1, .streams, .chans, .pair, .net, .dict, .log, .dist, .field,
      .integ, .boot, .mode, .keys] (takePrepared s i own tick) := by
  unfold takePrepared
  dsimp only
  refine .andThen (canReprogram_frame ..) rfl (.andThen (checkProgram_frame ..) rfl (.andThen (loadProgram_frame ..) rfl (.andThen
    (State.modCtl_plain (fun _ => by rfl) (fun _ => by rfl) ..) rfl (.andThen (State.modBoot_plain (fun _ => by rfl) ..) rfl (.andThen
    (refSwitch_frame ..) rfl (.andThen (fieldOff_frame ..) rfl (.andThen (installPackage_frame ..) rfl (.andThen (State.modImg_frame ..)
    rfl (.andThen (clearForces_frame ..) rfl (.andThen (enterStopAs_frame ..) rfl (.refl ..)))))))))))

theorem switchWithout_frame (s : State) (tick : W64) :
    s.onlyChanges [.out, .ctl, .time, .img, .cyc, .n0, .n1, .can0, .can1, .streams, .chans, .pair, .net, .dict, .log, .dist, .field,
      .integ, .boot, .mode, .keys] (switchWithout s tick) := by
  unfold switchWithout
  dsimp only
  exact .andThen (State.modBoot_plain (fun _ => by rfl) ..) rfl (.andThen (enterStop_frame ..) rfl (.andThen (changePair_frame ..) rfl
    (.refl ..)))

theorem switchOver_frame (s : State) :
    s.onlyChanges [.out, .ctl, .time, .img, .cyc, .n0, .n1, .can0, .can1, .streams, .chans, .pair, .net, .dict, .log, .dist, .field,
      .integ, .boot, .mode, .keys] (switchOver s) := by
  unfold switchOver
  split
  exact .refl ..
  dsimp only
  split
  refine .ite ?_ ?_
  refine .andThen (takePrepared_frame ..) rfl ?_
  refine .ite ?_ ?_
  exact .refl ..
  exact .andThen (freeValue_frame ..) rfl (.refl ..)
  refine .andThen (State.modBoot_plain (fun _ => by rfl) ..) rfl (.andThen (switchWithout_frame ..) rfl (.andThen (refuseImage_frame ..)
    rfl ?_))
  refine .ite ?_ ?_
  exact .refl ..
  exact .andThen (freeValue_frame ..) rfl (.refl ..)
  refine .andThen (switchWithout_frame ..) rfl ?_
  refine .ite ?_ ?_
  exact .refl ..
  exact .andThen (freeValue_frame ..) rfl (.refl ..)

theorem stopNow_frame (s : State) :
    s.onlyChanges [.out, .ctl, .time, .img, .cyc, .n0, .n1, .can0, .can1, .streams, .chans, .pair, .net, .dict, .log, .dist, .field,
      .integ, .mode] (stopNow s) := by
  unfold stopNow
  split
  exact .andThen (enterStop_frame ..) rfl (.refl ..)
  exact .refl ..

theorem mjStripe_frame (s : State) (m) :
    s.onlyChanges [.out, .pair] (mjStripe s m) := by
  unfold mjStripe
  dsimp only
  refine .ite ?_ ?_
  exact .refl ..
  exact .andThen (State.modPair_frame ..) rfl (.andThen (mjSendOn_frame ..) rfl (.refl ..))

theorem sendState_frame (s : State) (region) (off) (data) :
    s.onlyChanges [.out, .pair] (sendState s region off data) := by
  unfold sendState
  exact .andThen (mjStripe_frame ..) rfl (.andThen (State.modPair_frame ..) rfl (.refl ..))

theorem sendList_frame (s : State) (region) (b) :
    s.onlyChanges [.out, .pair] (sendList s region b) := by
  unfold sendList
  dsimp only
  refine .foldl (fun _ _ => ?_) ?_
  exact .andThen (sendState_frame ..) rfl (.refl ..)
  exact .refl ..

theorem putRegion_frame (s : State) (region) (off) (b) :
    s.onlyChanges [.n0, .n1, .mem] (putRegion s region off b) := by
  unfold putRegion
  split
  exact .andThen (State.modN0_frame ..) rfl (.refl ..)
  exact .andThen (State.modN1_frame ..) rfl (.refl ..)
  exact .andThen (State.modN0_frame ..) rfl (.refl ..)
  exact .andThen (State.modN1_frame ..) rfl (.refl ..)
  exact .andThen (State.modN0_frame ..) rfl (.refl ..)
  exact .andThen (State.modN1_frame ..) rfl (.refl ..)

theorem sendPages_frame (s : State) (retained) :
    s.onlyChanges [.out, .pair] (sendPages s retained) := by
  unfold sendPages
  refine .foldl (fun _ _ => ?_) ?_
  dsimp only
  exact .andThen (State.modPair_frame ..) rfl (.andThen (sendState_frame ..) rfl (.refl ..))
  exact .refl ..

theorem sendValues_frame (s : State) :
    s.onlyChanges [.out, .pair] (sendValues s) := by
  unfold sendValues
  dsimp only
  exact .andThen (State.modPair_frame ..) rfl (.andThen (sendList_frame ..) rfl (.refl ..))

theorem flushLog_frame (s : State) :
    s.onlyChanges [.out, .pair] (flushLog s) := by
  unfold flushLog
  refine .ite ?_ ?_
  exact .refl ..
  dsimp only
  refine .foldl (fun _ _ => ?_) ?_
  refine .foldl (fun _ _ => ?_) ?_
  exact .andThen (mjStripe_frame ..) rfl (.refl ..)
  exact .refl ..
  exact .andThen (State.modPair_frame ..) rfl (.refl ..)

theorem serveBulk_frame (s : State) :
    s.onlyChanges [.out, .pair] (serveBulk s) := by
  unfold serveBulk
  dsimp only
  exact .andThen (sendList_frame ..) rfl (.andThen (sendValues_frame ..) rfl (.andThen (sendPages_frame ..) rfl (.andThen
    (State.modPair_frame ..) rfl (.refl ..))))

theorem serveFail_frame (s : State) (reason) :
    s.onlyChanges [.out, .pair, .log] (serveFail s reason) := by
  unfold serveFail
  dsimp only
  exact .andThen (mjSend_frame ..) rfl (.andThen (stopServing_frame ..) rfl (.andThen (State.modPair_frame ..) rfl (.andThen
    (logPair_frame ..) rfl (.refl ..))))

theorem snapshot_frame (s : State) :
    s.onlyChanges [.out, .cyc, .pair, .net, .integ] (snapshot s) := by
  unfold snapshot
  refine .ite ?_ ?_
  exact .refl ..
  dsimp only
  refine .andThen (logItems_frame ..) rfl ?_
  refine .foldl (fun _ _ => ?_) ?_
  exact .andThen (sendList_frame ..) rfl (.refl ..)
  exact .andThen (sendValues_frame ..) rfl (.andThen (sendPages_frame ..) rfl (.andThen (State.modPair_frame ..) rfl (.andThen
    (gooseRepeats_frame ..) rfl (.refl ..))))

theorem takeStateAck_frame (s : State) (seq) :
    s.onlyChanges [.out, .pair] (takeStateAck s seq) := by
  unfold takeStateAck
  dsimp only
  refine .ite ?_ ?_
  exact .andThen (flushLog_frame ..) rfl (.andThen (mjSend_frame ..) rfl (.andThen (State.modPair_frame ..) rfl (.andThen
    (State.modPair_frame ..) rfl (.refl ..))))
  exact .andThen (State.modPair_frame ..) rfl (.refl ..)

theorem eachRecord_keeps {f : State → Bytes → State × Nat} {ps : List Part} (hf : ∀ (u : State) b, u.onlyChanges ps (f u b).1) {s : State}
    (n) (b) (t : State) (g : s.onlyChanges ps t) : s.onlyChanges ps (eachRecord f n b t) := by
  induction n generalizing b t with
  | zero => exact g
  | succ n ih =>
    unfold eachRecord
    split
    · exact g
    · exact ih _ _ ⟨fun p h => ((hf _ _).same p h).trans (g.same p h)⟩

theorem readRecords_keeps {f : State → Bytes → State × Nat} {ps : List Part} (hf : ∀ (u : State) b, u.onlyChanges ps (f u b).1) {s t :
  State}
    {b} (g : s.onlyChanges ps t) : s.onlyChanges ps (readRecords t b f) := eachRecord_keeps hf _ _ _ g

theorem readCopy_frame (s : State) (b) :
    s.onlyChanges [.img] (readCopy s b).1 := by
  unfold readCopy
  dsimp only
  exact .andThen (State.modImg_frame ..) rfl (.refl ..)

theorem readCopies_frame (s : State) (b) :
    s.onlyChanges [.img] (readCopies s b) := by
  unfold readCopies
  refine .ite ?_ ?_
  exact .refl ..
  refine eachRecord_keeps (fun _ _ => ?_) _ _ _ ?_
  exact .andThen (readCopy_frame ..) rfl (.refl ..)
  exact .andThen (State.modImg_frame ..) rfl (.refl ..)

theorem readValueRec_frame (s : State) (b) :
    s.onlyChanges [.dict, .boot, .keys] (readValueRec s b).1 := by
  unfold readValueRec
  dsimp only
  refine .ite ?_ ?_
  exact .andThen (putA1_frame ..) rfl (.refl ..)
  exact .andThen (putSetting_frame ..) rfl (.refl ..)

theorem readForce_frame (s : State) (b) :
    s.onlyChanges [.img] (readForce s b).1 := by
  unfold readForce
  dsimp only
  exact .andThen (State.modImg_frame ..) rfl (.refl ..)

theorem readPoint_frame (s : State) (b) :
    s.onlyChanges [.img] (readPoint s b).1 := by
  unfold readPoint
  dsimp only
  exact .andThen (State.modImg_frame ..) rfl (.refl ..)

theorem readSlot_frame (s : State) (b) :
    s.onlyChanges [.img] (readSlot s b).1 := by
  unfold readSlot
  dsimp only
  exact .andThen (State.modImg_frame ..) rfl (.refl ..)

theorem readCounts_frame (s : State) (b) :
    s.onlyChanges [.cyc, .pair, .net, .dist] (readCounts s b) := by
  unfold readCounts
  refine .ite ?_ ?_
  exact .refl ..
  dsimp only
  refine .foldl (fun _ _ => ?_) ?_
  exact .andThen (modPub_frame ..) rfl (.refl ..)
  exact .andThen (State.modDist_frame ..) rfl (.andThen (State.modPair_frame ..) rfl (.andThen (State.modNet_frame ..) rfl (.andThen
    (State.modCyc_plain (fun _ => by rfl) ..) rfl (.refl ..))))

theorem asAt_keeps {s t : State} {ps : List Part} {n} {f : State → State} (hp : [Part.time].all (fun q => ps.contains q) = true)
    (hf : ∀ (u : State), u.onlyChanges ps (f u)) (g : s.onlyChanges ps t) : s.onlyChanges ps (asAt t n f) := by
  unfold asAt
  exact .andThen (State.modTime_frame ..) hp
    ⟨fun p h => ((hf _).same p h).trans ((State.onlyChanges.andThen (State.modTime_frame ..) hp g).same p h)⟩

theorem readChan_frame (s : State) (b) :
    s.onlyChanges [.n0, .n1, .chans, .dist] (readChan s b).1 := by
  unfold readChan
  dsimp only
  split
  dsimp only
  exact .refl ..
  dsimp only
  refine .andThen (setChBit_frame ..) rfl (.andThen (setChBit_frame ..) rfl (.andThen (setChBit_frame ..) rfl (.andThen (setChBit_frame
    ..) rfl (.andThen (modChan_frame ..) rfl ?_))))
  refine .ite ?_ ?_
  exact .andThen (modChan_frame ..) rfl (.andThen (modChan_frame ..) rfl (.refl ..))
  exact .andThen (formGrid_frame ..) rfl (.andThen (modChan_frame ..) rfl (.andThen (modChan_frame ..) rfl (.refl ..)))

theorem readLoop_frame (s : State) (b) :
    s.onlyChanges [.loops] (readLoop s b).1 := by
  unfold readLoop
  dsimp only
  split
  dsimp only
  exact .refl ..
  dsimp only
  exact .andThen (modLoop_frame ..) rfl (.refl ..)

theorem readCalls_frame (s : State) (b) :
    s.onlyChanges [.n0, .n1] (readCalls s b) := by
  unfold readCalls
  refine .ite ?_ ?_
  exact .refl ..
  dsimp only
  exact .andThen (State.modN1_plain (fun _ => by rfl) ..) rfl (.andThen (State.modN0_plain (fun _ => by rfl) ..) rfl (.refl ..))

theorem dropPairValues_frame (s : State) :
    s.onlyChanges [.dict] (dropPairValues s) := by
  unfold dropPairValues
  dsimp only
  exact .andThen (State.modDict_frame ..) rfl (.refl ..)

theorem followTriggers_frame (s : State) (due) :
    s.onlyChanges [.dist] (followTriggers s due) := by
  unfold followTriggers
  exact .andThen (State.modDist_frame ..) rfl (.refl ..)

theorem loadSnapshot_frame (s : State) :
    s.onlyChanges [.img, .cyc, .n0, .n1, .mpu, .streams, .chans, .loops, .pair, .net, .dict, .log, .dist, .boot, .keys, .mem]
      (loadSnapshot s) := by
  unfold loadSnapshot
  dsimp only
  refine .andThen (State.modPair_frame ..) rfl (.andThen (State.modCyc_plain (fun _ => by rfl) ..) rfl (.andThen (followTriggers_frame ..)
    rfl (.andThen (State.modImg_frame ..) rfl (.andThen (readCalls_frame ..) rfl ?_))))
  refine readRecords_keeps (fun _ _ => ?_) ?_
  exact .andThen (readLoop_frame ..) rfl (.refl ..)
  refine readRecords_keeps (fun _ _ => ?_) ?_
  exact .andThen (readChan_frame ..) rfl (.refl ..)
  refine .andThen (readCounts_frame ..) rfl ?_
  refine readRecords_keeps (fun _ _ => ?_) ?_
  exact .andThen (readSlot_frame ..) rfl (.refl ..)
  refine readRecords_keeps (fun _ _ => ?_) ?_
  exact .andThen (readForce_frame ..) rfl (.refl ..)
  refine readRecords_keeps (fun _ _ => ?_) ?_
  exact .andThen (readPoint_frame ..) rfl (.refl ..)
  refine .andThen (readCopies_frame ..) rfl ?_
  refine .foldl (fun _ _ => ?_) ?_
  refine .ite ?_ ?_
  exact .andThen (putRegion_frame ..) rfl (.refl ..)
  exact .refl ..
  refine .andThen (State.modLoops_frame ..) rfl (.andThen (loopsStart_frame ..) rfl (.andThen (channelsStart_frame ..) rfl (.andThen
    (State.modImg_frame ..) rfl ?_)))
  refine readRecords_keeps (fun _ _ => ?_) ?_
  exact .andThen (readValueRec_frame ..) rfl (.refl ..)
  exact .andThen (dropPairValues_frame ..) rfl (.andThen (clearCycle_frame ..) rfl (.andThen (loadProgram_frame ..) rfl (.andThen
    (nativeRelease_frame ..) rfl (.refl ..))))

theorem replaySample_frame (s : State) (about) (m) (f) :
    s.onlyChanges [.n0, .n1, .streams, .chans] (replaySample s about m f) := by
  unfold replaySample
  dsimp only
  refine .andThen (endSample_frame ..) rfl ?_
  split
  exact .andThen (useSample_frame ..) rfl (.refl ..)
  exact .andThen (missSample_frame ..) rfl (.refl ..)

theorem replaySide_frame (s : State) (about) (x) :
    s.onlyChanges [.chans, .loops] (replaySide s about x) := by
  unfold replaySide
  dsimp only
  refine .ite ?_ ?_
  exact .andThen (converterTap_frame ..) rfl (.refl ..)
  refine .ite ?_ ?_
  exact .andThen (putPulse_frame ..) rfl (.refl ..)
  exact .refl ..

theorem takeLogged_frame (s : State) (t) :
    s.onlyChanges [.n0, .n1, .streams, .chans, .loops, .pair] (takeLogged s t) := by
  unfold takeLogged
  dsimp only
  refine .foldl (fun _ _ => ?_) ?_
  split
  exact .andThen (replaySample_frame ..) rfl (.refl ..)
  exact .andThen (replaySide_frame ..) rfl (.refl ..)
  exact .refl ..
  exact .refl ..
  exact .refl ..
  exact .refl ..
  exact .refl ..
  exact .refl ..
  exact .andThen (State.modPair_frame ..) rfl (.refl ..)

theorem channelsTo_frame (s : State) (t) :
    s.onlyChanges [.time, .n0, .n1, .streams, .chans, .loops, .pair, .dist] (channelsTo s t) := by
  unfold channelsTo
  refine asAt_keeps (by decide) (fun _ => ?_) ?_
  exact .andThen (channelsNow_frame ..) rfl (.refl ..)
  exact .andThen (takeLogged_frame ..) rfl (.refl ..)

theorem enginesTo_frame (n) (s : State) (t) : s.onlyChanges [.time, .cyc, .n0, .n1, .streams, .chans, .loops, .pair, .dist, .field]
  (enginesTo n s t) := by
  induction n generalizing s with
  | zero =>
    unfold enginesTo
    exact .andThen (channelsTo_frame ..) rfl (.refl ..)
  | succ n ih =>
    unfold enginesTo
    split
    exact .andThen (channelsTo_frame ..) rfl (.refl ..)
    refine .ite ?_ ?_
    exact .andThen (channelsTo_frame ..) rfl (.refl ..)
    refine .andThen (ih ..) rfl ?_
    refine asAt_keeps (by decide) (fun _ => ?_) ?_
    refine .getD (fun _ ht => .andThen (loopStep_frame (ht := ht) ..) rfl ?_) ?_
    exact .refl ..
    exact .refl ..
    exact .andThen (channelsTo_frame ..) rfl (.refl ..)

theorem joinEngines_frame (s : State) :
    s.onlyChanges [.time, .cyc, .n0, .n1, .streams, .chans, .loops, .pair, .dist, .field] (joinEngines s) := by
  unfold joinEngines
  refine .ite ?_ ?_
  exact .andThen (enginesTo_frame ..) rfl (.refl ..)
  exact .andThen (channelsNow_frame ..) rfl (.andThen (forceSamples_frame ..) rfl (.refl ..))

theorem followPubs_frame (s : State) (due) :
    s.onlyChanges [.out, .cyc, .net, .integ] (followPubs s due) := by
  unfold followPubs
  dsimp only
  exact .andThen (State.modNet_frame ..) rfl (.andThen (State.modCyc_plain (fun _ => by rfl) ..) rfl (.refl ..))

theorem endReplay_frame (s : State) :
    s.onlyChanges [.out, .img, .cyc, .net, .dist, .integ] (endReplay s) := by
  unfold endReplay
  dsimp only
  exact .andThen (State.modCyc_plain (fun _ => by rfl) ..) rfl (.andThen (followTriggers_frame ..) rfl (.andThen (publishWords_frame ..)
    rfl (.andThen (followPubs_frame ..) rfl (.refl ..))))

theorem replayTick_frame (s : State) (tick) (xs) :
    s.onlyChanges [.out, .ctl, .time, .img, .cyc, .n0, .n1, .evf, .streams, .chans, .loops, .pair, .net, .dict, .log, .dist, .field,
      .integ, .boot, .mode, .keys] (replayTick s tick xs) := by
  unfold replayTick
  dsimp only
  refine .ite ?_ ?_
  refine .andThen (modDue_frame ..) rfl (.andThen (State.modCyc_plain (fun _ => by rfl) ..) rfl (.andThen (modDue_frame ..) rfl ?_))
  refine .foldl (fun _ _ => ?_) ?_
  exact .andThen (applyAnnounce_frame ..) rfl (.refl ..)
  exact .andThen (State.modPair_frame ..) rfl (.refl ..)
  refine .ite ?_ ?_
  refine .andThen (endReplay_frame ..) rfl (.andThen (beginExecution_frame ..) rfl (.andThen (planSeqs_frame ..) rfl (.andThen
    (leavePaced_frame ..) rfl (.andThen (joinEngines_frame ..) rfl (.andThen (reachEngines_frame ..) rfl (.andThen (State.modCyc_plain
    (fun _ => by rfl) ..) rfl (.andThen (State.modPair_frame ..) rfl (.andThen (State.modCyc_plain (fun _ => by rfl) ..) rfl (.andThen
    (State.modCyc_plain (fun _ => by rfl) ..) rfl (.andThen (modDue_frame ..) rfl ?_))))))))))
  refine .foldl (fun _ _ => ?_) ?_
  exact .andThen (applyAnnounce_frame ..) rfl (.refl ..)
  exact .andThen (State.modPair_frame ..) rfl (.refl ..)
  refine .andThen (beginExecution_frame ..) rfl (.andThen (planSeqs_frame ..) rfl (.andThen (leavePaced_frame ..) rfl (.andThen
    (joinEngines_frame ..) rfl (.andThen (reachEngines_frame ..) rfl (.andThen (State.modCyc_plain (fun _ => by rfl) ..) rfl (.andThen
    (State.modPair_frame ..) rfl (.andThen (State.modCyc_plain (fun _ => by rfl) ..) rfl (.andThen (State.modCyc_plain (fun _ => by rfl)
    ..) rfl (.andThen (modDue_frame ..) rfl ?_)))))))))
  refine .foldl (fun _ _ => ?_) ?_
  exact .andThen (applyAnnounce_frame ..) rfl (.refl ..)
  exact .andThen (State.modPair_frame ..) rfl (.refl ..)

theorem beginVerify_frame (s : State) :
    s.onlyChanges [.out, .pair] (beginVerify s) := by
  unfold beginVerify
  dsimp only
  exact .andThen (mjSend_frame ..) rfl (.andThen (State.modPair_frame ..) rfl (.refl ..))

theorem joinTwin_frame (s : State) :
    s.onlyChanges [.out, .ctl, .time, .img, .cyc, .n0, .n1, .mpu, .can0, .can1, .streams, .chans, .pair, .net, .log, .dist, .field, .mode]
      (joinTwin s) := by
  unfold joinTwin
  dsimp only
  exact .andThen (followTest_frame ..) rfl (.andThen (canJoin_frame ..) rfl (.andThen (canJoin_frame ..) rfl (.andThen (fieldRun_frame ..)
    rfl (.andThen (State.modCyc_plain (fun _ => by rfl) ..) rfl (.andThen (mpuOff_frame ..) rfl (.andThen (State.modN1_plain (fun _ => by
    rfl) ..) rfl (.andThen (State.modN0_plain (fun _ => by rfl) ..) rfl (.andThen (changeMode_frame ..) rfl (.andThen (State.modPair_frame
    ..) rfl (.andThen (logPair_frame ..) rfl (.refl ..)))))))))))

theorem serveDone_frame (s : State) :
    s.onlyChanges [.out, .ctl, .time, .img, .n0, .n1, .pair, .log, .dist, .mode] (serveDone s) := by
  unfold serveDone
  dsimp only
  refine .ite ?_ ?_
  exact .andThen (changeMode_frame ..) rfl (.andThen (stopServing_frame ..) rfl (.andThen (State.modPair_frame ..) rfl (.andThen
    (logPair_frame ..) rfl (.refl ..))))
  exact .andThen (stopServing_frame ..) rfl (.andThen (State.modPair_frame ..) rfl (.andThen (logPair_frame ..) rfl (.refl ..)))

theorem release_frame (s : State) :
    s.onlyChanges [.out, .ctl, .time, .img, .cyc, .n0, .n1, .evf, .can0, .can1, .streams, .chans, .pair, .net, .dict, .log, .dist, .field,
      .integ, .boot, .mode, .keys] (release s) := by
  unfold release
  dsimp only
  refine .andThen (stopNow_frame ..) rfl (.andThen (switchOver_frame ..) rfl (.andThen (snapshot_frame ..) rfl (.andThen (handOver_frame
    ..) rfl (.andThen (flushLog_frame ..) rfl (.andThen (flushReplies_frame ..) rfl (.andThen (State.modCyc_plain (fun _ => by rfl) ..)
    rfl ?_))))))
  refine .ite ?_ ?_
  refine .andThen (dueEvents_frame ..) rfl ?_
  refine .ite ?_ ?_
  refine .andThen (recordPoints_frame ..) rfl (.andThen (detectTriggers_frame ..) rfl (.andThen (commit_frame ..) rfl ?_))
  refine .ite ?_ ?_
  refine .ite ?_ ?_
  exact .andThen (applyOutputs_frame ..) rfl (.andThen (sendPublications_frame ..) rfl (.refl ..))
  refine .ite ?_ ?_
  exact .andThen (followPubs_frame ..) rfl (.refl ..)
  exact .refl ..
  refine .andThen (publishWords_frame ..) rfl ?_
  refine .ite ?_ ?_
  exact .andThen (applyOutputs_frame ..) rfl (.andThen (sendPublications_frame ..) rfl (.refl ..))
  refine .ite ?_ ?_
  exact .andThen (followPubs_frame ..) rfl (.refl ..)
  exact .refl ..
  refine .ite ?_ ?_
  refine .ite ?_ ?_
  exact .andThen (applyOutputs_frame ..) rfl (.andThen (sendPublications_frame ..) rfl (.refl ..))
  refine .ite ?_ ?_
  exact .andThen (followPubs_frame ..) rfl (.refl ..)
  exact .refl ..
  refine .andThen (publishWords_frame ..) rfl ?_
  refine .ite ?_ ?_
  exact .andThen (applyOutputs_frame ..) rfl (.andThen (sendPublications_frame ..) rfl (.refl ..))
  refine .ite ?_ ?_
  exact .andThen (followPubs_frame ..) rfl (.refl ..)
  exact .refl ..
  refine .ite ?_ ?_
  refine .andThen (recordPoints_frame ..) rfl (.andThen (detectTriggers_frame ..) rfl (.andThen (commit_frame ..) rfl ?_))
  refine .ite ?_ ?_
  refine .ite ?_ ?_
  exact .andThen (applyOutputs_frame ..) rfl (.andThen (sendPublications_frame ..) rfl (.refl ..))
  refine .ite ?_ ?_
  exact .andThen (followPubs_frame ..) rfl (.refl ..)
  exact .refl ..
  refine .andThen (publishWords_frame ..) rfl ?_
  refine .ite ?_ ?_
  exact .andThen (applyOutputs_frame ..) rfl (.andThen (sendPublications_frame ..) rfl (.refl ..))
  refine .ite ?_ ?_
  exact .andThen (followPubs_frame ..) rfl (.refl ..)
  exact .refl ..
  refine .ite ?_ ?_
  refine .ite ?_ ?_
  exact .andThen (applyOutputs_frame ..) rfl (.andThen (sendPublications_frame ..) rfl (.refl ..))
  refine .ite ?_ ?_
  exact .andThen (followPubs_frame ..) rfl (.refl ..)
  exact .refl ..
  refine .andThen (publishWords_frame ..) rfl ?_
  refine .ite ?_ ?_
  exact .andThen (applyOutputs_frame ..) rfl (.andThen (sendPublications_frame ..) rfl (.refl ..))
  refine .ite ?_ ?_
  exact .andThen (followPubs_frame ..) rfl (.refl ..)
  exact .refl ..

theorem releaseEqual_frame (s : State) :
    s.onlyChanges [.out, .ctl, .time, .img, .cyc, .n0, .n1, .mpu, .evf, .can0, .can1, .streams, .chans, .pair, .net, .dict, .log, .dist,
      .field, .integ, .boot, .mode, .keys] (releaseEqual s) := by
  unfold releaseEqual
  refine .ite ?_ ?_
  exact .andThen (release_frame ..) rfl (.andThen (joinTwin_frame ..) rfl (.refl ..))
  refine .ite ?_ ?_
  exact .andThen (release_frame ..) rfl (.andThen (serveDone_frame ..) rfl (.refl ..))
  exact .andThen (release_frame ..) rfl (.refl ..)

theorem settleDigests_frame (s : State) :
    s.onlyChanges [.out, .ctl, .time, .img, .cyc, .n0, .n1, .mpu, .evf, .can0, .can1, .streams, .chans, .pair, .net, .dict, .log, .dist,
      .field, .integ, .boot, .mode, .keys] (settleDigests s) := by
  unfold settleDigests
  refine .ite ?_ ?_
  exact .andThen (releaseEqual_frame ..) rfl (.refl ..)
  exact .refl ..

theorem takeOutput_frame (s : State) (tick) (digest) (engine) :
    s.onlyChanges [.out, .ctl, .time, .img, .cyc, .n0, .n1, .mpu, .evf, .can0, .can1, .streams, .chans, .pair, .net, .dict, .log, .dist,
      .field, .integ, .boot, .mode, .keys] (takeOutput s tick digest engine) := by
  unfold takeOutput
  exact .andThen (settleDigests_frame ..) rfl (.andThen (State.modCyc_plain (fun _ => by rfl) ..) rfl (.refl ..))

theorem countExecution_frame (s : State) :
    s.onlyChanges [.cyc, .n0, .n1] (countExecution s) := by
  unfold countExecution
  dsimp only
  refine .ite ?_ ?_
  exact .andThen (raiseIrq_frame ..) rfl (.andThen (modDue_frame ..) rfl (.refl ..))
  exact .andThen (modDue_frame ..) rfl (.refl ..)

theorem linkLoss_frame (s : State) :
    s.onlyChanges [.out, .ctl, .time, .img, .cyc, .n0, .n1, .can0, .can1, .streams, .chans, .pair, .net, .dict, .log, .dist, .field,
      .integ, .mode] (linkLoss s) := by
  unfold linkLoss
  refine .ite ?_ ?_
  refine .ite ?_ ?_
  exact .andThen (catchFail_frame ..) rfl (.andThen (clearCycle_frame ..) rfl (.refl ..))
  exact .refl ..
  refine .ite ?_ ?_
  exact .refl ..
  dsimp only
  refine .ite ?_ ?_
  refine .andThen (State.modCyc_plain (fun _ => by rfl) ..) rfl ?_
  refine .ite ?_ ?_
  exact .andThen (serveFail_frame ..) rfl (.refl ..)
  exact .andThen (stopServing_frame ..) rfl (.refl ..)
  refine .ite ?_ ?_
  refine .andThen (leaveForCatchup_frame ..) rfl ?_
  refine .ite ?_ ?_
  exact .andThen (serveFail_frame ..) rfl (.refl ..)
  exact .andThen (stopServing_frame ..) rfl (.refl ..)
  refine .ite ?_ ?_
  refine .andThen (requestOwn_frame ..) rfl (.andThen (State.modCyc_plain (fun _ => by rfl) ..) rfl ?_)
  refine .ite ?_ ?_
  exact .andThen (serveFail_frame ..) rfl (.refl ..)
  exact .andThen (stopServing_frame ..) rfl (.refl ..)
  refine .andThen (State.modCyc_plain (fun _ => by rfl) ..) rfl ?_
  refine .ite ?_ ?_
  exact .andThen (serveFail_frame ..) rfl (.refl ..)
  exact .andThen (stopServing_frame ..) rfl (.refl ..)

theorem leaveMismatch_frame (s : State) :
    s.onlyChanges [.out, .ctl, .time, .img, .cyc, .n0, .n1, .can0, .can1, .streams, .chans, .pair, .net, .dict, .log, .dist, .field,
      .integ, .mode] (leaveMismatch s) := by
  unfold leaveMismatch
  dsimp only
  exact .andThen (leaveForCatchup_frame ..) rfl (.andThen (logPair_frame ..) rfl (.andThen (State.modPair_frame ..) rfl (.refl ..)))

theorem verifyFail_frame (s : State) :
    s.onlyChanges [.out, .cyc, .n0, .n1, .pair, .log] (verifyFail s) := by
  unfold verifyFail
  exact .andThen (catchFail_frame ..) rfl (.andThen (clearCycle_frame ..) rfl (.refl ..))

theorem breach_frame (s : State) (v) :
    s.onlyChanges [.out, .ctl, .time, .img, .cyc, .n0, .n1, .mpu, .dma, .can0, .can1, .pair, .dict, .log, .dist, .field, .integ, .boot,
      .mode] (breach s v) := by
  unfold breach
  refine .ite ?_ ?_
  exact .refl ..
  dsimp only
  split
  exact .andThen (abandonPosted_frame ..) rfl (.andThen (abandonCall_frame ..) rfl (.andThen (violate_frame ..) rfl (.refl ..)))
  exact .andThen (abandonPosted_frame ..) rfl (.andThen (abandonCall_frame ..) rfl (.andThen (violate_frame ..) rfl (.refl ..)))
  exact .andThen (violate_frame ..) rfl (.refl ..)
  exact .andThen (violate_frame ..) rfl (.refl ..)
  exact .andThen (violate_frame ..) rfl (.refl ..)

theorem writeIntc_frame (s : State) (c) (o) (v) :
    s.onlyChanges [.n0, .n1] (writeIntc s c o v) := by
  unfold writeIntc
  refine .ite ?_ ?_
  exact .andThen (modIntc_frame ..) rfl (.refl ..)
  refine .ite ?_ ?_
  exact .andThen (modIntc_frame ..) rfl (.refl ..)
  refine .ite ?_ ?_
  exact .andThen (modIntc_frame ..) rfl (.refl ..)
  exact .refl ..

theorem writeDma_frame (s : State) (o) (v) (held) :
    s.onlyChanges [.dma] (writeDma s o v held) := by
  unfold writeDma
  refine .ite ?_ ?_
  refine .ite ?_ ?_
  exact .andThen (State.modDma_frame ..) rfl (.refl ..)
  exact .refl ..
  refine .ite ?_ ?_
  exact .andThen (State.modDma_frame ..) rfl (.refl ..)
  refine .ite ?_ ?_
  exact .andThen (modCh_frame ..) rfl (.refl ..)
  exact .refl ..

theorem waitRule_frame (s : State) (m) (w) :
    s.onlyChanges [.mpu] (waitRule s m w) := by
  unfold waitRule
  dsimp only
  refine .ite ?_ ?_
  exact .andThen (modCtx_frame ..) rfl (.refl ..)
  exact .andThen (modCtx_frame ..) rfl (.refl ..)

theorem writeMpu_frame (s : State) (m) (o) (v) (held) :
    s.onlyChanges [.mpu] (writeMpu s m o v held) := by
  unfold writeMpu
  dsimp only
  refine .ite ?_ ?_
  exact .andThen (modCtx_frame ..) rfl (.refl ..)
  refine .ite ?_ ?_
  refine .ite ?_ ?_
  exact .refl ..
  exact .andThen (waitRule_frame ..) rfl (.refl ..)
  refine .ite ?_ ?_
  exact .andThen (State.modMpu_frame ..) rfl (.refl ..)
  refine .ite ?_ ?_
  split
  refine .ite ?_ ?_
  exact .andThen (State.modMpu_frame ..) rfl (.refl ..)
  exact .refl ..
  refine .ite ?_ ?_
  exact .andThen (State.modMpu_frame ..) rfl (.refl ..)
  exact .refl ..
  exact .refl ..
  exact .refl ..
  exact .refl ..
  refine .ite ?_ ?_
  refine .ite ?_ ?_
  exact .andThen (waitRule_frame ..) rfl (.refl ..)
  refine .ite ?_ ?_
  exact .andThen (waitRule_frame ..) rfl (.refl ..)
  refine .ite ?_ ?_
  exact .andThen (waitRule_frame ..) rfl (.refl ..)
  exact .refl ..
  exact .refl ..

theorem writeTime_frame (s : State) (o) (v) (held) :
    s.onlyChanges [.time] (writeTime s o v held) := by
  unfold writeTime
  split
  exact .andThen (State.modTime_frame ..) rfl (.refl ..)
  exact .andThen (State.modTime_frame ..) rfl (.refl ..)
  exact .andThen (State.modTime_frame ..) rfl (.refl ..)
  exact .andThen (State.modTime_frame ..) rfl (.refl ..)
  exact .andThen (State.modTime_frame ..) rfl (.refl ..)
  exact .andThen (State.modTime_frame ..) rfl (.refl ..)
  exact .refl ..

theorem writeCan_frame (s : State) (n) (o) (v) (held) :
    s.onlyChanges [.can0, .can1] (writeCan s n o v held) := by
  unfold writeCan
  refine .ite ?_ ?_
  exact .andThen (modCan_frame ..) rfl (.refl ..)
  refine .ite ?_ ?_
  exact .andThen (modCan_frame ..) rfl (.refl ..)
  refine .ite ?_ ?_
  exact .andThen (modCan_frame ..) rfl (.refl ..)
  refine .ite ?_ ?_
  dsimp only
  refine .ite ?_ ?_
  exact .andThen (modCan_frame ..) rfl (.refl ..)
  exact .andThen (modCan_frame ..) rfl (.refl ..)
  refine .ite ?_ ?_
  dsimp only
  exact .andThen (modCan_frame ..) rfl (.refl ..)
  exact .refl ..

theorem writeAdc_frame (s : State) (o) (v) (held) :
    s.onlyChanges [.field] (writeAdc s o v held) := by
  unfold writeAdc
  refine .ite ?_ ?_
  exact .andThen (State.modField_frame ..) rfl (.refl ..)
  refine .ite ?_ ?_
  exact .andThen (State.modField_frame ..) rfl (.refl ..)
  exact .refl ..

theorem writeFio_frame (s : State) (o) (v) (held) :
    s.onlyChanges [.field] (writeFio s o v held) := by
  unfold writeFio
  refine .ite ?_ ?_
  exact .andThen (State.modField_frame ..) rfl (.refl ..)
  refine .ite ?_ ?_
  exact .andThen (State.modField_frame ..) rfl (.refl ..)
  exact .refl ..

theorem writeEvf_frame (s : State) (m) (o) (v) (held) :
    s.onlyChanges [.evf] (writeEvf s m o v held) := by
  unfold writeEvf
  dsimp only
  refine .ite ?_ ?_
  refine .ite ?_ ?_
  exact .andThen (State.modEvf_frame ..) rfl (.refl ..)
  exact .refl ..
  refine .ite ?_ ?_
  exact .andThen (State.modEvf_frame ..) rfl (.refl ..)
  exact .refl ..

theorem writeDmb_frame (s : State) (c) (o) (v) (held) :
    s.onlyChanges [.n0, .n1] (writeDmb s c o v held) := by
  unfold writeDmb
  dsimp only
  refine .ite ?_ ?_
  exact .andThen (modCp_plain (fun _ => by rfl) ..) rfl (.refl ..)
  refine .ite ?_ ?_
  exact .andThen (modCp_plain (fun _ => by rfl) ..) rfl (.refl ..)
  refine .ite ?_ ?_
  exact .andThen (modCp_plain (fun _ => by rfl) ..) rfl (.refl ..)
  refine .ite ?_ ?_
  exact .andThen (modCp_plain (fun _ => by rfl) ..) rfl (.refl ..)
  refine .ite ?_ ?_
  exact .andThen (modCp_plain (fun _ => by rfl) ..) rfl (.refl ..)
  refine .ite ?_ ?_
  exact .andThen (modCp_plain (fun _ => by rfl) ..) rfl (.refl ..)
  refine .ite ?_ ?_
  exact .andThen (modCp_plain (fun _ => by rfl) ..) rfl (.refl ..)
  exact .refl ..

theorem writeRec_frame (s : State) (c) (o) (v) (held) :
    s.onlyChanges [.n0, .n1] (writeRec s c o v held) := by
  unfold writeRec
  dsimp only
  refine .ite ?_ ?_
  exact .andThen (modCp_plain (fun _ => by rfl) ..) rfl (.refl ..)
  refine .ite ?_ ?_
  exact .andThen (modCp_plain (fun _ => by rfl) ..) rfl (.refl ..)
  refine .ite ?_ ?_
  exact .andThen (modCp_plain (fun _ => by rfl) ..) rfl (.refl ..)
  refine .ite ?_ ?_
  exact .andThen (modCp_plain (fun _ => by rfl) ..) rfl (.refl ..)
  exact .refl ..

theorem storeWord_frame (s : State) (m) (t) (a) (size) (v) (held) :
    s.onlyChanges [.time, .n0, .n1, .mpu, .dma, .evf, .can0, .can1, .dict, .field, .mem] (storeWord s m t a size v held) := by
  unfold storeWord
  dsimp only
  refine .ite ?_ ?_
  exact .andThen (cpPutAll_frame ..) rfl (.refl ..)
  refine .ite ?_ ?_
  exact .andThen (dmbDiscard_frame ..) rfl (.refl ..)
  refine .ite ?_ ?_
  exact .refl ..
  split
  exact .andThen (writeIntc_frame ..) rfl (.refl ..)
  exact .andThen (writeDma_frame ..) rfl (.refl ..)
  exact .andThen (writeMpu_frame ..) rfl (.refl ..)
  exact .andThen (writeTime_frame ..) rfl (.refl ..)
  exact .andThen (writeCan_frame ..) rfl (.refl ..)
  exact .andThen (writeCan_frame ..) rfl (.refl ..)
  exact .andThen (writeAdc_frame ..) rfl (.refl ..)
  exact .andThen (writeFio_frame ..) rfl (.refl ..)
  exact .andThen (writeEvf_frame ..) rfl (.refl ..)
  exact .andThen (writeDmb_frame ..) rfl (.refl ..)
  refine .ite ?_ ?_
  exact .andThen (modClk_frame ..) rfl (.refl ..)
  exact .refl ..
  refine .ite ?_ ?_
  exact .andThen (modCp_plain (fun _ => by rfl) ..) rfl (.refl ..)
  exact .refl ..
  refine .ite ?_ ?_
  exact .refl ..
  exact .andThen (writeRec_frame ..) rfl (.refl ..)
  exact .refl ..

theorem readCan_frame (s : State) (n) (o) (held) :
    s.onlyChanges [.can0, .can1] (readCan s n o held).2 := by
  unfold readCan
  dsimp only
  refine .ite ?_ ?_
  exact .andThen (modCan_frame ..) rfl (.refl ..)
  exact .refl ..

theorem loadWord_frame (s : State) (m) (t) (a) (size) (held) :
    s.onlyChanges [.time, .can0, .can1, .dict, .field] (loadWord s m t a size held).2 := by
  unfold loadWord
  dsimp only
  split
  dsimp only
  exact .refl ..
  split
  dsimp only
  exact .andThen (dmbDiscard_frame ..) rfl (.refl ..)
  split
  dsimp only
  exact .refl ..
  split
  dsimp only
  exact .refl ..
  dsimp only
  exact .refl ..
  dsimp only
  exact .refl ..
  dsimp only
  exact .refl ..
  dsimp only
  exact .refl ..
  dsimp only
  exact .refl ..
  exact .andThen (timeRead_frame ..) rfl (.refl ..)
  dsimp only
  exact .andThen (readCan_frame ..) rfl (.refl ..)
  dsimp only
  exact .andThen (readCan_frame ..) rfl (.refl ..)
  exact .andThen (peripheralRead_frame ..) rfl (.refl ..)
  exact .andThen (peripheralRead_frame ..) rfl (.refl ..)
  dsimp only
  exact .refl ..
  dsimp only
  exact .refl ..
  dsimp only
  exact .refl ..
  dsimp only
  exact .refl ..
  split
  dsimp only
  exact .refl ..
  dsimp only
  exact .refl ..
  dsimp only
  exact .refl ..

theorem checkAccess_num {s : State} {m a kind priv v} (h : checkAccess s m a kind priv = some v) : masterOf v.master = m := by
  unfold checkAccess at h
  split at h
  · cases h
  · split at h
    · cases h; cases m <;> rfl
    · split at h
      · cases h; cases m <;> rfl
      · cases h

theorem violate_native (s : State) (v) (h : masterOf v.master ≠ .mgmt) :
    s.onlyChanges [.img, .cyc, .n0, .n1, .mpu, .dma, .log, .integ] (violate s v) := by
  unfold violate
  dsimp only
  refine .ite (.refl ..) ?_
  split
  · exact absurd ‹_› h
  ·
    exact .andThen (logEvent_frame ..) rfl (.andThen (modCp_plain (fun _ => by rfl) ..) rfl (.andThen (recordViolation_frame ..) rfl
      (.refl ..)))
  ·
    exact .andThen (logEvent_frame ..) rfl (.andThen (modCp_plain (fun _ => by rfl) ..) rfl (.andThen (recordViolation_frame ..) rfl
      (.refl ..)))
  ·
    exact .andThen (logEvent_frame ..) rfl (.andThen (State.modDma_frame ..) rfl (.andThen (State.modMpu_frame ..) rfl (.andThen
      (recordViolation_frame ..) rfl (.refl ..))))
  ·
    refine .ite ?_ ?_
    exact .andThen (logEvent_frame ..) rfl (.andThen (State.modInteg_frame ..) rfl (.andThen (State.modInteg_frame ..) rfl (.andThen
      (State.modMpu_frame ..) rfl (.andThen (recordViolation_frame ..) rfl (.refl ..)))))
    exact .andThen (logEvent_frame ..) rfl (.andThen (State.modInteg_frame ..) rfl (.andThen (State.modMpu_frame ..) rfl (.andThen
      (recordViolation_frame ..) rfl (.refl ..))))

theorem breach_native (s : State) (v) (h : masterOf v.master ≠ .mgmt) :
    s.onlyChanges [.img, .cyc, .n0, .n1, .mpu, .dma, .log, .integ] (breach s v) := by
  have hv := violate_native s v h
  unfold breach
  dsimp only
  refine .ite (.refl ..) ?_
  split
  · exact .andThen (abandonPosted_frame ..) (by decide) (.andThen (abandonCall_frame ..) (by decide) hv)
  · exact .andThen (abandonPosted_frame ..) (by decide) (.andThen (abandonCall_frame ..) (by decide) hv)
  · exact hv
  · exact hv
  · exact hv

theorem Cp.master_ne (c : Cp) : c.master ≠ .mgmt := by cases c <;> decide

theorem State.onlyChanges.wider {s t : State} {qs ps : List Part} (h : s.onlyChanges qs t)
    (hs : qs.all (fun q => ps.contains q) = true) : s.onlyChanges ps t := .andThen h hs (.refl ..)

theorem port_keeps {m a kind} {s : State} {ps : List Part} {f : State → Res} (hm : m ≠ .mgmt)
    (hs : [Part.img, .cyc, .n0, .n1, .mpu, .dma, .log, .integ].all (fun q => ps.contains q) = true) (hf : s.onlyNext ps (f s)) :
      s.onlyNext ps (port m a kind f s) := by
  unfold port
  split
  · exact .next (.refl ..)
  · split
    · rename_i v hv
      exact .next ((breach_native _ _ (by rw [checkAccess_num hv]; exact hm)).wider hs)
    · exact hf

theorem port_keepsAny {m a kind} {s : State} {ps : List Part} {f : State → Res}
    (hs : [Part.out, .ctl, .time, .img, .cyc, .n0, .n1, .mpu, .dma, .can0, .can1, .pair, .dict, .log, .dist, .field, .integ, .boot,
      .mode].all (fun q => ps.contains q) = true) (hf : s.onlyNext ps (f s)) : s.onlyNext ps (port m a kind f s) := by
  unfold port
  split
  · exact .next (.refl ..)
  · split
    · exact .next (.andThen (breach_frame ..) hs (.refl ..))
    · exact hf

theorem ownerPort_keeps {o a kind} {s : State} {ps : List Part} {f : State → Res}
    (hs : [Part.img, .cyc, .n0, .n1, .mpu, .dma, .log, .integ].all (fun q => ps.contains q) = true) (hf : s.onlyNext ps (f s)) :
      s.onlyNext ps (ownerPort o a kind f s) := by
  unfold ownerPort
  split
  · exact .next (.refl ..)
  · exact port_keeps (Cp.master_ne _) hs hf



theorem canPort_keeps {n o kind} {s : State} {ps : List Part} {f : State → Res}
    (hs : [Part.img, .cyc, .n0, .n1, .mpu, .dma, .log, .integ].all (fun q => ps.contains q) = true) (hf : s.onlyNext ps (f s)) :
      s.onlyNext ps (canPort n o kind f s) := by
  unfold canPort
  split
  · exact .next (.refl ..)
  · exact ownerPort_keeps hs hf

theorem debugRestart_frame (s : State) :
    s.onlyChanges [.ctl, .img, .cyc, .n0, .n1, .mpu, .streams, .chans, .loops, .net, .log, .mem, .tick] (debugRestart s) := by
  unfold debugRestart
  refine .ite ?_ ?_
  exact .andThen (nativeRelease_frame ..) rfl (.andThen (unfreeze_frame ..) rfl (.andThen (restart_frame ..) rfl (.refl ..)))
  exact .refl ..

theorem enterDebug_frame (s : State) :
    s.onlyChanges [.out, .ctl, .time, .img, .cyc, .n0, .n1, .mpu, .can0, .can1, .streams, .chans, .loops, .pair, .net, .dict, .log, .dist,
      .field, .integ, .boot, .mode, .mem, .tick] (enterDebug s) := by
  unfold enterDebug
  refine .ite ?_ ?_
  exact .refl ..
  dsimp only
  refine .ite ?_ ?_
  exact .andThen (debugRestart_frame ..) rfl (.andThen (leaveTest_frame ..) rfl (.andThen (fieldOff_frame ..) rfl (.andThen
    (dropAnnounced_frame ..) rfl (.andThen (State.modBoot_plain (fun _ => by rfl) ..) rfl (.andThen (State.modCtl_plain (fun _ => by rfl)
    (fun _ => by rfl) ..) rfl (.andThen (setMode_frame ..) rfl (.andThen (changePair_frame ..) rfl (.andThen (stopServing_frame ..) rfl
    (.andThen (lowerOwn_frame ..) rfl (.andThen (dropRequests_frame ..) rfl (.refl ..)))))))))))
  exact .andThen (leaveTest_frame ..) rfl (.andThen (fieldOff_frame ..) rfl (.andThen (dropAnnounced_frame ..) rfl (.andThen
    (State.modBoot_plain (fun _ => by rfl) ..) rfl (.andThen (State.modCtl_plain (fun _ => by rfl) (fun _ => by rfl) ..) rfl (.andThen
    (setMode_frame ..) rfl (.andThen (changePair_frame ..) rfl (.andThen (stopServing_frame ..) rfl (.andThen (lowerOwn_frame ..) rfl
    (.andThen (dropRequests_frame ..) rfl (.refl ..))))))))))

theorem breakLockstep_frame (s : State) (c) :
    s.onlyChanges [.out, .ctl, .time, .img, .cyc, .n0, .n1, .mpu, .can0, .can1, .streams, .chans, .loops, .pair, .net, .dict, .log, .dist,
      .field, .integ, .boot, .mode, .mem, .tick] (breakLockstep s c) := by
  unfold breakLockstep
  dsimp only
  exact .andThen (enterDebug_frame ..) rfl (.andThen (logEvent_frame ..) rfl (.andThen (State.modInteg_frame ..) rfl (.andThen
    (modCp_plain (fun _ => by rfl) ..) rfl (.andThen (freeValue_frame ..) rfl (.refl ..)))))

theorem applyDbg_frame (s : State) (c) (op) :
    s.onlyChanges [.out, .n0, .n1, .dict] (applyDbg s c op) := by
  unfold applyDbg
  split
  exact .andThen (modCp_plain (fun _ => by rfl) ..) rfl (.refl ..)
  exact .andThen (modCp_plain (fun _ => by rfl) ..) rfl (.refl ..)
  split
  exact .andThen (send_frame ..) rfl (.refl ..)
  dsimp only
  exact .andThen (send_frame ..) rfl (.andThen (freeValue_frame ..) rfl (.refl ..))
  exact .andThen (modCp_plain (fun _ => CpSt.dbgWrite_mems ..) ..) rfl (.refl ..)
  exact .andThen (modCp_plain (fun _ => by rfl) ..) rfl (.refl ..)

theorem trackWiring_frame (s : State) :
    s.onlyChanges [.pair] (trackWiring s) := by
  unfold trackWiring
  refine .ite ?_ ?_
  exact .andThen (State.modPair_frame ..) rfl (.refl ..)
  refine .ite ?_ ?_
  exact .refl ..
  exact .andThen (State.modPair_frame ..) rfl (.refl ..)

theorem trackWait_frame (s : State) :
    s.onlyChanges [.pair] (trackWait s) := by
  unfold trackWait
  refine .ite ?_ ?_
  exact .andThen (State.modPair_frame ..) rfl (.refl ..)
  exact .andThen (State.modPair_frame ..) rfl (.refl ..)

theorem joinOwner_frame (s : State) :
    s.onlyChanges [.out, .ctl, .time, .img, .cyc, .n0, .n1, .can0, .can1, .streams, .chans, .pair, .net, .dict, .log, .dist, .field,
      .integ, .mode] (joinOwner s) := by
  unfold joinOwner
  refine .ite ?_ ?_
  exact .andThen (enterCatchup_frame ..) rfl (.refl ..)
  exact .refl ..

theorem tryPhase2_frame (s : State) :
    s.onlyChanges [.out, .pair, .log] (tryPhase2 s) := by
  unfold tryPhase2
  refine .ite ?_ ?_
  exact .refl ..
  refine .ite ?_ ?_
  exact .andThen (catchFail_frame ..) rfl (.andThen (logPair_frame ..) rfl (.refl ..))
  refine .ite ?_ ?_
  exact .refl ..
  refine .ite ?_ ?_
  exact .andThen (catchFail_frame ..) rfl (.refl ..)
  refine .ite ?_ ?_
  exact .andThen (mjSend_frame ..) rfl (.andThen (State.modPair_frame ..) rfl (.refl ..))
  exact .refl ..

theorem laneUp_frame (s : State) (lane) :
    s.onlyChanges [.out, .n0, .n1, .pair] (laneUp s lane) := by
  unfold laneUp
  refine .ite ?_ ?_
  exact .refl ..
  dsimp only
  refine .ite ?_ ?_
  exact .andThen (changePair_frame ..) rfl (.refl ..)
  exact .andThen (sayHello_frame ..) rfl (.andThen (changePair_frame ..) rfl (.refl ..))

theorem noteFlags_frame (s : State) (h) :
    s.onlyChanges [.out, .ctl, .time, .img, .cyc, .n0, .n1, .can0, .can1, .streams, .chans, .pair, .net, .dict, .log, .dist, .field,
      .integ, .mode] (noteFlags s h) := by
  unfold noteFlags
  dsimp only
  refine .andThen (tryPhase2_frame ..) rfl (.andThen (joinOwner_frame ..) rfl ?_)
  refine .ite ?_ ?_
  refine .andThen (catchFail_frame ..) rfl (.andThen (clearCycle_frame ..) rfl ?_)
  refine .ite ?_ ?_
  exact .andThen (requestOwn_frame ..) rfl (.andThen (trackWait_frame ..) rfl (.andThen (trackWiring_frame ..) rfl (.andThen
    (changePair_frame ..) rfl (.refl ..))))
  exact .andThen (trackWait_frame ..) rfl (.andThen (trackWiring_frame ..) rfl (.andThen (changePair_frame ..) rfl (.refl ..)))
  refine .ite ?_ ?_
  exact .andThen (requestOwn_frame ..) rfl (.andThen (trackWait_frame ..) rfl (.andThen (trackWiring_frame ..) rfl (.andThen
    (changePair_frame ..) rfl (.refl ..))))
  exact .andThen (trackWait_frame ..) rfl (.andThen (trackWiring_frame ..) rfl (.andThen (changePair_frame ..) rfl (.refl ..)))

theorem hear_frame (s : State) (h) :
    s.onlyChanges [.out, .ctl, .time, .img, .cyc, .n0, .n1, .can0, .can1, .streams, .chans, .pair, .net, .dict, .log, .dist, .field,
      .integ, .mode] (hear s h).1 := by
  unfold hear
  split
  dsimp only
  exact .refl ..
  dsimp only
  split
  split
  dsimp only
  exact .andThen (laneUp_frame ..) rfl (.andThen (State.modPair_frame ..) rfl (.refl ..))
  dsimp only
  exact .andThen (noteFlags_frame ..) rfl (.andThen (State.modPair_frame ..) rfl (.andThen (laneUp_frame ..) rfl (.andThen
    (State.modPair_frame ..) rfl (.refl ..))))
  split
  dsimp only
  exact .andThen (laneUp_frame ..) rfl (.andThen (State.modPair_frame ..) rfl (.refl ..))
  dsimp only
  exact .andThen (noteFlags_frame ..) rfl (.andThen (State.modPair_frame ..) rfl (.andThen (laneUp_frame ..) rfl (.andThen
    (State.modPair_frame ..) rfl (.refl ..))))

theorem onMessage_keeps {s : State} {ps : List Part} {h} {f : State → State} (hf : ∀ (u : State), u.onlyChanges ps (f u))
    (hs : [.out, .ctl, .time, .img, .cyc, .n0, .n1, .can0, .can1, .streams, .chans, .pair, .net, .dict, .log, .dist, .field, .integ,
      .mode].all (fun q => ps.contains q) = true) : s.onlyNext ps (onMessage s h f) := by
  have k : s.onlyChanges ps (hear s h).1 := .andThen (hear_frame ..) hs (.refl ..)
  refine State.onlyNext.next (State.onlyChanges.ite ?_ k)
  exact ⟨fun p hp => ((hf _).same p hp).trans (k.same p hp)⟩

theorem takeDelay_frame (s : State) (ns) :
    s.onlyChanges [.out, .ctl, .time, .img, .cyc, .n0, .n1, .can0, .can1, .streams, .chans, .pair, .net, .dict, .log, .dist, .field,
      .integ, .mode] (takeDelay s ns) := by
  unfold takeDelay
  dsimp only
  refine .ite ?_ ?_
  exact .andThen (leaveForCatchup_frame ..) rfl (.andThen (State.modPair_frame ..) rfl (.andThen (changePair_frame ..) rfl (.refl ..)))
  exact .andThen (tryPhase2_frame ..) rfl (.andThen (changePair_frame ..) rfl (.refl ..))

theorem takeOwnership_frame (s : State) (reason) :
    s.onlyChanges [.out, .ctl, .time, .img, .n0, .n1, .can0, .can1, .pair, .net, .dict, .log, .dist, .integ, .mode] (takeOwnership s
      reason) := by
  unfold takeOwnership
  dsimp only
  refine .foldl (fun _ _ => ?_) ?_
  exact .andThen (ownerTake_frame ..) rfl (.refl ..)
  exact .andThen (State.modPair_frame ..) rfl (.andThen (gainOwner_frame ..) rfl (.refl ..))

theorem partnerTakes_frame (s : State) :
    s.onlyChanges [.out, .ctl, .time, .img, .cyc, .n0, .n1, .can0, .can1, .streams, .chans, .pair, .net, .dict, .log, .dist, .field,
      .integ, .mode] (partnerTakes s) := by
  unfold partnerTakes
  dsimp only
  refine .ite ?_ ?_
  exact .andThen (leaveForCatchup_frame ..) rfl (.andThen (ownerChanged_frame ..) rfl (.andThen (changePair_frame ..) rfl (.refl ..)))
  refine .andThen (tellCheck_frame ..) rfl ?_
  refine .foldl (fun _ _ => ?_) ?_
  exact .andThen (forwardReq_frame ..) rfl (.refl ..)
  exact .andThen (placeHeld_frame ..) rfl (.andThen (State.modPair_frame ..) rfl (.andThen (ownerChanged_frame ..) rfl (.andThen
    (changePair_frame ..) rfl (.refl ..))))

theorem withdraw_frame (s : State) :
    s.onlyChanges [.out, .ctl, .time, .img, .cyc, .n0, .n1, .can0, .can1, .streams, .chans, .pair, .net, .dict, .log, .dist, .field,
      .integ, .mode] (withdraw s) := by
  unfold withdraw
  refine .ite ?_ ?_
  dsimp only
  refine .ite ?_ ?_
  exact .andThen (joinOwner_frame ..) rfl (.andThen (State.modPair_frame ..) rfl (.andThen (lowerOwn_frame ..) rfl (.refl ..)))
  exact .andThen (State.modPair_frame ..) rfl (.andThen (lowerOwn_frame ..) rfl (.refl ..))
  exact .refl ..

theorem partnerDied_frame (s : State) :
    s.onlyChanges [.out, .ctl, .time, .img, .cyc, .n0, .n1, .evf, .can0, .can1, .streams, .chans, .pair, .net, .dict, .log, .dist, .field,
      .integ, .boot, .mode, .keys] (partnerDied s) := by
  unfold partnerDied
  refine .ite ?_ ?_
  exact .refl ..
  dsimp only
  refine .ite ?_ ?_
  exact .andThen (enterStop_frame ..) rfl (.andThen (logPair_frame ..) rfl (.andThen (changePair_frame ..) rfl (.refl ..)))
  refine .ite ?_ ?_
  refine .ite ?_ ?_
  refine .andThen (release_frame ..) rfl ?_
  refine .ite ?_ ?_
  exact .andThen (stopServing_frame ..) rfl (.andThen (logPair_frame ..) rfl (.andThen (changePair_frame ..) rfl (.refl ..)))
  exact .andThen (requestOwn_frame ..) rfl (.andThen (changePair_frame ..) rfl (.andThen (stopServing_frame ..) rfl (.andThen
    (logPair_frame ..) rfl (.andThen (changePair_frame ..) rfl (.refl ..)))))
  refine .ite ?_ ?_
  exact .andThen (stopServing_frame ..) rfl (.andThen (logPair_frame ..) rfl (.andThen (changePair_frame ..) rfl (.refl ..)))
  exact .andThen (requestOwn_frame ..) rfl (.andThen (changePair_frame ..) rfl (.andThen (stopServing_frame ..) rfl (.andThen
    (logPair_frame ..) rfl (.andThen (changePair_frame ..) rfl (.refl ..)))))
  exact .andThen (logPair_frame ..) rfl (.andThen (changePair_frame ..) rfl (.refl ..))

theorem showOffset_frame (s : State) :
    s.onlyChanges [.pair] (showOffset s) := by
  unfold showOffset
  dsimp only
  exact .andThen (State.modPair_frame ..) rfl (.refl ..)

theorem takeOffset_frame (s : State) :
    s.onlyChanges [.out, .ctl, .time, .img, .cyc, .n0, .n1, .can0, .can1, .streams, .chans, .pair, .net, .dict, .log, .dist, .field,
      .integ, .mode] (takeOffset s) := by
  unfold takeOffset
  dsimp only
  refine .ite ?_ ?_
  exact .andThen (showOffset_frame ..) rfl (.refl ..)
  refine .ite ?_ ?_
  exact .andThen (changePair_frame ..) rfl (.andThen (showOffset_frame ..) rfl (.refl ..))
  refine .ite ?_ ?_
  exact .andThen (leaveForCatchup_frame ..) rfl (.andThen (State.modPair_frame ..) rfl (.andThen (showOffset_frame ..) rfl (.refl ..)))
  refine .ite ?_ ?_
  exact .andThen (changePair_frame ..) rfl (.andThen (State.modPair_frame ..) rfl (.andThen (showOffset_frame ..) rfl (.refl ..)))
  exact .andThen (writeRate_frame ..) rfl (.andThen (changePair_frame ..) rfl (.andThen (State.modPair_frame ..) rfl (.andThen
    (showOffset_frame ..) rfl (.refl ..))))

theorem takeWrite_frame (s : State) (w) (f) :
    s.onlyChanges [.out, .ctl, .time, .img, .cyc, .n0, .n1, .can0, .can1, .streams, .chans, .pair, .net, .dict, .log, .dist, .field,
      .integ, .mode] (takeWrite s w f) := by
  unfold takeWrite
  dsimp only
  refine .ite ?_ ?_
  refine .andThen (leaveForCatchup_frame ..) rfl ?_
  split
  refine .andThen (scheduleChange_frame ..) rfl (.andThen (State.modPair_frame ..) rfl ?_)
  split
  exact .andThen (remember_frame ..) rfl (.refl ..)
  exact .refl ..
  exact .refl ..
  exact .refl ..
  refine .andThen (State.modPair_frame ..) rfl ?_
  split
  exact .andThen (remember_frame ..) rfl (.refl ..)
  exact .refl ..
  exact .refl ..
  exact .refl ..
  refine .andThen (State.modPair_frame ..) rfl ?_
  split
  exact .andThen (remember_frame ..) rfl (.refl ..)
  exact .refl ..
  exact .refl ..
  exact .refl ..
  refine .andThen (State.modPair_frame ..) rfl ?_
  split
  exact .andThen (remember_frame ..) rfl (.refl ..)
  exact .refl ..
  exact .refl ..
  exact .refl ..
  split
  refine .andThen (scheduleChange_frame ..) rfl (.andThen (State.modPair_frame ..) rfl ?_)
  split
  exact .andThen (remember_frame ..) rfl (.refl ..)
  exact .refl ..
  exact .refl ..
  exact .refl ..
  refine .andThen (State.modPair_frame ..) rfl ?_
  split
  exact .andThen (remember_frame ..) rfl (.refl ..)
  exact .refl ..
  exact .refl ..
  exact .refl ..
  refine .andThen (State.modPair_frame ..) rfl ?_
  split
  exact .andThen (remember_frame ..) rfl (.refl ..)
  exact .refl ..
  exact .refl ..
  exact .refl ..
  refine .andThen (State.modPair_frame ..) rfl ?_
  split
  exact .andThen (remember_frame ..) rfl (.refl ..)
  exact .refl ..
  exact .refl ..
  exact .refl ..

theorem repeatWrite_frame (s : State) (w) (f) :
    s.onlyChanges [.out, .ctl, .time, .img, .cyc, .n0, .n1, .can0, .can1, .streams, .chans, .pair, .net, .dict, .log, .dist, .field,
      .integ, .mode] (repeatWrite s w f) := by
  unfold repeatWrite
  split
  exact .andThen (answerRepeat_frame ..) rfl (.refl ..)
  refine .ite ?_ ?_
  exact .andThen (answerFwd_frame ..) rfl (.refl ..)
  exact .andThen (takeWrite_frame ..) rfl (.refl ..)
  exact .refl ..

theorem resendAnnounces_frame (s : State) :
    s.onlyChanges [.out, .pair] (resendAnnounces s) := by
  unfold resendAnnounces
  refine .foldl (fun _ _ => ?_) ?_
  refine .ite ?_ ?_
  exact .refl ..
  exact .andThen (mjSend_frame ..) rfl (.andThen (State.modPair_frame ..) rfl (.refl ..))
  exact .refl ..

theorem takeAnnounce_frame (s : State) (a) :
    s.onlyChanges [.out, .ctl, .time, .img, .cyc, .n0, .n1, .can0, .can1, .streams, .chans, .pair, .net, .dict, .log, .dist, .field,
      .integ, .mode] (takeAnnounce s a) := by
  unfold takeAnnounce
  dsimp only
  refine .ite ?_ ?_
  exact .andThen (leaveForCatchup_frame ..) rfl (.andThen (mjSend_frame ..) rfl (.andThen (State.modPair_frame ..) rfl (.refl ..)))
  exact .andThen (State.modTime_frame ..) rfl (.andThen (mjSend_frame ..) rfl (.andThen (State.modPair_frame ..) rfl (.refl ..)))

theorem serveCatch_frame (s : State) (phase) (reason) :
    s.onlyChanges [.out, .n0, .n1, .pair, .log] (serveCatch s phase reason) := by
  unfold serveCatch
  dsimp only
  refine .ite ?_ ?_
  refine .andThen (sayHello_frame ..) rfl ?_
  refine .ite ?_ ?_
  exact .andThen (State.modPair_frame ..) rfl (.refl ..)
  exact .andThen (stopServing_frame ..) rfl (.refl ..)
  refine .ite ?_ ?_
  refine .ite ?_ ?_
  exact .andThen (serveBulk_frame ..) rfl (.refl ..)
  exact .refl ..
  refine .ite ?_ ?_
  refine .ite ?_ ?_
  exact .andThen (flushLog_frame ..) rfl (.andThen (State.modPair_frame ..) rfl (.refl ..))
  exact .refl ..
  refine .ite ?_ ?_
  refine .ite ?_ ?_
  exact .andThen (stopServing_frame ..) rfl (.andThen (logPair_frame ..) rfl (.andThen (State.modPair_frame ..) rfl (.refl ..)))
  exact .andThen (stopServing_frame ..) rfl (.refl ..)
  exact .refl ..

theorem joinCatch_frame (s : State) (phase) (snapshot) (reason) :
    s.onlyChanges [.out, .img, .cyc, .n0, .n1, .mpu, .streams, .chans, .loops, .pair, .net, .dict, .log, .dist, .boot, .keys, .mem]
      (joinCatch s phase snapshot reason) := by
  unfold joinCatch
  refine .ite ?_ ?_
  exact .andThen (mjSend_frame ..) rfl (.andThen (State.modPair_frame ..) rfl (.refl ..))
  refine .ite ?_ ?_
  dsimp only
  exact .andThen (mjSend_frame ..) rfl (.andThen (loadSnapshot_frame ..) rfl (.andThen (State.modPair_frame ..) rfl (.refl ..)))
  refine .ite ?_ ?_
  exact .andThen (catchFail_frame ..) rfl (.andThen (clearCycle_frame ..) rfl (.refl ..))
  exact .refl ..

theorem bootSend_frame (s : State) (dst) (type) (xid) (payload) :
    s.onlyChanges [.out, .net, .integ] (bootSend s dst type xid payload) := by
  unfold bootSend
  dsimp only
  refine .ite ?_ ?_
  exact .andThen (send_frame ..) rfl (.andThen (startOn_frame ..) rfl (.refl ..))
  exact .andThen (startOn_frame ..) rfl (.refl ..)

theorem solicit_frame (s : State) :
    s.onlyChanges [.out, .net, .integ] (solicit s) := by
  unfold solicit
  dsimp only
  exact .andThen (bootSend_frame ..) rfl (.refl ..)

theorem solicitNow_frame (s : State) :
    s.onlyChanges [.out, .net, .integ, .boot] (solicitNow s) := by
  unfold solicitNow
  exact .andThen (State.modBoot_plain (fun _ => by rfl) ..) rfl (.andThen (solicit_frame ..) rfl (.refl ..))

theorem startPorts_frame (s : State) :
    s.onlyChanges [.net] (startPorts s) := by
  unfold startPorts
  dsimp only
  exact .andThen (State.modNet_frame ..) rfl (.andThen (modPort_frame ..) rfl (.andThen (modPort_frame ..) rfl (.andThen (modPort_frame
    ..) rfl (.andThen (modPort_frame ..) rfl (.andThen (modPort_frame ..) rfl (.refl ..))))))

theorem enterBootwait_frame (s : State) :
    s.onlyChanges [.out, .ctl, .time, .img, .n0, .n1, .net, .log, .dist, .field, .integ, .boot, .mode] (enterBootwait s) := by
  unfold enterBootwait
  exact .andThen (solicitNow_frame ..) rfl (.andThen (fieldDead_frame ..) rfl (.andThen (startPorts_frame ..) rfl (.andThen (setMode_frame
    ..) rfl (.refl ..))))

theorem loaderGoesOn_frame (s : State) :
    s.onlyChanges [.out, .ctl, .time, .img, .n0, .n1, .net, .log, .dist, .field, .integ, .boot, .mode] (loaderGoesOn s) := by
  unfold loaderGoesOn
  refine .ite ?_ ?_
  exact .refl ..
  exact .andThen (enterBootwait_frame ..) rfl (.refl ..)

theorem runLoader_frame (s : State) (m) :
    s.onlyChanges [.boot, .keys] (runLoader s m) := by
  unfold runLoader
  exact .andThen (State.modBoot_frame ..) rfl (.refl ..)

theorem sendAck_frame (s : State) (x) (k) (missing) :
    s.onlyChanges [.out, .net, .integ] (sendAck s x k missing) := by
  unfold sendAck
  exact .andThen (bootSend_frame ..) rfl (.refl ..)

theorem sendResult_frame (s : State) (x) (code) (chunk) :
    s.onlyChanges [.out, .net, .integ] (sendResult s x code chunk) := by
  unfold sendResult
  exact .andThen (bootSend_frame ..) rfl (.refl ..)

theorem endTransfer_frame (s : State) :
    s.onlyChanges [.ctl, .time, .img, .n0, .n1, .log, .dist, .boot, .mode] (endTransfer s) := by
  unfold endTransfer
  dsimp only
  refine .ite ?_ ?_
  exact .andThen (setMode_frame ..) rfl (.andThen (State.modBoot_plain (fun _ => by rfl) ..) rfl (.refl ..))
  exact .andThen (State.modBoot_plain (fun _ => by rfl) ..) rfl (.refl ..)

theorem failTransfer_frame (s : State) (x) (code) (chunk) :
    s.onlyChanges [.out, .ctl, .time, .img, .n0, .n1, .net, .log, .dist, .integ, .boot, .mode] (failTransfer s x code chunk) := by
  unfold failTransfer
  exact .andThen (endTransfer_frame ..) rfl (.andThen (refuseImage_frame ..) rfl (.andThen (sendResult_frame ..) rfl (.refl ..)))

theorem acceptImage_frame (s : State) (x) (m) :
    s.onlyChanges [.out, .ctl, .time, .img, .n0, .n1, .net, .log, .dist, .field, .integ, .boot, .mode, .keys] (acceptImage s x m) := by
  unfold acceptImage
  dsimp only
  refine .ite ?_ ?_
  exact .andThen (loaderGoesOn_frame ..) rfl (.andThen (logEvent_frame ..) rfl (.andThen (runLoader_frame ..) rfl (.andThen
    (State.modBoot_plain (fun _ => by rfl) ..) rfl (.andThen (sendResult_frame ..) rfl (.refl ..)))))
  exact .andThen (setMode_frame ..) rfl (.andThen (State.modBoot_plain (fun _ => by rfl) ..) rfl (.andThen (sendResult_frame ..) rfl
    (.refl ..)))

theorem takeManifest_frame (s : State) (x) :
    s.onlyChanges [.out, .ctl, .time, .img, .n0, .n1, .net, .log, .dist, .integ, .boot, .mode] (takeManifest s x) := by
  unfold takeManifest
  dsimp only
  refine .ite ?_ ?_
  exact .andThen (failTransfer_frame ..) rfl (.refl ..)
  exact .andThen (sendAck_frame ..) rfl (.andThen (State.modBoot_plain (fun _ => by rfl) ..) rfl (.refl ..))

theorem takeChunk_frame (s : State) (x) (c) :
    s.onlyChanges [.out, .ctl, .time, .img, .n0, .n1, .net, .log, .dist, .field, .integ, .boot, .mode, .keys] (takeChunk s x c) := by
  unfold takeChunk
  dsimp only
  refine .ite ?_ ?_
  exact .andThen (failTransfer_frame ..) rfl (.andThen (sendAck_frame ..) rfl (.refl ..))
  refine .ite ?_ ?_
  exact .andThen (acceptImage_frame ..) rfl (.andThen (sendAck_frame ..) rfl (.refl ..))
  exact .andThen (State.modBoot_plain (fun _ => by rfl) ..) rfl (.andThen (sendAck_frame ..) rfl (.refl ..))

theorem takeBlock_frame (s : State) (x) (k) (block) (data) :
    s.onlyChanges [.out, .ctl, .time, .img, .n0, .n1, .net, .log, .dist, .field, .integ, .boot, .mode, .keys] (takeBlock s x k block data)
      := by
  unfold takeBlock
  dsimp only
  refine .ite ?_ ?_
  exact .andThen (sendAck_frame ..) rfl (.andThen (State.modBoot_plain (fun _ => by rfl) ..) rfl (.refl ..))
  refine .ite ?_ ?_
  exact .andThen (State.modBoot_plain (fun _ => by rfl) ..) rfl (.refl ..)
  refine .ite ?_ ?_
  refine .ite ?_ ?_
  exact .andThen (takeManifest_frame ..) rfl (.refl ..)
  exact .andThen (takeChunk_frame ..) rfl (.refl ..)
  exact .andThen (State.modBoot_plain (fun _ => by rfl) ..) rfl (.refl ..)

theorem provResp_frame (s : State) (b) (code) (confirm) :
    s.onlyChanges [.out, .net, .integ] (provResp s b code confirm) := by
  unfold provResp
  exact .andThen (bootSend_frame ..) rfl (.refl ..)

theorem sendObject_frame (s : State) (dst) (xid) (object) (data) (offset) :
    s.onlyChanges [.out, .net, .integ] (sendObject s dst xid object data offset) := by
  unfold sendObject
  refine .foldl (fun _ _ => ?_) ?_
  dsimp only
  exact .andThen (bootSend_frame ..) rfl (.refl ..)
  exact .refl ..

theorem settleFormat_frame (s : State) :
    s.onlyChanges [.dict, .boot] (settleFormat s) := by
  unfold settleFormat
  dsimp only
  refine .ite ?_ ?_
  exact .refl ..
  split
  exact .andThen (packageSettings_frame ..) rfl (.andThen (State.modDict_frame ..) rfl (.andThen (State.modBoot_plain (fun _ => by rfl)
    ..) rfl (.refl ..)))
  exact .andThen (State.modDict_frame ..) rfl (.andThen (State.modBoot_plain (fun _ => by rfl) ..) rfl (.refl ..))

theorem settleStaged_frame (s : State) :
    s.onlyChanges [.dict, .log, .boot, .keys] (settleStaged s) := by
  unfold settleStaged
  refine .ite ?_ ?_
  exact .andThen (State.modBoot_plain (fun _ => by rfl) ..) rfl (.refl ..)
  dsimp only
  split
  exact .andThen (State.modBoot_plain (fun _ => by rfl) ..) rfl (.refl ..)
  refine .ite ?_ ?_
  exact .andThen (State.modBoot_plain (fun _ => by rfl) ..) rfl (.andThen (installPackage_frame ..) rfl (.andThen (State.modBoot_plain
    (fun _ => by rfl) ..) rfl (.refl ..)))
  exact .andThen (refuseImage_frame ..) rfl (.andThen (modSlot_frame ..) rfl (.andThen (State.modBoot_plain (fun _ => by rfl) ..) rfl
    (.refl ..)))

theorem settleRunning_frame (s : State) :
    s.onlyChanges [.log, .boot] (settleRunning s) := by
  unfold settleRunning
  split
  exact .refl ..
  dsimp only
  refine .ite ?_ ?_
  exact .refl ..
  split
  refine .ite ?_ ?_
  exact .andThen (State.modBoot_plain (fun _ => by rfl) ..) rfl (.andThen (refuseImage_frame ..) rfl (.refl ..))
  exact .andThen (State.modBoot_plain (fun _ => by rfl) ..) rfl (.andThen (refuseImage_frame ..) rfl (.refl ..))
  exact .andThen (State.modBoot_plain (fun _ => by rfl) ..) rfl (.andThen (refuseImage_frame ..) rfl (.refl ..))

theorem takeStraps_frame (s : State) (x) :
    s.onlyChanges [.pins] (takeStraps s x) := by
  unfold takeStraps
  exact .andThen (State.modPins_frame ..) rfl (.refl ..)

theorem countPower_frame (s : State) :
    s.onlyChanges [.log] (countPower s) := by
  unfold countPower
  refine .ite ?_ ?_
  exact .refl ..
  exact .andThen (State.modLog_frame ..) rfl (.refl ..)

end Sys2Proof.Machine
end

