-- ==== Sys2Proof/Laws/Memory.lean ====
section
/-!
SUPPORT. The memories: every write keeps the canonical form, a read gives what was last written, and what leaves the memories alone
leaves them canonical.
-/

namespace Sys2Proof.Machine

/-! ### Tables in key order -/

theorem msorted_tail {α : Type} {a : Nat × α} {m : List (Nat × α)} (h : msorted (a :: m) = true) : msorted m = true := by
  cases m with
  | nil => rfl
  | cons b t => simp only [msorted, Bool.and_eq_true] at h; exact h.2

theorem msorted_cons {α : Type} {a : Nat × α} {m : List (Nat × α)} :
    msorted (a :: m) = true ↔ (∀ b ∈ m, a.1 < b.1) ∧ msorted m = true := by
  induction m generalizing a with
  | nil => simp [msorted]
  | cons b t ih =>
    constructor
    · intro h
      have h2 := msorted_tail h
      simp only [msorted, Bool.and_eq_true, decide_eq_true_eq] at h
      refine ⟨fun c hc => ?_, h2⟩
      rcases List.mem_cons.mp hc with rfl | hc
      · exact h.1
      · exact Nat.lt_trans h.1 ((ih.mp h2).1 c hc)
    · rintro ⟨h, h2⟩
      simp only [msorted, Bool.and_eq_true, decide_eq_true_eq]
      exact ⟨h b (by simp), h2⟩

theorem mem_mset {α : Type} {m : List (Nat × α)} {k : Nat} {v : α} {x : Nat × α} (h : x ∈ mset m k v) : x = (k, v) ∨ x ∈ m := by
  induction m with
  | nil => simpa [mset] using h
  | cons a t ih =>
    obtain ⟨k', v'⟩ := a
    simp only [mset] at h
    split at h
    · simpa using h
    · split at h
      · rcases List.mem_cons.mp h with h | h <;> simp [h]
      · rcases List.mem_cons.mp h with h | h
        · simp [h]
        · rcases ih h with h | h <;> simp [h]

theorem mem_mdel {α : Type} {m : List (Nat × α)} {k : Nat} {x : Nat × α} (h : x ∈ mdel m k) : x ∈ m := by
  induction m with
  | nil => simp [mdel] at h
  | cons a t ih =>
    obtain ⟨k', v'⟩ := a
    simp only [mdel] at h
    split at h
    · simp [h]
    · rcases List.mem_cons.mp h with h | h
      · simp [h]
      · simp [ih h]

theorem msorted_mset {α : Type} {m : List (Nat × α)} (k : Nat) (v : α) (h : msorted m = true) : msorted (mset m k v) = true := by
  induction m with
  | nil => rfl
  | cons a t ih =>
    obtain ⟨k', v'⟩ := a
    have ht := msorted_cons.mp h
    simp only [mset]
    split
    · rename_i hk
      exact msorted_cons.mpr ⟨fun b hb => by
        rcases List.mem_cons.mp hb with rfl | hb
        · exact hk
        · exact Nat.lt_trans hk (ht.1 b hb), h⟩
    · split
      · rename_i hk
        subst hk
        exact msorted_cons.mpr ⟨ht.1, ht.2⟩
      · rename_i h1 h2
        exact msorted_cons.mpr ⟨fun b hb => by
          rcases mem_mset hb with rfl | hb
          · exact Nat.lt_of_le_of_ne (Nat.le_of_not_lt h1) h2
          · exact ht.1 b hb, ih ht.2⟩

theorem msorted_mdel {α : Type} {m : List (Nat × α)} (k : Nat) (h : msorted m = true) : msorted (mdel m k) = true := by
  induction m with
  | nil => rfl
  | cons a t ih =>
    obtain ⟨k', v'⟩ := a
    have ht := msorted_cons.mp h
    simp only [mdel]
    split
    · exact ht.2
    · exact msorted_cons.mpr ⟨fun b hb => ht.1 b (mem_mdel hb), ih ht.2⟩

theorem mget_mset {α : Type} (m : List (Nat × α)) (k j : Nat) (v : α) :
    mget (mset m k v) j = if j = k then some v else mget m j := by
  induction m with
  | nil => simp only [mset, mget, eq_comm]
  | cons a t ih =>
    obtain ⟨k', v'⟩ := a
    simp only [mset]
    split
    · simp only [mget, eq_comm]
    · split
      · rename_i hk
        subst hk
        simp only [mget, eq_comm (a := j)]
        split <;> rfl
      · rename_i hk
        simp only [mget, ih]
        rcases eq_or_ne j k with rfl | hj
        · simp only [if_neg hk, if_true]
        · simp only [if_neg hj]

theorem mget_mdel_ne {α : Type} (m : List (Nat × α)) {k j : Nat} (h : j ≠ k) : mget (mdel m k) j = mget m j := by
  induction m with
  | nil => rfl
  | cons a t ih =>
    obtain ⟨k', v'⟩ := a
    simp only [mdel]
    split
    · rename_i hk
      subst hk
      simp only [mget, if_neg (Ne.symm h)]
    · simp only [mget, ih]

theorem mget_eq_none {α : Type} {m : List (Nat × α)} {k : Nat} (h : ∀ b ∈ m, b.1 ≠ k) : mget m k = none := by
  induction m with
  | nil => rfl
  | cons a t ih =>
    obtain ⟨k', v'⟩ := a
    simp only [mget, if_neg (h (k', v') (by simp))]
    exact ih (fun b hb => h b (by simp [hb]))

theorem mget_mdel_self {α : Type} {m : List (Nat × α)} (k : Nat) (h : msorted m = true) : mget (mdel m k) k = none := by
  induction m with
  | nil => rfl
  | cons a t ih =>
    obtain ⟨k', v'⟩ := a
    have ht := msorted_cons.mp h
    simp only [mdel]
    split
    · rename_i hk
      subst hk
      exact mget_eq_none (fun b hb => by have := ht.1 b hb; omega)
    · rename_i hk
      simp only [mget, if_neg hk]
      exact ih ht.2

/-! ### Memories -/

theorem memWf_nil : memWf [] := by decide

theorem putByte_wf {m : List (Nat × Byte)} (a : Nat) (b : Byte) (h : memWf m) : memWf (putByte m a b) := by
  unfold putByte mput
  split
  · exact ⟨msorted_mdel a h.1, fun c hc => h.2 c (mem_mdel hc)⟩
  · rename_i hb
    exact ⟨msorted_mset a b h.1, fun c hc => by
      rcases mem_mset hc with rfl | hc
      · exact hb
      · exact h.2 c hc⟩

theorem putBytes_wf {m : List (Nat × Byte)} (a : Nat) (l : Bytes) (h : memWf m) : memWf (putBytes m a l) := by
  induction l generalizing m a with
  | nil => exact h
  | cons b t ih => exact ih _ (putByte_wf a b h)

theorem byteAt_putByte {m : List (Nat × Byte)} (h : memWf m) (a j : Nat) (b : Byte) :
    byteAt (putByte m a b) j = if j = a then b else byteAt m j := by
  unfold byteAt putByte mput mgetD
  split
  · rename_i hb
    by_cases hj : j = a
    · subst hj; rw [mget_mdel_self j h.1, hb]; simp
    · rw [mget_mdel_ne m hj, if_neg hj]
  · rw [mget_mset]; split <;> rfl

/-- The memories of a core pair are in canonical form. -/
def CpSt.memsOk (n : CpSt) : Bool := decide (memWf n.tcm) && decide (memWf n.dram) && decide (memWf n.mram)

theorem State.memsOk_iff (s : State) : s.memsOk = true ↔ s.n0.memsOk = true ∧ s.n1.memsOk = true := by
  simp only [State.memsOk, CpSt.memsOk, Bool.and_eq_true]; tauto

theorem State.onlyChanges.memsOk {s t : State} {ps : List Part} (h : s.onlyChanges ps t) (hp : Part.mem ∉ ps) :
    t.memsOk = s.memsOk := by
  have e : (t.n0.memsOf, t.n1.memsOf) = (s.n0.memsOf, s.n1.memsOf) := h.same .mem hp
  simp only [CpSt.memsOf, Prod.mk.injEq] at e
  obtain ⟨⟨a, b, c⟩, d, e, f⟩ := e
  simp only [State.memsOk, a, b, c, d, e, f]

theorem cpPut_memsOk {s : State} (c : Cp) (a : Nat) (b : Byte) (h : s.memsOk = true) : (cpPut s c a b).memsOk = true := by
  simp only [State.memsOk, Bool.and_eq_true, decide_eq_true_eq] at h
  obtain ⟨⟨⟨⟨⟨h1, h2⟩, h3⟩, h4⟩, h5⟩, h6⟩ := h
  cases c <;>
  · simp only [cpPut, modCp, State.modN0, State.modN1]
    repeat' split
    all_goals
      simp only [State.memsOk, Bool.and_eq_true, decide_eq_true_eq]
      refine ⟨⟨⟨⟨⟨?_, ?_⟩, ?_⟩, ?_⟩, ?_⟩, ?_⟩ <;> first | assumption | exact putByte_wf _ _ (by assumption)

theorem cpPutAll_memsOk {s : State} (c : Cp) (a : Nat) (l : Bytes) (h : s.memsOk = true) : (cpPutAll s c a l).memsOk = true := by
  induction l generalizing s a with
  | nil => exact h
  | cons b t ih => exact ih _ (cpPut_memsOk c a b h)

end Sys2Proof.Machine
end

