-- ==== Sys2Proof/Laws/Rows.lean ====
section
/-!
SUPPORT. A command row of a client that may write its entry reaches the meaning of the entry.
-/

namespace Sys2Proof.Machine

/-- What a command row does for a client that may write it: the write passes every check of R291 to R295 and reaches the pair's
sequencing or the entry's own effect. -/
theorem row_serve (s : State) (c : Client) (i u need : Nat) (data : Bytes) (r : EntryRow) (hm : mayWrite s c i u need = true)
  (hi : i < 0xF000) (hf : findEntry s i u = some r) (hr : r.role = need)
  (hl : (match typLen r.typ with | some n => data.length == n | none => octetsFit i u data.length) = true)
  (ha : r.access = .pair ∨ r.access = .wo) :
  rowWrite s c i u (entryTyp s i u) data =
    if r.access = .pair then servePair s c ⟨c.role, c.reqid, i, u, r.typ, data⟩ else serveCommand s c i u r.typ data := by
  simp only [mayWrite, Bool.and_eq_true, Bool.or_eq_true] at hm
  obtain ⟨⟨⟨⟨h1, h2⟩, h3⟩, h4⟩, h5⟩ := hm
  have hv : vendorRefused s i u true = false := by simp [vendorRefused]; intros; omega
  have ht : entryTyp s i u = r.typ := by simp [entryTyp, hf]
  have hb : ¬(s.ctl.mode = .bootwait ∧ bootEntry s i u = false) := by
    rintro ⟨a, b⟩; rcases h3 with h | h <;> simp_all
  have hw : writeCheck s c i u r.typ data.length = (0, some r) := by
    have a1 : ¬(r.access = Access.ro ∨ r.access = Access.const) := by rintro (h|h) <;> rcases ha with g|g <;> rw [g] at h <;> cases h
    have a2 : ¬(roleAllows c.role r.role true = false ∧ i < 0xF000) := by rintro ⟨a, _⟩; simp_all
    unfold writeCheck
    simp only [hv, hf, Bool.false_eq_true, if_false, if_neg hb, if_neg a1, if_neg a2]
    cases hc : c.via <;> simp_all <;> cases ht : typLen r.typ <;> simp_all
  simp only [rowWrite, h1, h2, ht, Bool.not_true, Bool.false_eq_true, if_false, serveWrite, hw]
  rcases ha with h | h <;> simp [h]

end Sys2Proof.Machine
end

