-- ==== Sys2Proof/Laws/State.lean ====
section
/-!
SUPPORT. What each update of a part of the state does to every part: one lemma per part per update.
-/

namespace Sys2Proof.Machine

@[simp] theorem State.modPending_pending (s : State) (f : List Instr → List Instr) : (s.modPending f).pending = f s.pending := rfl
@[simp] theorem State.modPending_out (s : State) (f : List Instr → List Instr) : (s.modPending f).out = s.out := rfl
@[simp] theorem State.modPending_ident (s : State) (f : List Instr → List Instr) : (s.modPending f).ident = s.ident := rfl
@[simp] theorem State.modPending_pins (s : State) (f : List Instr → List Instr) : (s.modPending f).pins = s.pins := rfl
@[simp] theorem State.modPending_ctl (s : State) (f : List Instr → List Instr) : (s.modPending f).ctl = s.ctl := rfl
@[simp] theorem State.modPending_time (s : State) (f : List Instr → List Instr) : (s.modPending f).time = s.time := rfl
@[simp] theorem State.modPending_img (s : State) (f : List Instr → List Instr) : (s.modPending f).img = s.img := rfl
@[simp] theorem State.modPending_cyc (s : State) (f : List Instr → List Instr) : (s.modPending f).cyc = s.cyc := rfl
@[simp] theorem State.modPending_n0 (s : State) (f : List Instr → List Instr) : (s.modPending f).n0 = s.n0 := rfl
@[simp] theorem State.modPending_n1 (s : State) (f : List Instr → List Instr) : (s.modPending f).n1 = s.n1 := rfl
@[simp] theorem State.modPending_mpu (s : State) (f : List Instr → List Instr) : (s.modPending f).mpu = s.mpu := rfl
@[simp] theorem State.modPending_dma (s : State) (f : List Instr → List Instr) : (s.modPending f).dma = s.dma := rfl
@[simp] theorem State.modPending_evf (s : State) (f : List Instr → List Instr) : (s.modPending f).evf = s.evf := rfl
@[simp] theorem State.modPending_can0 (s : State) (f : List Instr → List Instr) : (s.modPending f).can0 = s.can0 := rfl
@[simp] theorem State.modPending_can1 (s : State) (f : List Instr → List Instr) : (s.modPending f).can1 = s.can1 := rfl
@[simp] theorem State.modPending_bell (s : State) (f : List Instr → List Instr) : (s.modPending f).bell = s.bell := rfl
@[simp] theorem State.modPending_streams (s : State) (f : List Instr → List Instr) : (s.modPending f).streams = s.streams := rfl
@[simp] theorem State.modPending_chans (s : State) (f : List Instr → List Instr) : (s.modPending f).chans = s.chans := rfl
@[simp] theorem State.modPending_loops (s : State) (f : List Instr → List Instr) : (s.modPending f).loops = s.loops := rfl
@[simp] theorem State.modPending_pair (s : State) (f : List Instr → List Instr) : (s.modPending f).pair = s.pair := rfl
@[simp] theorem State.modPending_net (s : State) (f : List Instr → List Instr) : (s.modPending f).net = s.net := rfl
@[simp] theorem State.modPending_dict (s : State) (f : List Instr → List Instr) : (s.modPending f).dict = s.dict := rfl
@[simp] theorem State.modPending_log (s : State) (f : List Instr → List Instr) : (s.modPending f).log = s.log := rfl
@[simp] theorem State.modPending_dist (s : State) (f : List Instr → List Instr) : (s.modPending f).dist = s.dist := rfl
@[simp] theorem State.modPending_field (s : State) (f : List Instr → List Instr) : (s.modPending f).field = s.field := rfl
@[simp] theorem State.modPending_integ (s : State) (f : List Instr → List Instr) : (s.modPending f).integ = s.integ := rfl
@[simp] theorem State.modPending_boot (s : State) (f : List Instr → List Instr) : (s.modPending f).boot = s.boot := rfl

@[simp] theorem State.modOut_pending (s : State) (f : List Out → List Out) : (s.modOut f).pending = s.pending := rfl
@[simp] theorem State.modOut_out (s : State) (f : List Out → List Out) : (s.modOut f).out = f s.out := rfl
@[simp] theorem State.modOut_ident (s : State) (f : List Out → List Out) : (s.modOut f).ident = s.ident := rfl
@[simp] theorem State.modOut_pins (s : State) (f : List Out → List Out) : (s.modOut f).pins = s.pins := rfl
@[simp] theorem State.modOut_ctl (s : State) (f : List Out → List Out) : (s.modOut f).ctl = s.ctl := rfl
@[simp] theorem State.modOut_time (s : State) (f : List Out → List Out) : (s.modOut f).time = s.time := rfl
@[simp] theorem State.modOut_img (s : State) (f : List Out → List Out) : (s.modOut f).img = s.img := rfl
@[simp] theorem State.modOut_cyc (s : State) (f : List Out → List Out) : (s.modOut f).cyc = s.cyc := rfl
@[simp] theorem State.modOut_n0 (s : State) (f : List Out → List Out) : (s.modOut f).n0 = s.n0 := rfl
@[simp] theorem State.modOut_n1 (s : State) (f : List Out → List Out) : (s.modOut f).n1 = s.n1 := rfl
@[simp] theorem State.modOut_mpu (s : State) (f : List Out → List Out) : (s.modOut f).mpu = s.mpu := rfl
@[simp] theorem State.modOut_dma (s : State) (f : List Out → List Out) : (s.modOut f).dma = s.dma := rfl
@[simp] theorem State.modOut_evf (s : State) (f : List Out → List Out) : (s.modOut f).evf = s.evf := rfl
@[simp] theorem State.modOut_can0 (s : State) (f : List Out → List Out) : (s.modOut f).can0 = s.can0 := rfl
@[simp] theorem State.modOut_can1 (s : State) (f : List Out → List Out) : (s.modOut f).can1 = s.can1 := rfl
@[simp] theorem State.modOut_bell (s : State) (f : List Out → List Out) : (s.modOut f).bell = s.bell := rfl
@[simp] theorem State.modOut_streams (s : State) (f : List Out → List Out) : (s.modOut f).streams = s.streams := rfl
@[simp] theorem State.modOut_chans (s : State) (f : List Out → List Out) : (s.modOut f).chans = s.chans := rfl
@[simp] theorem State.modOut_loops (s : State) (f : List Out → List Out) : (s.modOut f).loops = s.loops := rfl
@[simp] theorem State.modOut_pair (s : State) (f : List Out → List Out) : (s.modOut f).pair = s.pair := rfl
@[simp] theorem State.modOut_net (s : State) (f : List Out → List Out) : (s.modOut f).net = s.net := rfl
@[simp] theorem State.modOut_dict (s : State) (f : List Out → List Out) : (s.modOut f).dict = s.dict := rfl
@[simp] theorem State.modOut_log (s : State) (f : List Out → List Out) : (s.modOut f).log = s.log := rfl
@[simp] theorem State.modOut_dist (s : State) (f : List Out → List Out) : (s.modOut f).dist = s.dist := rfl
@[simp] theorem State.modOut_field (s : State) (f : List Out → List Out) : (s.modOut f).field = s.field := rfl
@[simp] theorem State.modOut_integ (s : State) (f : List Out → List Out) : (s.modOut f).integ = s.integ := rfl
@[simp] theorem State.modOut_boot (s : State) (f : List Out → List Out) : (s.modOut f).boot = s.boot := rfl

@[simp] theorem State.modIdent_pending (s : State) (f : Ident → Ident) : (s.modIdent f).pending = s.pending := rfl
@[simp] theorem State.modIdent_out (s : State) (f : Ident → Ident) : (s.modIdent f).out = s.out := rfl
@[simp] theorem State.modIdent_ident (s : State) (f : Ident → Ident) : (s.modIdent f).ident = f s.ident := rfl
@[simp] theorem State.modIdent_pins (s : State) (f : Ident → Ident) : (s.modIdent f).pins = s.pins := rfl
@[simp] theorem State.modIdent_ctl (s : State) (f : Ident → Ident) : (s.modIdent f).ctl = s.ctl := rfl
@[simp] theorem State.modIdent_time (s : State) (f : Ident → Ident) : (s.modIdent f).time = s.time := rfl
@[simp] theorem State.modIdent_img (s : State) (f : Ident → Ident) : (s.modIdent f).img = s.img := rfl
@[simp] theorem State.modIdent_cyc (s : State) (f : Ident → Ident) : (s.modIdent f).cyc = s.cyc := rfl
@[simp] theorem State.modIdent_n0 (s : State) (f : Ident → Ident) : (s.modIdent f).n0 = s.n0 := rfl
@[simp] theorem State.modIdent_n1 (s : State) (f : Ident → Ident) : (s.modIdent f).n1 = s.n1 := rfl
@[simp] theorem State.modIdent_mpu (s : State) (f : Ident → Ident) : (s.modIdent f).mpu = s.mpu := rfl
@[simp] theorem State.modIdent_dma (s : State) (f : Ident → Ident) : (s.modIdent f).dma = s.dma := rfl
@[simp] theorem State.modIdent_evf (s : State) (f : Ident → Ident) : (s.modIdent f).evf = s.evf := rfl
@[simp] theorem State.modIdent_can0 (s : State) (f : Ident → Ident) : (s.modIdent f).can0 = s.can0 := rfl
@[simp] theorem State.modIdent_can1 (s : State) (f : Ident → Ident) : (s.modIdent f).can1 = s.can1 := rfl
@[simp] theorem State.modIdent_bell (s : State) (f : Ident → Ident) : (s.modIdent f).bell = s.bell := rfl
@[simp] theorem State.modIdent_streams (s : State) (f : Ident → Ident) : (s.modIdent f).streams = s.streams := rfl
@[simp] theorem State.modIdent_chans (s : State) (f : Ident → Ident) : (s.modIdent f).chans = s.chans := rfl
@[simp] theorem State.modIdent_loops (s : State) (f : Ident → Ident) : (s.modIdent f).loops = s.loops := rfl
@[simp] theorem State.modIdent_pair (s : State) (f : Ident → Ident) : (s.modIdent f).pair = s.pair := rfl
@[simp] theorem State.modIdent_net (s : State) (f : Ident → Ident) : (s.modIdent f).net = s.net := rfl
@[simp] theorem State.modIdent_dict (s : State) (f : Ident → Ident) : (s.modIdent f).dict = s.dict := rfl
@[simp] theorem State.modIdent_log (s : State) (f : Ident → Ident) : (s.modIdent f).log = s.log := rfl
@[simp] theorem State.modIdent_dist (s : State) (f : Ident → Ident) : (s.modIdent f).dist = s.dist := rfl
@[simp] theorem State.modIdent_field (s : State) (f : Ident → Ident) : (s.modIdent f).field = s.field := rfl
@[simp] theorem State.modIdent_integ (s : State) (f : Ident → Ident) : (s.modIdent f).integ = s.integ := rfl
@[simp] theorem State.modIdent_boot (s : State) (f : Ident → Ident) : (s.modIdent f).boot = s.boot := rfl

@[simp] theorem State.modPins_pending (s : State) (f : Pins → Pins) : (s.modPins f).pending = s.pending := rfl
@[simp] theorem State.modPins_out (s : State) (f : Pins → Pins) : (s.modPins f).out = s.out := rfl
@[simp] theorem State.modPins_ident (s : State) (f : Pins → Pins) : (s.modPins f).ident = s.ident := rfl
@[simp] theorem State.modPins_pins (s : State) (f : Pins → Pins) : (s.modPins f).pins = f s.pins := rfl
@[simp] theorem State.modPins_ctl (s : State) (f : Pins → Pins) : (s.modPins f).ctl = s.ctl := rfl
@[simp] theorem State.modPins_time (s : State) (f : Pins → Pins) : (s.modPins f).time = s.time := rfl
@[simp] theorem State.modPins_img (s : State) (f : Pins → Pins) : (s.modPins f).img = s.img := rfl
@[simp] theorem State.modPins_cyc (s : State) (f : Pins → Pins) : (s.modPins f).cyc = s.cyc := rfl
@[simp] theorem State.modPins_n0 (s : State) (f : Pins → Pins) : (s.modPins f).n0 = s.n0 := rfl
@[simp] theorem State.modPins_n1 (s : State) (f : Pins → Pins) : (s.modPins f).n1 = s.n1 := rfl
@[simp] theorem State.modPins_mpu (s : State) (f : Pins → Pins) : (s.modPins f).mpu = s.mpu := rfl
@[simp] theorem State.modPins_dma (s : State) (f : Pins → Pins) : (s.modPins f).dma = s.dma := rfl
@[simp] theorem State.modPins_evf (s : State) (f : Pins → Pins) : (s.modPins f).evf = s.evf := rfl
@[simp] theorem State.modPins_can0 (s : State) (f : Pins → Pins) : (s.modPins f).can0 = s.can0 := rfl
@[simp] theorem State.modPins_can1 (s : State) (f : Pins → Pins) : (s.modPins f).can1 = s.can1 := rfl
@[simp] theorem State.modPins_bell (s : State) (f : Pins → Pins) : (s.modPins f).bell = s.bell := rfl
@[simp] theorem State.modPins_streams (s : State) (f : Pins → Pins) : (s.modPins f).streams = s.streams := rfl
@[simp] theorem State.modPins_chans (s : State) (f : Pins → Pins) : (s.modPins f).chans = s.chans := rfl
@[simp] theorem State.modPins_loops (s : State) (f : Pins → Pins) : (s.modPins f).loops = s.loops := rfl
@[simp] theorem State.modPins_pair (s : State) (f : Pins → Pins) : (s.modPins f).pair = s.pair := rfl
@[simp] theorem State.modPins_net (s : State) (f : Pins → Pins) : (s.modPins f).net = s.net := rfl
@[simp] theorem State.modPins_dict (s : State) (f : Pins → Pins) : (s.modPins f).dict = s.dict := rfl
@[simp] theorem State.modPins_log (s : State) (f : Pins → Pins) : (s.modPins f).log = s.log := rfl
@[simp] theorem State.modPins_dist (s : State) (f : Pins → Pins) : (s.modPins f).dist = s.dist := rfl
@[simp] theorem State.modPins_field (s : State) (f : Pins → Pins) : (s.modPins f).field = s.field := rfl
@[simp] theorem State.modPins_integ (s : State) (f : Pins → Pins) : (s.modPins f).integ = s.integ := rfl
@[simp] theorem State.modPins_boot (s : State) (f : Pins → Pins) : (s.modPins f).boot = s.boot := rfl

@[simp] theorem State.modCtl_pending (s : State) (f : Ctl → Ctl) : (s.modCtl f).pending = s.pending := rfl
@[simp] theorem State.modCtl_out (s : State) (f : Ctl → Ctl) : (s.modCtl f).out = s.out := rfl
@[simp] theorem State.modCtl_ident (s : State) (f : Ctl → Ctl) : (s.modCtl f).ident = s.ident := rfl
@[simp] theorem State.modCtl_pins (s : State) (f : Ctl → Ctl) : (s.modCtl f).pins = s.pins := rfl
@[simp] theorem State.modCtl_ctl (s : State) (f : Ctl → Ctl) : (s.modCtl f).ctl = f s.ctl := rfl
@[simp] theorem State.modCtl_time (s : State) (f : Ctl → Ctl) : (s.modCtl f).time = s.time := rfl
@[simp] theorem State.modCtl_img (s : State) (f : Ctl → Ctl) : (s.modCtl f).img = s.img := rfl
@[simp] theorem State.modCtl_cyc (s : State) (f : Ctl → Ctl) : (s.modCtl f).cyc = s.cyc := rfl
@[simp] theorem State.modCtl_n0 (s : State) (f : Ctl → Ctl) : (s.modCtl f).n0 = s.n0 := rfl
@[simp] theorem State.modCtl_n1 (s : State) (f : Ctl → Ctl) : (s.modCtl f).n1 = s.n1 := rfl
@[simp] theorem State.modCtl_mpu (s : State) (f : Ctl → Ctl) : (s.modCtl f).mpu = s.mpu := rfl
@[simp] theorem State.modCtl_dma (s : State) (f : Ctl → Ctl) : (s.modCtl f).dma = s.dma := rfl
@[simp] theorem State.modCtl_evf (s : State) (f : Ctl → Ctl) : (s.modCtl f).evf = s.evf := rfl
@[simp] theorem State.modCtl_can0 (s : State) (f : Ctl → Ctl) : (s.modCtl f).can0 = s.can0 := rfl
@[simp] theorem State.modCtl_can1 (s : State) (f : Ctl → Ctl) : (s.modCtl f).can1 = s.can1 := rfl
@[simp] theorem State.modCtl_bell (s : State) (f : Ctl → Ctl) : (s.modCtl f).bell = s.bell := rfl
@[simp] theorem State.modCtl_streams (s : State) (f : Ctl → Ctl) : (s.modCtl f).streams = s.streams := rfl
@[simp] theorem State.modCtl_chans (s : State) (f : Ctl → Ctl) : (s.modCtl f).chans = s.chans := rfl
@[simp] theorem State.modCtl_loops (s : State) (f : Ctl → Ctl) : (s.modCtl f).loops = s.loops := rfl
@[simp] theorem State.modCtl_pair (s : State) (f : Ctl → Ctl) : (s.modCtl f).pair = s.pair := rfl
@[simp] theorem State.modCtl_net (s : State) (f : Ctl → Ctl) : (s.modCtl f).net = s.net := rfl
@[simp] theorem State.modCtl_dict (s : State) (f : Ctl → Ctl) : (s.modCtl f).dict = s.dict := rfl
@[simp] theorem State.modCtl_log (s : State) (f : Ctl → Ctl) : (s.modCtl f).log = s.log := rfl
@[simp] theorem State.modCtl_dist (s : State) (f : Ctl → Ctl) : (s.modCtl f).dist = s.dist := rfl
@[simp] theorem State.modCtl_field (s : State) (f : Ctl → Ctl) : (s.modCtl f).field = s.field := rfl
@[simp] theorem State.modCtl_integ (s : State) (f : Ctl → Ctl) : (s.modCtl f).integ = s.integ := rfl
@[simp] theorem State.modCtl_boot (s : State) (f : Ctl → Ctl) : (s.modCtl f).boot = s.boot := rfl

@[simp] theorem State.modTime_pending (s : State) (f : TimeSt → TimeSt) : (s.modTime f).pending = s.pending := rfl
@[simp] theorem State.modTime_out (s : State) (f : TimeSt → TimeSt) : (s.modTime f).out = s.out := rfl
@[simp] theorem State.modTime_ident (s : State) (f : TimeSt → TimeSt) : (s.modTime f).ident = s.ident := rfl
@[simp] theorem State.modTime_pins (s : State) (f : TimeSt → TimeSt) : (s.modTime f).pins = s.pins := rfl
@[simp] theorem State.modTime_ctl (s : State) (f : TimeSt → TimeSt) : (s.modTime f).ctl = s.ctl := rfl
@[simp] theorem State.modTime_time (s : State) (f : TimeSt → TimeSt) : (s.modTime f).time = f s.time := rfl
@[simp] theorem State.modTime_img (s : State) (f : TimeSt → TimeSt) : (s.modTime f).img = s.img := rfl
@[simp] theorem State.modTime_cyc (s : State) (f : TimeSt → TimeSt) : (s.modTime f).cyc = s.cyc := rfl
@[simp] theorem State.modTime_n0 (s : State) (f : TimeSt → TimeSt) : (s.modTime f).n0 = s.n0 := rfl
@[simp] theorem State.modTime_n1 (s : State) (f : TimeSt → TimeSt) : (s.modTime f).n1 = s.n1 := rfl
@[simp] theorem State.modTime_mpu (s : State) (f : TimeSt → TimeSt) : (s.modTime f).mpu = s.mpu := rfl
@[simp] theorem State.modTime_dma (s : State) (f : TimeSt → TimeSt) : (s.modTime f).dma = s.dma := rfl
@[simp] theorem State.modTime_evf (s : State) (f : TimeSt → TimeSt) : (s.modTime f).evf = s.evf := rfl
@[simp] theorem State.modTime_can0 (s : State) (f : TimeSt → TimeSt) : (s.modTime f).can0 = s.can0 := rfl
@[simp] theorem State.modTime_can1 (s : State) (f : TimeSt → TimeSt) : (s.modTime f).can1 = s.can1 := rfl
@[simp] theorem State.modTime_bell (s : State) (f : TimeSt → TimeSt) : (s.modTime f).bell = s.bell := rfl
@[simp] theorem State.modTime_streams (s : State) (f : TimeSt → TimeSt) : (s.modTime f).streams = s.streams := rfl
@[simp] theorem State.modTime_chans (s : State) (f : TimeSt → TimeSt) : (s.modTime f).chans = s.chans := rfl
@[simp] theorem State.modTime_loops (s : State) (f : TimeSt → TimeSt) : (s.modTime f).loops = s.loops := rfl
@[simp] theorem State.modTime_pair (s : State) (f : TimeSt → TimeSt) : (s.modTime f).pair = s.pair := rfl
@[simp] theorem State.modTime_net (s : State) (f : TimeSt → TimeSt) : (s.modTime f).net = s.net := rfl
@[simp] theorem State.modTime_dict (s : State) (f : TimeSt → TimeSt) : (s.modTime f).dict = s.dict := rfl
@[simp] theorem State.modTime_log (s : State) (f : TimeSt → TimeSt) : (s.modTime f).log = s.log := rfl
@[simp] theorem State.modTime_dist (s : State) (f : TimeSt → TimeSt) : (s.modTime f).dist = s.dist := rfl
@[simp] theorem State.modTime_field (s : State) (f : TimeSt → TimeSt) : (s.modTime f).field = s.field := rfl
@[simp] theorem State.modTime_integ (s : State) (f : TimeSt → TimeSt) : (s.modTime f).integ = s.integ := rfl
@[simp] theorem State.modTime_boot (s : State) (f : TimeSt → TimeSt) : (s.modTime f).boot = s.boot := rfl

@[simp] theorem State.modImg_pending (s : State) (f : Img → Img) : (s.modImg f).pending = s.pending := rfl
@[simp] theorem State.modImg_out (s : State) (f : Img → Img) : (s.modImg f).out = s.out := rfl
@[simp] theorem State.modImg_ident (s : State) (f : Img → Img) : (s.modImg f).ident = s.ident := rfl
@[simp] theorem State.modImg_pins (s : State) (f : Img → Img) : (s.modImg f).pins = s.pins := rfl
@[simp] theorem State.modImg_ctl (s : State) (f : Img → Img) : (s.modImg f).ctl = s.ctl := rfl
@[simp] theorem State.modImg_time (s : State) (f : Img → Img) : (s.modImg f).time = s.time := rfl
@[simp] theorem State.modImg_img (s : State) (f : Img → Img) : (s.modImg f).img = f s.img := rfl
@[simp] theorem State.modImg_cyc (s : State) (f : Img → Img) : (s.modImg f).cyc = s.cyc := rfl
@[simp] theorem State.modImg_n0 (s : State) (f : Img → Img) : (s.modImg f).n0 = s.n0 := rfl
@[simp] theorem State.modImg_n1 (s : State) (f : Img → Img) : (s.modImg f).n1 = s.n1 := rfl
@[simp] theorem State.modImg_mpu (s : State) (f : Img → Img) : (s.modImg f).mpu = s.mpu := rfl
@[simp] theorem State.modImg_dma (s : State) (f : Img → Img) : (s.modImg f).dma = s.dma := rfl
@[simp] theorem State.modImg_evf (s : State) (f : Img → Img) : (s.modImg f).evf = s.evf := rfl
@[simp] theorem State.modImg_can0 (s : State) (f : Img → Img) : (s.modImg f).can0 = s.can0 := rfl
@[simp] theorem State.modImg_can1 (s : State) (f : Img → Img) : (s.modImg f).can1 = s.can1 := rfl
@[simp] theorem State.modImg_bell (s : State) (f : Img → Img) : (s.modImg f).bell = s.bell := rfl
@[simp] theorem State.modImg_streams (s : State) (f : Img → Img) : (s.modImg f).streams = s.streams := rfl
@[simp] theorem State.modImg_chans (s : State) (f : Img → Img) : (s.modImg f).chans = s.chans := rfl
@[simp] theorem State.modImg_loops (s : State) (f : Img → Img) : (s.modImg f).loops = s.loops := rfl
@[simp] theorem State.modImg_pair (s : State) (f : Img → Img) : (s.modImg f).pair = s.pair := rfl
@[simp] theorem State.modImg_net (s : State) (f : Img → Img) : (s.modImg f).net = s.net := rfl
@[simp] theorem State.modImg_dict (s : State) (f : Img → Img) : (s.modImg f).dict = s.dict := rfl
@[simp] theorem State.modImg_log (s : State) (f : Img → Img) : (s.modImg f).log = s.log := rfl
@[simp] theorem State.modImg_dist (s : State) (f : Img → Img) : (s.modImg f).dist = s.dist := rfl
@[simp] theorem State.modImg_field (s : State) (f : Img → Img) : (s.modImg f).field = s.field := rfl
@[simp] theorem State.modImg_integ (s : State) (f : Img → Img) : (s.modImg f).integ = s.integ := rfl
@[simp] theorem State.modImg_boot (s : State) (f : Img → Img) : (s.modImg f).boot = s.boot := rfl

@[simp] theorem State.modCyc_pending (s : State) (f : CycSt → CycSt) : (s.modCyc f).pending = s.pending := rfl
@[simp] theorem State.modCyc_out (s : State) (f : CycSt → CycSt) : (s.modCyc f).out = s.out := rfl
@[simp] theorem State.modCyc_ident (s : State) (f : CycSt → CycSt) : (s.modCyc f).ident = s.ident := rfl
@[simp] theorem State.modCyc_pins (s : State) (f : CycSt → CycSt) : (s.modCyc f).pins = s.pins := rfl
@[simp] theorem State.modCyc_ctl (s : State) (f : CycSt → CycSt) : (s.modCyc f).ctl = s.ctl := rfl
@[simp] theorem State.modCyc_time (s : State) (f : CycSt → CycSt) : (s.modCyc f).time = s.time := rfl
@[simp] theorem State.modCyc_img (s : State) (f : CycSt → CycSt) : (s.modCyc f).img = s.img := rfl
@[simp] theorem State.modCyc_cyc (s : State) (f : CycSt → CycSt) : (s.modCyc f).cyc = f s.cyc := rfl
@[simp] theorem State.modCyc_n0 (s : State) (f : CycSt → CycSt) : (s.modCyc f).n0 = s.n0 := rfl
@[simp] theorem State.modCyc_n1 (s : State) (f : CycSt → CycSt) : (s.modCyc f).n1 = s.n1 := rfl
@[simp] theorem State.modCyc_mpu (s : State) (f : CycSt → CycSt) : (s.modCyc f).mpu = s.mpu := rfl
@[simp] theorem State.modCyc_dma (s : State) (f : CycSt → CycSt) : (s.modCyc f).dma = s.dma := rfl
@[simp] theorem State.modCyc_evf (s : State) (f : CycSt → CycSt) : (s.modCyc f).evf = s.evf := rfl
@[simp] theorem State.modCyc_can0 (s : State) (f : CycSt → CycSt) : (s.modCyc f).can0 = s.can0 := rfl
@[simp] theorem State.modCyc_can1 (s : State) (f : CycSt → CycSt) : (s.modCyc f).can1 = s.can1 := rfl
@[simp] theorem State.modCyc_bell (s : State) (f : CycSt → CycSt) : (s.modCyc f).bell = s.bell := rfl
@[simp] theorem State.modCyc_streams (s : State) (f : CycSt → CycSt) : (s.modCyc f).streams = s.streams := rfl
@[simp] theorem State.modCyc_chans (s : State) (f : CycSt → CycSt) : (s.modCyc f).chans = s.chans := rfl
@[simp] theorem State.modCyc_loops (s : State) (f : CycSt → CycSt) : (s.modCyc f).loops = s.loops := rfl
@[simp] theorem State.modCyc_pair (s : State) (f : CycSt → CycSt) : (s.modCyc f).pair = s.pair := rfl
@[simp] theorem State.modCyc_net (s : State) (f : CycSt → CycSt) : (s.modCyc f).net = s.net := rfl
@[simp] theorem State.modCyc_dict (s : State) (f : CycSt → CycSt) : (s.modCyc f).dict = s.dict := rfl
@[simp] theorem State.modCyc_log (s : State) (f : CycSt → CycSt) : (s.modCyc f).log = s.log := rfl
@[simp] theorem State.modCyc_dist (s : State) (f : CycSt → CycSt) : (s.modCyc f).dist = s.dist := rfl
@[simp] theorem State.modCyc_field (s : State) (f : CycSt → CycSt) : (s.modCyc f).field = s.field := rfl
@[simp] theorem State.modCyc_integ (s : State) (f : CycSt → CycSt) : (s.modCyc f).integ = s.integ := rfl
@[simp] theorem State.modCyc_boot (s : State) (f : CycSt → CycSt) : (s.modCyc f).boot = s.boot := rfl

@[simp] theorem State.modN0_pending (s : State) (f : CpSt → CpSt) : (s.modN0 f).pending = s.pending := rfl
@[simp] theorem State.modN0_out (s : State) (f : CpSt → CpSt) : (s.modN0 f).out = s.out := rfl
@[simp] theorem State.modN0_ident (s : State) (f : CpSt → CpSt) : (s.modN0 f).ident = s.ident := rfl
@[simp] theorem State.modN0_pins (s : State) (f : CpSt → CpSt) : (s.modN0 f).pins = s.pins := rfl
@[simp] theorem State.modN0_ctl (s : State) (f : CpSt → CpSt) : (s.modN0 f).ctl = s.ctl := rfl
@[simp] theorem State.modN0_time (s : State) (f : CpSt → CpSt) : (s.modN0 f).time = s.time := rfl
@[simp] theorem State.modN0_img (s : State) (f : CpSt → CpSt) : (s.modN0 f).img = s.img := rfl
@[simp] theorem State.modN0_cyc (s : State) (f : CpSt → CpSt) : (s.modN0 f).cyc = s.cyc := rfl
@[simp] theorem State.modN0_n0 (s : State) (f : CpSt → CpSt) : (s.modN0 f).n0 = f s.n0 := rfl
@[simp] theorem State.modN0_n1 (s : State) (f : CpSt → CpSt) : (s.modN0 f).n1 = s.n1 := rfl
@[simp] theorem State.modN0_mpu (s : State) (f : CpSt → CpSt) : (s.modN0 f).mpu = s.mpu := rfl
@[simp] theorem State.modN0_dma (s : State) (f : CpSt → CpSt) : (s.modN0 f).dma = s.dma := rfl
@[simp] theorem State.modN0_evf (s : State) (f : CpSt → CpSt) : (s.modN0 f).evf = s.evf := rfl
@[simp] theorem State.modN0_can0 (s : State) (f : CpSt → CpSt) : (s.modN0 f).can0 = s.can0 := rfl
@[simp] theorem State.modN0_can1 (s : State) (f : CpSt → CpSt) : (s.modN0 f).can1 = s.can1 := rfl
@[simp] theorem State.modN0_bell (s : State) (f : CpSt → CpSt) : (s.modN0 f).bell = s.bell := rfl
@[simp] theorem State.modN0_streams (s : State) (f : CpSt → CpSt) : (s.modN0 f).streams = s.streams := rfl
@[simp] theorem State.modN0_chans (s : State) (f : CpSt → CpSt) : (s.modN0 f).chans = s.chans := rfl
@[simp] theorem State.modN0_loops (s : State) (f : CpSt → CpSt) : (s.modN0 f).loops = s.loops := rfl
@[simp] theorem State.modN0_pair (s : State) (f : CpSt → CpSt) : (s.modN0 f).pair = s.pair := rfl
@[simp] theorem State.modN0_net (s : State) (f : CpSt → CpSt) : (s.modN0 f).net = s.net := rfl
@[simp] theorem State.modN0_dict (s : State) (f : CpSt → CpSt) : (s.modN0 f).dict = s.dict := rfl
@[simp] theorem State.modN0_log (s : State) (f : CpSt → CpSt) : (s.modN0 f).log = s.log := rfl
@[simp] theorem State.modN0_dist (s : State) (f : CpSt → CpSt) : (s.modN0 f).dist = s.dist := rfl
@[simp] theorem State.modN0_field (s : State) (f : CpSt → CpSt) : (s.modN0 f).field = s.field := rfl
@[simp] theorem State.modN0_integ (s : State) (f : CpSt → CpSt) : (s.modN0 f).integ = s.integ := rfl
@[simp] theorem State.modN0_boot (s : State) (f : CpSt → CpSt) : (s.modN0 f).boot = s.boot := rfl

@[simp] theorem State.modN1_pending (s : State) (f : CpSt → CpSt) : (s.modN1 f).pending = s.pending := rfl
@[simp] theorem State.modN1_out (s : State) (f : CpSt → CpSt) : (s.modN1 f).out = s.out := rfl
@[simp] theorem State.modN1_ident (s : State) (f : CpSt → CpSt) : (s.modN1 f).ident = s.ident := rfl
@[simp] theorem State.modN1_pins (s : State) (f : CpSt → CpSt) : (s.modN1 f).pins = s.pins := rfl
@[simp] theorem State.modN1_ctl (s : State) (f : CpSt → CpSt) : (s.modN1 f).ctl = s.ctl := rfl
@[simp] theorem State.modN1_time (s : State) (f : CpSt → CpSt) : (s.modN1 f).time = s.time := rfl
@[simp] theorem State.modN1_img (s : State) (f : CpSt → CpSt) : (s.modN1 f).img = s.img := rfl
@[simp] theorem State.modN1_cyc (s : State) (f : CpSt → CpSt) : (s.modN1 f).cyc = s.cyc := rfl
@[simp] theorem State.modN1_n0 (s : State) (f : CpSt → CpSt) : (s.modN1 f).n0 = s.n0 := rfl
@[simp] theorem State.modN1_n1 (s : State) (f : CpSt → CpSt) : (s.modN1 f).n1 = f s.n1 := rfl
@[simp] theorem State.modN1_mpu (s : State) (f : CpSt → CpSt) : (s.modN1 f).mpu = s.mpu := rfl
@[simp] theorem State.modN1_dma (s : State) (f : CpSt → CpSt) : (s.modN1 f).dma = s.dma := rfl
@[simp] theorem State.modN1_evf (s : State) (f : CpSt → CpSt) : (s.modN1 f).evf = s.evf := rfl
@[simp] theorem State.modN1_can0 (s : State) (f : CpSt → CpSt) : (s.modN1 f).can0 = s.can0 := rfl
@[simp] theorem State.modN1_can1 (s : State) (f : CpSt → CpSt) : (s.modN1 f).can1 = s.can1 := rfl
@[simp] theorem State.modN1_bell (s : State) (f : CpSt → CpSt) : (s.modN1 f).bell = s.bell := rfl
@[simp] theorem State.modN1_streams (s : State) (f : CpSt → CpSt) : (s.modN1 f).streams = s.streams := rfl
@[simp] theorem State.modN1_chans (s : State) (f : CpSt → CpSt) : (s.modN1 f).chans = s.chans := rfl
@[simp] theorem State.modN1_loops (s : State) (f : CpSt → CpSt) : (s.modN1 f).loops = s.loops := rfl
@[simp] theorem State.modN1_pair (s : State) (f : CpSt → CpSt) : (s.modN1 f).pair = s.pair := rfl
@[simp] theorem State.modN1_net (s : State) (f : CpSt → CpSt) : (s.modN1 f).net = s.net := rfl
@[simp] theorem State.modN1_dict (s : State) (f : CpSt → CpSt) : (s.modN1 f).dict = s.dict := rfl
@[simp] theorem State.modN1_log (s : State) (f : CpSt → CpSt) : (s.modN1 f).log = s.log := rfl
@[simp] theorem State.modN1_dist (s : State) (f : CpSt → CpSt) : (s.modN1 f).dist = s.dist := rfl
@[simp] theorem State.modN1_field (s : State) (f : CpSt → CpSt) : (s.modN1 f).field = s.field := rfl
@[simp] theorem State.modN1_integ (s : State) (f : CpSt → CpSt) : (s.modN1 f).integ = s.integ := rfl
@[simp] theorem State.modN1_boot (s : State) (f : CpSt → CpSt) : (s.modN1 f).boot = s.boot := rfl

@[simp] theorem State.modMpu_pending (s : State) (f : Mpu → Mpu) : (s.modMpu f).pending = s.pending := rfl
@[simp] theorem State.modMpu_out (s : State) (f : Mpu → Mpu) : (s.modMpu f).out = s.out := rfl
@[simp] theorem State.modMpu_ident (s : State) (f : Mpu → Mpu) : (s.modMpu f).ident = s.ident := rfl
@[simp] theorem State.modMpu_pins (s : State) (f : Mpu → Mpu) : (s.modMpu f).pins = s.pins := rfl
@[simp] theorem State.modMpu_ctl (s : State) (f : Mpu → Mpu) : (s.modMpu f).ctl = s.ctl := rfl
@[simp] theorem State.modMpu_time (s : State) (f : Mpu → Mpu) : (s.modMpu f).time = s.time := rfl
@[simp] theorem State.modMpu_img (s : State) (f : Mpu → Mpu) : (s.modMpu f).img = s.img := rfl
@[simp] theorem State.modMpu_cyc (s : State) (f : Mpu → Mpu) : (s.modMpu f).cyc = s.cyc := rfl
@[simp] theorem State.modMpu_n0 (s : State) (f : Mpu → Mpu) : (s.modMpu f).n0 = s.n0 := rfl
@[simp] theorem State.modMpu_n1 (s : State) (f : Mpu → Mpu) : (s.modMpu f).n1 = s.n1 := rfl
@[simp] theorem State.modMpu_mpu (s : State) (f : Mpu → Mpu) : (s.modMpu f).mpu = f s.mpu := rfl
@[simp] theorem State.modMpu_dma (s : State) (f : Mpu → Mpu) : (s.modMpu f).dma = s.dma := rfl
@[simp] theorem State.modMpu_evf (s : State) (f : Mpu → Mpu) : (s.modMpu f).evf = s.evf := rfl
@[simp] theorem State.modMpu_can0 (s : State) (f : Mpu → Mpu) : (s.modMpu f).can0 = s.can0 := rfl
@[simp] theorem State.modMpu_can1 (s : State) (f : Mpu → Mpu) : (s.modMpu f).can1 = s.can1 := rfl
@[simp] theorem State.modMpu_bell (s : State) (f : Mpu → Mpu) : (s.modMpu f).bell = s.bell := rfl
@[simp] theorem State.modMpu_streams (s : State) (f : Mpu → Mpu) : (s.modMpu f).streams = s.streams := rfl
@[simp] theorem State.modMpu_chans (s : State) (f : Mpu → Mpu) : (s.modMpu f).chans = s.chans := rfl
@[simp] theorem State.modMpu_loops (s : State) (f : Mpu → Mpu) : (s.modMpu f).loops = s.loops := rfl
@[simp] theorem State.modMpu_pair (s : State) (f : Mpu → Mpu) : (s.modMpu f).pair = s.pair := rfl
@[simp] theorem State.modMpu_net (s : State) (f : Mpu → Mpu) : (s.modMpu f).net = s.net := rfl
@[simp] theorem State.modMpu_dict (s : State) (f : Mpu → Mpu) : (s.modMpu f).dict = s.dict := rfl
@[simp] theorem State.modMpu_log (s : State) (f : Mpu → Mpu) : (s.modMpu f).log = s.log := rfl
@[simp] theorem State.modMpu_dist (s : State) (f : Mpu → Mpu) : (s.modMpu f).dist = s.dist := rfl
@[simp] theorem State.modMpu_field (s : State) (f : Mpu → Mpu) : (s.modMpu f).field = s.field := rfl
@[simp] theorem State.modMpu_integ (s : State) (f : Mpu → Mpu) : (s.modMpu f).integ = s.integ := rfl
@[simp] theorem State.modMpu_boot (s : State) (f : Mpu → Mpu) : (s.modMpu f).boot = s.boot := rfl

@[simp] theorem State.modDma_pending (s : State) (f : DmaSt → DmaSt) : (s.modDma f).pending = s.pending := rfl
@[simp] theorem State.modDma_out (s : State) (f : DmaSt → DmaSt) : (s.modDma f).out = s.out := rfl
@[simp] theorem State.modDma_ident (s : State) (f : DmaSt → DmaSt) : (s.modDma f).ident = s.ident := rfl
@[simp] theorem State.modDma_pins (s : State) (f : DmaSt → DmaSt) : (s.modDma f).pins = s.pins := rfl
@[simp] theorem State.modDma_ctl (s : State) (f : DmaSt → DmaSt) : (s.modDma f).ctl = s.ctl := rfl
@[simp] theorem State.modDma_time (s : State) (f : DmaSt → DmaSt) : (s.modDma f).time = s.time := rfl
@[simp] theorem State.modDma_img (s : State) (f : DmaSt → DmaSt) : (s.modDma f).img = s.img := rfl
@[simp] theorem State.modDma_cyc (s : State) (f : DmaSt → DmaSt) : (s.modDma f).cyc = s.cyc := rfl
@[simp] theorem State.modDma_n0 (s : State) (f : DmaSt → DmaSt) : (s.modDma f).n0 = s.n0 := rfl
@[simp] theorem State.modDma_n1 (s : State) (f : DmaSt → DmaSt) : (s.modDma f).n1 = s.n1 := rfl
@[simp] theorem State.modDma_mpu (s : State) (f : DmaSt → DmaSt) : (s.modDma f).mpu = s.mpu := rfl
@[simp] theorem State.modDma_dma (s : State) (f : DmaSt → DmaSt) : (s.modDma f).dma = f s.dma := rfl
@[simp] theorem State.modDma_evf (s : State) (f : DmaSt → DmaSt) : (s.modDma f).evf = s.evf := rfl
@[simp] theorem State.modDma_can0 (s : State) (f : DmaSt → DmaSt) : (s.modDma f).can0 = s.can0 := rfl
@[simp] theorem State.modDma_can1 (s : State) (f : DmaSt → DmaSt) : (s.modDma f).can1 = s.can1 := rfl
@[simp] theorem State.modDma_bell (s : State) (f : DmaSt → DmaSt) : (s.modDma f).bell = s.bell := rfl
@[simp] theorem State.modDma_streams (s : State) (f : DmaSt → DmaSt) : (s.modDma f).streams = s.streams := rfl
@[simp] theorem State.modDma_chans (s : State) (f : DmaSt → DmaSt) : (s.modDma f).chans = s.chans := rfl
@[simp] theorem State.modDma_loops (s : State) (f : DmaSt → DmaSt) : (s.modDma f).loops = s.loops := rfl
@[simp] theorem State.modDma_pair (s : State) (f : DmaSt → DmaSt) : (s.modDma f).pair = s.pair := rfl
@[simp] theorem State.modDma_net (s : State) (f : DmaSt → DmaSt) : (s.modDma f).net = s.net := rfl
@[simp] theorem State.modDma_dict (s : State) (f : DmaSt → DmaSt) : (s.modDma f).dict = s.dict := rfl
@[simp] theorem State.modDma_log (s : State) (f : DmaSt → DmaSt) : (s.modDma f).log = s.log := rfl
@[simp] theorem State.modDma_dist (s : State) (f : DmaSt → DmaSt) : (s.modDma f).dist = s.dist := rfl
@[simp] theorem State.modDma_field (s : State) (f : DmaSt → DmaSt) : (s.modDma f).field = s.field := rfl
@[simp] theorem State.modDma_integ (s : State) (f : DmaSt → DmaSt) : (s.modDma f).integ = s.integ := rfl
@[simp] theorem State.modDma_boot (s : State) (f : DmaSt → DmaSt) : (s.modDma f).boot = s.boot := rfl

@[simp] theorem State.modEvf_pending (s : State) (f : EvfSt → EvfSt) : (s.modEvf f).pending = s.pending := rfl
@[simp] theorem State.modEvf_out (s : State) (f : EvfSt → EvfSt) : (s.modEvf f).out = s.out := rfl
@[simp] theorem State.modEvf_ident (s : State) (f : EvfSt → EvfSt) : (s.modEvf f).ident = s.ident := rfl
@[simp] theorem State.modEvf_pins (s : State) (f : EvfSt → EvfSt) : (s.modEvf f).pins = s.pins := rfl
@[simp] theorem State.modEvf_ctl (s : State) (f : EvfSt → EvfSt) : (s.modEvf f).ctl = s.ctl := rfl
@[simp] theorem State.modEvf_time (s : State) (f : EvfSt → EvfSt) : (s.modEvf f).time = s.time := rfl
@[simp] theorem State.modEvf_img (s : State) (f : EvfSt → EvfSt) : (s.modEvf f).img = s.img := rfl
@[simp] theorem State.modEvf_cyc (s : State) (f : EvfSt → EvfSt) : (s.modEvf f).cyc = s.cyc := rfl
@[simp] theorem State.modEvf_n0 (s : State) (f : EvfSt → EvfSt) : (s.modEvf f).n0 = s.n0 := rfl
@[simp] theorem State.modEvf_n1 (s : State) (f : EvfSt → EvfSt) : (s.modEvf f).n1 = s.n1 := rfl
@[simp] theorem State.modEvf_mpu (s : State) (f : EvfSt → EvfSt) : (s.modEvf f).mpu = s.mpu := rfl
@[simp] theorem State.modEvf_dma (s : State) (f : EvfSt → EvfSt) : (s.modEvf f).dma = s.dma := rfl
@[simp] theorem State.modEvf_evf (s : State) (f : EvfSt → EvfSt) : (s.modEvf f).evf = f s.evf := rfl
@[simp] theorem State.modEvf_can0 (s : State) (f : EvfSt → EvfSt) : (s.modEvf f).can0 = s.can0 := rfl
@[simp] theorem State.modEvf_can1 (s : State) (f : EvfSt → EvfSt) : (s.modEvf f).can1 = s.can1 := rfl
@[simp] theorem State.modEvf_bell (s : State) (f : EvfSt → EvfSt) : (s.modEvf f).bell = s.bell := rfl
@[simp] theorem State.modEvf_streams (s : State) (f : EvfSt → EvfSt) : (s.modEvf f).streams = s.streams := rfl
@[simp] theorem State.modEvf_chans (s : State) (f : EvfSt → EvfSt) : (s.modEvf f).chans = s.chans := rfl
@[simp] theorem State.modEvf_loops (s : State) (f : EvfSt → EvfSt) : (s.modEvf f).loops = s.loops := rfl
@[simp] theorem State.modEvf_pair (s : State) (f : EvfSt → EvfSt) : (s.modEvf f).pair = s.pair := rfl
@[simp] theorem State.modEvf_net (s : State) (f : EvfSt → EvfSt) : (s.modEvf f).net = s.net := rfl
@[simp] theorem State.modEvf_dict (s : State) (f : EvfSt → EvfSt) : (s.modEvf f).dict = s.dict := rfl
@[simp] theorem State.modEvf_log (s : State) (f : EvfSt → EvfSt) : (s.modEvf f).log = s.log := rfl
@[simp] theorem State.modEvf_dist (s : State) (f : EvfSt → EvfSt) : (s.modEvf f).dist = s.dist := rfl
@[simp] theorem State.modEvf_field (s : State) (f : EvfSt → EvfSt) : (s.modEvf f).field = s.field := rfl
@[simp] theorem State.modEvf_integ (s : State) (f : EvfSt → EvfSt) : (s.modEvf f).integ = s.integ := rfl
@[simp] theorem State.modEvf_boot (s : State) (f : EvfSt → EvfSt) : (s.modEvf f).boot = s.boot := rfl

@[simp] theorem State.modCan0_pending (s : State) (f : CanSt → CanSt) : (s.modCan0 f).pending = s.pending := rfl
@[simp] theorem State.modCan0_out (s : State) (f : CanSt → CanSt) : (s.modCan0 f).out = s.out := rfl
@[simp] theorem State.modCan0_ident (s : State) (f : CanSt → CanSt) : (s.modCan0 f).ident = s.ident := rfl
@[simp] theorem State.modCan0_pins (s : State) (f : CanSt → CanSt) : (s.modCan0 f).pins = s.pins := rfl
@[simp] theorem State.modCan0_ctl (s : State) (f : CanSt → CanSt) : (s.modCan0 f).ctl = s.ctl := rfl
@[simp] theorem State.modCan0_time (s : State) (f : CanSt → CanSt) : (s.modCan0 f).time = s.time := rfl
@[simp] theorem State.modCan0_img (s : State) (f : CanSt → CanSt) : (s.modCan0 f).img = s.img := rfl
@[simp] theorem State.modCan0_cyc (s : State) (f : CanSt → CanSt) : (s.modCan0 f).cyc = s.cyc := rfl
@[simp] theorem State.modCan0_n0 (s : State) (f : CanSt → CanSt) : (s.modCan0 f).n0 = s.n0 := rfl
@[simp] theorem State.modCan0_n1 (s : State) (f : CanSt → CanSt) : (s.modCan0 f).n1 = s.n1 := rfl
@[simp] theorem State.modCan0_mpu (s : State) (f : CanSt → CanSt) : (s.modCan0 f).mpu = s.mpu := rfl
@[simp] theorem State.modCan0_dma (s : State) (f : CanSt → CanSt) : (s.modCan0 f).dma = s.dma := rfl
@[simp] theorem State.modCan0_evf (s : State) (f : CanSt → CanSt) : (s.modCan0 f).evf = s.evf := rfl
@[simp] theorem State.modCan0_can0 (s : State) (f : CanSt → CanSt) : (s.modCan0 f).can0 = f s.can0 := rfl
@[simp] theorem State.modCan0_can1 (s : State) (f : CanSt → CanSt) : (s.modCan0 f).can1 = s.can1 := rfl
@[simp] theorem State.modCan0_bell (s : State) (f : CanSt → CanSt) : (s.modCan0 f).bell = s.bell := rfl
@[simp] theorem State.modCan0_streams (s : State) (f : CanSt → CanSt) : (s.modCan0 f).streams = s.streams := rfl
@[simp] theorem State.modCan0_chans (s : State) (f : CanSt → CanSt) : (s.modCan0 f).chans = s.chans := rfl
@[simp] theorem State.modCan0_loops (s : State) (f : CanSt → CanSt) : (s.modCan0 f).loops = s.loops := rfl
@[simp] theorem State.modCan0_pair (s : State) (f : CanSt → CanSt) : (s.modCan0 f).pair = s.pair := rfl
@[simp] theorem State.modCan0_net (s : State) (f : CanSt → CanSt) : (s.modCan0 f).net = s.net := rfl
@[simp] theorem State.modCan0_dict (s : State) (f : CanSt → CanSt) : (s.modCan0 f).dict = s.dict := rfl
@[simp] theorem State.modCan0_log (s : State) (f : CanSt → CanSt) : (s.modCan0 f).log = s.log := rfl
@[simp] theorem State.modCan0_dist (s : State) (f : CanSt → CanSt) : (s.modCan0 f).dist = s.dist := rfl
@[simp] theorem State.modCan0_field (s : State) (f : CanSt → CanSt) : (s.modCan0 f).field = s.field := rfl
@[simp] theorem State.modCan0_integ (s : State) (f : CanSt → CanSt) : (s.modCan0 f).integ = s.integ := rfl
@[simp] theorem State.modCan0_boot (s : State) (f : CanSt → CanSt) : (s.modCan0 f).boot = s.boot := rfl

@[simp] theorem State.modCan1_pending (s : State) (f : CanSt → CanSt) : (s.modCan1 f).pending = s.pending := rfl
@[simp] theorem State.modCan1_out (s : State) (f : CanSt → CanSt) : (s.modCan1 f).out = s.out := rfl
@[simp] theorem State.modCan1_ident (s : State) (f : CanSt → CanSt) : (s.modCan1 f).ident = s.ident := rfl
@[simp] theorem State.modCan1_pins (s : State) (f : CanSt → CanSt) : (s.modCan1 f).pins = s.pins := rfl
@[simp] theorem State.modCan1_ctl (s : State) (f : CanSt → CanSt) : (s.modCan1 f).ctl = s.ctl := rfl
@[simp] theorem State.modCan1_time (s : State) (f : CanSt → CanSt) : (s.modCan1 f).time = s.time := rfl
@[simp] theorem State.modCan1_img (s : State) (f : CanSt → CanSt) : (s.modCan1 f).img = s.img := rfl
@[simp] theorem State.modCan1_cyc (s : State) (f : CanSt → CanSt) : (s.modCan1 f).cyc = s.cyc := rfl
@[simp] theorem State.modCan1_n0 (s : State) (f : CanSt → CanSt) : (s.modCan1 f).n0 = s.n0 := rfl
@[simp] theorem State.modCan1_n1 (s : State) (f : CanSt → CanSt) : (s.modCan1 f).n1 = s.n1 := rfl
@[simp] theorem State.modCan1_mpu (s : State) (f : CanSt → CanSt) : (s.modCan1 f).mpu = s.mpu := rfl
@[simp] theorem State.modCan1_dma (s : State) (f : CanSt → CanSt) : (s.modCan1 f).dma = s.dma := rfl
@[simp] theorem State.modCan1_evf (s : State) (f : CanSt → CanSt) : (s.modCan1 f).evf = s.evf := rfl
@[simp] theorem State.modCan1_can0 (s : State) (f : CanSt → CanSt) : (s.modCan1 f).can0 = s.can0 := rfl
@[simp] theorem State.modCan1_can1 (s : State) (f : CanSt → CanSt) : (s.modCan1 f).can1 = f s.can1 := rfl
@[simp] theorem State.modCan1_bell (s : State) (f : CanSt → CanSt) : (s.modCan1 f).bell = s.bell := rfl
@[simp] theorem State.modCan1_streams (s : State) (f : CanSt → CanSt) : (s.modCan1 f).streams = s.streams := rfl
@[simp] theorem State.modCan1_chans (s : State) (f : CanSt → CanSt) : (s.modCan1 f).chans = s.chans := rfl
@[simp] theorem State.modCan1_loops (s : State) (f : CanSt → CanSt) : (s.modCan1 f).loops = s.loops := rfl
@[simp] theorem State.modCan1_pair (s : State) (f : CanSt → CanSt) : (s.modCan1 f).pair = s.pair := rfl
@[simp] theorem State.modCan1_net (s : State) (f : CanSt → CanSt) : (s.modCan1 f).net = s.net := rfl
@[simp] theorem State.modCan1_dict (s : State) (f : CanSt → CanSt) : (s.modCan1 f).dict = s.dict := rfl
@[simp] theorem State.modCan1_log (s : State) (f : CanSt → CanSt) : (s.modCan1 f).log = s.log := rfl
@[simp] theorem State.modCan1_dist (s : State) (f : CanSt → CanSt) : (s.modCan1 f).dist = s.dist := rfl
@[simp] theorem State.modCan1_field (s : State) (f : CanSt → CanSt) : (s.modCan1 f).field = s.field := rfl
@[simp] theorem State.modCan1_integ (s : State) (f : CanSt → CanSt) : (s.modCan1 f).integ = s.integ := rfl
@[simp] theorem State.modCan1_boot (s : State) (f : CanSt → CanSt) : (s.modCan1 f).boot = s.boot := rfl

@[simp] theorem State.modBell_pending (s : State) (f : BellSt → BellSt) : (s.modBell f).pending = s.pending := rfl
@[simp] theorem State.modBell_out (s : State) (f : BellSt → BellSt) : (s.modBell f).out = s.out := rfl
@[simp] theorem State.modBell_ident (s : State) (f : BellSt → BellSt) : (s.modBell f).ident = s.ident := rfl
@[simp] theorem State.modBell_pins (s : State) (f : BellSt → BellSt) : (s.modBell f).pins = s.pins := rfl
@[simp] theorem State.modBell_ctl (s : State) (f : BellSt → BellSt) : (s.modBell f).ctl = s.ctl := rfl
@[simp] theorem State.modBell_time (s : State) (f : BellSt → BellSt) : (s.modBell f).time = s.time := rfl
@[simp] theorem State.modBell_img (s : State) (f : BellSt → BellSt) : (s.modBell f).img = s.img := rfl
@[simp] theorem State.modBell_cyc (s : State) (f : BellSt → BellSt) : (s.modBell f).cyc = s.cyc := rfl
@[simp] theorem State.modBell_n0 (s : State) (f : BellSt → BellSt) : (s.modBell f).n0 = s.n0 := rfl
@[simp] theorem State.modBell_n1 (s : State) (f : BellSt → BellSt) : (s.modBell f).n1 = s.n1 := rfl
@[simp] theorem State.modBell_mpu (s : State) (f : BellSt → BellSt) : (s.modBell f).mpu = s.mpu := rfl
@[simp] theorem State.modBell_dma (s : State) (f : BellSt → BellSt) : (s.modBell f).dma = s.dma := rfl
@[simp] theorem State.modBell_evf (s : State) (f : BellSt → BellSt) : (s.modBell f).evf = s.evf := rfl
@[simp] theorem State.modBell_can0 (s : State) (f : BellSt → BellSt) : (s.modBell f).can0 = s.can0 := rfl
@[simp] theorem State.modBell_can1 (s : State) (f : BellSt → BellSt) : (s.modBell f).can1 = s.can1 := rfl
@[simp] theorem State.modBell_bell (s : State) (f : BellSt → BellSt) : (s.modBell f).bell = f s.bell := rfl
@[simp] theorem State.modBell_streams (s : State) (f : BellSt → BellSt) : (s.modBell f).streams = s.streams := rfl
@[simp] theorem State.modBell_chans (s : State) (f : BellSt → BellSt) : (s.modBell f).chans = s.chans := rfl
@[simp] theorem State.modBell_loops (s : State) (f : BellSt → BellSt) : (s.modBell f).loops = s.loops := rfl
@[simp] theorem State.modBell_pair (s : State) (f : BellSt → BellSt) : (s.modBell f).pair = s.pair := rfl
@[simp] theorem State.modBell_net (s : State) (f : BellSt → BellSt) : (s.modBell f).net = s.net := rfl
@[simp] theorem State.modBell_dict (s : State) (f : BellSt → BellSt) : (s.modBell f).dict = s.dict := rfl
@[simp] theorem State.modBell_log (s : State) (f : BellSt → BellSt) : (s.modBell f).log = s.log := rfl
@[simp] theorem State.modBell_dist (s : State) (f : BellSt → BellSt) : (s.modBell f).dist = s.dist := rfl
@[simp] theorem State.modBell_field (s : State) (f : BellSt → BellSt) : (s.modBell f).field = s.field := rfl
@[simp] theorem State.modBell_integ (s : State) (f : BellSt → BellSt) : (s.modBell f).integ = s.integ := rfl
@[simp] theorem State.modBell_boot (s : State) (f : BellSt → BellSt) : (s.modBell f).boot = s.boot := rfl

@[simp] theorem State.modStreams_pending (s : State) (f : List (Nat × StreamSt) → List (Nat × StreamSt)) : (s.modStreams f).pending = s.pending := rfl
@[simp] theorem State.modStreams_out (s : State) (f : List (Nat × StreamSt) → List (Nat × StreamSt)) : (s.modStreams f).out = s.out := rfl
@[simp] theorem State.modStreams_ident (s : State) (f : List (Nat × StreamSt) → List (Nat × StreamSt)) : (s.modStreams f).ident = s.ident := rfl
@[simp] theorem State.modStreams_pins (s : State) (f : List (Nat × StreamSt) → List (Nat × StreamSt)) : (s.modStreams f).pins = s.pins := rfl
@[simp] theorem State.modStreams_ctl (s : State) (f : List (Nat × StreamSt) → List (Nat × StreamSt)) : (s.modStreams f).ctl = s.ctl := rfl
@[simp] theorem State.modStreams_time (s : State) (f : List (Nat × StreamSt) → List (Nat × StreamSt)) : (s.modStreams f).time = s.time := rfl
@[simp] theorem State.modStreams_img (s : State) (f : List (Nat × StreamSt) → List (Nat × StreamSt)) : (s.modStreams f).img = s.img := rfl
@[simp] theorem State.modStreams_cyc (s : State) (f : List (Nat × StreamSt) → List (Nat × StreamSt)) : (s.modStreams f).cyc = s.cyc := rfl
@[simp] theorem State.modStreams_n0 (s : State) (f : List (Nat × StreamSt) → List (Nat × StreamSt)) : (s.modStreams f).n0 = s.n0 := rfl
@[simp] theorem State.modStreams_n1 (s : State) (f : List (Nat × StreamSt) → List (Nat × StreamSt)) : (s.modStreams f).n1 = s.n1 := rfl
@[simp] theorem State.modStreams_mpu (s : State) (f : List (Nat × StreamSt) → List (Nat × StreamSt)) : (s.modStreams f).mpu = s.mpu := rfl
@[simp] theorem State.modStreams_dma (s : State) (f : List (Nat × StreamSt) → List (Nat × StreamSt)) : (s.modStreams f).dma = s.dma := rfl
@[simp] theorem State.modStreams_evf (s : State) (f : List (Nat × StreamSt) → List (Nat × StreamSt)) : (s.modStreams f).evf = s.evf := rfl
@[simp] theorem State.modStreams_can0 (s : State) (f : List (Nat × StreamSt) → List (Nat × StreamSt)) : (s.modStreams f).can0 = s.can0 := rfl
@[simp] theorem State.modStreams_can1 (s : State) (f : List (Nat × StreamSt) → List (Nat × StreamSt)) : (s.modStreams f).can1 = s.can1 := rfl
@[simp] theorem State.modStreams_bell (s : State) (f : List (Nat × StreamSt) → List (Nat × StreamSt)) : (s.modStreams f).bell = s.bell := rfl
@[simp] theorem State.modStreams_streams (s : State) (f : List (Nat × StreamSt) → List (Nat × StreamSt)) : (s.modStreams f).streams = f s.streams := rfl
@[simp] theorem State.modStreams_chans (s : State) (f : List (Nat × StreamSt) → List (Nat × StreamSt)) : (s.modStreams f).chans = s.chans := rfl
@[simp] theorem State.modStreams_loops (s : State) (f : List (Nat × StreamSt) → List (Nat × StreamSt)) : (s.modStreams f).loops = s.loops := rfl
@[simp] theorem State.modStreams_pair (s : State) (f : List (Nat × StreamSt) → List (Nat × StreamSt)) : (s.modStreams f).pair = s.pair := rfl
@[simp] theorem State.modStreams_net (s : State) (f : List (Nat × StreamSt) → List (Nat × StreamSt)) : (s.modStreams f).net = s.net := rfl
@[simp] theorem State.modStreams_dict (s : State) (f : List (Nat × StreamSt) → List (Nat × StreamSt)) : (s.modStreams f).dict = s.dict := rfl
@[simp] theorem State.modStreams_log (s : State) (f : List (Nat × StreamSt) → List (Nat × StreamSt)) : (s.modStreams f).log = s.log := rfl
@[simp] theorem State.modStreams_dist (s : State) (f : List (Nat × StreamSt) → List (Nat × StreamSt)) : (s.modStreams f).dist = s.dist := rfl
@[simp] theorem State.modStreams_field (s : State) (f : List (Nat × StreamSt) → List (Nat × StreamSt)) : (s.modStreams f).field = s.field := rfl
@[simp] theorem State.modStreams_integ (s : State) (f : List (Nat × StreamSt) → List (Nat × StreamSt)) : (s.modStreams f).integ = s.integ := rfl
@[simp] theorem State.modStreams_boot (s : State) (f : List (Nat × StreamSt) → List (Nat × StreamSt)) : (s.modStreams f).boot = s.boot := rfl

@[simp] theorem State.modChans_pending (s : State) (f : List (Nat × ChSt) → List (Nat × ChSt)) : (s.modChans f).pending = s.pending := rfl
@[simp] theorem State.modChans_out (s : State) (f : List (Nat × ChSt) → List (Nat × ChSt)) : (s.modChans f).out = s.out := rfl
@[simp] theorem State.modChans_ident (s : State) (f : List (Nat × ChSt) → List (Nat × ChSt)) : (s.modChans f).ident = s.ident := rfl
@[simp] theorem State.modChans_pins (s : State) (f : List (Nat × ChSt) → List (Nat × ChSt)) : (s.modChans f).pins = s.pins := rfl
@[simp] theorem State.modChans_ctl (s : State) (f : List (Nat × ChSt) → List (Nat × ChSt)) : (s.modChans f).ctl = s.ctl := rfl
@[simp] theorem State.modChans_time (s : State) (f : List (Nat × ChSt) → List (Nat × ChSt)) : (s.modChans f).time = s.time := rfl
@[simp] theorem State.modChans_img (s : State) (f : List (Nat × ChSt) → List (Nat × ChSt)) : (s.modChans f).img = s.img := rfl
@[simp] theorem State.modChans_cyc (s : State) (f : List (Nat × ChSt) → List (Nat × ChSt)) : (s.modChans f).cyc = s.cyc := rfl
@[simp] theorem State.modChans_n0 (s : State) (f : List (Nat × ChSt) → List (Nat × ChSt)) : (s.modChans f).n0 = s.n0 := rfl
@[simp] theorem State.modChans_n1 (s : State) (f : List (Nat × ChSt) → List (Nat × ChSt)) : (s.modChans f).n1 = s.n1 := rfl
@[simp] theorem State.modChans_mpu (s : State) (f : List (Nat × ChSt) → List (Nat × ChSt)) : (s.modChans f).mpu = s.mpu := rfl
@[simp] theorem State.modChans_dma (s : State) (f : List (Nat × ChSt) → List (Nat × ChSt)) : (s.modChans f).dma = s.dma := rfl
@[simp] theorem State.modChans_evf (s : State) (f : List (Nat × ChSt) → List (Nat × ChSt)) : (s.modChans f).evf = s.evf := rfl
@[simp] theorem State.modChans_can0 (s : State) (f : List (Nat × ChSt) → List (Nat × ChSt)) : (s.modChans f).can0 = s.can0 := rfl
@[simp] theorem State.modChans_can1 (s : State) (f : List (Nat × ChSt) → List (Nat × ChSt)) : (s.modChans f).can1 = s.can1 := rfl
@[simp] theorem State.modChans_bell (s : State) (f : List (Nat × ChSt) → List (Nat × ChSt)) : (s.modChans f).bell = s.bell := rfl
@[simp] theorem State.modChans_streams (s : State) (f : List (Nat × ChSt) → List (Nat × ChSt)) : (s.modChans f).streams = s.streams := rfl
@[simp] theorem State.modChans_chans (s : State) (f : List (Nat × ChSt) → List (Nat × ChSt)) : (s.modChans f).chans = f s.chans := rfl
@[simp] theorem State.modChans_loops (s : State) (f : List (Nat × ChSt) → List (Nat × ChSt)) : (s.modChans f).loops = s.loops := rfl
@[simp] theorem State.modChans_pair (s : State) (f : List (Nat × ChSt) → List (Nat × ChSt)) : (s.modChans f).pair = s.pair := rfl
@[simp] theorem State.modChans_net (s : State) (f : List (Nat × ChSt) → List (Nat × ChSt)) : (s.modChans f).net = s.net := rfl
@[simp] theorem State.modChans_dict (s : State) (f : List (Nat × ChSt) → List (Nat × ChSt)) : (s.modChans f).dict = s.dict := rfl
@[simp] theorem State.modChans_log (s : State) (f : List (Nat × ChSt) → List (Nat × ChSt)) : (s.modChans f).log = s.log := rfl
@[simp] theorem State.modChans_dist (s : State) (f : List (Nat × ChSt) → List (Nat × ChSt)) : (s.modChans f).dist = s.dist := rfl
@[simp] theorem State.modChans_field (s : State) (f : List (Nat × ChSt) → List (Nat × ChSt)) : (s.modChans f).field = s.field := rfl
@[simp] theorem State.modChans_integ (s : State) (f : List (Nat × ChSt) → List (Nat × ChSt)) : (s.modChans f).integ = s.integ := rfl
@[simp] theorem State.modChans_boot (s : State) (f : List (Nat × ChSt) → List (Nat × ChSt)) : (s.modChans f).boot = s.boot := rfl

@[simp] theorem State.modLoops_pending (s : State) (f : List (Nat × LoopSt) → List (Nat × LoopSt)) : (s.modLoops f).pending = s.pending := rfl
@[simp] theorem State.modLoops_out (s : State) (f : List (Nat × LoopSt) → List (Nat × LoopSt)) : (s.modLoops f).out = s.out := rfl
@[simp] theorem State.modLoops_ident (s : State) (f : List (Nat × LoopSt) → List (Nat × LoopSt)) : (s.modLoops f).ident = s.ident := rfl
@[simp] theorem State.modLoops_pins (s : State) (f : List (Nat × LoopSt) → List (Nat × LoopSt)) : (s.modLoops f).pins = s.pins := rfl
@[simp] theorem State.modLoops_ctl (s : State) (f : List (Nat × LoopSt) → List (Nat × LoopSt)) : (s.modLoops f).ctl = s.ctl := rfl
@[simp] theorem State.modLoops_time (s : State) (f : List (Nat × LoopSt) → List (Nat × LoopSt)) : (s.modLoops f).time = s.time := rfl
@[simp] theorem State.modLoops_img (s : State) (f : List (Nat × LoopSt) → List (Nat × LoopSt)) : (s.modLoops f).img = s.img := rfl
@[simp] theorem State.modLoops_cyc (s : State) (f : List (Nat × LoopSt) → List (Nat × LoopSt)) : (s.modLoops f).cyc = s.cyc := rfl
@[simp] theorem State.modLoops_n0 (s : State) (f : List (Nat × LoopSt) → List (Nat × LoopSt)) : (s.modLoops f).n0 = s.n0 := rfl
@[simp] theorem State.modLoops_n1 (s : State) (f : List (Nat × LoopSt) → List (Nat × LoopSt)) : (s.modLoops f).n1 = s.n1 := rfl
@[simp] theorem State.modLoops_mpu (s : State) (f : List (Nat × LoopSt) → List (Nat × LoopSt)) : (s.modLoops f).mpu = s.mpu := rfl
@[simp] theorem State.modLoops_dma (s : State) (f : List (Nat × LoopSt) → List (Nat × LoopSt)) : (s.modLoops f).dma = s.dma := rfl
@[simp] theorem State.modLoops_evf (s : State) (f : List (Nat × LoopSt) → List (Nat × LoopSt)) : (s.modLoops f).evf = s.evf := rfl
@[simp] theorem State.modLoops_can0 (s : State) (f : List (Nat × LoopSt) → List (Nat × LoopSt)) : (s.modLoops f).can0 = s.can0 := rfl
@[simp] theorem State.modLoops_can1 (s : State) (f : List (Nat × LoopSt) → List (Nat × LoopSt)) : (s.modLoops f).can1 = s.can1 := rfl
@[simp] theorem State.modLoops_bell (s : State) (f : List (Nat × LoopSt) → List (Nat × LoopSt)) : (s.modLoops f).bell = s.bell := rfl
@[simp] theorem State.modLoops_streams (s : State) (f : List (Nat × LoopSt) → List (Nat × LoopSt)) : (s.modLoops f).streams = s.streams := rfl
@[simp] theorem State.modLoops_chans (s : State) (f : List (Nat × LoopSt) → List (Nat × LoopSt)) : (s.modLoops f).chans = s.chans := rfl
@[simp] theorem State.modLoops_loops (s : State) (f : List (Nat × LoopSt) → List (Nat × LoopSt)) : (s.modLoops f).loops = f s.loops := rfl
@[simp] theorem State.modLoops_pair (s : State) (f : List (Nat × LoopSt) → List (Nat × LoopSt)) : (s.modLoops f).pair = s.pair := rfl
@[simp] theorem State.modLoops_net (s : State) (f : List (Nat × LoopSt) → List (Nat × LoopSt)) : (s.modLoops f).net = s.net := rfl
@[simp] theorem State.modLoops_dict (s : State) (f : List (Nat × LoopSt) → List (Nat × LoopSt)) : (s.modLoops f).dict = s.dict := rfl
@[simp] theorem State.modLoops_log (s : State) (f : List (Nat × LoopSt) → List (Nat × LoopSt)) : (s.modLoops f).log = s.log := rfl
@[simp] theorem State.modLoops_dist (s : State) (f : List (Nat × LoopSt) → List (Nat × LoopSt)) : (s.modLoops f).dist = s.dist := rfl
@[simp] theorem State.modLoops_field (s : State) (f : List (Nat × LoopSt) → List (Nat × LoopSt)) : (s.modLoops f).field = s.field := rfl
@[simp] theorem State.modLoops_integ (s : State) (f : List (Nat × LoopSt) → List (Nat × LoopSt)) : (s.modLoops f).integ = s.integ := rfl
@[simp] theorem State.modLoops_boot (s : State) (f : List (Nat × LoopSt) → List (Nat × LoopSt)) : (s.modLoops f).boot = s.boot := rfl

@[simp] theorem State.modPair_pending (s : State) (f : PairSt → PairSt) : (s.modPair f).pending = s.pending := rfl
@[simp] theorem State.modPair_out (s : State) (f : PairSt → PairSt) : (s.modPair f).out = s.out := rfl
@[simp] theorem State.modPair_ident (s : State) (f : PairSt → PairSt) : (s.modPair f).ident = s.ident := rfl
@[simp] theorem State.modPair_pins (s : State) (f : PairSt → PairSt) : (s.modPair f).pins = s.pins := rfl
@[simp] theorem State.modPair_ctl (s : State) (f : PairSt → PairSt) : (s.modPair f).ctl = s.ctl := rfl
@[simp] theorem State.modPair_time (s : State) (f : PairSt → PairSt) : (s.modPair f).time = s.time := rfl
@[simp] theorem State.modPair_img (s : State) (f : PairSt → PairSt) : (s.modPair f).img = s.img := rfl
@[simp] theorem State.modPair_cyc (s : State) (f : PairSt → PairSt) : (s.modPair f).cyc = s.cyc := rfl
@[simp] theorem State.modPair_n0 (s : State) (f : PairSt → PairSt) : (s.modPair f).n0 = s.n0 := rfl
@[simp] theorem State.modPair_n1 (s : State) (f : PairSt → PairSt) : (s.modPair f).n1 = s.n1 := rfl
@[simp] theorem State.modPair_mpu (s : State) (f : PairSt → PairSt) : (s.modPair f).mpu = s.mpu := rfl
@[simp] theorem State.modPair_dma (s : State) (f : PairSt → PairSt) : (s.modPair f).dma = s.dma := rfl
@[simp] theorem State.modPair_evf (s : State) (f : PairSt → PairSt) : (s.modPair f).evf = s.evf := rfl
@[simp] theorem State.modPair_can0 (s : State) (f : PairSt → PairSt) : (s.modPair f).can0 = s.can0 := rfl
@[simp] theorem State.modPair_can1 (s : State) (f : PairSt → PairSt) : (s.modPair f).can1 = s.can1 := rfl
@[simp] theorem State.modPair_bell (s : State) (f : PairSt → PairSt) : (s.modPair f).bell = s.bell := rfl
@[simp] theorem State.modPair_streams (s : State) (f : PairSt → PairSt) : (s.modPair f).streams = s.streams := rfl
@[simp] theorem State.modPair_chans (s : State) (f : PairSt → PairSt) : (s.modPair f).chans = s.chans := rfl
@[simp] theorem State.modPair_loops (s : State) (f : PairSt → PairSt) : (s.modPair f).loops = s.loops := rfl
@[simp] theorem State.modPair_pair (s : State) (f : PairSt → PairSt) : (s.modPair f).pair = f s.pair := rfl
@[simp] theorem State.modPair_net (s : State) (f : PairSt → PairSt) : (s.modPair f).net = s.net := rfl
@[simp] theorem State.modPair_dict (s : State) (f : PairSt → PairSt) : (s.modPair f).dict = s.dict := rfl
@[simp] theorem State.modPair_log (s : State) (f : PairSt → PairSt) : (s.modPair f).log = s.log := rfl
@[simp] theorem State.modPair_dist (s : State) (f : PairSt → PairSt) : (s.modPair f).dist = s.dist := rfl
@[simp] theorem State.modPair_field (s : State) (f : PairSt → PairSt) : (s.modPair f).field = s.field := rfl
@[simp] theorem State.modPair_integ (s : State) (f : PairSt → PairSt) : (s.modPair f).integ = s.integ := rfl
@[simp] theorem State.modPair_boot (s : State) (f : PairSt → PairSt) : (s.modPair f).boot = s.boot := rfl

@[simp] theorem State.modNet_pending (s : State) (f : NetSt → NetSt) : (s.modNet f).pending = s.pending := rfl
@[simp] theorem State.modNet_out (s : State) (f : NetSt → NetSt) : (s.modNet f).out = s.out := rfl
@[simp] theorem State.modNet_ident (s : State) (f : NetSt → NetSt) : (s.modNet f).ident = s.ident := rfl
@[simp] theorem State.modNet_pins (s : State) (f : NetSt → NetSt) : (s.modNet f).pins = s.pins := rfl
@[simp] theorem State.modNet_ctl (s : State) (f : NetSt → NetSt) : (s.modNet f).ctl = s.ctl := rfl
@[simp] theorem State.modNet_time (s : State) (f : NetSt → NetSt) : (s.modNet f).time = s.time := rfl
@[simp] theorem State.modNet_img (s : State) (f : NetSt → NetSt) : (s.modNet f).img = s.img := rfl
@[simp] theorem State.modNet_cyc (s : State) (f : NetSt → NetSt) : (s.modNet f).cyc = s.cyc := rfl
@[simp] theorem State.modNet_n0 (s : State) (f : NetSt → NetSt) : (s.modNet f).n0 = s.n0 := rfl
@[simp] theorem State.modNet_n1 (s : State) (f : NetSt → NetSt) : (s.modNet f).n1 = s.n1 := rfl
@[simp] theorem State.modNet_mpu (s : State) (f : NetSt → NetSt) : (s.modNet f).mpu = s.mpu := rfl
@[simp] theorem State.modNet_dma (s : State) (f : NetSt → NetSt) : (s.modNet f).dma = s.dma := rfl
@[simp] theorem State.modNet_evf (s : State) (f : NetSt → NetSt) : (s.modNet f).evf = s.evf := rfl
@[simp] theorem State.modNet_can0 (s : State) (f : NetSt → NetSt) : (s.modNet f).can0 = s.can0 := rfl
@[simp] theorem State.modNet_can1 (s : State) (f : NetSt → NetSt) : (s.modNet f).can1 = s.can1 := rfl
@[simp] theorem State.modNet_bell (s : State) (f : NetSt → NetSt) : (s.modNet f).bell = s.bell := rfl
@[simp] theorem State.modNet_streams (s : State) (f : NetSt → NetSt) : (s.modNet f).streams = s.streams := rfl
@[simp] theorem State.modNet_chans (s : State) (f : NetSt → NetSt) : (s.modNet f).chans = s.chans := rfl
@[simp] theorem State.modNet_loops (s : State) (f : NetSt → NetSt) : (s.modNet f).loops = s.loops := rfl
@[simp] theorem State.modNet_pair (s : State) (f : NetSt → NetSt) : (s.modNet f).pair = s.pair := rfl
@[simp] theorem State.modNet_net (s : State) (f : NetSt → NetSt) : (s.modNet f).net = f s.net := rfl
@[simp] theorem State.modNet_dict (s : State) (f : NetSt → NetSt) : (s.modNet f).dict = s.dict := rfl
@[simp] theorem State.modNet_log (s : State) (f : NetSt → NetSt) : (s.modNet f).log = s.log := rfl
@[simp] theorem State.modNet_dist (s : State) (f : NetSt → NetSt) : (s.modNet f).dist = s.dist := rfl
@[simp] theorem State.modNet_field (s : State) (f : NetSt → NetSt) : (s.modNet f).field = s.field := rfl
@[simp] theorem State.modNet_integ (s : State) (f : NetSt → NetSt) : (s.modNet f).integ = s.integ := rfl
@[simp] theorem State.modNet_boot (s : State) (f : NetSt → NetSt) : (s.modNet f).boot = s.boot := rfl

@[simp] theorem State.modDict_pending (s : State) (f : DictSt → DictSt) : (s.modDict f).pending = s.pending := rfl
@[simp] theorem State.modDict_out (s : State) (f : DictSt → DictSt) : (s.modDict f).out = s.out := rfl
@[simp] theorem State.modDict_ident (s : State) (f : DictSt → DictSt) : (s.modDict f).ident = s.ident := rfl
@[simp] theorem State.modDict_pins (s : State) (f : DictSt → DictSt) : (s.modDict f).pins = s.pins := rfl
@[simp] theorem State.modDict_ctl (s : State) (f : DictSt → DictSt) : (s.modDict f).ctl = s.ctl := rfl
@[simp] theorem State.modDict_time (s : State) (f : DictSt → DictSt) : (s.modDict f).time = s.time := rfl
@[simp] theorem State.modDict_img (s : State) (f : DictSt → DictSt) : (s.modDict f).img = s.img := rfl
@[simp] theorem State.modDict_cyc (s : State) (f : DictSt → DictSt) : (s.modDict f).cyc = s.cyc := rfl
@[simp] theorem State.modDict_n0 (s : State) (f : DictSt → DictSt) : (s.modDict f).n0 = s.n0 := rfl
@[simp] theorem State.modDict_n1 (s : State) (f : DictSt → DictSt) : (s.modDict f).n1 = s.n1 := rfl
@[simp] theorem State.modDict_mpu (s : State) (f : DictSt → DictSt) : (s.modDict f).mpu = s.mpu := rfl
@[simp] theorem State.modDict_dma (s : State) (f : DictSt → DictSt) : (s.modDict f).dma = s.dma := rfl
@[simp] theorem State.modDict_evf (s : State) (f : DictSt → DictSt) : (s.modDict f).evf = s.evf := rfl
@[simp] theorem State.modDict_can0 (s : State) (f : DictSt → DictSt) : (s.modDict f).can0 = s.can0 := rfl
@[simp] theorem State.modDict_can1 (s : State) (f : DictSt → DictSt) : (s.modDict f).can1 = s.can1 := rfl
@[simp] theorem State.modDict_bell (s : State) (f : DictSt → DictSt) : (s.modDict f).bell = s.bell := rfl
@[simp] theorem State.modDict_streams (s : State) (f : DictSt → DictSt) : (s.modDict f).streams = s.streams := rfl
@[simp] theorem State.modDict_chans (s : State) (f : DictSt → DictSt) : (s.modDict f).chans = s.chans := rfl
@[simp] theorem State.modDict_loops (s : State) (f : DictSt → DictSt) : (s.modDict f).loops = s.loops := rfl
@[simp] theorem State.modDict_pair (s : State) (f : DictSt → DictSt) : (s.modDict f).pair = s.pair := rfl
@[simp] theorem State.modDict_net (s : State) (f : DictSt → DictSt) : (s.modDict f).net = s.net := rfl
@[simp] theorem State.modDict_dict (s : State) (f : DictSt → DictSt) : (s.modDict f).dict = f s.dict := rfl
@[simp] theorem State.modDict_log (s : State) (f : DictSt → DictSt) : (s.modDict f).log = s.log := rfl
@[simp] theorem State.modDict_dist (s : State) (f : DictSt → DictSt) : (s.modDict f).dist = s.dist := rfl
@[simp] theorem State.modDict_field (s : State) (f : DictSt → DictSt) : (s.modDict f).field = s.field := rfl
@[simp] theorem State.modDict_integ (s : State) (f : DictSt → DictSt) : (s.modDict f).integ = s.integ := rfl
@[simp] theorem State.modDict_boot (s : State) (f : DictSt → DictSt) : (s.modDict f).boot = s.boot := rfl

@[simp] theorem State.modLog_pending (s : State) (f : LogSt → LogSt) : (s.modLog f).pending = s.pending := rfl
@[simp] theorem State.modLog_out (s : State) (f : LogSt → LogSt) : (s.modLog f).out = s.out := rfl
@[simp] theorem State.modLog_ident (s : State) (f : LogSt → LogSt) : (s.modLog f).ident = s.ident := rfl
@[simp] theorem State.modLog_pins (s : State) (f : LogSt → LogSt) : (s.modLog f).pins = s.pins := rfl
@[simp] theorem State.modLog_ctl (s : State) (f : LogSt → LogSt) : (s.modLog f).ctl = s.ctl := rfl
@[simp] theorem State.modLog_time (s : State) (f : LogSt → LogSt) : (s.modLog f).time = s.time := rfl
@[simp] theorem State.modLog_img (s : State) (f : LogSt → LogSt) : (s.modLog f).img = s.img := rfl
@[simp] theorem State.modLog_cyc (s : State) (f : LogSt → LogSt) : (s.modLog f).cyc = s.cyc := rfl
@[simp] theorem State.modLog_n0 (s : State) (f : LogSt → LogSt) : (s.modLog f).n0 = s.n0 := rfl
@[simp] theorem State.modLog_n1 (s : State) (f : LogSt → LogSt) : (s.modLog f).n1 = s.n1 := rfl
@[simp] theorem State.modLog_mpu (s : State) (f : LogSt → LogSt) : (s.modLog f).mpu = s.mpu := rfl
@[simp] theorem State.modLog_dma (s : State) (f : LogSt → LogSt) : (s.modLog f).dma = s.dma := rfl
@[simp] theorem State.modLog_evf (s : State) (f : LogSt → LogSt) : (s.modLog f).evf = s.evf := rfl
@[simp] theorem State.modLog_can0 (s : State) (f : LogSt → LogSt) : (s.modLog f).can0 = s.can0 := rfl
@[simp] theorem State.modLog_can1 (s : State) (f : LogSt → LogSt) : (s.modLog f).can1 = s.can1 := rfl
@[simp] theorem State.modLog_bell (s : State) (f : LogSt → LogSt) : (s.modLog f).bell = s.bell := rfl
@[simp] theorem State.modLog_streams (s : State) (f : LogSt → LogSt) : (s.modLog f).streams = s.streams := rfl
@[simp] theorem State.modLog_chans (s : State) (f : LogSt → LogSt) : (s.modLog f).chans = s.chans := rfl
@[simp] theorem State.modLog_loops (s : State) (f : LogSt → LogSt) : (s.modLog f).loops = s.loops := rfl
@[simp] theorem State.modLog_pair (s : State) (f : LogSt → LogSt) : (s.modLog f).pair = s.pair := rfl
@[simp] theorem State.modLog_net (s : State) (f : LogSt → LogSt) : (s.modLog f).net = s.net := rfl
@[simp] theorem State.modLog_dict (s : State) (f : LogSt → LogSt) : (s.modLog f).dict = s.dict := rfl
@[simp] theorem State.modLog_log (s : State) (f : LogSt → LogSt) : (s.modLog f).log = f s.log := rfl
@[simp] theorem State.modLog_dist (s : State) (f : LogSt → LogSt) : (s.modLog f).dist = s.dist := rfl
@[simp] theorem State.modLog_field (s : State) (f : LogSt → LogSt) : (s.modLog f).field = s.field := rfl
@[simp] theorem State.modLog_integ (s : State) (f : LogSt → LogSt) : (s.modLog f).integ = s.integ := rfl
@[simp] theorem State.modLog_boot (s : State) (f : LogSt → LogSt) : (s.modLog f).boot = s.boot := rfl

@[simp] theorem State.modDist_pending (s : State) (f : DistSt → DistSt) : (s.modDist f).pending = s.pending := rfl
@[simp] theorem State.modDist_out (s : State) (f : DistSt → DistSt) : (s.modDist f).out = s.out := rfl
@[simp] theorem State.modDist_ident (s : State) (f : DistSt → DistSt) : (s.modDist f).ident = s.ident := rfl
@[simp] theorem State.modDist_pins (s : State) (f : DistSt → DistSt) : (s.modDist f).pins = s.pins := rfl
@[simp] theorem State.modDist_ctl (s : State) (f : DistSt → DistSt) : (s.modDist f).ctl = s.ctl := rfl
@[simp] theorem State.modDist_time (s : State) (f : DistSt → DistSt) : (s.modDist f).time = s.time := rfl
@[simp] theorem State.modDist_img (s : State) (f : DistSt → DistSt) : (s.modDist f).img = s.img := rfl
@[simp] theorem State.modDist_cyc (s : State) (f : DistSt → DistSt) : (s.modDist f).cyc = s.cyc := rfl
@[simp] theorem State.modDist_n0 (s : State) (f : DistSt → DistSt) : (s.modDist f).n0 = s.n0 := rfl
@[simp] theorem State.modDist_n1 (s : State) (f : DistSt → DistSt) : (s.modDist f).n1 = s.n1 := rfl
@[simp] theorem State.modDist_mpu (s : State) (f : DistSt → DistSt) : (s.modDist f).mpu = s.mpu := rfl
@[simp] theorem State.modDist_dma (s : State) (f : DistSt → DistSt) : (s.modDist f).dma = s.dma := rfl
@[simp] theorem State.modDist_evf (s : State) (f : DistSt → DistSt) : (s.modDist f).evf = s.evf := rfl
@[simp] theorem State.modDist_can0 (s : State) (f : DistSt → DistSt) : (s.modDist f).can0 = s.can0 := rfl
@[simp] theorem State.modDist_can1 (s : State) (f : DistSt → DistSt) : (s.modDist f).can1 = s.can1 := rfl
@[simp] theorem State.modDist_bell (s : State) (f : DistSt → DistSt) : (s.modDist f).bell = s.bell := rfl
@[simp] theorem State.modDist_streams (s : State) (f : DistSt → DistSt) : (s.modDist f).streams = s.streams := rfl
@[simp] theorem State.modDist_chans (s : State) (f : DistSt → DistSt) : (s.modDist f).chans = s.chans := rfl
@[simp] theorem State.modDist_loops (s : State) (f : DistSt → DistSt) : (s.modDist f).loops = s.loops := rfl
@[simp] theorem State.modDist_pair (s : State) (f : DistSt → DistSt) : (s.modDist f).pair = s.pair := rfl
@[simp] theorem State.modDist_net (s : State) (f : DistSt → DistSt) : (s.modDist f).net = s.net := rfl
@[simp] theorem State.modDist_dict (s : State) (f : DistSt → DistSt) : (s.modDist f).dict = s.dict := rfl
@[simp] theorem State.modDist_log (s : State) (f : DistSt → DistSt) : (s.modDist f).log = s.log := rfl
@[simp] theorem State.modDist_dist (s : State) (f : DistSt → DistSt) : (s.modDist f).dist = f s.dist := rfl
@[simp] theorem State.modDist_field (s : State) (f : DistSt → DistSt) : (s.modDist f).field = s.field := rfl
@[simp] theorem State.modDist_integ (s : State) (f : DistSt → DistSt) : (s.modDist f).integ = s.integ := rfl
@[simp] theorem State.modDist_boot (s : State) (f : DistSt → DistSt) : (s.modDist f).boot = s.boot := rfl

@[simp] theorem State.modField_pending (s : State) (f : FieldSt → FieldSt) : (s.modField f).pending = s.pending := rfl
@[simp] theorem State.modField_out (s : State) (f : FieldSt → FieldSt) : (s.modField f).out = s.out := rfl
@[simp] theorem State.modField_ident (s : State) (f : FieldSt → FieldSt) : (s.modField f).ident = s.ident := rfl
@[simp] theorem State.modField_pins (s : State) (f : FieldSt → FieldSt) : (s.modField f).pins = s.pins := rfl
@[simp] theorem State.modField_ctl (s : State) (f : FieldSt → FieldSt) : (s.modField f).ctl = s.ctl := rfl
@[simp] theorem State.modField_time (s : State) (f : FieldSt → FieldSt) : (s.modField f).time = s.time := rfl
@[simp] theorem State.modField_img (s : State) (f : FieldSt → FieldSt) : (s.modField f).img = s.img := rfl
@[simp] theorem State.modField_cyc (s : State) (f : FieldSt → FieldSt) : (s.modField f).cyc = s.cyc := rfl
@[simp] theorem State.modField_n0 (s : State) (f : FieldSt → FieldSt) : (s.modField f).n0 = s.n0 := rfl
@[simp] theorem State.modField_n1 (s : State) (f : FieldSt → FieldSt) : (s.modField f).n1 = s.n1 := rfl
@[simp] theorem State.modField_mpu (s : State) (f : FieldSt → FieldSt) : (s.modField f).mpu = s.mpu := rfl
@[simp] theorem State.modField_dma (s : State) (f : FieldSt → FieldSt) : (s.modField f).dma = s.dma := rfl
@[simp] theorem State.modField_evf (s : State) (f : FieldSt → FieldSt) : (s.modField f).evf = s.evf := rfl
@[simp] theorem State.modField_can0 (s : State) (f : FieldSt → FieldSt) : (s.modField f).can0 = s.can0 := rfl
@[simp] theorem State.modField_can1 (s : State) (f : FieldSt → FieldSt) : (s.modField f).can1 = s.can1 := rfl
@[simp] theorem State.modField_bell (s : State) (f : FieldSt → FieldSt) : (s.modField f).bell = s.bell := rfl
@[simp] theorem State.modField_streams (s : State) (f : FieldSt → FieldSt) : (s.modField f).streams = s.streams := rfl
@[simp] theorem State.modField_chans (s : State) (f : FieldSt → FieldSt) : (s.modField f).chans = s.chans := rfl
@[simp] theorem State.modField_loops (s : State) (f : FieldSt → FieldSt) : (s.modField f).loops = s.loops := rfl
@[simp] theorem State.modField_pair (s : State) (f : FieldSt → FieldSt) : (s.modField f).pair = s.pair := rfl
@[simp] theorem State.modField_net (s : State) (f : FieldSt → FieldSt) : (s.modField f).net = s.net := rfl
@[simp] theorem State.modField_dict (s : State) (f : FieldSt → FieldSt) : (s.modField f).dict = s.dict := rfl
@[simp] theorem State.modField_log (s : State) (f : FieldSt → FieldSt) : (s.modField f).log = s.log := rfl
@[simp] theorem State.modField_dist (s : State) (f : FieldSt → FieldSt) : (s.modField f).dist = s.dist := rfl
@[simp] theorem State.modField_field (s : State) (f : FieldSt → FieldSt) : (s.modField f).field = f s.field := rfl
@[simp] theorem State.modField_integ (s : State) (f : FieldSt → FieldSt) : (s.modField f).integ = s.integ := rfl
@[simp] theorem State.modField_boot (s : State) (f : FieldSt → FieldSt) : (s.modField f).boot = s.boot := rfl

@[simp] theorem State.modInteg_pending (s : State) (f : IntegSt → IntegSt) : (s.modInteg f).pending = s.pending := rfl
@[simp] theorem State.modInteg_out (s : State) (f : IntegSt → IntegSt) : (s.modInteg f).out = s.out := rfl
@[simp] theorem State.modInteg_ident (s : State) (f : IntegSt → IntegSt) : (s.modInteg f).ident = s.ident := rfl
@[simp] theorem State.modInteg_pins (s : State) (f : IntegSt → IntegSt) : (s.modInteg f).pins = s.pins := rfl
@[simp] theorem State.modInteg_ctl (s : State) (f : IntegSt → IntegSt) : (s.modInteg f).ctl = s.ctl := rfl
@[simp] theorem State.modInteg_time (s : State) (f : IntegSt → IntegSt) : (s.modInteg f).time = s.time := rfl
@[simp] theorem State.modInteg_img (s : State) (f : IntegSt → IntegSt) : (s.modInteg f).img = s.img := rfl
@[simp] theorem State.modInteg_cyc (s : State) (f : IntegSt → IntegSt) : (s.modInteg f).cyc = s.cyc := rfl
@[simp] theorem State.modInteg_n0 (s : State) (f : IntegSt → IntegSt) : (s.modInteg f).n0 = s.n0 := rfl
@[simp] theorem State.modInteg_n1 (s : State) (f : IntegSt → IntegSt) : (s.modInteg f).n1 = s.n1 := rfl
@[simp] theorem State.modInteg_mpu (s : State) (f : IntegSt → IntegSt) : (s.modInteg f).mpu = s.mpu := rfl
@[simp] theorem State.modInteg_dma (s : State) (f : IntegSt → IntegSt) : (s.modInteg f).dma = s.dma := rfl
@[simp] theorem State.modInteg_evf (s : State) (f : IntegSt → IntegSt) : (s.modInteg f).evf = s.evf := rfl
@[simp] theorem State.modInteg_can0 (s : State) (f : IntegSt → IntegSt) : (s.modInteg f).can0 = s.can0 := rfl
@[simp] theorem State.modInteg_can1 (s : State) (f : IntegSt → IntegSt) : (s.modInteg f).can1 = s.can1 := rfl
@[simp] theorem State.modInteg_bell (s : State) (f : IntegSt → IntegSt) : (s.modInteg f).bell = s.bell := rfl
@[simp] theorem State.modInteg_streams (s : State) (f : IntegSt → IntegSt) : (s.modInteg f).streams = s.streams := rfl
@[simp] theorem State.modInteg_chans (s : State) (f : IntegSt → IntegSt) : (s.modInteg f).chans = s.chans := rfl
@[simp] theorem State.modInteg_loops (s : State) (f : IntegSt → IntegSt) : (s.modInteg f).loops = s.loops := rfl
@[simp] theorem State.modInteg_pair (s : State) (f : IntegSt → IntegSt) : (s.modInteg f).pair = s.pair := rfl
@[simp] theorem State.modInteg_net (s : State) (f : IntegSt → IntegSt) : (s.modInteg f).net = s.net := rfl
@[simp] theorem State.modInteg_dict (s : State) (f : IntegSt → IntegSt) : (s.modInteg f).dict = s.dict := rfl
@[simp] theorem State.modInteg_log (s : State) (f : IntegSt → IntegSt) : (s.modInteg f).log = s.log := rfl
@[simp] theorem State.modInteg_dist (s : State) (f : IntegSt → IntegSt) : (s.modInteg f).dist = s.dist := rfl
@[simp] theorem State.modInteg_field (s : State) (f : IntegSt → IntegSt) : (s.modInteg f).field = s.field := rfl
@[simp] theorem State.modInteg_integ (s : State) (f : IntegSt → IntegSt) : (s.modInteg f).integ = f s.integ := rfl
@[simp] theorem State.modInteg_boot (s : State) (f : IntegSt → IntegSt) : (s.modInteg f).boot = s.boot := rfl

@[simp] theorem State.modBoot_pending (s : State) (f : BootSt → BootSt) : (s.modBoot f).pending = s.pending := rfl
@[simp] theorem State.modBoot_out (s : State) (f : BootSt → BootSt) : (s.modBoot f).out = s.out := rfl
@[simp] theorem State.modBoot_ident (s : State) (f : BootSt → BootSt) : (s.modBoot f).ident = s.ident := rfl
@[simp] theorem State.modBoot_pins (s : State) (f : BootSt → BootSt) : (s.modBoot f).pins = s.pins := rfl
@[simp] theorem State.modBoot_ctl (s : State) (f : BootSt → BootSt) : (s.modBoot f).ctl = s.ctl := rfl
@[simp] theorem State.modBoot_time (s : State) (f : BootSt → BootSt) : (s.modBoot f).time = s.time := rfl
@[simp] theorem State.modBoot_img (s : State) (f : BootSt → BootSt) : (s.modBoot f).img = s.img := rfl
@[simp] theorem State.modBoot_cyc (s : State) (f : BootSt → BootSt) : (s.modBoot f).cyc = s.cyc := rfl
@[simp] theorem State.modBoot_n0 (s : State) (f : BootSt → BootSt) : (s.modBoot f).n0 = s.n0 := rfl
@[simp] theorem State.modBoot_n1 (s : State) (f : BootSt → BootSt) : (s.modBoot f).n1 = s.n1 := rfl
@[simp] theorem State.modBoot_mpu (s : State) (f : BootSt → BootSt) : (s.modBoot f).mpu = s.mpu := rfl
@[simp] theorem State.modBoot_dma (s : State) (f : BootSt → BootSt) : (s.modBoot f).dma = s.dma := rfl
@[simp] theorem State.modBoot_evf (s : State) (f : BootSt → BootSt) : (s.modBoot f).evf = s.evf := rfl
@[simp] theorem State.modBoot_can0 (s : State) (f : BootSt → BootSt) : (s.modBoot f).can0 = s.can0 := rfl
@[simp] theorem State.modBoot_can1 (s : State) (f : BootSt → BootSt) : (s.modBoot f).can1 = s.can1 := rfl
@[simp] theorem State.modBoot_bell (s : State) (f : BootSt → BootSt) : (s.modBoot f).bell = s.bell := rfl
@[simp] theorem State.modBoot_streams (s : State) (f : BootSt → BootSt) : (s.modBoot f).streams = s.streams := rfl
@[simp] theorem State.modBoot_chans (s : State) (f : BootSt → BootSt) : (s.modBoot f).chans = s.chans := rfl
@[simp] theorem State.modBoot_loops (s : State) (f : BootSt → BootSt) : (s.modBoot f).loops = s.loops := rfl
@[simp] theorem State.modBoot_pair (s : State) (f : BootSt → BootSt) : (s.modBoot f).pair = s.pair := rfl
@[simp] theorem State.modBoot_net (s : State) (f : BootSt → BootSt) : (s.modBoot f).net = s.net := rfl
@[simp] theorem State.modBoot_dict (s : State) (f : BootSt → BootSt) : (s.modBoot f).dict = s.dict := rfl
@[simp] theorem State.modBoot_log (s : State) (f : BootSt → BootSt) : (s.modBoot f).log = s.log := rfl
@[simp] theorem State.modBoot_dist (s : State) (f : BootSt → BootSt) : (s.modBoot f).dist = s.dist := rfl
@[simp] theorem State.modBoot_field (s : State) (f : BootSt → BootSt) : (s.modBoot f).field = s.field := rfl
@[simp] theorem State.modBoot_integ (s : State) (f : BootSt → BootSt) : (s.modBoot f).integ = s.integ := rfl
@[simp] theorem State.modBoot_boot (s : State) (f : BootSt → BootSt) : (s.modBoot f).boot = f s.boot := rfl

end Sys2Proof.Machine
end

