-- ==== Sys2Proof/WellFormed.lean ====
section
/-!
DEFINITION. Well-formed commands: every operand that stands for a numbered thing of the module or for a field of a message lies in the range that the manual gives it. A meaning is total: what an ill-formed command does is in its own definition.
-/

namespace Sys2Proof

/-- A field of one byte. -/
def byteField (n : Nat) : Bool := decide (n < 256)

/-- A field of two bytes. -/
def halfField (n : Nat) : Bool := decide (n < 65536)

/-- A field of four bytes. -/
def wordField (n : Nat) : Bool := decide (n < 4294967296)

/-- A point or constant number, 0–131071 (R7). -/
def pointNo (n : Nat) : Bool := decide (n < 131072)

/-- A channel number, 0–127 (R135). -/
def chanNo (n : Nat) : Bool := decide (n < 128)

/-- A loop number, 0–31 (R164). -/
def loopNo (n : Nat) : Bool := decide (n < 32)

/-- A LOOP terminal, LOOP0–LOOP3 (R364). -/
def outNo (n : Nat) : Bool := decide (n < 4)

/-- A D channel, D0–D15 (R358). -/
def dNo (n : Nat) : Bool := decide (n < 16)

/-- A subscription slot, 0–4095 (R244). -/
def slotNo (n : Nat) : Bool := decide (n < 4096)

/-- A CAN controller (R307). -/
def ctrlNo (n : Nat) : Bool := decide (n < 2)

/-- A PTP port: P0, P1, S0 or S1 (R262). -/
def ptpPort (n : Nat) : Bool := decide (n < 4)

/-- An interrupt source, 0–127 (R409). -/
def sourceNo (n : Nat) : Bool := decide (n < 128)

/-- A DMA channel, 0–15 (R423). -/
def dmaNo (n : Nat) : Bool := decide (n < 16)

/-- The operands of a command lie in their ranges. -/
def Instr.wf : Instr → Bool
  | .powerOn _ => true
  | .feedChange _ _ => true
  | .storedEnergyWarning => true
  | .rstNAssert _ => true
  | .wipeNHeld => true
  | .maskRomCheck => true
  | .stagedLoaderInstall => true
  | .solicitTimer => true
  | .bootOffer _ kind manLen imgLen => byteField kind && wordField manLen && wordField imgLen
  | .bootData _ object chunk block data => byteField object && halfField chunk && byteField block && decide (data.length ≤ 1480)
  | .bootAckTimer => true
  | .bootTransferTimeout => true
  | .bootGet _ object offset nonce => byteField object && wordField offset && decide (nonce.length = 32)
  | .provision _ body => decide (body.length ≤ 1488)
  | .selftestRun failed => (match failed with | some u => byteField u | none => true)
  | .packageSettle => true
  | .startFromStop => true
  | .startupWaitExpire => true
  | .ownHighEnterAlone => true
  | .stopRejoinTimer => true
  | .tick => true
  | .executionStart => true
  | .executionEnd => true
  | .miojoOutput _ _ _ _ => true
  | .digestTimeout => true
  | .switchoverResume => true
  | .agreementTimeout => true
  | .ncallTrap _ => true
  | .cycRettWrite _ _ _ => true
  | .ncallAbandon _ _ => true
  | .cycVecWrite _ _ => true
  | .pointStageWrite _ point _ => pointNo point
  | .pointCommitWrite _ point _ => pointNo point
  | .constantWindowWrite _ const _ => pointNo const
  | .gridInstant => true
  | .sampleDeadline stream => decide (stream < 64)
  | .analysisInstant ch => chanNo ch
  | .trackingLossTimer ch => chanNo ch
  | .loopUpdate n => loopNo n
  | .shareToFull n => outNo n
  | .fullToShare n => outNo n
  | .miojoHello _ _ => true
  | .miojoKeep _ => true
  | .keepSendTimer _ => true
  | .miojoDelay _ _ _ _ => true
  | .delayMeasureTimer => true
  | .miojoTick _ _ => true
  | .miojoSupply _ slot _ => slotNo slot
  | .miojoSample _ _ => true
  | .miojoSvsupply _ stream _ => decide (stream < 64)
  | .miojoSidein _ _ => true
  | .miojoForward _ _ _ => true
  | .miojoWrite _ _ => true
  | .writeResendTimer => true
  | .miojoWack _ _ => true
  | .miojoRefuse _ _ _ => true
  | .miojoHandover _ _ => true
  | .miojoAnnounce _ _ => true
  | .miojoCheck _ _ outcome digest => halfField outcome && decide (digest.length = 32)
  | .miojoSilent _ reason => byteField reason
  | .miojoState _ region _ _ => byteField region
  | .miojoStateack _ _ => true
  | .stateResendTimer => true
  | .miojoLog _ _ _ => true
  | .miojoCatch _ phase _ reason => byteField phase && (match reason with | some r => byteField r | none => true)
  | .miojoBadCrc _ => true
  | .laneUp _ => true
  | .laneDown _ => true
  | .miojoLinkDown => true
  | .aliveToggle => true
  | .alivePermitWrite => true
  | .alivePermitExpire => true
  | .aliveInEdge => true
  | .aliveTimeout => true
  | .ownInChange _ => true
  | .ownPermitExpire => true
  | .interlockWiringFault => true
  | .catchupBulkPassDone _ => true
  | .catchupReplayTick => true
  | .catchupRetryTimer => true
  | .twinStableTimer => true
  | .publicationReceive _ => true
  | .slotForgetTimer slot => slotNo slot
  | .gooseReceive _ => true
  | .gooseRetransmit pub => decide (pub < 1024)
  | .svFrameReceive _ _ => true
  | .bellReceive _ _ => true
  | .bellSendTimer => true
  | .canBellSend ctrl => ctrlNo ctrl
  | .ringFrameArrival _ _ _ => true
  | .stationFrameArrival _ _ _ => true
  | .separatorEntryExpire => true
  | .supervisionSendTimer => true
  | .ringLinkChange _ _ medium => decide (medium ≤ 4)
  | .ringMediumDetectTimer => true
  | .arpRequest _ _ _ _ => true
  | .icmpEcho _ _ _ _ _ => true
  | .ptpSyncReceive _ => true
  | .ptpFollowUpReceive _ _ _ _ => true
  | .ptpAnnounceReceive _ => true
  | .pdelayReqReceive port _ _ _ _ => ptpPort port
  | .pdelayRespReceive port _ _ _ => ptpPort port
  | .pdelayReqTimer _ => true
  | .ptpTcForward _ => true
  | .ptpTcEntryExpire => true
  | .syncLossTimer => true
  | .holdoverLimitExpire => true
  | .refInQualify _ => true
  | .refInLoss => true
  | .ppsInEdge _ => true
  | .wholeSecond => true
  | .timeAlarmFire => true
  | .timeAlarmArm => true
  | .timeAlarmDisarm => true
  | .rateWrite _ => true
  | .timeGroupLatchRead reg _ => decide (reg < 4096) && reg % 4 == 0
  | .forerunnerLoad _ => true
  | .sessionOpen _ _ => true
  | .sessionSetupTimeout _ => true
  | .sessionIdleTimeout _ => true
  | .sessionClose _ => true
  | .dictRead _ _ _ => true
  | .dictWrite _ _ _ => true
  | .dictMalformed _ type _ => byteField type
  | .canTpFrame ctrl _ => ctrlNo ctrl
  | .canTpTimeout ctrl => ctrlNo ctrl
  | .serviceUnlock _ _ => true
  | .restartWarm _ => true
  | .restartCold _ => true
  | .setForce _ _ => true
  | .releaseForce _ _ => true
  | .releaseAllForces _ => true
  | .onlineChangeActivate _ => true
  | .onlineChangeDiscard _ => true
  | .clearCounters _ index sub => halfField index && byteField sub
  | .loopModeSet _ n mode => loopNo n && byteField mode
  | .loopBankCommand _ n bank => loopNo n && byteField bank
  | .clearRepetitiveMemory _ n => loopNo n
  | .commandedHandover _ => true
  | .retryCatchup _ => true
  | .manualTrigger _ => true
  | .deleteAllRecords _ => true
  | .clearDFault _ _ => true
  | .clearDebugged _ => true
  | .clearLatentFault _ => true
  | .commandedStop _ => true
  | .liftStop _ => true
  | .commandedReset _ => true
  | .testEnter _ => true
  | .testLeave _ => true
  | .commission _ => true
  | .returnToBlank _ => true
  | .decommission _ => true
  | .raiseMinimumSvn _ => true
  | .packageKeyA1Write _ _ => true
  | .wrappedRoleKeyWrite _ _ => true
  | .removeRoleKey _ _ => true
  | .attestationNonce _ _ => true
  | .attestationSigned => true
  | .beginStaging _ kind => byteField kind
  | .manifestStreamWrite _ offset _ => wordField offset
  | .imageStreamWrite _ offset _ => wordField offset
  | .confirmSettings _ => true
  | .discardSlot _ => true
  | .runPreviousPackage _ => true
  | .prepareSwitchover _ => true
  | .switchover _ => true
  | .logRecordWrite => true
  | .logMirrorCopy => true
  | .operatingSecond => true
  | .recordStart => true
  | .recordCommit _ => true
  | .recLoggo _ => true
  | .dmbGo _ => true
  | .dmbAbort _ => true
  | .dmbDone _ => true
  | .dmbNcallDiscard _ offset _ _ => halfField offset
  | .canFrameReceive ctrl _ => ctrlNo ctrl
  | .canTxComplete ctrl => ctrlNo ctrl
  | .canBusError ctrl _ => ctrlNo ctrl
  | .canRecoveryDone ctrl => ctrlNo ctrl
  | .canTxsubmit ctrl _ => ctrlNo ctrl
  | .canTxcancel ctrl _ => ctrlNo ctrl
  | .canRxack ctrl => ctrlNo ctrl
  | .canRecover ctrl => ctrlNo ctrl
  | .canSleep ctrl => ctrlNo ctrl
  | .canWakeCommand ctrl => ctrlNo ctrl
  | .canWake ctrl _ => ctrlNo ctrl
  | .canLasterrRead ctrl _ => ctrlNo ctrl
  | .interruptEvent _ src => sourceNo src
  | .intcClaim _ _ => true
  | .intcComplete _ _ => true
  | .intcSwset _ _ => true
  | .intcStrayClear _ => true
  | .holdExpire _ src => sourceNo src
  | .wfi _ => true
  | .coreWake _ => true
  | .dmaGo ch => dmaNo ch
  | .dmaResume ch => dmaNo ch
  | .dmaStop ch => dmaNo ch
  | .dmaDisable => true
  | .dmaBeat ch _ => dmaNo ch
  | .dmaDescriptorDone ch => dmaNo ch
  | .dmaBusError ch _ => dmaNo ch
  | .dmaUnfreeze _ _ => true
  | .evfSwpulse _ _ => true
  | .eventDelivery producer => decide (producer < 64)
  | .evfLostClear _ => true
  | .clkWakesClear _ => true
  | .mpuSyncRead _ => true
  | .mpuRegionLock _ region => decide (region < 16)
  | .protectionViolation v => decide (v.master ≤ 4) && decide (v.kind ≤ 2) && decide (v.region ≤ 31)
  | .accessFault _ _ type ch => decide (type ≤ 2) && dmaNo ch
  | .misalignedAccess _ _ _ => true
  | .registerWrite _ _ _ size _ => size == 1 || size == 2 || size == 4
  | .adcSwgo _ => true
  | .adcInjectWrite _ => true
  | .conversionDone _ _ => true
  | .adcResultRead reg _ _ => decide (reg ≤ 16)
  | .converterCalibration offsets gains => decide (offsets.length = 24) && decide (gains.length = 24)
  | .referenceCheck _ => true
  | .fieldRefresh => true
  | .fieldWatchdogTrip => true
  | .dInputSample levels => decide (levels.length = 16)
  | .dInputTest failed => failed.all dNo
  | .pulseEdge n => dNo n
  | .overcurrentTrip n => dNo n
  | .tripRetry n => dNo n
  | .lplusSag _ => true
  | .lplusRecover _ => true
  | .complianceShortfall n => outNo n
  | .lockstepMismatch unit _ => byteField unit
  | .uncorrectableError _ _ => true
  | .correctedError _ => true
  | .managementWatchdog => true
  | .supplyClockFault unit => decide (unit ≤ 3)
  | .scrubStep _ _ => true
  | .runtimeComparatorTest unit _ => byteField unit
  | .eccDecoderTest unit _ => byteField unit
  | .automaticRestart => true
  | .debugHalt _ _ => true
  | .ebreak _ => true
  | .debugLockedAccess _ region => decide (region < 16)
  | .debugReset => true
  | .managementDebugOp => true
  | .i2cWrite _ => true
  | .i2cRead _ => true
  | .jtagAccess _ _ _ => true
  | .rstNRelease _ => true
  | .pgoodFall => true
  | .announceReceiptTimeout => true
  | .ncallTimeBudgetElapsed _ => true
  | .ppsOutFall => true
  | .ledFlashToggle _ => true
  | .cutoffConverterHold task => decide (task < 4)
  | .mpuRuleWriteEffective _ => true

end Sys2Proof
end

