-- ==== Sys2Proof/Tests/Slice0.lean ====
section
/-!
SUPPORT. Tests: an ill-formed command for each check of WellFormed, the worked examples of the manual, single steps, and for every
statement of the certificates a state that meets its hypotheses.
-/

set_option linter.unusedVariables false

open Sys2Proof Sys2Proof.Machine

namespace Sys2Proof.Tests

/-! ### Well-formedness: one ill-formed command for each check -/

theorem test_wf_byteField : Instr.wf (.beginStaging ⟨.port .p0, 1, 1, 1, 2⟩ 256) = false := by decide
theorem test_wf_halfField : Instr.wf (.clearCounters ⟨.port .p0, 1, 1, 1, 2⟩ 65536 0) = false := by decide
theorem test_wf_wordField : Instr.wf (.manifestStreamWrite ⟨.port .p0, 1, 1, 1, 2⟩ 4294967296 []) = false := by decide
theorem test_wf_pointNo : Instr.wf (.pointStageWrite .n0 131072 0) = false := by decide
theorem test_wf_chanNo : Instr.wf (.analysisInstant 128) = false := by decide
theorem test_wf_loopNo : Instr.wf (.loopUpdate 32) = false := by decide
theorem test_wf_outNo : Instr.wf (.shareToFull 4) = false := by decide
theorem test_wf_dNo : Instr.wf (.pulseEdge 16) = false := by decide
theorem test_wf_slotNo : Instr.wf (.slotForgetTimer 4096) = false := by decide
theorem test_wf_ctrlNo : Instr.wf (.canSleep 2) = false := by decide
theorem test_wf_ptpPort : Instr.wf (.pdelayReqReceive 4 0 0 0 0) = false := by decide
theorem test_wf_sourceNo : Instr.wf (.interruptEvent .n0 128) = false := by decide
theorem test_wf_dmaNo : Instr.wf (.dmaGo 16) = false := by decide
theorem test_wf_stream : Instr.wf (.sampleDeadline 64) = false := by decide
theorem test_wf_latch : Instr.wf (.timeGroupLatchRead 0x13) = false := by decide
theorem test_wf_levels : Instr.wf (.dInputSample []) = false := by decide
theorem test_wf_calibration : Instr.wf (.converterCalibration [] []) = false := by decide
theorem test_wf_pub : Instr.wf (.gooseRetransmit 1024) = false := by decide
theorem test_wf_region : Instr.wf (.mpuRegionLock .n0 16) = false := by decide
theorem test_wf_producer : Instr.wf (.eventDelivery 64) = false := by decide
theorem test_wf_result_register : Instr.wf (.adcResultRead 17 0) = false := by decide
theorem test_wf_clock_unit : Instr.wf (.supplyClockFault 4) = false := by decide
theorem test_wf_task : Instr.wf (.cutoffConverterHold 4) = false := by decide
theorem test_wf_digest : Instr.wf (.miojoCheck ⟨false, false, false, false, false, false, 0⟩ 0 0 []) = false := by decide
theorem test_wf_medium : Instr.wf (.ringLinkChange .p0 true 5) = false := by decide
theorem test_wf_violation : Instr.wf (.protectionViolation ⟨5, 0, 0, false, 0, false⟩) = false := by decide
theorem test_wf_access_size : Instr.wf (.registerWrite .n0 0 0 3 0) = false := by decide
theorem test_wf_block : Instr.wf (.bootData ⟨0, 0, 1⟩ 0 0 0 (List.replicate 1481 0)) = false := by decide +kernel

/-! ### The manual's worked examples -/

/-- The word of 00_scope: 1.0 reached on one side in TEST. -/
theorem test_word_on_the_wire : TWord.bytes ⟨0x09, 0x3F800000⟩ = [0x09, 0x3F, 0x80, 0x00, 0x00] := by decide

/-- The GT block of SX1 (R115). -/
theorem test_gt_descriptor :
    let w : W128 := 0x1303050041400800A3FFFF0000000000
    dOpcode w = 0x13 ∧ dType w = tyF32 ∧ dRstart w = false ∧ dOut w = 5121 ∧ dA w = 5120 ∧ dB w = 0x20028 ∧ dC w = 0x3FFFF := by decide

/-- 392.0 kV on P5120 is above K40 = 320.0 kV: 0x00_0000_0001 in P5121 (02_tagged_word). -/
theorem test_gt_block :
    (evalBlock 0x13 tyF32 0 0 4 false (some ⟨0, 0x43C40000⟩) (some ⟨0, 0x43A00000⟩) none none none 0).1 = ⟨0, 1⟩ := by decide

/-- Its third missed cutoff: INVALID and STL pass to P5121. -/
theorem test_gt_stale :
    (evalBlock 0x13 tyF32 0 0 4 false (some ⟨0x84, 0x43C40000⟩) (some ⟨0, 0x43A00000⟩) none none none 0).1 = ⟨0x84, 1⟩ := by decide

/-- TON in SX1 with PT 2,500 µs, its last scan: ET 2,000 becomes 2,500 and Q rises (table "TON in SX1, PT 2,500 µs"). -/
theorem test_ton_last_scan : timerScan 0x09 true true false 2000 1000 2500 = (2500, true) := by decide

/-- Its scan before. -/
theorem test_ton_scan : timerScan 0x09 true true false 1000 1000 2500 = (2000, false) := by decide

/-- The short point block of 12_recording: order 1, m = 1, VLEN 6, TLEN 2. -/
theorem test_curd_values :
    packBits 6 (curdValues 1 [1000, 1003, 1001, 1001]) = [0x00, 0x00, 0x03, 0xE8, 0x08, 0x9C] := by decide +kernel

theorem test_curd_order : bestOrder [1000, 1003, 1001, 1001] = 1 := by decide +kernel

/-- The stamp across the wrap (09_time). -/
theorem test_stamp_across_the_wrap : ((0xFFE365C8 - 0x00000200 : W32)).toInt = -1875000 := by decide

/-- Check values of CRC-32C and CRC-64/XZ over "123456789", and SHA-256 of "abc" (FIPS 180-4). -/
theorem test_crc32c : crc32c [0x31, 0x32, 0x33, 0x34, 0x35, 0x36, 0x37, 0x38, 0x39] = 0xE3069283 := by decide +kernel

theorem test_crc64 : crc64 [0x31, 0x32, 0x33, 0x34, 0x35, 0x36, 0x37, 0x38, 0x39] = 0x995DC9BBDF1939FA := by decide +kernel

theorem test_sha256 : beNat (sha256 [0x61, 0x62, 0x63]) =
    0xBA7816BF8F01CFEA414140DE5DAE2223B00361A396177A9CB410FF61F20015AD := by decide +kernel

/-- No row of the table has bits: no word spells a command. -/
theorem test_no_word_spells_a_command (n w : Nat) : decodeTableWord n w = none := rfl

/-! ### Single steps -/

/-- The queue goes first in, first out, and the command in front runs alone. -/
theorem test_step_front : ∃ t, step (State.reset.modPending (fun _ => [.timeAlarmArm, .timeAlarmDisarm])) = .next t ∧
    t.pending = [.timeAlarmDisarm] ∧ t.time.almArm = true := ⟨_, rfl, by decide, by decide⟩

/-- An empty queue is one AON tick of 40 ns. -/
theorem test_idle_tick : ∃ t, step State.reset = .next t ∧ t.time.raw = State.reset.time.raw + 640 := ⟨_, rfl, by decide⟩

/-- A supply or clock fault takes a module in STOP to SILENT (R443). -/
theorem test_supply_clock_fault : ∃ t, exec (.supplyClockFault 2) (State.reset.modCtl (fun c => { c with mode := .stop })) = .next t ∧
    t.ctl.mode = .silent := ⟨_, rfl, by decide⟩

/-! ### Small states for the witnesses -/

/-- The reset state in a mode, long after power-up. -/
def stateIn (m : Mode) : State :=
  (State.reset.modCtl (fun c => { c with mode := m })).modTime (fun t => { t with raw := 2000000000000 })

/-- A module that runs a package. -/
def packaged (m : Mode) (f : Package → Package) : State :=
  (stateIn m).modBoot (fun b => { b with running := some ⟨default, [], f default, []⟩ })

/-- A side of a pair. -/
def pairSide (m : Mode) : State := packaged m (fun p => { p with paired := true })

/-- A module whose core pairs run. -/
def native (m : Mode) : State :=
  ((stateIn m).modN0 (fun n => { n with released := true })).modN1 (fun n => { n with released := true })

/-- A client with a session in a role. -/
def client (r : Nat) : Client := ⟨.port .p0, 1, 1, 1, r⟩

/-- A session. -/
def session (r : Nat) : Session := ⟨1, r, 0, [], .port .p0, true, 0, 0, 0, 0, 0, none, false, [], none⟩

/-- A module with that client's session. -/
def served (m : Mode) (r : Nat) : State := (stateIn m).modDict (fun d => { d with sessions := [session r] })

/-- A header of a message in that session. -/
def msgHdr : MsgHdr := ⟨.port .p0, 1, 1, 1, []⟩

/-- A module in STOP that may start. -/
def startable (f : Package → Package) : State :=
  (((packaged .stop f).modCtl (fun c => { c with life := .commissioned })).modBoot (fun b => { b with settled := true })).modField
    (fun x => { x with above19 := some 0 })

/-- An owning side whose partner runs. -/
def running (m : Mode) : State := (pairSide m).modPair (fun p => { p with
  ownOut := true, link := true, lane0 := true, pMode := 7 })

/-- A channel fed by a sampled-value stream. -/
def svChannel : ChannelCfg := { (default : ChannelCfg) with source := 1, appid := 0x4000, limitUs := 1000 }

/-- A frame of that stream. -/
def svFrame : SvFrame := ⟨0, 0x88BA, 0, 0x4000, false, [⟨[], 0, 0, 2, none, [(0, 0)]⟩], [], true⟩

/-- A module that samples that stream. -/
def sampling : State := packaged .alone (fun p => { p with channels := [(0, svChannel)] })

/-- A module with one loop. -/
def looping : State := packaged .alone (fun p => { p with loops := [(0, { (default : LoopCfg) with deadlineUs := 100 })] })

/-- A module with the first D channel in a function. -/
def fielded (d : DCfg) (l : LoopIoCfg) : State := packaged .alone (fun p => { p with fieldA := ⟨[d], [l], [], none⟩ })

/-- A header that says the partner owns. -/
def ownHdr : MjHdr := { (default : MjHdr) with own := true, alive := true }

/-- A side in CATCHUP in a phase. -/
def joining (n : Nat) : State := (pairSide .catchup).modPair (fun p => { p with link := true, lane0 := true, pOwn := true, phase := n })

/-- A frame on the ring. -/
def ringFrame : Frame := { (default : Frame) with src := 7, dst := 9, fcsOk := true, hsr := some 1 }

/-- A module with one subscription. -/
def subscribed : State := packaged .alone (fun p => { p with subs := [(0, default)] })

/-- A served module whose point 0 may be forced. -/
def forcing (m : Mode) (r : Nat) : State :=
  (served m r).modImg (fun i => { i with descs := [(0, { (default : PointDesc) with source := srcNative, forceable := true })] })

/-- The force on point 0. -/
def force0 : Force := ⟨0, ⟨0, 0⟩, ⟨0, 0⟩⟩

/-- A module with a slot that receives. -/
def receiving (r : Nat) : State := (served .stop r).modBoot (fun b => { b with lastKind := 1, sLoader := { b.sLoader with state := 1 } })

/-- A served module whose package gives the DMA engine to N0, which runs; channel 0 in a state. -/
def dmaIn (f : DmaCh → DmaCh) : State :=
  (((packaged .alone (fun p => { p with dmaOwner := 1 })).modN0 (fun n => { n with released := true })).modDma (fun d => { d with
    enable := true, chans := lupd d.chans 0 f })).modMpu (fun m => { m with fwlSet := true })

/-- A record that is open. -/
def openRec : DRec := { (default : DRec) with number := 7, stop := 0 }

/-- A module that runs a package with both core pairs released and the firewall set, so that the checks let an owner pass. -/
def reaching (f : Package → Package) : State :=
  (((packaged .alone f).modN0 (fun n => { n with released := true })).modN1 (fun n => { n with released := true })).modMpu
    (fun m => { m with fwlSet := true })

/-! ### The hypotheses of the statements are met -/

/-- What `Obligations.StepRunsFrontCommand` assumes is met. -/
theorem wit_StepRunsFrontCommand :
    ∃ (s : State) (c : Instr) (rest : List Instr), s.pending = c :: rest :=
  ⟨(stateIn .stop).modPending (fun _ => [.tick]), .tick, [], by decide⟩

/-- What `Obligations.IdleStepIsOneAonTick` assumes is met. -/
theorem wit_IdleStepIsOneAonTick :
    ∃ (s : State), s.pending = [] :=
  ⟨stateIn .stop, by decide⟩

/-- What `Obligations.QueueIsOnlyConsumed` assumes is met. -/
theorem wit_QueueIsOnlyConsumed :
    ∃ (s : State) (t : State), step s = .next t :=
  ⟨stateIn .stop, _, rfl⟩

/-- What `Obligations.MemoriesStayCanonical` assumes is met. -/
theorem wit_MemoriesStayCanonical :
    ∃ (s : State) (t : State), s.memsOk = true ∧ step s = .next t :=
  ⟨stateIn .stop, _, by decide, rfl⟩

/-- What `Obligations.DecommissionedIsFinal` assumes is met. -/
theorem wit_DecommissionedIsFinal :
    ∃ (s : State) (t : State), s.ctl.life = .decommissioned ∧ s.ctl.lifePending = none ∧ step s = .next t :=
  ⟨(stateIn .stop).modCtl (fun c => { c with life := .decommissioned }), _, by decide, by decide, rfl⟩

/-- What `Obligations.SilentLeftOnlyByReset` assumes is met. -/
theorem wit_SilentLeftOnlyByReset :
    ∃ (s : State) (t : State), s.ctl.mode = .silent ∧ step s = .next t :=
  ⟨stateIn .silent, _, by decide, rfl⟩

/-- What `Obligations.SupplyResetPinsAndWipe` assumes is met. -/
theorem wit_SupplyResetPinsAndWipe :
    (∃ (x : Straps) (s : State), s.pins.pgood = false ∧ (s.pins.vinA = true ∨ s.pins.vinB = true)) ∧
    (∃ (s : State), s.pins.vinA = false ∧ s.pins.vinB = false ∧ s.pins.pgood = true ∧ s.pins.warnAt = none) ∧
    (∃ (s : State) (w : W64), s.pins.vinA = false ∧ s.pins.vinB = false ∧ s.pins.pgood = true ∧ s.pins.warnAt = some w ∧ 16000000 ≤
      (s.time.raw - w).toNat) ∧
    (∃ (us : Nat) (s : State), 10 ≤ us ∧ s.pins.pgood = true) ∧
    (∃ (us : Nat) (s : State), 10 ≤ us ∧ s.pins.pgood = false) ∧
    (∃ (us : Nat) (s : State), 1 ≤ us ∧ us < 10 ∧ s.pins.pgood = true) ∧
    (∃ (x : Straps) (s : State), s.pins.rstHigh = false ∧ s.pins.pgood = true) ∧
    (∃ (s : State), s.pins.pgood = true ∧ s.ctl.lifePending = none ∧ (s.ctl.life = .provisioned ∨ s.ctl.life = .commissioned)) ∧
    (∃ (s : State), (s.pins.pgood = false ∨ s.ctl.lifePending ≠ none ∨ s.ctl.life = .blank ∨ s.ctl.life = .decommissioned)) :=
  ⟨⟨default, (stateIn .cold).modPins (fun p => { p with pgood := false, vinA := true }), by decide, by decide⟩,
   ⟨(stateIn .cold).modPins (fun p => { p with pgood := true, vinA := false, vinB := false, warnAt := none }), by decide, by decide, by
     decide, by decide⟩,
   ⟨(stateIn .cold).modPins (fun p => { p with pgood := true, vinA := false, vinB := false, warnAt := some 1999984000000 }), 1999984000000,
     by decide, by decide, by decide, by decide, by decide⟩,
   ⟨10, stateIn .stop, by decide, by decide⟩,
   ⟨10, (stateIn .stop).modPins (fun p => { p with pgood := false }), by decide, by decide⟩,
   ⟨9, stateIn .stop, by decide, by decide, by decide⟩,
   ⟨default, (stateIn .cold).modPins (fun p => { p with rstHigh := false }), by decide, by decide⟩,
   ⟨(stateIn .stop).modCtl (fun c => { c with life := .provisioned }), by decide, by decide, by decide⟩,
   ⟨stateIn .stop, Or.inr (Or.inr (Or.inl (by decide)))⟩⟩

/-- What `Obligations.BootChainSteps` assumes is met. -/
theorem wit_BootChainSteps :
    (∃ (s : State), s.ctl.mode = .cold ∧ s.pins.pgood = true ∧ s.pins.rstHigh = true ∧ s.boot.loaderRun = none ∧ s.boot.solicitAt = none ∧
      s.boot.loader = none ∧ (portOf s .h).broken = false) ∧
    (∃ (s : State) (m : Manifest), s.ctl.mode = .cold ∧ s.pins.pgood = true ∧ s.pins.rstHigh = true ∧ s.boot.loaderRun = none ∧
      s.boot.solicitAt = none ∧ s.boot.loader = some m) ∧
    (∃ (s : State), s.ctl.mode = .cold ∧ s.boot.loaderRun ≠ none ∧ s.boot.sLoader.state = 2 ∧ s.pins.strapOpen = false) ∧
    (∃ (s : State) (w : W64), (s.ctl.mode = .bootwait ∨ s.ctl.mode = .cold) ∧ s.boot.xfer = none ∧ s.boot.solicitAt = some w ∧ 16000000000 ≤
      (s.time.raw - w).toNat ∧ (portOf s .h).broken = false) ∧
    (∃ (s : State), s.ctl.mode = .selftest) ∧
    (∃ (u : Nat) (s : State), s.ctl.mode = .selftest) :=
  ⟨⟨stateIn .cold, by decide, by decide, by decide, by decide, by decide, by decide, by decide⟩,
   ⟨(stateIn .cold).modBoot (fun b => { b with loader := some default }), default, by decide, by decide, by decide, by decide, by decide,
     by decide⟩,
   ⟨(stateIn .cold).modBoot (fun b => { b with loaderRun := some default, sLoader := { b.sLoader with state := 2 } }), by decide, by
     decide, by decide, by decide⟩,
   ⟨(stateIn .bootwait).modBoot (fun b => { b with solicitAt := some 1984000000000 }), 1984000000000, Or.inl (by decide), by decide, by
     decide, by decide, by decide⟩,
   ⟨stateIn .selftest, by decide⟩,
   ⟨1, stateIn .selftest, by decide⟩⟩

/-- What `Obligations.BootTransferSteps` assumes is met. -/
theorem wit_BootTransferSteps :
    (∃ (b : BootHdr) (k : Nat) (ml : Nat) (il : Nat) (s : State), wantedKind s = some k ∧ fromHost s b = true ∧ (s.boot.xfer.map
      (·.started)).getD false = false ∧ ml < 2 ^ 32 ∧ il < 2 ^ 32) ∧
    (∃ (b : BootHdr) (n : Nat) (data : Bytes) (x : Xfer) (s : State), s.boot.xfer = some x ∧ fromHost s b = true ∧ x.xid = b.xid ∧
      wantedKind s = some x.kind ∧ x.manOk = false ∧ n < 64 ∧ n < blocksIn x.manLen ∧ data.length = min 1024 (x.manLen - 1024 * n) ∧ 0 <
      data.length ∧ Xfer.whole { x with blocks := mset x.blocks n data } 0 = false) ∧
    (∃ (x : Xfer) (k : Nat) (w : W64) (s : State), s.ctl.mode ≠ .silent ∧ (portOf s .h).broken = false ∧ s.boot.xfer = some x ∧ x.lasts =
      [(k, w)] ∧ 16000000 ≤ (s.time.raw - w).toNat) ∧
    (∃ (x : Xfer) (s : State), s.boot.xfer = some x ∧ 32000000000 ≤ (s.time.raw - x.lastAt).toNat) :=
  ⟨⟨default, 2, 64, 1024, stateIn .bootwait, by decide, by decide, by decide, by decide, by decide⟩,
   ⟨default, 1, List.replicate 1024 0, ⟨0, 0, 2, 2048, [], false, 0, [], [], [], false, 0⟩, (stateIn .bootwait).modBoot (fun b =>
     { b with xfer := some ⟨0, 0, 2, 2048, [], false, 0, [], [], [], false, 0⟩ }), by decide, by decide, by decide, by decide, by
     decide, by decide, by decide, List.length_replicate, by rw [List.length_replicate]; decide, by decide⟩,
   ⟨⟨0, 0, 2, 2048, [], false, 0, [], [], [(0, 1999984000000)], false, 0⟩, 0, 1999984000000, (stateIn .bootwait).modBoot (fun b =>
     { b with xfer := some ⟨0, 0, 2, 2048, [], false, 0, [], [], [(0, 1999984000000)], false, 0⟩ }), by decide, by decide, by decide, by
     decide, by decide⟩,
   ⟨⟨0, 0, 2, 2048, [], false, 0, [], [], [], false, 1968000000000⟩, (stateIn .bootwait).modBoot (fun b =>
     { b with xfer := some ⟨0, 0, 2, 2048, [], false, 0, [], [], [], false, 1968000000000⟩ }), by decide, by decide⟩⟩

/-- What `Obligations.ProvisionCertifyAttest` assumes is met. -/
theorem wit_ProvisionCertifyAttest :
    (∃ (b : BootHdr) (body : Bytes) (k : Nat) (s : State), s.ctl.life = .blank ∧ s.ctl.lifePending = none ∧ (s.ctl.mode = .bootwait ∨
      s.ctl.mode = .stop) ∧ (portOf s .h).broken = false ∧ fromHost s b = true ∧ (k = 1 ∨ k = 2) ∧ (body.getD 0 0).toNat = k ∧
      body.length = 68 + 32 * k) ∧
    (∃ (b : BootHdr) (body : Bytes) (s : State), (s.ctl.mode = .bootwait ∨ s.ctl.mode = .stop) ∧ (portOf s .h).broken = false ∧ fromHost s b
      = true ∧ 68 ≤ body.length ∧ (s.ctl.life ≠ .blank ∨ s.ctl.lifePending.isSome = true)) ∧
    (∃ (b : BootHdr) (body : Bytes) (s : State), (s.ctl.mode = .bootwait ∨ s.ctl.mode = .stop) ∧ (portOf s .h).broken = false ∧ fromHost s b
      = true ∧ 68 ≤ body.length ∧ s.ctl.life = .blank ∧ s.ctl.lifePending = none ∧ body.length ≠ 68 + 32 * (body.getD 0 0).toNat) ∧
    (∃ (b : BootHdr) (o : Nat) (off : Nat) (nonce : Bytes) (cert : Bytes) (s : State), s.ctl.mode ≠ .cold ∧ s.ctl.mode ≠ .silent ∧ (portOf s
      .h).broken = false ∧ fromHost s b = true ∧ nonce.length = 32 ∧ ((o = 1 ∧ cert = s.ident.moduleCert) ∨ (o = 2 ∧ cert =
      s.ident.issuingCert))) ∧
    (∃ (b : BootHdr) (nonce : Bytes) (s : State), (s.ctl.mode = .bootwait ∨ s.ctl.mode = .stop) ∧ fromHost s b = true ∧ nonce.length = 32 ∧
      s.boot.identityKey.isSome = true ∧ s.boot.attState ≠ 1) ∧
    (∃ (k : KeyPair) (s : State), s.ctl.mode ≠ .silent ∧ s.boot.attState = 1 ∧ s.boot.identityKey = some k ∧ (portOf s .h).broken = false) :=
  ⟨⟨default, 1 :: List.replicate 99 0, 1, stateIn .stop, by decide, by decide, Or.inr (by decide), by decide, by decide, Or.inl rfl, by
     decide, congrArg (· + 1) List.length_replicate⟩,
   ⟨default, List.replicate 68 0, (stateIn .stop).modCtl (fun c => { c with life := .provisioned }), Or.inr (by decide), by decide, by
     decide, by rw [List.length_replicate], Or.inl (by decide)⟩,
   ⟨default, 1 :: List.replicate 67 0, stateIn .stop, Or.inr (by decide), by decide, by decide, by rw [List.length_cons,
     List.length_replicate], by decide, by decide, by rw [List.length_cons, List.length_replicate]; decide⟩,
   ⟨default, 1, 1025, List.replicate 32 0, _, stateIn .bootwait, by decide, by decide, by decide, by decide, by decide, Or.inl ⟨rfl, rfl⟩⟩,
   ⟨default, List.replicate 32 0, stateIn .stop, Or.inr (by decide), by decide, by decide, by decide, by decide⟩,
   ⟨⟨[], []⟩, (stateIn .stop).modBoot (fun b => { b with attState := 1 }), by decide, by decide, by decide, by decide⟩⟩

/-- What `Obligations.SettleAndStart` assumes is met. -/
theorem wit_SettleAndStart :
    (∃ (s : State), s.ctl.mode = .stop ∧ s.boot.settled = false) ∧
    (∃ (s : State), mayStart s = true ∧ isPaired s = false ∧ (s.pair.pOwn && !s.pair.dead) = false) ∧
    (∃ (s : State), s.ctl.mode = .stop ∧ startHold s ≠ 0 ∧ s.ctl.startsAt = none ∧ s.pair.ownReq = false ∧ s.pair.ownOut = false) ∧
    (∃ (w : W64) (s : State), mayStart s = true ∧ isPaired s = true ∧ s.pins.sideB = true ∧ partnerOwning s = false ∧ (s.pair.pOwn &&
      !s.pair.dead) = false ∧ s.pair.startWaitFrom = some w ∧ 16000000 * setting s 0x1200 0x10 5000 ≤ (s.time.raw - w).toNat) ∧
    (∃ (w : W64) (s : State), mayStart s = true ∧ s.pair.ownOut = true ∧ s.pair.ownHighSince = some w ∧ 1600000 ≤ (s.time.raw - w).toNat) ∧
    (∃ (w : W64) (s : State), s.ctl.mode = .stop ∧ s.ctl.commandedStop = false ∧ s.ctl.stoppedAt = some w ∧ 64000000 ≤ (s.time.raw -
      w).toNat) ∧
    (∃ (w : W64) (s : State), s.ctl.mode = .stop ∧ s.ctl.startsAt = some w ∧ (s.time.raw - w).toNat < 2 ^ 63 ∧ stampTime s w ≤ tickInstant s
      ∧ startHold s = 0) :=
  ⟨⟨stateIn .stop, by decide, by decide⟩,
   ⟨startable id, by decide, by decide, by decide⟩,
   ⟨stateIn .stop, by decide, by decide, by decide, by decide, by decide⟩,
   ⟨1920000000000, ((startable (fun p => { p with paired := true })).modPins (fun p => { p with sideB := true })).modPair (fun p =>
     { p with startWaitFrom := some 1920000000000 }), by decide, by decide, by decide, by decide, by decide, by decide, by decide⟩,
   ⟨1999998400000, (startable id).modPair (fun p => { p with ownOut := true, ownHighSince := some 1999998400000 }), by decide, by decide,
     by decide, by decide⟩,
   ⟨1936000000000, (stateIn .stop).modCtl (fun c => { c with stoppedAt := some 1936000000000 }), by decide, by decide, by decide, by
     decide⟩,
   ⟨2000000000000, (startable id).modCtl (fun c => { c with startsAt := some 2000000000000 }), by decide, by decide, by decide, by decide,
     by decide⟩⟩

/-- What `Obligations.TicksAndCutoff` assumes is met. -/
theorem wit_TicksAndCutoff :
    (∃ (m : Nat) (s : State), s.ctl.mode.executes = true ∧ tickReached s = some m) ∧
    (∃ (s : State), tickReached s = none) ∧
    (∃ (m : Nat) (s : State), s.ctl.mode = .catchup ∧ s.pair.phase = 4 ∧ tickReached s = some m) :=
  ⟨⟨2000000000000, stateIn .alone, by decide, by decide⟩,
   ⟨(stateIn .alone).modCyc (fun c => { c with lastTick := some 2000000000000 }), by decide⟩,
   ⟨2000000000000, (stateIn .catchup).modPair (fun p => { p with phase := 4 }), by decide, by decide, by decide⟩⟩

/-- What `Obligations.ExecutionBeginsAndEnds` assumes is met. -/
theorem wit_ExecutionBeginsAndEnds :
    (∃ (s : State), s.ctl.mode ≠ .silent ∧ s.cyc.phase = .agreeing ∧ s.cyc.cutTime.toNat + 320000 ≤ timeNow s ∧ agreed s = true) ∧
    (∃ (s : State), s.ctl.mode ≠ .silent ∧ s.ctl.mode ≠ .catchup ∧ s.cyc.phase = .executing ∧ s.cyc.todo = [] ∧ s.cyc.calls = []) :=
  ⟨⟨(stateIn .alone).modCyc (fun c => { c with phase := .agreeing, cutTime := 1999999680000 }), by decide, by decide, by decide, by decide⟩,
   ⟨(stateIn .alone).modCyc (fun c => { c with phase := .executing }), by decide, by decide, by decide, by decide, by decide⟩⟩

/-- What `Obligations.DigestsDecideTheRelease` assumes is met. -/
theorem wit_DigestsDecideTheRelease :
    (∃ (h : MjHdr) (tick : W64) (d : W64) (e : W64) (s : State), (hear s h).2 = true) ∧
    (∃ (s : State), s.ctl.mode.run = true ∧ s.cyc.phase = .output ∧ 400000 ≤ (s.time.raw - s.cyc.endRaw).toNat) ∧
    (∃ (s : State), s.ctl.mode.run = true ∧ s.pair.ownOut = true ∧ s.cyc.phase = .agreeing ∧ s.cyc.cutTime.toNat + 800000 ≤ timeNow s ∧
      agreed s = false) :=
  ⟨⟨default, 0, 0, 0, pairSide .stop, by decide⟩,
   ⟨(stateIn .alone).modCyc (fun c => { c with phase := .output, endRaw := 1999999600000 }), by decide, by decide, by decide⟩,
   ⟨(running .lead).modCyc (fun c => { c with phase := .agreeing, cutTime := 1999999200000 }), by decide, by decide, by decide, by decide,
     by decide⟩⟩

/-- What `Obligations.NativeCalls` assumes is met. -/
theorem wit_NativeCalls :
    (∃ (c : Cp) (k : CallRec) (rest : List CallRec) (s : State), coreReady s c = true ∧ (cpOf s c).call = none ∧ (cpOf s c).posted = k ::
      rest) ∧
    (∃ (c : Cp) (v : W32) (n : Nat) (k : CallRec) (s : State), mayAccess s c.master 0x400A0044 kWrite = true ∧ (cpOf s c).call = some k ∧ n
      ≤ k.ibudget) ∧
    (∃ (c : Cp) (n : Nat) (k : CallRec) (s : State), s.ctl.mode ≠ .silent ∧ (cpOf s c).call = some k ∧ k.ibudget ≤ n) ∧
    (∃ (c : Cp) (k : CallRec) (s : State), s.ctl.mode ≠ .silent ∧ (cpOf s c).call = some k) ∧
    (∃ (c : Cp) (v : W32) (s : State), mayAccess s c.master 0x400A0004 kWrite = true) :=
  ⟨⟨.n0, default, [], (native .alone).modN0 (fun n => { n with posted := [default] }), by decide, by decide, by decide⟩,
   ⟨.n0, 0, 0, default, (reaching id).modN0 (fun n => { n with call := some default }), by decide, by decide, by decide⟩,
   ⟨.n1, 7, default, (native .alone).modN1 (fun n => { n with call := some default }), by decide, by decide, by decide⟩,
   ⟨.n0, default, (native .alone).modN0 (fun n => { n with call := some default }), by decide, by decide⟩,
   ⟨.n1, 0x80000000, reaching id, by decide⟩⟩

/-- What `Obligations.NativeWritesOfPoints` assumes is met. -/
theorem wit_NativeWritesOfPoints :
    (∃ (c : Cp) (p : Nat) (v : W32) (s : State), mayAccess s c.master (0x10000000 + 8 * p) kWrite = true) ∧
    (∃ (c : Cp) (p : Nat) (v : W32) (s : State), mayAccess s c.master (0x10000004 + 8 * p) kWrite = true ∧ writerOk s c p = true) ∧
    (∃ (c : Cp) (p : Nat) (v : W32) (s : State), mayAccess s c.master (0x10000004 + 8 * p) kWrite = true ∧ writerOk s c p = false) ∧
    (∃ (c : Cp) (k : Nat) (v : W32) (s : State), coreRuns s c = true) :=
  ⟨⟨.n0, 0, 7, reaching id, by decide⟩,
   ⟨.n0, 0, 7, ((reaching (fun p => { p with writers := [(0, 0)], points := [] })).modImg (fun i =>
     { i with descs := [(0, { (default : PointDesc) with source := srcNative })] })).modN0 (fun n => { n with call := some default }),
     by decide, by decide⟩,
   ⟨.n0, 0, 7, reaching id, by decide, by decide⟩,
   ⟨.n1, 0, 7, native .alone, by decide⟩⟩

/-- What `Obligations.SampledValueFrames` assumes is met. -/
theorem wit_SampledValueFrames :
    (∃ (f : SvFrame) (r : W64) (k : Nat) (s : State), (streamsOf s).findIdx? (fun key => key.1 == f.dst && key.2.2.1 == f.appid) = some k ∧
      s.ctl.mode ≠ .cold ∧ svFits s k f = true ∧ f.sim = false ∧ simulating s k = false ∧ lateAsdus s k f (stampTime s (stampAt s r)) <
      f.asdus.length) ∧
    (∃ (f : SvFrame) (r : W64) (k : Nat) (s : State), (streamsOf s).findIdx? (fun key => key.1 == f.dst && key.2.2.1 == f.appid) = some k ∧
      s.ctl.mode ≠ .cold ∧ svFits s k f = false) ∧
    (∃ (k : Nat) (i : Nat) (s : State), nextSample s k = some i ∧ enginesLive s = true ∧ i + streamLim s k ≤ timeNow s ∧ (s.time.skips.any
      (fun x => decide (x.1 < i ∧ i ≤ x.2)) = false)) :=
  ⟨⟨svFrame, 2000000000000, 0, sampling, by decide, by decide, by decide, by decide, by decide, by decide⟩,
   ⟨{ svFrame with wellFormed := false }, 2000000000000, 0, sampling, by decide, by decide, by decide⟩,
   ⟨0, 1999984000000, sampling.modStreams (fun _ => [(0, { StreamSt.reset with lastT := some 1999980666667 })]), by decide, by decide, by
     decide, by decide⟩⟩

/-- What `Obligations.ChannelAnalysis` assumes is met. -/
theorem wit_ChannelAnalysis :
    (∃ (s : State), clocksRun s = true ∧ s.ctl.mode ≠ .cold) ∧
    (∃ (n : Nat) (a : Nat) (c : ChannelCfg) (y : F64) (g : Byte) (s : State), chCfg s n = some c ∧ enginesLive s = true ∧ nextAnalysis s n c
      = some a ∧ interp ((chSt s n).grid.map (fun x => (x.1, x.2.1, x.2.2.tag))) a = some (y, g)) ∧
    (∃ (n : Nat) (a : Nat) (c : ChannelCfg) (s : State), chCfg s n = some c ∧ enginesRun s = true ∧ (chSt s n).belowSince = some a) :=
  ⟨⟨stateIn .alone, by decide, by decide⟩,
   ⟨0, 5000000, svChannel, _, _, sampling.modChans (fun _ => [(0,
     { ChSt.reset with next := 5000000, grid := [(0, 0, ⟨0, 0⟩), (3333333, 0, ⟨0, 0⟩), (6666666, 0, ⟨0, 0⟩), (10000000, 0, ⟨0, 0⟩)] })]),
     by decide, by decide, by decide, rfl⟩,
   ⟨0, 5, svChannel, sampling.modChans (fun _ => [(0, { ChSt.reset with belowSince := some 5 })]), by decide, by decide, by decide⟩⟩

/-- What `Obligations.LoopUpdates` assumes is met. -/
theorem wit_LoopUpdates :
    (∃ (n : Nat) (c : LoopCfg) (s : State), loopCfg s n = some c ∧ enginesLive s = true ∧ skipped s (gridFs c.fast) (nextUpdate s n c) =
      none ∧ gridAt (gridFs c.fast) (nextUpdate s n c) + 16000 * c.deadlineUs - 32000 ≤ timeNow s) ∧
    (∃ (n : Nat) (last : Nat) (c : LoopCfg) (s : State), loopCfg s n = some c ∧ enginesLive s = true ∧ skipped s (gridFs c.fast) (nextUpdate
      s n c) = some last) ∧
    (∃ (n : Nat) (c : LoopCfg) (s : State), loopCfg s n = some c ∧ enginesLive s = true ∧ skipped s (gridFs c.fast) (nextUpdate s n c) =
      none ∧ timeNow s < gridAt (gridFs c.fast) (nextUpdate s n c) + 16000 * c.deadlineUs - 32000) :=
  ⟨⟨0, { (default : LoopCfg) with deadlineUs := 100 }, looping.modLoops (fun _ => [(0, { LoopSt.reset with nextG := some 0 })]), by decide,
     by decide, by decide, by decide⟩,
   ⟨0, 599999, { (default : LoopCfg) with deadlineUs := 100 }, (looping.modLoops (fun _ => [(0,
     { LoopSt.reset with nextG := some 4800 })])).modTime (fun t => { t with skips := [(15000000000, 1999999999999)] }), by decide, by
     decide, by decide⟩,
   ⟨0, { (default : LoopCfg) with deadlineUs := 100 }, looping.modLoops (fun _ => [(0, { LoopSt.reset with nextG := some 600000 })]), by
     decide, by decide, by decide, by decide⟩⟩

/-- What `Obligations.LocalConverter` assumes is met. -/
theorem wit_LocalConverter :
    (∃ (c : Cp) (v : W32) (s : State), adcWriter s = some c ∧ mayAccess s c.master 0x40050004 kWrite = true) ∧
    (∃ (c : Cp) (v : W32) (s : State), adcWriter s = some c ∧ mayAccess s c.master 0x40050008 kWrite = true ∧ v.toNat % 32 < 24) ∧
    (∃ (code : W16) (r : W64) (h : HoldReq) (rest : List HoldReq) (s : State), s.ctl.mode ≠ .silent ∧ s.field.holds = h :: rest ∧ h.entry =
      none) ∧
    (∃ (code : W16) (r : W64) (e : Nat) (h : HoldReq) (rest : List HoldReq) (s : State), s.ctl.mode ≠ .silent ∧ s.field.holds = h :: rest ∧
      h.entry = some e ∧ h.input < 24) ∧
    (∃ (m : Master) (n : Nat) (held : W32) (s : State), mayAccess s m (0x40050040 + 4 * n) kRead = true ∧ n < 16 ∧ n < s.field.res.length) ∧
    (∃ (m : Master) (held : W32) (s : State), mayAccess s m 0x4005000C kRead = true) ∧
    (∃ (o : List Int) (g : List Int) (s : State), clocksRun s = true ∧ s.ctl.mode ≠ .cold ∧ s.cyc.phase = .slack ∧ (s.field.calAt = none ∨
      past s s.field.calAt (16000000000 * setting s 0x1900 1 60) = true)) ∧
    (∃ (o : List Int) (g : List Int) (w : W64) (s : State), s.field.calAt = some w ∧ (s.time.raw - w).toNat < 16000000000 * setting s 0x1900
      1 60) ∧
    (∃ (uv : Nat) (s : State), clocksRun s = true ∧ s.ctl.mode ≠ .cold ∧ s.cyc.phase = .slack ∧ (s.field.refAt = none ∨ past s s.field.refAt
      16000000000 = true)) ∧
    (∃ (uv : Nat) (w : W64) (s : State), s.field.refAt = some w ∧ (s.time.raw - w).toNat < 16000000000) ∧
    (∃ (k : Nat) (m : Nat) (s : State), s.ctl.mode ≠ .silent ∧ k < 4 ∧ cutoffNear s k = some m) :=
  ⟨⟨.n0, 0, reaching (fun p => { p with adcWriter := 1 }), by decide, by decide⟩,
   ⟨.n1, 23, reaching (fun p => { p with adcWriter := 2 }), by decide, by decide, by decide⟩,
   ⟨7, 2000000000000, ⟨none, 3, 0⟩, [], (stateIn .stop).modField (fun f => { f with holds := [⟨none, 3, 0⟩] }), by decide, by decide, by
     decide⟩,
   ⟨7, 2000000000000, 0, ⟨some 0, 23, 0⟩, [], (stateIn .stop).modField (fun f => { f with holds := [⟨some 0, 23, 0⟩] }), by decide, by
     decide, by decide, by decide⟩,
   ⟨.mgmt, 15, 0, stateIn .stop, by decide, by decide, by decide⟩,
   ⟨.mgmt, 0, stateIn .stop, by decide⟩,
   ⟨[], [], stateIn .stop, by decide, by decide, by decide, Or.inl (by decide)⟩,
   ⟨[], [], 1999999999999, (stateIn .stop).modField (fun f => { f with calAt := some 1999999999999 }), by decide, by decide⟩,
   ⟨0, stateIn .stop, by decide, by decide, by decide, Or.inl (by decide)⟩,
   ⟨0, 1999999999999, (stateIn .stop).modField (fun f => { f with refAt := some 1999999999999 }), by decide, by decide⟩,
   ⟨0, 2000000000000, (packaged .alone (fun p => { p with periods := [1] })).modTime (fun t => { t with raw := 1999999936000 }), by decide,
     by decide, by decide⟩⟩

/-- What `Obligations.DGroup` assumes is met. -/
theorem wit_DGroup :
    (∃ (n : Nat) (s : State), (dCfg s n).func = 3 ∧ n < s.field.ds.length) ∧
    (∃ (n : Nat) (s : State), (dCfg s n).func = 4 ∧ (dChan s n).on = true) ∧
    (∃ (n : Nat) (w : W64) (s : State), (dChan s n).tripped = true ∧ (dChan s n).command = true ∧ (dChan s n).trippedAt = some w ∧
      16000000000 ≤ (s.time.raw - w).toNat) ∧
    (∃ (w : W64) (s : State), s.field.ready = true ∧ s.field.refreshAt = some w ∧ 128000000 ≤ (s.time.raw - w).toNat) :=
  ⟨⟨0, fielded ⟨3, false, none, none, none⟩ default, by decide, by decide⟩,
   ⟨0, (fielded ⟨4, false, none, none, none⟩ default).modField (fun f => { f with ds := [{ DChan.reset with on := true }] }), by decide, by
     decide⟩,
   ⟨0, 1984000000000, (stateIn .stop).modField (fun f =>
     { f with ds := [{ DChan.reset with tripped := true, command := true, trippedAt := some 1984000000000 }] }), by decide, by decide,
     by decide, by decide⟩,
   ⟨1999872000000, (stateIn .stop).modField (fun f => { f with ready := true, refreshAt := some 1999872000000 }), by decide, by decide, by
     decide⟩⟩

/-- What `Obligations.FieldSupplyAndCurrents` assumes is met. -/
theorem wit_FieldSupplyAndCurrents :
    (∃ (mv : W16) (s : State), mv.toNat < 18000) ∧
    (∃ (mv : W16) (w : W64) (s : State), 19000 < mv.toNat ∧ s.field.above19 = some w ∧ 160000000 ≤ (s.time.raw - w).toNat) ∧
    (∃ (mv : W16) (s : State), 19000 < mv.toNat ∧ s.field.above19 = none) ∧
    (∃ (n : Nat) (s : State), (loopIo s n).paired = true ∧ loopOut (loopIo s n).func = true ∧ (lChan s n).shareSt = .share ∧ n <
      s.field.ls.length) ∧
    (∃ (n : Nat) (w : W64) (s : State), (lChan s n).shareSt = .full ∧ s.pair.pMode = 7 ∧ s.pair.pTwinAt = some w ∧ 16000000 ≤ (s.time.raw -
      w).toNat ∧ n < s.field.ls.length) ∧
    (∃ (n : Nat) (s : State), loopOut (loopIo s n).func = true ∧ (lChan s n).shortfall = false ∧ n < s.field.ls.length) :=
  ⟨⟨17999, stateIn .stop, by decide⟩,
   ⟨19001, 1999840000000, (stateIn .stop).modField (fun f => { f with above19 := some 1999840000000 }), by decide, by decide, by decide⟩,
   ⟨19001, (stateIn .stop).modField (fun f => { f with above19 := none }), by decide, by decide⟩,
   ⟨0, (fielded default ⟨2, true, none, none, none⟩).modField (fun f => { f with ls := [{ LChan.reset with shareSt := .share }] }), by
     decide, by decide, by decide, by decide⟩,
   ⟨0, 1999984000000, ((stateIn .stop).modField (fun f => { f with ls := [{ LChan.reset with shareSt := .full }] })).modPair (fun p =>
     { p with pMode := 7, pTwinAt := some 1999984000000 }), by decide, by decide, by decide, by decide, by decide⟩,
   ⟨0, fielded default ⟨2, false, none, none, none⟩, by decide, by decide, by decide⟩⟩

/-- What `Obligations.LanesLinkAndCopies` assumes is met. -/
theorem wit_LanesLinkAndCopies :
    (∃ (h : MjHdr) (s : State), miojoOn s = true ∧ s.ctl.mode ≠ .silent ∧ s.pair.rxSeqs.contains h.seq = false ∧
      (match s.pair.rxSeqs with | [] => true | o :: _ => newer h.seq o) = true) ∧
    (∃ (h : MjHdr) (s : State), s.pair.rxSeqs.contains h.seq = true) ∧
    (∃ (h : MjHdr) (s : State), s.pair.rxSeqs.contains h.seq = true) ∧
    (∃ (l : Bool) (s : State), miojoOn s = true ∧ 160000 ≤ (s.time.raw - (if l then s.pair.sent1 else s.pair.sent0)).toNat) ∧
    (∃ (l : Bool) (s : State), miojoOn s = true) ∧
    (∃ (s : State), s.pair.link = true ∧ within s s.pair.last0 800000 = false ∧ within s s.pair.last1 800000 = false) ∧
    (∃ (s : State), s.ctl.mode ≠ .silent ∧ s.pair.link = true ∧ (s.pair.delayAt = none ∨ past s s.pair.delayAt 16000000000 = true)) ∧
    (∃ (h : MjHdr) (x : W64) (v : W32) (s : State) (r : State), hear s h = (r, true)) ∧
    (∃ (h : MjHdr) (q : W64) (x : W64) (v : W32) (s : State) (r : State), hear s h = (r, true) ∧ r.pair.delayReq = some q) ∧
    (∃ (h : MjHdr) (x : W64) (v : W32) (s : State) (r : State), hear s h = (r, true) ∧ r.pair.delayReq = none) :=
  ⟨⟨{ (default : MjHdr) with seq := 1 }, (pairSide .stop).modPair (fun p => { p with rxSeqs := [0] }), by decide, by decide, by decide, by
     decide⟩,
   ⟨default, (pairSide .stop).modPair (fun p => { p with rxSeqs := [0] }), by decide⟩,
   ⟨default, (pairSide .stop).modPair (fun p => { p with rxSeqs := [0] }), by decide⟩,
   ⟨false, (running .lead).modPair (fun p => { p with sent0 := 1999999840000 }), by decide, by decide⟩,
   ⟨false, pairSide .stop, by decide⟩,
   ⟨running .lead, by decide, by decide, by decide⟩,
   ⟨running .lead, by decide, by decide, Or.inl (by decide)⟩,
   ⟨default, 0, 0, pairSide .stop, (hear (pairSide .stop) (default)).1, Prod.ext rfl (by decide)⟩,
   ⟨default, 7, 9, 0, (pairSide .stop).modPair (fun p => { p with delayReq := some 7 }), (hear ((pairSide .stop).modPair (fun p =>
     { p with delayReq := some 7 })) (default)).1, Prod.ext rfl (by decide), by decide⟩,
   ⟨default, 7, 0, pairSide .stop, (hear (pairSide .stop) (default)).1, Prod.ext rfl (by decide), by decide⟩⟩

/-- What `Obligations.HelloAndTicks` assumes is met. -/
theorem wit_HelloAndTicks :
    (∃ (h : MjHdr) (x : Hello) (s : State) (r : State), hear s h = (r, true)) ∧
    (∃ (h : MjHdr) (k : TickMsg) (s : State) (r : State), hear s h = (r, true) ∧ r.ctl.mode.run = true) ∧
    (∃ (h : MjHdr) (k : TickMsg) (s : State) (r : State), hear s h = (r, true) ∧ r.ctl.mode = .catchup ∧ r.pair.phase < 5) ∧
    (∃ (h : MjHdr) (n : Nat) (f : Frame) (s : State) (r : State), hear s h = (r, true) ∧ r.cyc.phase = .agreeing) ∧
    (∃ (h : MjHdr) (n : Nat) (f : GooseMsg) (s : State) (r : State), hear s h = (r, true) ∧ r.cyc.phase = .agreeing) ∧
    (∃ (h : MjHdr) (m : SampleMsg) (s : State) (r : State), hear s h = (r, true) ∧ enginesLive r = true ∧ (stSt r m.stream).pendT = none) ∧
    (∃ (h : MjHdr) (k : Nat) (f : SvFrame) (s : State) (r : State), hear s h = (r, true) ∧ enginesLive r = true ∧ (stSt r k).pendT = none ∧
      (stSt r k).held.find? (fun x => sameAsdus x.frame f) = none) ∧
    (∃ (h : MjHdr) (n : Nat) (x : SideItem) (s : State) (r : State), hear s h = (r, true) ∧ enginesLive r = true ∧ x.kind = 2 ∧ x.target =
      n) :=
  ⟨⟨default, default, pairSide .stop, (hear (pairSide .stop) (default)).1, Prod.ext rfl (by decide)⟩,
   ⟨default, default, running .lead, (hear (running .lead) (default)).1, Prod.ext rfl (by decide), by decide⟩,
   ⟨ownHdr, default, joining 4, (hear (joining 4) (ownHdr)).1, Prod.ext rfl (by decide), by decide, by decide⟩,
   ⟨default, 0, default, (running .lead).modCyc (fun c => { c with phase := .agreeing }), (hear ((running .lead).modCyc (fun c =>
     { c with phase := .agreeing })) (default)).1, Prod.ext rfl (by decide), by decide⟩,
   ⟨default, 0, default, (running .lead).modCyc (fun c => { c with phase := .agreeing }), (hear ((running .lead).modCyc (fun c =>
     { c with phase := .agreeing })) (default)).1, Prod.ext rfl (by decide), by decide⟩,
   ⟨default, default, running .lead, (hear (running .lead) (default)).1, Prod.ext rfl (by decide), by decide, by decide⟩,
   ⟨default, 0, default, running .lead, (hear (running .lead) (default)).1, Prod.ext rfl (by decide), by decide, by decide, by decide⟩,
   ⟨default, 0, { (default : SideItem) with kind := 2 }, running .lead, (hear (running .lead) (default)).1, Prod.ext rfl (by decide), by
     decide, by decide, by decide⟩⟩

/-- What `Obligations.SequencedWrites` assumes is met. -/
theorem wit_SequencedWrites :
    (∃ (h : MjHdr) (f : W32) (q : PairReq) (s : State) (r : State), hear s h = (r, true) ∧ owns r = true ∧ r.ctl.mode.run = true ∧ repeatOf
      r q = none) ∧
    (∃ (h : MjHdr) (f : W32) (q : PairReq) (x : Repeat) (s : State) (r : State), hear s h = (r, true) ∧ owns r = true ∧ r.ctl.mode.run =
      true ∧ repeatOf r q = some x) ∧
    (∃ (h : MjHdr) (w : WriteMsg) (s : State) (r : State), hear s h = (r, true) ∧ owns r = false ∧ r.ctl.mode.run = true ∧ r.pair.seqs.any
      (fun i => i.msg.wsn == w.wsn) = false ∧ r.pair.repeats.any (fun x => x.msg.wsn == w.wsn) = false ∧ w.wsn = r.pair.nextWsn ∧
      r.cyc.cutTick.toNat < w.target.toNat ∧ forwardedFor r w = none) ∧
    (∃ (h : MjHdr) (w : WriteMsg) (s : State) (r : State), hear s h = (r, true) ∧ owns r = false ∧ r.ctl.mode.run = true ∧ r.pair.seqs.any
      (fun i => i.msg.wsn == w.wsn) = true ∧ forwardedFor r w = none) ∧
    (∃ (h : MjHdr) (w : W32) (s : State) (r : State), hear s h = (r, true)) ∧
    (∃ (h : MjHdr) (f : W32) (c : W16) (s : State) (r : State), hear s h = (r, true)) ∧
    (∃ (s : State), s.ctl.mode ≠ .silent ∧ s.pair.link = false) ∧
    (∃ (m : WriteMsg) (w : W64) (s : State), s.ctl.mode ≠ .silent ∧ s.pair.link = true ∧ s.pair.dead = false ∧ s.pair.resend = [(m, w)] ∧
      s.pair.annResend = []) ∧
    (∃ (n : W32) (a : Announce) (w : W64) (s : State), s.ctl.mode ≠ .silent ∧ s.pair.link = true ∧ s.pair.dead = false ∧ s.pair.resend = []
      ∧ s.pair.annResend = [(n, a, w)] ∧ 320000 ≤ (s.time.raw - w).toNat) :=
  ⟨⟨default, 0, default, running .lead, (hear (running .lead) (default)).1, Prod.ext rfl (by decide), by decide, by decide, by decide⟩,
   ⟨default, 0, default, ⟨⟨0, 0, false, 0, .request default⟩, none, 2000000000000, []⟩, (running .lead).modPair (fun p =>
     { p with repeats := [⟨⟨0, 0, false, 0, .request default⟩, none, 2000000000000, []⟩] }), (hear ((running .lead).modPair (fun p =>
     { p with repeats := [⟨⟨0, 0, false, 0, .request default⟩, none, 2000000000000, []⟩] })) (default)).1, Prod.ext rfl (by decide), by
     decide, by decide, by decide⟩,
   ⟨default, ⟨1, 8, true, 0, .activate 0⟩, ((running .twin).modPair (fun p => { p with ownOut := false, nextWsn := 1 })).modCyc (fun c =>
     { c with cutTick := 7 }), (hear (((running .twin).modPair (fun p => { p with ownOut := false, nextWsn := 1 })).modCyc (fun c =>
     { c with cutTick := 7 })) (default)).1, Prod.ext rfl (by decide), by decide, by decide, by decide, by decide, by decide, by decide,
     by decide⟩,
   ⟨default, ⟨1, 8, true, 0, .activate 0⟩, (running .twin).modPair (fun p =>
     { p with ownOut := false, seqs := [{ (default : SeqItem) with msg := ⟨1, 8, true, 0, .activate 0⟩ }] }), (hear ((running
     .twin).modPair (fun p => { p with ownOut := false, seqs := [{ (default : SeqItem) with msg := ⟨1, 8, true, 0, .activate 0⟩ }] }))
     (default)).1, Prod.ext rfl (by decide), by decide, by decide, by decide, by decide⟩,
   ⟨default, 1, running .lead, (hear (running .lead) (default)).1, Prod.ext rfl (by decide)⟩,
   ⟨default, 0, 0x0302, running .twin, (hear (running .twin) (default)).1, Prod.ext rfl (by decide)⟩,
   ⟨stateIn .stop, by decide, by decide⟩,
   ⟨default, 1999996800000, (running .lead).modPair (fun p => { p with resend := [(default, 1999996800000)] }), by decide, by decide, by
     decide, by decide, by decide⟩,
   ⟨1, default, 1999996800000, (running .lead).modPair (fun p => { p with annResend := [(1, default, 1999996800000)] }), by decide, by
     decide, by decide, by decide, by decide, by decide⟩⟩

/-- What `Obligations.AnnouncementsOfThePartner` assumes is met. -/
theorem wit_AnnouncementsOfThePartner :
    (∃ (h : MjHdr) (k : W64) (s : State) (r : State), hear s h = (r, true) ∧ owns r = false ∧ r.ctl.mode.run = true) ∧
    (∃ (h : MjHdr) (a : Announce) (s : State) (r : State), hear s h = (r, true) ∧ owns r = false ∧ r.ctl.mode.run = true ∧
      r.cyc.cutTick.toNat < a.tick.toNat ∧ r.pair.annSeen.find? (fun x => x.2 == a) = none) ∧
    (∃ (h : MjHdr) (a : Announce) (x : W32 × Announce) (s : State) (r : State), hear s h = (r, true) ∧ owns r = false ∧ r.ctl.mode.run =
      true ∧ r.pair.annSeen.find? (fun x => x.2 == a) = some x) ∧
    (∃ (h : MjHdr) (k : W64) (o : Nat) (d : Bytes) (s : State) (r : State), hear s h = (r, true) ∧ r.ctl.mode.run = true ∧
      r.cyc.change.active = false) ∧
    (∃ (h : MjHdr) (x : Nat) (s : State) (r : State), hear s h = (r, true)) :=
  ⟨⟨default, 0, (running .twin).modPair (fun p => { p with ownOut := false }), (hear ((running .twin).modPair (fun p =>
     { p with ownOut := false })) (default)).1, Prod.ext rfl (by decide), by decide, by decide⟩,
   ⟨default, { (default : Announce) with tick := 8 }, ((running .twin).modPair (fun p => { p with ownOut := false })).modCyc (fun c =>
     { c with cutTick := 7 }), (hear (((running .twin).modPair (fun p => { p with ownOut := false })).modCyc (fun c =>
     { c with cutTick := 7 })) (default)).1, Prod.ext rfl (by decide), by decide, by decide, by decide, by decide⟩,
   ⟨default, default, (1, default), (running .twin).modPair (fun p => { p with ownOut := false, annSeen := [(1, default)] }), (hear
     ((running .twin).modPair (fun p => { p with ownOut := false, annSeen := [(1, default)] })) (default)).1, Prod.ext rfl (by decide),
     by decide, by decide, by decide⟩,
   ⟨default, 0, 0, [], running .lead, (hear (running .lead) (default)).1, Prod.ext rfl (by decide), by decide, by decide⟩,
   ⟨default, 1, running .lead, (hear (running .lead) (default)).1, Prod.ext rfl (by decide)⟩⟩

/-- What `Obligations.OwnAndAlive` assumes is met. -/
theorem wit_OwnAndAlive :
    (∃ (s : State), s.ctl.mode.aliveList = true ∧ within s s.pair.permitAt 32000000 = true ∧ s.ctl.stoppedAt = none) ∧
    (∃ (s : State), (s.ctl.mode.aliveList = false ∨ within s s.pair.permitAt 32000000 = false ∨ s.ctl.stoppedAt ≠ none)) ∧
    (∃ (w : W64) (s : State), s.ctl.mode ≠ .silent ∧ isPaired s = true ∧ s.pair.edgeAt = some w ∧ 48000000 ≤ (s.time.raw - w).toNat ∧
      ((within s s.pair.last0 800000 = false ∧ within s s.pair.last1 800000 = false) ∨ s.pair.pAlive = false) ∧ s.pair.dead = false) ∧
    (∃ (w : W64) (s : State), (s.ctl.mode = .stop ∨ s.ctl.mode.run = true) ∧ s.pair.ownReq = true ∧ s.pair.ownOut = false ∧ s.pair.ownIn =
      false ∧ s.pair.ownInLowSince = some w ∧ 32000000 ≤ (s.time.raw - w).toNat) ∧
    (∃ (w : W64) (s : State), s.ctl.mode ≠ .silent ∧ s.pair.wiringSince = some w ∧ 160000000 ≤ (s.time.raw - w).toNat ∧ wiresDiffer s ≠
      s.pair.wiring) :=
  ⟨⟨(stateIn .alone).modPair (fun p => { p with permitAt := some 1999968000001 }), by decide, by decide, by decide⟩,
   ⟨stateIn .alone, Or.inr (Or.inl (by decide))⟩,
   ⟨1999952000000, (pairSide .alone).modPair (fun p => { p with edgeAt := some 1999952000000 }), by decide, by decide, by decide, by
     decide, Or.inl (by decide), by decide⟩,
   ⟨1999968000000, (stateIn .alone).modPair (fun p => { p with ownReq := true, ownInLowSince := some 1999968000000 }), Or.inr (by decide),
     by decide, by decide, by decide, by decide, by decide⟩,
   ⟨1999840000000, (running .lead).modPair (fun p => { p with pOwn := true, wiringSince := some 1999840000000 }), by decide, by decide, by
     decide, by decide⟩⟩

/-- What `Obligations.CatchUpOwningSide` assumes is met. -/
theorem wit_CatchUpOwningSide :
    (∃ (h : MjHdr) (k : W64) (x : Option Nat) (s : State) (r : State), hear s h = (r, true) ∧ owns r = true ∧ (r.ctl.mode = .alone ∨
      r.ctl.mode = .lead)) ∧
    (∃ (d : Nat) (s : State), s.ctl.mode ≠ .silent ∧ s.pair.serving = 2) ∧
    (∃ (h : MjHdr) (q : W32) (s : State) (r : State), hear s h = (r, true)) ∧
    (∃ (x : StateTx) (s : State), s.ctl.mode ≠ .silent ∧ s.pair.unacked = [x] ∧ 1600000 ≤ (s.time.raw - x.atRaw).toNat ∧ lanesUp s ≠ []) :=
  ⟨⟨default, 0, none, running .lead, (hear (running .lead) (default)).1, Prod.ext rfl (by decide), by decide, Or.inr (by decide)⟩,
   ⟨4194304, (running .lead).modPair (fun p => { p with serving := 2 }), by decide, by decide⟩,
   ⟨default, 0, running .lead, (hear (running .lead) (default)).1, Prod.ext rfl (by decide)⟩,
   ⟨⟨0, default, 1998400000000⟩, (running .lead).modPair (fun p => { p with unacked := [⟨0, default, 1998400000000⟩] }), by decide, by
     decide, by decide, by decide⟩⟩

/-- What `Obligations.CatchUpJoiningSide` assumes is met. -/
theorem wit_CatchUpJoiningSide :
    (∃ (h : MjHdr) (k : W64) (x : Option Nat) (s : State) (r : State), hear s h = (r, true) ∧ r.ctl.mode = .catchup ∧ r.pair.phase = 2) ∧
    (∃ (h : MjHdr) (g : Nat) (o : Nat) (d : Bytes) (s : State) (r : State), hear s h = (r, true) ∧ r.ctl.mode = .catchup ∧ (r.pair.phase = 2
      ∨ r.pair.phase = 3)) ∧
    (∃ (h : MjHdr) (k : W64) (l : List LogItem) (s : State) (r : State), hear s h = (r, true) ∧ r.ctl.mode = .catchup ∧ 3 ≤ r.pair.phase) ∧
    (∃ (s : State), s.ctl.mode = .catchup ∧ s.pair.phase = 4 ∧ s.cyc.phase = .executing ∧ s.cyc.todo = [] ∧ s.cyc.calls = []) ∧
    (∃ (s : State), s.ctl.mode = .catchup ∧ s.pair.phase = 4 ∧ s.cyc.phase ≠ .executing) ∧
    (∃ (w : W64) (s : State), s.ctl.mode = .catchup ∧ s.pair.cRetryAt = some w ∧ 160000000000 ≤ (s.time.raw - w).toNat) ∧
    (∃ (w : W64) (s : State), s.ctl.mode = .twin ∧ s.pair.cMismatch = true ∧ s.pair.twinSince = some w ∧ 960000000000 ≤ (s.time.raw -
      w).toNat) :=
  ⟨⟨ownHdr, 0, none, joining 2, (hear (joining 2) (ownHdr)).1, Prod.ext rfl (by decide), by decide, by decide⟩,
   ⟨ownHdr, 0, 0, [], joining 3, (hear (joining 3) (ownHdr)).1, Prod.ext rfl (by decide), by decide, Or.inr (by decide)⟩,
   ⟨ownHdr, 0, [], joining 3, (hear (joining 3) (ownHdr)).1, Prod.ext rfl (by decide), by decide, by decide⟩,
   ⟨(joining 4).modCyc (fun c => { c with phase := .executing }), by decide, by decide, by decide, by decide, by decide⟩,
   ⟨joining 4, by decide, by decide, by decide⟩,
   ⟨1840000000000, (joining 1).modPair (fun p => { p with cRetryAt := some 1840000000000 }), by decide, by decide, by decide⟩,
   ⟨1040000000000, (pairSide .twin).modPair (fun p => { p with cMismatch := true, twinSince := some 1040000000000 }), by decide, by decide,
     by decide, by decide⟩⟩

/-- What `Obligations.PublicationsReceived` assumes is met. -/
theorem wit_PublicationsReceived :
    (∃ (f : Frame) (n : Nat) (c : SubCfg) (s : State), s.ctl.mode ≠ .cold ∧ (pkgD s [] (·.subs)).Pairwise (fun a b => a.1 ≠ b.1) ∧ mget
      (pkgD s [] (·.subs)) n = some c) ∧
    (∃ (g : GooseMsg) (n : Nat) (c : SubCfg) (s : State), s.ctl.mode ≠ .silent ∧ (pkgD s [] (·.subs)).Pairwise (fun a b => a.1 ≠ b.1) ∧ mget
      (pkgD s [] (·.subs)) n = some c) ∧
    (∃ (n : Nat) (w : W64) (s : State), s.ctl.mode ≠ .cold ∧ (subSt s n).lastAt = some w ∧ 16000000000 ≤ (s.time.raw - w).toNat) :=
  ⟨⟨default, 0, default, subscribed, by decide, List.pairwise_singleton _ _, by decide⟩,
   ⟨default, 0, default, subscribed, by decide, List.pairwise_singleton _ _, by decide⟩,
   ⟨0, 1984000000000, subscribed.modNet (fun n => { n with subs := [(0, { SubSt.reset with lastAt := some 1984000000000 })] }), by decide,
     by decide, by decide⟩⟩

/-- What `Obligations.FramesPortsAndAddresses` assumes is met. -/
theorem wit_FramesPortsAndAddresses :
    (∃ (b : Bool) (f : Frame) (q : W16) (s : State), s.ctl.mode ≠ .cold ∧ f.fcsOk = true ∧ f.hsr = some q ∧ f.src ≠ moduleMac s ∧ f.dst ≠
      moduleMac s) ∧
    (∃ (b : Bool) (x : Bool) (f : Frame) (s : State), s.ctl.mode ≠ .cold ∧ f.fcsOk = false ∧ s.net.ports.length = 5) ∧
    (∃ (b : Bool) (f : Frame) (s : State), s.ctl.mode ≠ .cold ∧ f.fcsOk = true) ∧
    (∃ (p : Port) (f : Frame) (s : State), s.ctl.mode ≠ .cold ∧ p.ring = false ∧ f.fcsOk = true) ∧
    (∃ (f : Frame) (s : State), s.ctl.mode ≠ .cold ∧ s.ctl.mode ≠ .bootwait ∧ f.fcsOk = true ∧ f.etype ≠ 0x88B6 ∧ s.net.ports.length = 5) ∧
    (∃ (p : Port) (f : Frame) (q : W16) (l : Nat) (s : State), s.ctl.mode ≠ .cold ∧ (p = .s0 ∨ p = .s1) ∧ f.fcsOk = true ∧ f.rct = some (q,
      l) ∧ f.src ≠ moduleMac s ∧ f.src ≠ pairMac s ∧ isPairMac f.dst = false) ∧
    (∃ (s : State), ownTraffic s = true ∧ (s.net.supAt = none ∨ ∃ w, s.net.supAt = some w ∧ 32000000000 ≤ (s.time.raw - w).toNat)) ∧
    (∃ (n : Nat) (c : PubCfg) (k : W64) (s : State), (pkgD s [] (·.pubs)).Pairwise (fun a b => a.1 ≠ b.1) ∧ mget (pkgD s [] (·.pubs)) n =
      some c ∧ c.kind = 2 ∧ s.ctl.mode.run = true ∧ s.cyc.released = true ∧ (pubSt s n).nextAt = some k ∧ k.toNat ≤
      s.cyc.lastRelease.toNat) ∧
    (∃ (p : Port) (m : Nat) (s : State), s.ctl.mode ≠ .cold ∧ s.net.ports.length = 5) ∧
    (∃ (w : W64) (s : State), s.ctl.mode ≠ .cold ∧ s.net.ports.length = 5 ∧ s.net.mismatchAt = some w ∧ 16000000000 ≤ (s.time.raw -
      w).toNat) ∧
    (∃ (w : W64) (s : State), s.ctl.mode ≠ .cold ∧ s.net.mismatchAt = none ∧ s.net.heldMedium = none ∧ ((portOf s .p0).locked = none ∨
      (portOf s .p1).locked = none) ∧ s.net.detectAt = some w ∧ 3200000000 ≤ (s.time.raw - w).toNat) :=
  ⟨⟨false, ringFrame, 1, stateIn .silent, by decide, by decide, by decide, by decide, by decide⟩,
   ⟨true, false, { ringFrame with fcsOk := false }, stateIn .stop, by decide, by decide, by decide⟩,
   ⟨false, ringFrame, stateIn .stop, by decide, by decide⟩,
   ⟨.h, { (default : Frame) with fcsOk := true }, stateIn .stop, by decide, by decide, by decide⟩,
   ⟨{ (default : Frame) with fcsOk := true }, stateIn .stop, by decide, by decide, by decide, by decide, by decide⟩,
   ⟨.s0, { ringFrame with hsr := none, rct := some (1, 60) }, 1, 60, stateIn .stop, by decide, Or.inl rfl, by decide, by decide, by decide,
     by decide, by decide⟩,
   ⟨(stateIn .stop).modNet (fun n => { n with supAt := some 1968000000000 }), by decide, Or.inr ⟨_, rfl, by decide⟩⟩,
   ⟨0, { (default : PubCfg) with kind := 2 }, 7, ((packaged .alone (fun p =>
     { p with pubs := [(0, { (default : PubCfg) with kind := 2 })] })).modNet (fun n =>
     { n with pubs := [(0, { PubSt.reset with nextAt := some 7 })], ports := n.ports.map (fun p => { p with link := true }) })).modCyc
     (fun c => { c with released := true, lastRelease := 7 }), List.pairwise_singleton _ _, by decide, by decide, by decide, by decide,
     by decide, by decide⟩,
   ⟨.p0, 0, stateIn .stop, by decide, by decide⟩,
   ⟨1984000000000, (stateIn .stop).modNet (fun n => { n with mismatchAt := some 1984000000000 }), by decide, by decide, by decide, by
     decide⟩,
   ⟨1996800000000, (stateIn .stop).modNet (fun n => { n with mismatchAt := none, heldMedium := none, detectAt := some 1996800000000 }), by
     decide, by decide, by decide, Or.inl (by decide), by decide, by decide⟩⟩

/-- What `Obligations.CanReceptionAndErrors` assumes is met. -/
theorem wit_CanReceptionAndErrors :
    (∃ (n : Nat) (f : CanFrame) (s : State), n < 2 ∧ canLive s n = true ∧ idMatches (canCfg s n).reqId f = false) ∧
    (∃ (n : Nat) (c : Cp) (s : State), n < 2 ∧ canOwner s n = some c ∧ mayAccess s c.master (0x40040000 + 0x1000 * n + 0x24) kWrite = true) ∧
    (∃ (n : Nat) (e : CanErr) (s : State), n < 2 ∧ canLive s n = true) ∧
    (∃ (n : Nat) (c : Cp) (held : W32) (s : State), n < 2 ∧ canOwner s n = some c ∧ mayAccess s c.master (0x40040000 + 0x1000 * n + 0x18)
      kRead = true) ∧
    (∃ (n : Nat) (s : State), n < 2 ∧ s.ctl.mode ≠ .silent ∧ (canOf s n).state = 3 ∧ (canOf s n).sleep = false) ∧
    (∃ (n : Nat) (c : Cp) (s : State), n < 2 ∧ canOwner s n = some c ∧ mayAccess s c.master (0x40040000 + 0x1000 * n) kWrite = true ∧ (canOf
      s n).state = 2) :=
  ⟨⟨1, default, (stateIn .stop).modCan1 (fun c => { c with state := 1 }), by decide, by decide, by decide⟩,
   ⟨1, .n1, reaching (fun p => { p with can := [{ (default : CanCfg) with owner := 1 }, { (default : CanCfg) with owner := 2 }] }), by
     decide, by decide, by decide⟩,
   ⟨0, default, (stateIn .stop).modCan0 (fun c => { c with state := 0 }), by decide, by decide⟩,
   ⟨1, .n1, 0, reaching (fun p => { p with can := [{ (default : CanCfg) with owner := 1 }, { (default : CanCfg) with owner := 2 }] }), by
     decide, by decide, by decide⟩,
   ⟨0, (stateIn .stop).modCan0 (fun c => { c with state := 3, sleep := false }), by decide, by decide, by decide, by decide⟩,
   ⟨0, .n0, (reaching (fun p =>
     { p with can := [{ (default : CanCfg) with owner := 1 }, { (default : CanCfg) with owner := 2 }] })).modCan0 (fun c =>
     { c with state := 2 }), by decide, by decide, by decide, by decide⟩⟩

/-- What `Obligations.BusOffAbortsTransfers` assumes is met. -/
theorem wit_BusOffAbortsTransfers :
    ∃ (n : Nat) (e : CanErr) (s : State), n < 2 ∧ canLive s n = true ∧ errState ((canOf s n).error e) = 2 :=
  ⟨0, { code := 2, data := false, transmitting := true }, (stateIn .stop).modCan0 (fun c => { c with state := 1, tec := 248 }), by decide,
    by decide, by decide⟩

/-- What `Obligations.CanTransmission` assumes is met. -/
theorem wit_CanTransmission :
    (∃ (n : Nat) (c : Cp) (v : W32) (s : State), n < 2 ∧ canOwner s n = some c ∧ mayAccess s c.master (0x40040000 + 0x1000 * n + 0x34)
      kWrite = true) ∧
    (∃ (n : Nat) (k : Nat) (x : Slot) (s : State), n < 2 ∧ s.ctl.mode ≠ .silent ∧ (canOf s n).onBus = some k ∧ mget (canOf s n).slots k =
      some x ∧ k ≠ 29) ∧
    (∃ (n : Nat) (k : Nat) (x : Slot) (s : State), n < 2 ∧ s.ctl.mode ≠ .silent ∧ (canOf s n).onBus = some k ∧ mget (canOf s n).slots k =
      some x) ∧
    (∃ (n : Nat) (c : Cp) (v : W32) (s : State), n < 2 ∧ canOwner s n = some c ∧ mayAccess s c.master (0x40040000 + 0x1000 * n + 0x38)
      kWrite = true) ∧
    (∃ (n : Nat) (c : Cp) (s : State), n < 2 ∧ canOwner s n = some c ∧ mayAccess s c.master (0x40040000 + 0x1000 * n) kWrite = true) ∧
    (∃ (n : Nat) (c : Cp) (s : State), n < 2 ∧ canOwner s n = some c ∧ mayAccess s c.master (0x40040000 + 0x1000 * n) kWrite = true) ∧
    (∃ (n : Nat) (w : CanWakeCause) (s : State), n < 2 ∧ s.ctl.mode ≠ .silent ∧ (canOf s n).state = 4 ∧ wakes (canCfg s n) w = true) :=
  ⟨⟨1, .n1, 0, reaching (fun p => { p with can := [{ (default : CanCfg) with owner := 1 }, { (default : CanCfg) with owner := 2 }] }), by
     decide, by decide, by decide⟩,
   ⟨0, 28, default, (stateIn .stop).modCan0 (fun c => { c with onBus := some 28, slots := [(28, default)] }), by decide, by decide, by
     decide, by decide, by decide⟩,
   ⟨0, 31, default, (stateIn .stop).modCan0 (fun c => { c with onBus := some 31, slots := [(31, default)] }), by decide, by decide, by
     decide, by decide⟩,
   ⟨0, .n0, 0xFFFFFFFF, reaching (fun p =>
     { p with can := [{ (default : CanCfg) with owner := 1 }, { (default : CanCfg) with owner := 2 }] }), by decide, by decide, by
     decide⟩,
   ⟨1, .n1, reaching (fun p => { p with can := [{ (default : CanCfg) with owner := 1 }, { (default : CanCfg) with owner := 2 }] }), by
     decide, by decide, by decide⟩,
   ⟨1, .n1, reaching (fun p => { p with can := [{ (default : CanCfg) with owner := 1 }, { (default : CanCfg) with owner := 2 }] }), by
     decide, by decide, by decide⟩,
   ⟨0, .edge, (stateIn .stop).modCan0 (fun c => { c with state := 4 }), by decide, by decide, by decide, by decide⟩⟩

/-- What `Obligations.Bells` assumes is met. -/
theorem wit_Bells :
    (∃ (s : State), s.ctl.mode.canOn = true ∧ (s.bell.lastAt = none ∨ ∃ w, s.bell.lastAt = some w ∧ 16000000000 ≤ (s.time.raw - w).toNat)) ∧
    (∃ (n : Nat) (w : W64) (s : State), n < 2 ∧ s.bell.firstAt = some w ∧ setting s (0x1501 + n) 8 0 = 1 ∧ s.ctl.mode.canOn = true ∧ (canOf
      s n).state ≠ 4 ∧ (canOf s n).state ≠ 5 ∧ (canOf s n).bellK * (16000000 * setting s (0x1501 + n) 0x0A 1000) ≤ (s.time.raw -
      w).toNat ∧ (canCfg s n).bellId ≠ 0xFFFFFFFF) ∧
    (∃ (n : Nat) (s : State), (canCfg s n).bellId = 0xFFFFFFFF) ∧
    (∃ (a : W16) (m : W48) (s : State), s.ctl.mode ≠ .silent ∧ a = herdAddr s ∧ m ≠ moduleMac s ∧ (pkgOf s).isSome = true) ∧
    (∃ (a : W16) (m : W48) (s : State), (a ≠ herdAddr s ∨ m = moduleMac s ∨ (pkgOf s).isSome = false)) :=
  ⟨⟨(stateIn .stop).modBell (fun b => { b with lastAt := some 1984000000000 }), by decide, Or.inr ⟨_, rfl, by decide⟩⟩,
   ⟨0, 1984000000000, (((packaged .stop (fun p => { p with can := [default] })).modBell (fun b =>
     { b with firstAt := some 1984000000000 })).modCan0 (fun c => { c with state := 0, bellK := 1 })).modDict (fun d =>
     { d with settings := [(0x150108, 1)] }), by decide, by decide, by decide, by decide, by decide, by decide, by decide, by decide⟩,
   ⟨0, stateIn .stop, by decide⟩,
   ⟨0, 1, packaged .lead id, by decide, by decide, by decide, by decide⟩,
   ⟨1, 1, packaged .lead id, Or.inl (by decide)⟩⟩

/-- What `Obligations.RateWritesReanchor` assumes is met. -/
theorem wit_RateWritesReanchor :
    ∃ (v : W32) (s : State), s.ctl.mode ≠ .silent :=
  ⟨0x80000000, stateIn .alone, by decide⟩

/-- What `Obligations.SyncAndFollowUp` assumes is met. -/
theorem wit_SyncAndFollowUp :
    (∃ (m : PtpSync) (s : State), m.domain = pkgD s 0 (·.ptpDomain) ∧ m.port < 4 ∧ s.time.gm = some m.gm ∧ ptpRuns s = true) ∧
    (∃ (m : PtpSync) (a : W80) (q : W16) (o : Nat) (k : Int) (s : State), s.time.twoStep = some m ∧ m.srcPort = a ∧ m.seq = q ∧ ptpRuns s =
      true) ∧
    (∃ (m : PtpSync) (a : W80) (q : W16) (o : Nat) (k : Int) (s : State), s.time.twoStep = some m ∧ (m.srcPort ≠ a ∨ m.seq ≠ q)) ∧
    (∃ (m : PtpAnnounce) (s : State), m.domain = pkgD s 0 (·.ptpDomain) ∧ m.port < 4 ∧ ptpRuns s = true) ∧
    (∃ (g : W64) (s : State), ptpRuns s = true ∧ s.time.gm = some g ∧ s.time.masters.any (fun x => decide ((s.time.raw - x.atRaw).toNat < 48
      * x.ann.intervalNs) && x.ann.gm == g) = false) ∧
    (∃ (w : W64) (s : State), ptpRuns s = true ∧ s.time.lastSync = some w ∧ 3 * s.time.syncInterval ≤ (s.time.raw - w).toNat) ∧
    (∃ (w : W64) (s : State), ptpRuns s = true ∧ s.time.own = .holdover ∧ s.time.holdAt = some w ∧ 16000000000 * (if s.time.onRef then 1000
      else 10) ≤ (s.time.raw - w).toNat) :=
  ⟨⟨default, (stateIn .stop).modTime (fun t => { t with gm := some 0 }), by decide, by decide, by decide, by decide⟩,
   ⟨default, 0, 0, 0, 0, (stateIn .stop).modTime (fun t => { t with twoStep := some default }), by decide, by decide, by decide, by decide⟩,
   ⟨default, 1, 0, 0, 0, (stateIn .stop).modTime (fun t => { t with twoStep := some default }), by decide, Or.inl (by decide)⟩,
   ⟨default, stateIn .stop, by decide, by decide, by decide⟩,
   ⟨0, (stateIn .stop).modTime (fun t => { t with gm := some 0, masters := [] }), by decide, by decide, by decide⟩,
   ⟨1952000000000, (stateIn .stop).modTime (fun t => { t with lastSync := some 1952000000000, syncInterval := 16000000000 }), by decide, by
     decide, by decide⟩,
   ⟨1840000000000, (stateIn .stop).modTime (fun t => { t with own := .holdover, onRef := false, holdAt := some 1840000000000 }), by decide,
     by decide, by decide, by decide⟩⟩

/-- What `Obligations.PeerDelayAndTransparentClock` assumes is met. -/
theorem wit_PeerDelayAndTransparentClock :
    (∃ (p : Nat) (q : W16) (k : Int) (i : W64) (e : W64) (s : State), ownTraffic s = true ∧ ptpUp s p = true ∧ (s.net.ports.getD p
      PortSt.reset).broken = false) ∧
    (∃ (p : Nat) (q : W16) (k : Int) (i : W64) (e : W64) (s : State), ownTraffic s = true ∧ ptpUp s p = true ∧ (s.net.ports.getD p
      PortSt.reset).broken = true) ∧
    (∃ (p : Nat) (q : W16) (i : W64) (w : W64) (k : Int) (s : State), p < 4 ∧ p < s.time.pdelay.length ∧ (s.time.pdelay.getD p
      Pdelay.reset).sentAt = some w ∧ (s.time.pdelay.getD p Pdelay.reset).seq = q ∧ (s.time.pdelay.getD p Pdelay.reset).answered =
      false) ∧
    (∃ (l : List W64) (s : State), ownTraffic s = true ∧ s.time.pdelay.length = 4 ∧ s.net.ports.all (fun x => !x.broken) = true) ∧
    (∃ (m : PtpFwd) (s : State), s.ctl.mode ≠ .cold ∧ m.kind = ptpSync ∧ tcSeen s (!m.fromP1) m.srcPort m.kind m.seq = false ∧ (portOf s (if
      m.fromP1 then .p0 else .p1)).link = true) ∧
    (∃ (m : PtpFwd) (s : State), s.ctl.mode ≠ .cold ∧ m.kind = ptpSync ∧ tcSeen s (!m.fromP1) m.srcPort m.kind m.seq = true) :=
  ⟨⟨0, 7, 0, 0, 0, (stateIn .stop).modNet (fun n => { n with ports := [{ PortSt.reset with link := true }] }), by decide, by decide, by
     decide⟩,
   ⟨0, 7, 0, 0, 0, (stateIn .stop).modNet (fun n => { n with ports := [{ PortSt.reset with link := true, broken := true }] }), by decide,
     by decide, by decide⟩,
   ⟨0, 7, 0, 0, 0, (stateIn .stop).modTime (fun t =>
     { t with pdelay := [{ Pdelay.reset with sentAt := some 0, seq := 7, answered := false }] }), by decide, by decide, by decide, by
     decide, by decide⟩,
   ⟨[], stateIn .stop, by decide, by decide, by decide⟩,
   ⟨{ (default : PtpFwd) with kind := 0 }, (stateIn .stop).modNet (fun n =>
     { n with ports := n.ports.map (fun p => { p with link := true }) }), by decide, by decide, by decide, by decide⟩,
   ⟨{ (default : PtpFwd) with kind := 0 }, (stateIn .stop).modTime (fun t => { t with tcs := [⟨true, 0, 0, 0, 2000000000000, 0, false⟩] }),
     by decide, by decide, by decide⟩⟩

/-- What `Obligations.ReferenceAndPulses` assumes is met. -/
theorem wit_ReferenceAndPulses :
    (∃ (s : State), s.time.secDone < timeNow s / 16000000000) ∧
    (∃ (s : State), timeNow s / 16000000000 ≤ s.time.secDone) ∧
    (∃ (w : W64) (s : State), s.time.ppsOut = true ∧ s.time.ppsRoseAt = some w ∧ 1600000000 ≤ (s.time.raw - w).toNat) ∧
    (∃ (s : State), alarmDue s = true) ∧
    (∃ (s : State), s.ctl.mode ≠ .silent) ∧
    (∃ (v : W32) (s : State), s.ctl.mode ≠ .silent) :=
  ⟨⟨stateIn .stop, by decide⟩,
   ⟨(stateIn .stop).modTime (fun t => { t with secDone := 125 }), by decide⟩,
   ⟨1998400000000, (stateIn .stop).modTime (fun t => { t with ppsOut := true, ppsRoseAt := some 1998400000000 }), by decide, by decide, by
     decide⟩,
   ⟨(stateIn .stop).modTime (fun t => { t with almArm := true, almEp := 0, almNs := 125000000000 }), by decide⟩,
   ⟨stateIn .stop, by decide⟩,
   ⟨0x80000000, stateIn .stop, by decide⟩⟩

/-- What `Obligations.SessionsOpenAndEnd` assumes is met. -/
theorem wit_SessionsOpenAndEnd :
    (∃ (h : MsgHdr) (body : Bytes) (key : Bytes) (s : State), dictServed s h.via = true ∧ h.sid = 0 ∧ body.length = 20 ∧ (body.getD 0
      0).toNat < 4 ∧ (body.getD 1 0).toNat < 4 ∧ roleKey s.boot.roles (body.getD 0 0).toNat (body.getD 1 0).toNat = some key ∧
      sessionsFull s h.via = false) ∧
    (∃ (h : MsgHdr) (body : Bytes) (s : State), dictServed s h.via = true ∧ h.sid = 0 ∧ body.length = 20 ∧ roleKey s.boot.roles (body.getD 0
      0).toNat (body.getD 1 0).toNat = none) ∧
    (∃ (sid : W32) (x : Session) (s : State), findSession s sid = some x ∧ x.established = false ∧ 80000000000 ≤ (s.time.raw -
      x.openedAt).toNat) ∧
    (∃ (sid : W32) (x : Session) (s : State), findSession s sid = some x ∧ x.established = true ∧ 960000000000 ≤ (s.time.raw -
      x.lastAt).toNat) ∧
    (∃ (h : MsgHdr) (x : Session) (s : State), dictServed s h.via = true ∧ h.sid ≠ 0 ∧ findSession s h.sid = some x ∧ x.rxCtr.toNat <
      h.ctr.toNat) :=
  ⟨⟨{ msgHdr with sid := 0 }, 2 :: List.replicate 19 0, [7], (stateIn .stop).modBoot (fun b => { b with roles := [⟨2, 0, [7]⟩] }), by
     decide, by decide, by decide, by decide, by decide, by decide, by decide⟩,
   ⟨{ msgHdr with sid := 0 }, 3 :: List.replicate 19 0, (stateIn .stop).modBoot (fun b => { b with roles := [⟨2, 0, [7]⟩] }), by decide, by
     decide, by decide, by decide⟩,
   ⟨1, { session 0 with established := false, openedAt := 1920000000000 }, (stateIn .stop).modDict (fun d =>
     { d with sessions := [{ session 0 with established := false, openedAt := 1920000000000 }] }), by decide, by decide, by decide⟩,
   ⟨1, { session 0 with lastAt := 1040000000000 }, (stateIn .stop).modDict (fun d =>
     { d with sessions := [{ session 0 with lastAt := 1040000000000 }] }), by decide, by decide, by decide⟩,
   ⟨msgHdr, session 2, served .stop 2, by decide, by decide, by decide, by decide⟩⟩

/-- What `Obligations.RequestsInASession` assumes is met. -/
theorem wit_RequestsInASession :
    (∃ (h : MsgHdr) (items : List ReadItem) (z : Bytes) (x : Session) (s : State), dictServed s h.via = true ∧ h.sid ≠ 0 ∧ findSession s
      h.sid = some x ∧ x.rxCtr.toNat < h.ctr.toNat ∧ h.ctr ≠ 0xFFFFFFFF ∧ x.txCtr + 1 ≠ 0xFFFFFFFF ∧ 1 ≤ items.length ∧ items.length ≤
      32) ∧
    (∃ (h : MsgHdr) (w : WritePiece) (z : Bytes) (x : Session) (s : State), dictServed s h.via = true ∧ (∀ cp, h.via ≠ .mailbox cp) ∧ h.sid
      ≠ 0 ∧ findSession s h.sid = some x ∧ x.rxCtr.toNat < h.ctr.toNat ∧ h.ctr ≠ 0xFFFFFFFF ∧ x.txCtr + 1 ≠ 0xFFFFFFFF ∧ w.data.length +
      14 ≤ bodyLimit h.via ∧ w.offset = 0 ∧ w.more = true ∧ isStream w.index w.sub = false) ∧
    (∃ (h : MsgHdr) (w : WritePiece) (z : Bytes) (x : Session) (p : Port) (s : State), dictServed s h.via = true ∧ h.via = .port p ∧ p ≠ .h
      ∧ h.sid ≠ 0 ∧ findSession s h.sid = some x ∧ x.role = 2 ∧ x.rxCtr.toNat < h.ctr.toNat ∧ w.offset = 0 ∧ w.more = false ∧ w.index =
      0x1200 ∧ w.sub = 0x10 ∧ w.typ = 7 ∧ w.data.length = 2 ∧ beNat w.data ≤ 60000) :=
  ⟨⟨msgHdr, List.replicate 32 default, [], session 2, served .stop 2, by decide, by decide, by decide, by decide, by decide, by decide, (by
     decide), by decide⟩,
   ⟨msgHdr, ⟨0x1200, 0x10, 7, true, 0, []⟩, [], session 2, served .stop 2, by decide, (fun _ h => nomatch h), by decide, by decide, by
     decide, by decide, by decide, by decide, by decide, by decide, by decide⟩,
   ⟨msgHdr, ⟨0x1200, 0x10, 7, false, 0, [0xEA, 0x60]⟩, [], session 2, .p0, served .stop 2, by decide, by decide, by decide, by decide, by
     decide, by decide, by decide, by decide, by decide, by decide, by decide, by decide, by decide, by decide⟩⟩

/-- What `Obligations.MalformedUnlockAndTransfers` assumes is met. -/
theorem wit_MalformedUnlockAndTransfers :
    (∃ (h : MsgHdr) (ty : Nat) (body : Bytes) (p : Port) (s : State), dictServed s h.via = true ∧ h.via = .port p ∧ h.sid = 0 ∧ (ty = 1 ∨ ty
      = 0x10)) ∧
    (∃ (c : Client) (data : Bytes) (p : Port) (s : State), dictServed s c.via = true ∧ c.via = .port p ∧ s.ctl.mode ≠ .bootwait ∧ s.ctl.life
      = .decommissioned ∧ data.length = 7856) ∧
    (∃ (n : Nat) (f : CanFrame) (s : State), n < 2 ∧ idMatches (canCfg s n).reqId f = true ∧ dictServed s (.can n) = true ∧ (f.data.getD 0
      0).toNat / 16 = 1 ∧ 8 ≤ f.data.length ∧ tpLeast f.data.length ≤ (f.data.getD 0 0).toNat % 16 * 256 + (f.data.getD 1 0).toNat) ∧
    (∃ (n : Nat) (r : TpRx) (s : State), n < 2 ∧ (canOf s n).rx = some r ∧ (canOf s n).tx = none ∧ 16000000000 ≤ (s.time.raw -
      r.atRaw).toNat) :=
  ⟨⟨{ msgHdr with sid := 0 }, 1, [], .p0, stateIn .stop, by decide, by decide, by decide, Or.inl rfl⟩,
   ⟨client 3, List.replicate 7856 0, .p0, (stateIn .stop).modCtl (fun c => { c with life := .decommissioned }), by decide, by decide, by
     decide, by decide, List.length_replicate⟩,
   ⟨0, { (default : CanFrame) with data := [0x10, 8, 0, 0, 0, 0, 0, 0], id := 5 }, ((packaged .stop (fun p =>
     { p with can := [{ (default : CanCfg) with reqId := 5 }] })).modCan0 (fun c => { c with state := 0 })), by decide, by decide, by
     decide, by decide, by decide, by decide⟩,
   ⟨1, ⟨8, [], 0, 0, 1984000000000⟩, (stateIn .stop).modCan1 (fun c => { c with rx := some ⟨8, [], 0, 0, 1984000000000⟩ }), by decide, by
     decide, by decide, by decide⟩⟩

/-- What `Obligations.MailboxOfACorePair` assumes is met. -/
theorem wit_MailboxOfACorePair :
    (∃ (c : Cp) (s : State), mayAccess s c.master 0x40080000 kWrite = true ∧ (cpOf s c).call = none ∧ (cpOf s c).dmb.busy = false ∧ (cpOf s
      c).dmb.op = 0 ∧ dictServed s (.mailbox c) = true) ∧
    (∃ (c : Cp) (s : State), mayAccess s c.master 0x40080000 kWrite = true ∧ (cpOf s c).call = none ∧ (cpOf s c).dmb.busy = true) ∧
    (∃ (c : Cp) (r : PairReq) (n : Nat) (s : State), mayAccess s c.master 0x40080000 kWrite = true ∧ (cpOf s c).call = none ∧ (cpOf s
      c).dmb.pending = some (false, r, n)) ∧
    (∃ (c : Cp) (st : Nat) (data : Bytes) (more : Bool) (tick : W64) (s : State), clocksRun s = true ∧ (cpOf s c).dmb.answer = some (st,
      data, more, tick)) ∧
    (∃ (c : Cp) (a : Nat) (v : W32) (s : State), (cpOf s c).call.isSome = true) :=
  ⟨⟨.n0, reaching id, by decide, by decide, by decide, by decide, by decide⟩,
   ⟨.n1, (reaching id).modN1 (fun n => { n with dmb := { n.dmb with busy := true } }), by decide, by decide, by decide⟩,
   ⟨.n0, default, 0, (reaching id).modN0 (fun n => { n with dmb := { n.dmb with pending := some (false, default, 0) } }), by decide, by
     decide, by decide⟩,
   ⟨.n0, 0, [], false, 0, (native .alone).modN0 (fun n => { n with dmb := { n.dmb with answer := some (0, [], false, 0) } }), by decide, by
     decide⟩,
   ⟨.n0, 0, 0, (reaching id).modN0 (fun n => { n with call := some default }), by decide⟩⟩

/-- What `Obligations.StopStartAndLifeCycleCommands` assumes is met. -/
theorem wit_StopStartAndLifeCycleCommands :
    (∃ (c : Client) (s : State), mayWrite s c 0x2200 6 2 = true ∧ s.ctl.mode.run = true ∧ s.cyc.phase ≠ .slack) ∧
    (∃ (c : Client) (s : State), mayWrite s c 0x1100 4 2 = true ∧ s.ctl.mode.run = true ∧ s.cyc.phase ≠ .slack) ∧
    (∃ (c : Client) (s : State), mayWrite s c 0x1100 4 2 = true ∧ s.ctl.mode = .stop) ∧
    (∃ (c : Client) (s : State), mayWrite s c 0x1100 4 2 = true) ∧
    (∃ (c : Client) (s : State), mayWrite s c 0x1100 4 2 = true) ∧
    (∃ (c : Client) (s : State), mayWrite s c 0x1200 0x16 2 = true ∧ s.ctl.mode = .catchup) ∧
    (∃ (c : Client) (s : State), mayWrite s c 0x1100 7 3 = true ∧ s.ctl.mode = .stop ∧ s.ctl.lifePending = none ∧ s.ctl.life = .provisioned) ∧
    (∃ (c : Client) (s : State), mayWrite s c 0x1100 7 3 = true ∧ s.ctl.mode = .stop ∧ s.ctl.lifePending = none ∧ (s.ctl.life = .provisioned
      ∨ s.ctl.life = .commissioned)) :=
  ⟨⟨client 2, (served .alone 2).modCyc (fun c => { c with phase := .executing }), by decide, by decide, by decide⟩,
   ⟨client 2, (served .lead 2).modCyc (fun c => { c with phase := .executing }), by decide, by decide, by decide⟩,
   ⟨client 2, served .stop 2, by decide, by decide⟩,
   ⟨client 2, served .stop 2, by decide⟩,
   ⟨client 2, served .test 2, by decide⟩,
   ⟨client 2, served .catchup 2, by decide, by decide⟩,
   ⟨client 3, (served .stop 3).modCtl (fun c => { c with life := .provisioned }), by decide, by decide, by decide, by decide⟩,
   ⟨client 3, (served .stop 3).modCtl (fun c => { c with life := .commissioned }), by decide, by decide, by decide, Or.inr (by decide)⟩⟩

/-- What `Obligations.StagingAndKeysByAClient` assumes is met. -/
theorem wit_StagingAndKeysByAClient :
    (∃ (c : Client) (k : Nat) (s : State), mayWrite s c 0x1B00 1 2 = true ∧ s.ctl.mode ≠ .bootwait ∧ (k = 1 ∨ k = 3)) ∧
    (∃ (c : Client) (s : State), mayWrite s c 0x1B00 1 2 = true ∧ s.ctl.mode ≠ .bootwait ∧ s.cyc.change.active = false) ∧
    (∃ (c : Client) (o : Nat) (d : Bytes) (s : State), mayWrite s c 0x1B00 3 2 = true ∧ s.ctl.mode ≠ .bootwait ∧ d.length ≤ 65535 ∧
      (slotOfKind s s.boot.lastKind).state = 1 ∧ (∀ n, streamLimit (slotOfKind s s.boot.lastKind) false = some n → o + d.length ≤ n)) ∧
    (∃ (c : Client) (o : Nat) (d : Bytes) (s : State), mayWrite s c 0x1B00 4 2 = true ∧ s.ctl.mode ≠ .bootwait ∧ d.length ≤ 65535 ∧
      (slotOfKind s s.boot.lastKind).state = 1 ∧ (∀ n, streamLimit (slotOfKind s s.boot.lastKind) true = some n → o + d.length ≤ n)) ∧
    (∃ (c : Client) (s : State), mayWrite s c 0x1B00 0x0A 2 = true ∧ (s.boot.lastKind = 1 ∨ s.boot.lastKind = 3)) ∧
    (∃ (c : Client) (s : State), mayWrite s c 0x1B00 0x0D 2 = true) ∧
    (∃ (c : Client) (s : State), mayWrite s c 0x1600 7 3 = true) ∧
    (∃ (c : Client) (d : Bytes) (s : State), mayWrite s c 0x1600 0x0E 0 = true ∧ d.length = 32 ∧ s.boot.attState ≠ 1) ∧
    (∃ (c : Client) (s : State), mayWrite s c 0x1A20 0x0F 2 = true) ∧
    (∃ (c : Client) (s : State), mayWrite s c 0x1800 3 1 = true) ∧
    (∃ (c : Client) (s : State), mayWrite s c 0x1700 8 3 = true) ∧
    (∃ (c : Client) (s : State), mayWrite s c 0x1700 0x0A 1 = true) ∧
    (∃ (c : Client) (s : State), mayWrite s c 0x2218 8 2 = true ∧ s.cyc.change.active = false) :=
  ⟨⟨client 2, 3, served .stop 2, by decide, by decide, Or.inr rfl⟩,
   ⟨client 2, served .stop 2, by decide, by decide, by decide⟩,
   ⟨client 2, 0, [1], receiving 2, by decide, by decide, by decide, by decide, (fun n h => nomatch (show (none : Option Nat) = some n from
     h))⟩,
   ⟨client 2, 0, [1], receiving 2, by decide, by decide, by decide, by decide, (fun n h => nomatch (show (none : Option Nat) = some n from
     h))⟩,
   ⟨client 2, receiving 2, by decide, Or.inl (by decide)⟩,
   ⟨client 2, served .stop 2, by decide⟩,
   ⟨client 3, served .stop 3, by decide⟩,
   ⟨client 0, List.replicate 32 0, served .stop 0, by decide, by decide, by decide⟩,
   ⟨client 2, served .stop 2, by decide⟩,
   ⟨client 1, served .stop 1, by decide⟩,
   ⟨client 3, served .stop 3, by decide⟩,
   ⟨client 1, served .stop 1, by decide⟩,
   ⟨client 2, served .alone 2, by decide, by decide⟩⟩

/-- What `Obligations.ClearEntriesClearTheirCounters` assumes is met. -/
theorem wit_ClearEntriesClearTheirCounters :
    (∃ (c : Client) (s : State), mayWrite s c 0x1100 0x0D 1 = true) ∧
    (∃ (c : Client) (s : State), mayWrite s c 0x1410 0x0A 1 = true) ∧
    (∃ (c : Client) (s : State), mayWrite s c 0x1A00 0x0D 1 = true) ∧
    (∃ (c : Client) (s : State), mayWrite s c 0x1A20 0x0E 1 = true) ∧
    (∃ (c : Client) (s : State), mayWrite s c 0x1702 9 1 = true) ∧
    (∃ (c : Client) (k : Nat) (s : State), k < 4 ∧ mayWrite s c (0x2201 + k) 0x0A 1 = true) :=
  ⟨⟨client 1, served .stop 1, by decide⟩,
   ⟨client 2, served .stop 2, by decide⟩,
   ⟨client 1, served .alone 1, by decide⟩,
   ⟨client 1, served .stop 1, by decide⟩,
   ⟨client 1, served .dbg 1, by decide⟩,
   ⟨client 1, 3, served .stop 1, by decide, by decide⟩⟩

/-- What `Obligations.PairWritesAreSequenced` assumes is met. -/
theorem wit_PairWritesAreSequenced :
    (∃ (c : Client) (d : Bytes) (s : State), mayWrite s c 0x2210 2 2 = true ∧ d.length = 8 ∧ sequences s ⟨c.role, c.reqid, 0x2210, 2, 15, d⟩
      = true) ∧
    (∃ (c : Client) (d : Bytes) (s : State), mayWrite s c 0x2210 3 1 = true ∧ d.length = 4 ∧ sequences s ⟨c.role, c.reqid, 0x2210, 3, 8, d⟩
      = true) ∧
    (∃ (c : Client) (s : State), mayWrite s c 0x2210 4 1 = true ∧ sequences s ⟨c.role, c.reqid, 0x2210, 4, 6, [1]⟩ = true) ∧
    (∃ (c : Client) (s : State), mayWrite s c 0x2218 4 2 = true ∧ sequences s ⟨c.role, c.reqid, 0x2218, 4, 6, [1]⟩ = true) ∧
    (∃ (c : Client) (n : Nat) (m : Nat) (s : State), n < 32 ∧ mayWrite s c (0x2100 + n) 1 1 = true ∧ sequences s ⟨c.role, c.reqid, 0x2100 +
      n, 1, 6, [BitVec.ofNat 8 m]⟩ = true) ∧
    (∃ (c : Client) (n : Nat) (m : Nat) (s : State), n < 32 ∧ mayWrite s c (0x2100 + n) 0x1A 1 = true ∧ sequences s ⟨c.role, c.reqid, 0x2100
      + n, 0x1A, 6, [BitVec.ofNat 8 m]⟩ = true) ∧
    (∃ (c : Client) (n : Nat) (s : State), n < 32 ∧ mayWrite s c (0x2100 + n) 0x2F 2 = true ∧ sequences s ⟨c.role, c.reqid, 0x2100 + n,
      0x2F, 6, [1]⟩ = true) ∧
    (∃ (c : Client) (s : State), mayWrite s c 0x1200 0x11 1 = true ∧ sequences s ⟨c.role, c.reqid, 0x1200, 0x11, 6, [1]⟩ = true) ∧
    (∃ (c : Client) (s : State), mayWrite s c 0x1A10 9 1 = true ∧ sequences s ⟨c.role, c.reqid, 0x1A10, 9, 6, [1]⟩ = true) ∧
    (∃ (c : Client) (s : State), mayWrite s c 0x1B00 0x10 2 = true ∧ sequences s ⟨c.role, c.reqid, 0x1B00, 0x10, 6, [1]⟩ = true) ∧
    (∃ (c : Client) (s : State), mayWrite s c 0x1B00 0x0E 2 = true ∧ sequences s ⟨c.role, c.reqid, 0x1B00, 0x0E, 6, [1]⟩ = true) ∧
    (∃ (c : Client) (s : State), mayWrite s c 0x1100 5 2 = true) ∧
    (∃ (c : Client) (d : Bytes) (s : State), mayWrite s c 0x1600 9 3 = true ∧ (d.length = 0 ∨ d.length = 32) ∧ sequences s ⟨c.role, c.reqid,
      0x1600, 9, 15, d⟩ = true) ∧
    (∃ (c : Client) (d : Bytes) (s : State), mayWrite s c 0x1600 0x0C 3 = true ∧ d.length = 68 ∧ sequences s ⟨c.role, c.reqid, 0x1600, 0x0C,
      15, d⟩ = true) ∧
    (∃ (c : Client) (v : Byte) (s : State), mayWrite s c 0x1600 0x0D 3 = true ∧ sequences s ⟨c.role, c.reqid, 0x1600, 0x0D, 6, [v]⟩ = true) ∧
    (∃ (c : Client) (s : State), mayWrite s c 0x1B00 5 2 = true ∧ sequences s ⟨c.role, c.reqid, 0x1B00, 5, 6, [1]⟩ = true) :=
  ⟨⟨client 2, List.replicate 8 0, forcing .alone 2, by decide, by decide, by decide⟩,
   ⟨client 1, [0, 0, 0, 0], (forcing .alone 1).modImg (fun i => { i with forces := [force0] }), by decide, by decide, by decide⟩,
   ⟨client 1, served .alone 1, by decide, by decide⟩,
   ⟨client 2, (served .alone 2).modCyc (fun c => { c with change := { c.change with state := 1 } }), by decide, by decide⟩,
   ⟨client 1, 31, 2, served .alone 1, by decide, by decide, by decide⟩,
   ⟨client 1, 31, 1, served .alone 1, by decide, by decide, by decide⟩,
   ⟨client 2, 31, served .alone 2, by decide, by decide, by decide⟩,
   ⟨client 1, (running .lead).modDict (fun d => { d with sessions := [session 1] }), by decide, by decide⟩,
   ⟨client 1, served .alone 1, by decide, by decide⟩,
   ⟨client 2, (served .alone 2).modBoot (fun b => { b with sPkg := { b.sPkg with state := 3 } }), by decide, by decide⟩,
   ⟨client 2, served .alone 2, by decide, by decide⟩,
   ⟨client 2, served .alone 2, by decide⟩,
   ⟨client 3, [], served .alone 3, by decide, Or.inl rfl, by decide⟩,
   ⟨client 3, List.replicate 52 0 ++ [29, 168, 20, 182, 117, 146, 146, 54, 248, 91, 93, 60, 125, 122, 71, 91], (served .alone 3).modBoot
     (fun b => { b with roles := [⟨3, 0, [7]⟩] }), by decide, rfl, by decide +kernel⟩,
   ⟨client 3, 0x33, served .alone 3, by decide, by decide⟩,
   ⟨client 2, served .alone 2, by decide, by decide⟩⟩

/-- What `Obligations.PairWritesInStop` assumes is met. -/
theorem wit_PairWritesInStop :
    (∃ (c : Client) (d : Bytes) (s : State), mayWrite s c 0x2210 2 2 = true ∧ s.ctl.mode = .stop ∧ d.length = 8 ∧ s.pair.seqs = [] ∧ beNat
      (d.take 3) < 131072 ∧ (d.getD 3 0).toNat % 64 = 0 ∧ (descOf s.img (beNat (d.take 3))).source ≠ srcUnused ∧ (descOf s.img (beNat
      (d.take 3))).forceable = true ∧ s.img.forces.length < 4096) ∧
    (∃ (c : Client) (d : Bytes) (f : Force) (s : State), mayWrite s c 0x2210 3 1 = true ∧ s.ctl.mode = .stop ∧ d.length = 4 ∧ beNat d <
      131072 ∧ (descOf s.img (beNat d)).source ≠ srcUnused ∧ forceOn s.img (beNat d) = some f) ∧
    (∃ (c : Client) (s : State), mayWrite s c 0x2210 4 1 = true ∧ s.ctl.mode = .stop) ∧
    (∃ (c : Client) (n : Nat) (m : Nat) (s : State), mayWrite s c (0x2100 + n) 1 1 = true ∧ s.ctl.mode = .stop ∧ n < 32 ∧ m ≤ 2) ∧
    (∃ (c : Client) (n : Nat) (m : Nat) (s : State), mayWrite s c (0x2100 + n) 0x1A 1 = true ∧ s.ctl.mode = .stop ∧ n < 32 ∧ m ≤ 1) ∧
    (∃ (c : Client) (s : State), mayWrite s c 0x1100 5 2 = true ∧ s.ctl.mode = .stop) ∧
    (∃ (c : Client) (d : Bytes) (s : State), mayWrite s c 0x1600 9 3 = true ∧ s.ctl.mode = .stop ∧ (d.length = 0 ∨ d.length = 32)) ∧
    (∃ (c : Client) (d : Bytes) (so : Bytes) (s : State), mayWrite s c 0x1600 0x0C 3 = true ∧ s.ctl.mode = .stop ∧ d.length = 68 ∧ (d.getD 0
      0).toNat < 4 ∧ (d.getD 1 0).toNat < 4 ∧ roleKey s.boot.roles 3 0 = some so) ∧
    (∃ (c : Client) (v : Byte) (s : State), mayWrite s c 0x1600 0x0D 3 = true ∧ s.ctl.mode = .stop ∧ v.toNat / 16 < 4 ∧ v.toNat % 16 < 4 ∧ v
      ≠ 0x30) ∧
    (∃ (c : Client) (s : State), mayWrite s c 0x1B00 5 2 = true ∧ s.ctl.mode = .stop) ∧
    (∃ (c : Client) (i : Installed) (s : State), mayWrite s c 0x1B00 0x0E 2 = true ∧ s.ctl.mode = .stop ∧ stagedPackage s = some i) :=
  ⟨⟨client 2, List.replicate 8 0, forcing .stop 2, by decide, by decide, by decide, by decide, by decide, by decide, by decide, by decide,
     by decide⟩,
   ⟨client 1, [0, 0, 0, 0], force0, (forcing .stop 1).modImg (fun i => { i with forces := [force0] }), by decide, by decide, by decide, by
     decide, by decide, by decide⟩,
   ⟨client 1, served .stop 1, by decide, by decide⟩,
   ⟨client 1, 31, 2, served .stop 1, by decide, by decide, by decide, by decide⟩,
   ⟨client 1, 31, 1, served .stop 1, by decide, by decide, by decide, by decide⟩,
   ⟨client 2, served .stop 2, by decide, by decide⟩,
   ⟨client 3, List.replicate 32 0, served .stop 3, by decide, by decide, Or.inr List.length_replicate⟩,
   ⟨client 3, List.replicate 68 0, [7], (served .stop 3).modBoot (fun b => { b with roles := [⟨3, 0, [7]⟩] }), by decide, by decide, by
     decide, by decide, by decide, by decide⟩,
   ⟨client 3, 0x33, served .stop 3, by decide, by decide, by decide, by decide, by decide⟩,
   ⟨client 2, served .stop 2, by decide, by decide⟩,
   ⟨client 2, _, (served .stop 2).modBoot (fun b => { b with sPkg := { b.sPkg with state := 2 } }), by decide, by decide, rfl⟩⟩

/-- What `Obligations.LogAndRecords` assumes is met. -/
theorem wit_LogAndRecords :
    (∃ (r : LogReq) (rest : List LogReq) (s : State), s.ctl.mode ≠ .silent ∧ s.pins.pgood = true ∧ s.log.lostSince = 0 ∧ s.log.queue = r ::
      rest) ∧
    (∃ (s : State), s.ctl.mode ≠ .silent ∧ s.pins.pgood = true ∧ (160000000000 ≤ (s.time.raw - s.log.mirrorAt).toNat ∨ 256 ≤
      s.log.sinceMirror)) ∧
    (∃ (s : State), s.pins.pgood = true ∧ 16000000000 ≤ (s.time.raw - s.log.secRaw).toNat ∧ s.log.seconds ≠ 0xFFFFFFFF) ∧
    (∃ (c : Cp) (s : State), mayAccess s c.master 0x400B0004 kWrite = true ∧ (cpOf s c).call = none ∧ (cpOf s c).recr.busy = false ∧ 0x8000
      ≤ (cpOf s c).recr.typ.toNat ∧ (cpOf s c).recr.sev ≠ 3 ∧ (cpOf s c).recr.len.toNat ≤ 976 ∧ s.log.queue.length < 256) ∧
    (∃ (c : Cp) (s : State), mayAccess s c.master 0x400B0004 kWrite = true ∧ (cpOf s c).call = none ∧ (cpOf s c).recr.busy = false ∧ (cpOf s
      c).recr.typ.toNat < 0x8000) ∧
    (∃ (i : SeqItem) (rest : List SeqItem) (n : W32) (k : W64) (src : W16) (s : State), clocksRun s = true ∧ s.pair.seqs = i :: rest ∧
      i.msg.body = .recordStart n k src ∧ s.cyc.confirmed = true ∧ i.msg.target.toNat ≤ s.cyc.cutTick.toNat) ∧
    (∃ (r : DRec) (s : State), clocksRun s = true ∧ s.ctl.mode ≠ .cold ∧ s.dist.openRecs = [r] ∧ commitReady s r = true ∧ recordsFull
      (s.dist.recs ++ [{ r with header := recordHeader r }]) = false) :=
  ⟨⟨default, [], (stateIn .stop).modLog (fun l => { l with queue := [default] }), by decide, by decide, by decide, by decide⟩,
   ⟨(stateIn .stop).modLog (fun l => { l with sinceMirror := 256 }), by decide, by decide, Or.inr (by decide)⟩,
   ⟨(stateIn .stop).modLog (fun l => { l with secRaw := 1984000000000 }), by decide, by decide, by decide⟩,
   ⟨.n0, (reaching id).modN0 (fun n => { n with recr := { n.recr with typ := 0x8000, sev := 2, len := 976 } }), by decide, by decide, by
     decide, by decide, by decide, by decide, by decide⟩,
   ⟨.n1, (reaching id).modN1 (fun n => { n with recr := { n.recr with typ := 0x7FFF } }), by decide, by decide, by decide, by decide⟩,
   ⟨{ (default : SeqItem) with msg := ⟨0, 7, false, 0, .recordStart 1 5 0⟩ }, [], 1, 5, 0, ((stateIn .alone).modPair (fun p =>
     { p with seqs := [{ (default : SeqItem) with msg := ⟨0, 7, false, 0, .recordStart 1 5 0⟩ }] })).modCyc (fun c =>
     { c with cutTick := 7, confirmed := true }), by decide, by decide, by decide, by decide, by decide⟩,
   ⟨openRec, (stateIn .stop).modDist (fun d => { d with openRecs := [openRec] }), by decide, by decide, by decide, by decide, rfl⟩⟩

/-- What `Obligations.InterruptsAndClocks` assumes is met. -/
theorem wit_InterruptsAndClocks :
    (∃ (c : Cp) (n : Nat) (s : State), reservedSrc n = false ∧ levelSources.contains n = false) ∧
    (∃ (c : Cp) (v : W32) (s : State), mayAccess s c.master 0x40000030 kWrite = true ∧ v.toNat % 128 ≠ 0 ∧ reservedSrc (v.toNat % 128) =
      false ∧ (cpOf s c).intc.claimed.getLsbD (v.toNat % 128) = false) ∧
    (∃ (c : Cp) (v : W32) (s : State), mayAccess s c.master 0x40000034 kWrite = true ∧ v.toNat % 128 ≠ 0 ∧ reservedSrc (v.toNat % 128) =
      false ∧ (cpOf s c).intc.claimed.getLsbD (v.toNat % 128) = true) ∧
    (∃ (c : Cp) (v : W32) (s : State), mayAccess s c.master 0x40000034 kWrite = true ∧ v.toNat % 128 ≠ 0 ∧ reservedSrc (v.toNat % 128) =
      false ∧ (cpOf s c).intc.claimed.getLsbD (v.toNat % 128) = false) ∧
    (∃ (c : Cp) (v : W32) (s : State), mayAccess s c.master 0x4000003C kWrite = true) ∧
    (∃ (c : Cp) (s : State), mayAccess s c.master 0x40000038 kWrite = true) ∧
    (∃ (c : Cp) (s : State), mayAccess s c.master 0x4009000C kWrite = true) ∧
    (∃ (c : Cp) (n : Nat) (us : Nat) (w : W64) (s : State), clocksRun s = true ∧ mget (cpOf s c).intc.heldFrom n = some (w, us) ∧ rUs us ≤
      (s.time.raw - w).toNat) ∧
    (∃ (c : Cp) (s : State), coreRuns s c = true ∧ (cpOf s c).clk.sleep = true ∧ firstPresented s c = none ∧ callOut s c = false) ∧
    (∃ (c : Cp) (s : State), pllOn s.ctl.mode = true ∧ (cpOf s c).clk.asleep = true ∧ (callPosted s c = true ∨ (firstPresented s c).isSome =
      true)) :=
  ⟨⟨.n0, 1, stateIn .stop, by decide, by decide⟩,
   ⟨.n0, 1, reaching id, by decide, by decide, by decide, by decide⟩,
   ⟨.n1, 113, (reaching id).modN1 (fun n => { n with intc := { n.intc with claimed := setBit n.intc.claimed 113 true } }), by decide, by
     decide, by decide, by decide⟩,
   ⟨.n0, 1, reaching id, by decide, by decide, by decide, by decide⟩,
   ⟨.n0, 0, reaching id, by decide⟩,
   ⟨.n0, reaching id, by decide⟩,
   ⟨.n0, reaching id, by decide⟩,
   ⟨.n0, 1, 1, 1999999984000, (native .alone).modN0 (fun n => { n with intc := { n.intc with heldFrom := [(1, 1999999984000, 1)] } }), by
     decide, by decide, by decide⟩,
   ⟨.n0, (native .alone).modN0 (fun n => { n with clk := { n.clk with sleep := true } }), by decide, by decide, by decide, by decide⟩,
   ⟨.n0, (native .alone).modN0 (fun n => { n with posted := [default], clk := { n.clk with asleep := true } }), by decide, by decide,
     Or.inl (by decide)⟩⟩

/-- What `Obligations.DmaEngineAndEvents` assumes is met. -/
theorem wit_DmaEngineAndEvents :
    (∃ (n : Nat) (o : Cp) (s : State), n < 16 ∧ dmaReady s = true ∧ dmaOwner s = some o ∧ mayAccess s o.master (0x40010104 + 0x20 * n)
      kWrite = true ∧ ((dmaCh s n).state = 0 ∨ (dmaCh s n).state = 3) ∧ targetOf s ((dmaOwner s).getD .n0) ((dmaCh s n).start.toNat *
      16) = some 0 ∧ checkAccess s .dma ((dmaCh s n).start.toNat * 16) kRead false = none) ∧
    (∃ (n : Nat) (held : W32) (s : State), n < 16 ∧ dmaReady s = true ∧ (dmaCh s n).state = 1 ∧ 0 < (dmaCh s n).remain.toNat ∧ (dmaCh s
      n).trig = false ∧ (dmaCh s n).src.toNat % 8 = 0 ∧ (dmaCh s n).dst.toNat % 8 = 0 ∧ targetOf s ((dmaOwner s).getD .n0) (dmaCh s
      n).src.toNat = some 0 ∧ targetOf s ((dmaOwner s).getD .n0) (dmaCh s n).dst.toNat = some 0 ∧ checkAccess s .dma (dmaCh s
      n).src.toNat kRead false = none ∧ checkAccess s .dma (dmaCh s n).dst.toNat kWrite false = none) ∧
    (∃ (n : Nat) (s : State), n < 16 ∧ dmaReady s = true ∧ (dmaCh s n).state = 1 ∧ (dmaCh s n).remain = 0 ∧ (dmaCh s n).evt = false ∧ (dmaCh
      s n).last = true ∧ (dmaCh s n).respend = false) ∧
    (∃ (n : Nat) (o : Cp) (s : State), n < 16 ∧ dmaReady s = true ∧ dmaOwner s = some o ∧ mayAccess s o.master (0x40010104 + 0x20 * n)
      kWrite = true ∧ ((dmaCh s n).state = 1 ∨ (dmaCh s n).state = 2)) ∧
    (∃ (n : Nat) (o : Cp) (s : State), dmaOwner s = some o ∧ mayAccess s o.master (0x40010104 + 0x20 * n) kWrite = true) ∧
    (∃ (o : Cp) (s : State), dmaOwner s = some o ∧ mayAccess s o.master 0x40010000 kWrite = true) ∧
    (∃ (n : Nat) (a : W32) (s : State), dmaReady s = true ∧ ((dmaCh s n).state = 1 ∨ (dmaCh s n).state = 2)) ∧
    (∃ (c : Cp) (held : Bool) (s : State), mayAccess s c.master 0x40020010 kWrite = true) ∧
    (∃ (k : Nat) (s : State), clocksRun s = true ∧ (∀ r ∈ s.evf.routes, r.enable = true → r.src.toNat ≠ k)) ∧
    (∃ (k : Nat) (i : Nat) (s : State), clocksRun s = true ∧ k < 54 ∧ i < 16 ∧ (s.evf.routes.getD i Route.reset).enable = true ∧
      (s.evf.routes.getD i Route.reset).src.toNat = k) ∧
    (∃ (m : Master) (v : W32) (s : State), mayAccess s m 0x40070080 kWrite = true) ∧
    (∃ (m : Master) (s : State), mayAccess s m 0x40070080 kWrite = true ∧ clocksRun s = true) ∧
    (∃ (m : Master) (s : State), mayAccess s m 0x40070084 kWrite = true) :=
  ⟨⟨0, .n0, dmaIn id, by decide, by decide, by decide, by decide, Or.inl (by decide), by decide, by decide⟩,
   ⟨0, 0, dmaIn (fun c => { c with state := 1, remain := 1, trig := false, src := 0x1FFFF8, dst := 0 }), by decide, by decide, by decide,
     by decide, by decide, by decide, by decide, by decide, by decide, by decide, by decide⟩,
   ⟨0, dmaIn (fun c => { c with state := 1, remain := 0, evt := false, last := true, respend := false }), by decide, by decide, by decide,
     by decide, by decide, by decide, by decide⟩,
   ⟨0, .n0, dmaIn (fun c => { c with state := 2 }), by decide, by decide, by decide, by decide, Or.inr (by decide)⟩,
   ⟨15, .n0, dmaIn id, by decide, by decide⟩,
   ⟨.n0, dmaIn id, by decide, by decide⟩,
   ⟨0, 4, dmaIn (fun c => { c with state := 1 }), by decide, Or.inl (by decide)⟩,
   ⟨.n0, false, reaching id, by decide⟩,
   ⟨46, stateIn .alone, by decide, by decide⟩,
   ⟨53, 15, (stateIn .alone).modEvf (fun e => { e with routes := List.replicate 16 ⟨53, true⟩ }), by decide, by decide, by decide, by
     decide, by decide⟩,
   ⟨.mgmt, 0, stateIn .alone, by decide⟩,
   ⟨.mgmt, stateIn .alone, by decide, by decide⟩,
   ⟨.mgmt, stateIn .alone, by decide⟩⟩

/-- What `Obligations.ProtectionAndAccesses` assumes is met. -/
theorem wit_ProtectionAndAccesses :
    (∃ (w : RuleWrite) (rest : List RuleWrite) (s : State), clocksRun s = true ∧ s.mpu.ctx0.waiting = w :: rest) ∧
    (∃ (c : Cp) (s : State), mayAccess s c.master 0x40020008 kRead = true ∧ dmaOwner s ≠ some c) ∧
    (∃ (c : Cp) (n : Nat) (s : State), mayAccess s c.master (0x40020108 + 16 * n) kWrite = true ∧ selectedCtx s c = c.master ∧ n < (mpuCtx s
      c.master).regions.length) ∧
    (∃ (c : Cp) (v : Violation) (s : State), coreRuns s c = true ∧ v.master = c.num ∧ checkAccess s c.master v.addr.toNat v.kind (cpOf s
      c).machine = none) ∧
    (∃ (c : Cp) (v : Violation) (x : Violation) (s : State), coreRuns s c = true ∧ v.master = c.num ∧ checkAccess s c.master v.addr.toNat
      v.kind (cpOf s c).machine = some x ∧ s.mpu.lastAt = none) ∧
    (∃ (c : Cp) (a : W32) (k : Nat) (n : Nat) (s : State), coreRuns s c = true ∧ targetOf s c a.toNat = none) ∧
    (∃ (c : Cp) (a : W32) (st : Bool) (s : State), a.toNat % 4 = 0) ∧
    (∃ (c : Cp) (a : W32) (st : Bool) (s : State), coreRuns s c = true ∧ a.toNat % 4 ≠ 0) ∧
    (∃ (c : Cp) (a : W32) (v : W32) (held : W32) (k : Nat) (s : State), coreRuns s c = true ∧ (k = 1 ∨ k = 2 ∨ k = 4) ∧ a.toNat % k = 0 ∧
      a.toNat < 0x200000 ∧ checkAccess s c.master a.toNat kWrite (cpOf s c).machine = none) ∧
    (∃ (c : Cp) (a : W32) (v : W32) (held : W32) (k : Nat) (s : State), coreRuns s c = true ∧ (k = 1 ∨ k = 2) ∧ 0x40000000 ≤ a.toNat ∧
      a.toNat < 0x50000000 ∧ checkAccess s c.master a.toNat kWrite (cpOf s c).machine = none ∧ (cpOf s c).call = none) :=
  ⟨⟨default, [], (stateIn .alone).modMpu (fun m => { m with ctx0 := { m.ctx0 with waiting := [default] } }), by decide, by decide⟩,
   ⟨.n0, reaching id, by decide, by decide⟩,
   ⟨.n1, 15, reaching id, by decide, by decide, by decide⟩,
   ⟨.n1, { (default : Violation) with master := 1 }, reaching id, by decide, by decide, by decide⟩,
   ⟨.n1, { (default : Violation) with master := 1, addr := 0x40010000, kind := 1 }, ⟨1, 0x40010000, 1, true, 31, true⟩, reaching id, by
     decide, by decide, by decide, by decide⟩,
   ⟨.n1, 0x200000, 0, 4, native .alone, by decide, by decide⟩,
   ⟨.n0, 4, true, stateIn .stop, by decide⟩,
   ⟨.n0, 2, true, native .alone, by decide, by decide⟩,
   ⟨.n1, 0x1FFFFC, 7, 0, 4, (native .alone).modMpu (fun m => { m with fwlSet := true }), by decide, Or.inr (Or.inr rfl), by decide, by
     decide, by decide⟩,
   ⟨.n0, 0x40000000, 7, 0, 1, (native .alone).modMpu (fun m => { m with fwlSet := true }), by decide, Or.inl rfl, by decide, by decide, by
     decide, by decide⟩⟩

/-- What `Obligations.ErrorsAndTests` assumes is met. -/
theorem wit_ErrorsAndTests :
    (∃ (u : Nat) (d : W32) (s : State), comparatorArmed s u = true ∧ s.ctl.mode = .selftest) ∧
    (∃ (p : Port) (d : W32) (s : State), s.net.ports.length = 5) ∧
    (∃ (u : Nat) (d : W32) (s : State), comparatorArmed s u = true ∧ s.ctl.mode ≠ .cold ∧ s.ctl.mode ≠ .selftest ∧ s.ctl.mode ≠ .silent) ∧
    (∃ (d : W32) (s : State), s.ctl.mode ≠ .cold ∧ s.ctl.mode ≠ .silent) ∧
    (∃ (d : W32) (s : State), d.toNat < 8) ∧
    (∃ (w : W64) (s : State), s.ctl.mode.aliveList = true ∧ s.pair.permitAt = some w ∧ 80000000 ≤ (s.time.raw - w).toNat) ∧
    (∃ (s : State), s.ctl.mode ≠ .cold ∧ s.ctl.mode ≠ .silent) ∧
    (∃ (s : State), clocksRun s = true ∧ s.cyc.phase = .slack) ∧
    (∃ (u : Nat) (s : State), testAllowed s u = true ∧ 0x20 ≤ u ∧ s.integ.tested.contains u = false ∧ s.integ.tested.length < 39) ∧
    (∃ (u : Nat) (s : State), s.ctl.mode.run = true ∧ (mget s.integ.eccAt u = none ∨ past s (mget s.integ.eccAt u) 16000000000 = true)) ∧
    (∃ (u : Nat) (p : Bool) (w : W64) (s : State), mget s.integ.eccAt u = some w ∧ (s.time.raw - w).toNat < 16000000000) ∧
    (∃ (w : W64) (s : State), s.ctl.mode = .silent ∧ setting s 0x1700 6 0 = 1 ∧ s.integ.reason = 1 ∧ s.integ.latchedAt = some w ∧
      160000000000 ≤ (s.time.raw - w).toNat ∧ s.integ.restarts = []) :=
  ⟨⟨0x10, 0, (native .selftest).modN0 (fun n => { n with lockstep := true }), by decide, by decide⟩,
   ⟨.p0, 0, stateIn .stop, by decide⟩,
   ⟨0x10, 0, (native .alone).modN0 (fun n => { n with lockstep := true }), by decide, by decide, by decide, by decide⟩,
   ⟨0, stateIn .stop, by decide, by decide⟩,
   ⟨7, stateIn .stop, by decide⟩,
   ⟨1920000000000, (stateIn .stop).modPair (fun p => { p with permitAt := some 1920000000000 }), by decide, by decide, by decide⟩,
   ⟨stateIn .stop, by decide, by decide⟩,
   ⟨(stateIn .alone).modCyc (fun c => { c with phase := .slack }), by decide, by decide⟩,
   ⟨0x20, stateIn .alone, by decide, by decide, by decide, by decide⟩,
   ⟨5, stateIn .alone, by decide, Or.inl (by decide)⟩,
   ⟨5, true, 1999999999999, (stateIn .alone).modInteg (fun g => { g with eccAt := [(5, 1999999999999)] }), by decide, by decide⟩,
   ⟨1840000000000, ((stateIn .silent).modInteg (fun g => { g with reason := 1, latchedAt := some 1840000000000 })).modDict (fun d =>
     { d with settings := [(0x170006, 1)] }), by decide, by decide, by decide, by decide, by decide, by decide⟩⟩

/-- What `Obligations.DebugAndServicePins` assumes is met. -/
theorem wit_DebugAndServicePins :
    (∃ (c : Cp) (s : State), dapOpen s = true ∧ debugFrom s.ctl.mode = true) ∧
    (∃ (c : Cp) (s : State), dapOpen s = true ∧ (s.ctl.mode = .bootwait ∨ s.ctl.mode = .verify ∨ s.ctl.mode = .selftest)) ∧
    (∃ (c : Cp) (v : W32) (s : State), dapOpen s = true ∧ s.ctl.mode = .dbg) ∧
    (∃ (c : Cp) (s : State), coreRuns s c = true ∧ dapOpen s = true ∧ debugFrom s.ctl.mode = true ∧ (cpOf s c).dbgArmed = true) ∧
    (∃ (c : Cp) (s : State), coreRuns s c = true ∧ (cpOf s c).dbgArmed = false) ∧
    (∃ (a : W32) (n : Nat) (s : State), dapOpen s = true ∧ clocksRun s = true ∧ lockedAt s a.toNat = true) ∧
    (∃ (s : State), s.ctl.life = .decommissioned ∧ s.mpu.frDap = false) ∧
    (∃ (b : Byte) (s : State), s.pins.pgood = true ∧ b.toNat < 16) ∧
    (∃ (n : Nat) (s : State), s.pins.pgood = true) ∧
    (∃ (v : W32) (s : State), s.pins.pgood = true) :=
  ⟨⟨.n0, (stateIn .stop).modCtl (fun c => { c with life := .blank }), by decide, by decide⟩,
   ⟨.n0, (stateIn .bootwait).modCtl (fun c => { c with life := .blank }), by decide, Or.inl (by decide)⟩,
   ⟨.n1, 7, (stateIn .dbg).modCtl (fun c => { c with life := .blank }), by decide, by decide⟩,
   ⟨.n1, (native .test).modN1 (fun n => { n with dbgArmed := true }), by decide, by decide, by decide, by decide⟩,
   ⟨.n0, (native .alone).modN0 (fun n => { n with dbgArmed := false }), by decide, by decide⟩,
   ⟨0, 4, (stateIn .stop).modMpu (fun m =>
     { m with ctx0 := { m.ctx0 with regions := lupd m.ctx0.regions 0 (fun r => { r with lock := true }) } }), by decide, by decide, by
     decide⟩,
   ⟨(stateIn .stop).modCtl (fun c => { c with life := .decommissioned }), by decide, by decide⟩,
   ⟨15, stateIn .cold, by decide, by decide⟩,
   ⟨16, stateIn .cold, by decide⟩,
   ⟨0, stateIn .cold, by decide⟩⟩

/-! ### The cases inside conclusions -/

/-- A side whose partner runs, with task 0 due at every tick. -/
def ticking (m : Mode) : State :=
  (packaged m (fun p => { p with paired := true, periods := [1] })).modPair (fun p => { p with
    ownOut := true, link := true, lane0 := true, pMode := 7 })

theorem wit_IdleStepIsOneAonTick_cases :
    (∃ s : State, s.pending = [] ∧ s.time.fren = false) ∧ (∃ s : State, s.pending = [] ∧ s.time.fren = true) ∧
    (∃ s : State, s.pending = [] ∧ clocksRun s = true ∧ coreRuns s .n0 = true) ∧
    (∃ s : State, s.pending = [] ∧ clocksRun s = true ∧ coreRuns s .n0 = false) ∧
    (∃ s : State, s.pending = [] ∧ clocksRun s = false) ∧ (∃ s : State, s.pending = [] ∧ s.n1.mstatus.getLsbD 3 = false) :=
  ⟨⟨(stateIn .stop).modTime (fun t => { t with fren := false }), by decide, by decide⟩,
   ⟨(stateIn .stop).modTime (fun t => { t with fren := true }), by decide, by decide⟩,
   ⟨reaching id, by decide, by decide, by decide⟩, ⟨stateIn .stop, by decide, by decide, by decide⟩,
   ⟨stateIn .silent, by decide, by decide⟩, ⟨stateIn .alone, by decide, by decide⟩⟩

theorem wit_SupplyResetPinsAndWipe_cases : ∃ s : State, s.pins.pgood = true ∧ s.ctl.lifePending = none :=
  ⟨stateIn .stop, by decide, by decide⟩

/-- A module in BOOTWAIT whose attestation report waits to be signed. -/
def attesting (h : Option (W48 × W32)) : State := (stateIn .bootwait).modBoot (fun b => { b with
  attState := 1, attHost := h, identityKey := some ⟨[], []⟩ })

theorem wit_ProvisionCertifyAttest_cases :
    (∃ s : State, s.boot.attState = 1 ∧ s.boot.identityKey = some ⟨[], []⟩ ∧ (portOf s .h).broken = false ∧ s.boot.attHost = none) ∧
    (∃ s : State, s.boot.attState = 1 ∧ s.boot.identityKey = some ⟨[], []⟩ ∧ (portOf s .h).broken = false ∧
      s.boot.attHost = some (7, 0) ∧ (s.ctl.mode = .bootwait ∨ s.ctl.mode = .stop)) :=
  ⟨⟨attesting none, by decide, by decide, by decide, by decide⟩,
   ⟨attesting (some (7, 0)), by decide, by decide, by decide, by decide, Or.inl (by decide)⟩⟩

/-- Both outcomes of a settled module, by its life cycle, occur. -/
theorem wit_SettleAndStart_cases : ∃ s : State, s.ctl.mode = .stop ∧ s.ctl.life ≠ .commissioned :=
  ⟨stateIn .stop, by decide, by decide⟩

theorem wit_TicksAndCutoff_cases :
    (∃ s : State, s.ctl.mode.executes = true ∧ (tickReached s).isSome = true ∧ dueAt s (s.cyc.tick + 1).toNat = 0) ∧
    (∃ s : State, s.ctl.mode.executes = true ∧ (tickReached s).isSome = true ∧ dueAt s (s.cyc.tick + 1).toNat ≠ 0 ∧
      s.cyc.released = false) ∧
    (∃ s : State, s.ctl.mode.executes = true ∧ (tickReached s).isSome = true ∧ dueAt s (s.cyc.tick + 1).toNat ≠ 0 ∧
      s.cyc.released = true) ∧
    (∃ s : State, s.cyc.stepped = true ∧ (tickReached s).isSome = true) :=
  ⟨⟨stateIn .alone, by decide, by decide, by decide⟩,
   ⟨(ticking .lead).modCyc (fun c => { c with released := false }), by decide, by decide, by decide, by decide⟩,
   ⟨(ticking .lead).modCyc (fun c => { c with released := true }), by decide, by decide, by decide, by decide⟩,
   ⟨(ticking .lead).modCyc (fun c => { c with stepped := true, lastTickRaw := some 0 }), by decide, by decide⟩⟩

theorem wit_ExecutionBeginsAndEnds_cases :
    (∃ s : State, s.cyc.phase = .agreeing ∧ partnerSkips s = true) ∧
    (∃ s : State, s.cyc.phase = .agreeing ∧ partnerSkips s = false ∧ s.ctl.mode ≠ .catchup ∧ s.cyc.calls = []) ∧
    (∃ s : State, s.cyc.phase = .executing ∧ s.cyc.todo = [] ∧ s.cyc.calls = [] ∧ isPaired s = false) ∧
    (∃ s : State, s.cyc.phase = .executing ∧ s.cyc.todo = [] ∧ s.cyc.calls = [] ∧ s.ctl.mode ≠ .dbg ∧ isPaired s = true ∧
      expectsTick s = true ∧ s.cyc.partnerOut = none) :=
  ⟨⟨(running .lead).modCyc (fun c => { c with phase := .agreeing, partnerTick := some default }), by decide, by decide⟩,
   ⟨(running .lead).modCyc (fun c => { c with phase := .agreeing }), by decide, by decide, by decide, by decide⟩,
   ⟨(stateIn .alone).modCyc (fun c => { c with phase := .executing }), by decide, by decide, by decide, by decide⟩,
   ⟨(running .lead).modCyc (fun c => { c with phase := .executing }), by decide, by decide, by decide, by decide, by decide,
    by decide, by decide⟩⟩

theorem wit_DigestsDecideTheRelease_cases :
    (∃ (h : MjHdr) (s r : State), hear s h = (r, true) ∧ r.cyc.phase ≠ .output) ∧
    (∃ (h : MjHdr) (s r : State), hear s h = (r, true) ∧ r.cyc.phase = .output ∧ r.ctl.mode.run = true ∧ expectsTick r = true ∧
      r.cyc.cutTick = 0 ∧ r.cyc.digest = 7 ∧ r.cyc.engine = 0) ∧
    (∃ s : State, s.cyc.phase = .output ∧ expectsTick s = false) ∧
    (∃ s : State, s.cyc.phase = .output ∧ expectsTick s = true ∧ s.pair.serving ≠ 5 ∧ outputHere s = true ∧ ownerPart s = true) ∧
    (∃ s : State, s.cyc.phase = .output ∧ expectsTick s = true ∧ s.pair.serving ≠ 5 ∧ outputHere s = true ∧ ownerPart s = false ∧
      s.ctl.mode = .twin) :=
  ⟨⟨default, running .lead, _, Prod.ext rfl (by decide), by decide⟩,
   ⟨default, (running .lead).modCyc (fun c => { c with phase := .output, cutTick := 0, digest := 7, engine := 0 }), _,
    Prod.ext rfl (by decide), by decide, by decide, by decide, by decide, by decide, by decide⟩,
   ⟨(stateIn .alone).modCyc (fun c => { c with phase := .output }), by decide, by decide⟩,
   ⟨(running .lead).modCyc (fun c => { c with phase := .output, partnerOut := some (c.cutTick, 0, 0) }), by decide, by decide,
    by decide, by decide, by decide⟩,
   ⟨((running .twin).modPair (fun p => { p with ownOut := false })).modCyc (fun c => { c with
      phase := .output, partnerOut := some (c.cutTick, 0, 0) }), by decide, by decide, by decide, by decide, by decide, by decide⟩⟩

theorem wit_NativeCallsAndWrites_cases :
    (∃ s : State, s.n0.call.isSome = true ∧ s.n0.halted = true) ∧ (∃ s : State, s.n0.call.isSome = true ∧ s.n0.halted = false) ∧
    (∃ (f : Force) (s : State), forceOn s.img 0 = some f) :=
  ⟨⟨(native .alone).modN0 (fun n => { n with call := some default, halted := true }), by decide, by decide⟩,
   ⟨(native .alone).modN0 (fun n => { n with call := some default, halted := false }), by decide, by decide⟩,
   ⟨force0, (native .alone).modImg (fun i => { i with forces := [force0] }), by decide⟩⟩

theorem wit_SampledValueFrames_cases :
    (∃ s : State, sharing s = false) ∧ (∃ s : State, sharing s = true ∧ sampleReady s 0 0 = false) :=
  ⟨⟨sampling, by decide⟩, ⟨running .lead, by decide, by decide⟩⟩

theorem wit_ChannelAnalysis_cases :
    (∃ s : State, s.time.gridDone = none) ∧ (∃ (d : Nat) (s : State), s.time.gridDone = some d ∧ gridIdx 14400 (timeNow s) ≤ d) ∧
    (∃ (a : Nat) (s : State), (chSt s 0).belowSince = some a ∧ a + 32000000000 ≤ (chSt s 0).lastA) ∧
    (∃ (a : Nat) (s : State), (chSt s 0).belowSince = some a ∧ (chSt s 0).lastA < a + 32000000000) :=
  ⟨⟨(stateIn .alone).modTime (fun t => { t with gridDone := none }), by decide⟩,
   ⟨1800000, (stateIn .alone).modTime (fun t => { t with gridDone := some 1800000 }), by decide, by decide⟩,
   ⟨5, sampling.modChans (fun _ => [(0, { ChSt.reset with belowSince := some 5, lastA := 32000000005 })]), by decide, by decide⟩,
   ⟨5, sampling.modChans (fun _ => [(0, { ChSt.reset with belowSince := some 5, lastA := 32000000004 })]), by decide, by decide⟩⟩

theorem wit_LocalConverter_cases :
    (∃ s : State, adcWriter s = some .n0 ∧ mayAccess s Cp.n0.master 0x40050008 kWrite = true ∧
      s.field.holds.any (fun h => h.entry.isNone) = true) ∧
    (∃ s : State, adcWriter s = some .n0 ∧ mayAccess s Cp.n0.master 0x40050008 kWrite = true ∧
      s.field.holds.any (fun h => h.entry.isNone) = false) :=
  ⟨⟨(reaching (fun p => { p with adcWriter := 1 })).modField (fun f => { f with holds := [⟨none, 3, 0⟩] }), by decide, by decide, by decide⟩,
   ⟨reaching (fun p => { p with adcWriter := 1 }), by decide, by decide, by decide⟩⟩

theorem wit_FieldSupplyAndCurrents_cases : ∃ (mv : W16) (s : State), mv.toNat < 14000 ∧ s.field.latch = false :=
  ⟨13999, (stateIn .stop).modField (fun f => { f with latch := false }), by decide, by decide⟩

theorem wit_LanesLinkAndCopies_cases :
    (∃ s : State, miojoOn s = true ∧ s.pair.hello = none) ∧
    (∃ s : State, miojoOn s = true ∧ s.pair.lane0 = false ∧ s.pair.hello.isSome = true ∧ isPaired s = true ∧ s.boot.settled = true ∧
      s.ctl.mode.aliveList = true ∧ s.ctl.stoppedAt = none) :=
  ⟨⟨pairSide .stop, by decide, by decide⟩,
   ⟨((pairSide .stop).modBoot (fun b => { b with settled := true })).modPair (fun p => { p with hello := some default }),
    by decide, by decide, by decide, by decide, by decide, by decide, by decide⟩⟩

theorem wit_HelloAndTicks_cases :
    (∃ (h : MjHdr) (s r : State), hear s h = (r, true) ∧ r.pair.saidHello = true) ∧
    (∃ (h : MjHdr) (s r : State), hear s h = (r, true) ∧ r.pair.link = false ∧ r.pair.saidHello = false ∧ r.boot.settled = false) ∧
    (∃ (h : MjHdr) (s r : State), hear s h = (r, true) ∧ r.ctl.mode.run = true ∧ ownerPart r = true ∧ r.cyc.phase ≠ .agreeing) ∧
    (∃ (h : MjHdr) (k : TickMsg) (s r : State), hear s h = (r, true) ∧ r.ctl.mode.run = true ∧ ownerPart r = true ∧
      r.cyc.phase = .agreeing ∧ k.tick = r.cyc.cutTick ∧ k.prevReleased = true) :=
  ⟨⟨default, (pairSide .stop).modPair (fun p => { p with saidHello := true }), _, Prod.ext rfl (by decide), by decide⟩,
   ⟨default, pairSide .stop, _, Prod.ext rfl (by decide), by decide, by decide, by decide⟩,
   ⟨default, running .lead, _, Prod.ext rfl (by decide), by decide, by decide, by decide⟩,
   ⟨default, { (default : TickMsg) with tick := 0, prevReleased := true }, (running .lead).modCyc (fun c => { c with
      phase := .agreeing, cutTick := 0 }), _, Prod.ext rfl (by decide), by decide, by decide, by decide, by decide, by decide⟩⟩

theorem wit_SequencedWrites_cases :
    (∃ (q : PairReq) (s : State), owns s = true ∧ s.ctl.mode.run = true ∧ repeatOf s q = none ∧ ownerRefuses s q = 0) ∧
    (∃ (q : PairReq) (s : State), owns s = true ∧ s.ctl.mode.run = true ∧ repeatOf s q = none ∧ ownerRefuses s q ≠ 0) ∧
    (∃ (w : W64) (s : State), (s.time.raw - w).toNat < 320000) ∧ (∃ (w : W64) (s : State), 320000 ≤ (s.time.raw - w).toNat) :=
  ⟨⟨⟨1, 1, 0x2210, 4, 6, [1]⟩, running .lead, by decide, by decide, by decide, by decide⟩,
   ⟨⟨1, 1, 0x2218, 4, 6, [1]⟩, running .lead, by decide, by decide, by decide, by decide⟩,
   ⟨1999999680001, running .lead, by decide⟩, ⟨1999999680000, running .lead, by decide⟩⟩

theorem wit_CatchUpOwningSide_cases :
    (∃ (d : Nat) (s : State), s.pair.serving = 2 ∧ 4194304 < d ∧ 16 ≤ s.pair.pass) ∧
    (∃ (d : Nat) (s : State), s.pair.serving = 2 ∧ 4194304 < d ∧ s.pair.pass < 16) :=
  ⟨⟨4194305, (running .lead).modPair (fun p => { p with serving := 2, pass := 16 }), by decide, by decide, by decide⟩,
   ⟨4194305, (running .lead).modPair (fun p => { p with serving := 2, pass := 15 }), by decide, by decide, by decide⟩⟩

/-- Log items of a tick that marks the replay. -/
def marked (n : Nat) : List (W64 × List LogItem) := (List.range n).map (fun i => (BitVec.ofNat 64 (i + 1), [.skipped]))

theorem wit_CatchUpJoiningSide_cases :
    (∃ s : State, 64 < (s.pair.log.filter (fun x => logMarks x.2 && decide (s.cyc.cutTick.toNat < x.1.toNat))).length) ∧
    (∃ s : State, (s.pair.log.filter (fun x => logMarks x.2 && decide (s.cyc.cutTick.toNat < x.1.toNat))).length = 64) ∧
    (∃ s : State, s.pair.log = [] ∧ metLive s = true) ∧ (∃ s : State, s.pair.log = [] ∧ metLive s = false) :=
  ⟨⟨((joining 4).modPair (fun p => { p with log := marked 65 })).modCyc (fun c => { c with cutTick := 0 }), by decide⟩,
   ⟨((joining 4).modPair (fun p => { p with log := marked 64 })).modCyc (fun c => { c with cutTick := 0 }), by decide⟩,
   ⟨(joining 4).modCyc (fun c => { c with tick := 0, cutTick := 0 }), by decide, by decide⟩,
   ⟨(packaged .catchup (fun p => { p with periods := [1] })).modCyc (fun c => { c with tick := 1, cutTick := 0 }), by decide, by decide⟩⟩

/-- A publication frame of pair address 0, publication 0, with no words. -/
def pubFrame : Frame :=
  let b : Bytes := [1, 0] ++ List.replicate 18 0
  { (default : Frame) with src := 0x02ED72400000, etype := 0, fcsOk := true, payload := b ++ beBytes 4 (crc32c b).toNat }

theorem wit_PublicationsReceived_cases :
    (∃ (f : Frame) (c : SubCfg), ¬(c.kind = 1 ∧ c.pair.toNat = pfPair f.payload ∧ c.pub = pfPub f.payload)) ∧
    (∃ (f : Frame) (c : SubCfg), (c.kind = 1 ∧ c.pair.toNat = pfPair f.payload ∧ c.pub = pfPub f.payload) ∧
      pubFits subscribed f c = false) ∧
    (∃ (f : Frame) (c : SubCfg), (c.kind = 1 ∧ c.pair.toNat = pfPair f.payload ∧ c.pub = pfPub f.payload) ∧
      pubFits subscribed f c = true ∧ (subSt subscribed 0).last = none) ∧
    (∃ (g : GooseMsg) (c : SubCfg), (c.kind = 2 ∧ c.gocbRef = g.gocbRef) ∧ (g.dst == c.dst && g.appid == c.appid &&
      g.datSet == c.datSet && g.confRev == c.confRev && (if g.sim then inTest subscribed else
        !(inTest subscribed && (subSt subscribed 0).simulated))) = true ∧ (subSt subscribed 0).last = none) ∧
    (∃ (g : GooseMsg) (c : SubCfg), (c.kind = 2 ∧ c.gocbRef = g.gocbRef) ∧ (if g.sim then inTest subscribed else
        !(inTest subscribed && (subSt subscribed 0).simulated)) = false) :=
  ⟨⟨default, default, by decide⟩, ⟨default, { (default : SubCfg) with kind := 1 }, by decide, by decide⟩,
   ⟨pubFrame, { (default : SubCfg) with kind := 1 }, by decide, by decide +kernel, by decide⟩,
   ⟨default, { (default : SubCfg) with kind := 2 }, by decide, by decide, by decide⟩,
   ⟨{ (default : GooseMsg) with sim := true }, { (default : SubCfg) with kind := 2 }, by decide, by decide⟩⟩

theorem wit_RingFrames_cases :
    (∃ s : State, sepHas s s.net.cw 7 1 = false ∧ (portOf s .p1).link = true) ∧ (∃ s : State, sepHas s s.net.cw 7 1 = true) ∧
    (∃ s : State, sepHas s s.net.rxRec 7 1 = true) ∧ (∃ s : State, sepHas s s.net.rxRec 7 1 = false) :=
  ⟨⟨(stateIn .stop).modNet (fun n => { n with ports := n.ports.map (fun p => { p with link := true }) }), by decide, by decide⟩,
   ⟨(stateIn .stop).modNet (fun n => { n with cw := [⟨7, 1, 1993600000001⟩] }), by decide⟩,
   ⟨(stateIn .stop).modNet (fun n => { n with rxRec := [⟨7, 1, 1993600000001⟩] }), by decide⟩,
   ⟨(stateIn .stop).modNet (fun n => { n with rxRec := [⟨7, 1, 1993600000000⟩] }), by decide⟩⟩

/-- A module whose ring ports show locks and a held medium. -/
def locked (k : Option Nat) (h : Option Nat) : State :=
  (stateIn .stop).modNet (fun n => { n with ports := n.ports.map (fun p => { p with locked := k }), heldMedium := h, trying := 0 })

theorem wit_Ports_cases :
    (∃ p : Port, p.ring = false) ∧
    (∃ s : State, Port.p0.ring = true ∧ s.net.ports.length = 5 ∧ (1 : Nat) ≠ ringMedium s .p0) ∧
    (∃ s : State, Port.p0.ring = true ∧ s.net.ports.length = 5 ∧ 0 = ringMedium s .p0 ∧ (portOf s .p1).locked = none ∧
      s.net.heldMedium = none) ∧
    (∃ s : State, Port.p0.ring = true ∧ s.net.ports.length = 5 ∧ 0 = ringMedium s .p0 ∧ (portOf s .p1).locked = none ∧
      s.net.heldMedium ≠ none) ∧
    (∃ s : State, Port.p0.ring = true ∧ s.net.ports.length = 5 ∧ 0 = ringMedium s .p0 ∧ (portOf s .p1).locked = some 0) ∧
    (∃ s : State, Port.p0.ring = true ∧ s.net.ports.length = 5 ∧ 0 = ringMedium s .p0 ∧ (portOf s .p1).locked = some 1) ∧
    (∃ (a : W32) (s : State), ipOn s .p0 = some a) ∧ (∃ s : State, ipOn s .p0 = none) :=
  ⟨⟨.h, by decide⟩, ⟨locked none none, by decide, by decide, by decide⟩,
   ⟨locked none none, by decide, by decide, by decide, by decide, by decide⟩,
   ⟨locked none (some 0), by decide, by decide, by decide, by decide, by decide⟩,
   ⟨locked (some 0) none, by decide, by decide, by decide, by decide⟩,
   ⟨locked (some 1) none, by decide, by decide, by decide, by decide⟩,
   ⟨5, packaged .stop (fun p => { p with ipA := 5 }), by decide⟩, ⟨stateIn .stop, by decide⟩⟩

theorem wit_CanReceptionAndErrors_cases :
    (∃ (f : CanFrame) (s : State), (List.range 32).find? (filterMatches s.can0 f) = none) ∧
    (∃ (f : CanFrame) (s : State), (List.range 32).find? (filterMatches s.can0 f) = some 31 ∧ 64 ≤ s.can0.pails.length) ∧
    (∃ (f : CanFrame) (s : State), (List.range 32).find? (filterMatches s.can0 f) = some 31 ∧ s.can0.pails.length < 64) :=
  ⟨⟨default, stateIn .stop, by decide⟩,
   ⟨default, (stateIn .stop).modCan0 (fun c => { c with
      fid := [(31, 0x80000000)], pails := List.replicate 64 default }), by decide, by decide⟩,
   ⟨default, (stateIn .stop).modCan0 (fun c => { c with
      fid := [(31, 0x80000000)], pails := List.replicate 63 default }), by decide, by decide⟩⟩

/-- A module whose package gives CAN 0 to N0, which runs. -/
def canRun (f : CanSt → CanSt) : State :=
  (reaching (fun p => { p with can := [{ (default : CanCfg) with owner := 1 }] })).modCan0 f

theorem wit_CanTransmission_cases :
    (∃ s : State, canOwner s 0 = some .n0 ∧ mayAccess s Cp.n0.master 0x40040000 kWrite = true ∧ (canOf s 0).onBus = none ∧
      (canOf s 0).state ≠ 5) ∧
    (∃ s : State, canOwner s 0 = some .n0 ∧ mayAccess s Cp.n0.master 0x40040000 kWrite = true ∧ (canOf s 0).onBus ≠ none ∧
      (canOf s 0).wokeAt ≠ some s.time.raw) ∧
    (∃ s : State, canOwner s 0 = some .n0 ∧ mayAccess s Cp.n0.master 0x40040000 kWrite = true ∧
      (canOf s 0).wokeAt = some s.time.raw ∧ (canOf s 0).state ≠ 5) ∧
    (∃ s : State, submitRefused s 0 28 = true) ∧ (∃ s : State, submitRefused s 0 27 = false) ∧
    (∃ s : State, (canOf s 0).onBus = some 3 ∧ (mget (canOf s 0).slots 3).isSome = true) ∧
    (∃ s : State, (canOf s 0).onBus ≠ some 4 ∧ (mget (canOf s 0).slots 4).isSome = true) ∧
    (∃ s : State, (canOf s 0).onBus = none ∧ (canOf s 0).state ≠ 5 ∧ (canOf s 0).state ≠ 4) ∧
    (∃ s : State, (canOf s 0).state = 4) :=
  ⟨⟨canRun (fun c => { c with state := 0 }), by decide, by decide, by decide, by decide⟩,
   ⟨canRun (fun c => { c with onBus := some 0 }), by decide, by decide, by decide, by decide⟩,
   ⟨canRun (fun c => { c with state := 0, wokeAt := some 2000000000000 }), by decide, by decide, by decide, by decide⟩,
   ⟨stateIn .stop, by decide⟩, ⟨stateIn .stop, by decide⟩,
   ⟨(stateIn .stop).modCan0 (fun c => { c with onBus := some 3, slots := [(3, default)] }), by decide, by decide⟩,
   ⟨(stateIn .stop).modCan0 (fun c => { c with onBus := some 3, slots := [(4, default)] }), by decide, by decide⟩,
   ⟨(stateIn .stop).modCan0 (fun c => { c with state := 0 }), by decide, by decide, by decide⟩,
   ⟨(stateIn .stop).modCan0 (fun c => { c with state := 4 }), by decide⟩⟩

theorem wit_Bells_cases :
    (∃ s : State, s.ctl.mode.run = true ∧ (pkgOf s).isSome = true) ∧ (∃ s : State, s.ctl.mode.run = false ∧ (pkgOf s).isSome = true) :=
  ⟨⟨running .lead, by decide, by decide⟩, ⟨pairSide .stop, by decide, by decide⟩⟩

theorem wit_PeerDelayAndTransparentClock_cases :
    (∃ s : State, s.time.pdelay.length = 4 ∧ ptpUp s 3 = true ∧ (s.time.pdelay.getD 3 Pdelay.reset).sentAt = none) ∧
    (∃ s : State, s.time.pdelay.length = 4 ∧ ptpUp s 3 = false) :=
  ⟨⟨(stateIn .stop).modNet (fun n => { n with ports := n.ports.map (fun p => { p with link := true }) }), by decide, by decide, by decide⟩,
   ⟨stateIn .stop, by decide, by decide⟩⟩

theorem wit_ReferenceAndPulses_cases :
    (∃ d : Int, -5497558 ≤ d ∧ d ≤ 5497558) ∧
    (∃ s : State, mayAccess s .n1 0x40030010 kRead = true ∧ mayAccess s .n1 0x40030030 kRead = true ∧
      mayAccess s .n1 0x40030070 kRead = true ∧ mayAccess s .n1 0x40030094 kRead = true) :=
  ⟨⟨5497558, by decide, by decide⟩, ⟨reaching id, by decide, by decide, by decide, by decide⟩⟩

theorem wit_MailboxOfACorePair_cases : ∃ s : State, s.n0.call.isSome = true ∧ mayAccess s Cp.n0.master 0x40080000 kWrite = true ∧
    mayAccess s Cp.n0.master 0x40080000 kRead = true :=
  ⟨(reaching id).modN0 (fun n => { n with call := some default }), by decide, by decide, by decide⟩

theorem wit_LogAndRecords_cases : ∃ (r : LogReq) (s : State), s.ctl.mode ≠ .silent ∧ s.pins.pgood = true ∧ s.log.lostSince = 0 ∧
    s.log.queue = [r] ∧ r.app = some .n1 :=
  ⟨{ (default : LogReq) with app := some .n1 }, (stateIn .stop).modLog (fun l => { l with
      queue := [{ (default : LogReq) with app := some .n1 }] }), by decide, by decide, by decide, by decide, by decide⟩

theorem wit_DmaEngineAndEvents_cases : ∃ s : State, mayAccess s .mgmt 0x40070080 kWrite = true ∧
    (s.evf.routes.getD 15 Route.reset).enable = true ∧ (s.evf.routes.getD 15 Route.reset).src.toNat = 46 + 7 :=
  ⟨(stateIn .alone).modEvf (fun e => { e with routes := List.replicate 16 ⟨53, true⟩ }), by decide, by decide, by decide⟩

theorem wit_TestCommandsAreSequenced :
    (∃ (c : Client) (s : State), mayWrite s c 0x1100 5 2 = true ∧ sequences s ⟨c.role, c.reqid, 0x1100, 5, 6, [1]⟩ = true) ∧
    (∃ (c : Client) (s : State), mayWrite s c 0x1100 5 2 = true ∧ sequences s ⟨c.role, c.reqid, 0x1100, 5, 6, [0]⟩ = true) :=
  ⟨⟨client 2, served .alone 2, by decide, by decide⟩, ⟨client 2, served .test 2, by decide, by decide⟩⟩

theorem wit_InterruptsAndClocks_cases : ∃ s : State, (s.n0.intc.claimed.getLsbD 1 = true) ∧ 0 < mgetD s.n0.intc.holds 1 0 :=
  ⟨(native .alone).modN0 (fun n => { n with intc := { n.intc with claimed := setBit n.intc.claimed 1 true, holds := [(1, 5)] } }),
   by decide, by decide⟩

theorem wit_DebugAndServicePins_cases :
    (∃ s : State, s.ctl.mode = .catchup) ∧ (∃ s : State, s.ctl.mode = .stop ∨ s.ctl.mode = .catchup ∨ s.ctl.mode = .test) ∧
    (∃ s : State, s.pins.pgood = true ∧ s.pins.i2cPtr = 0) :=
  ⟨⟨stateIn .catchup, by decide⟩, ⟨stateIn .stop, by decide⟩,
   ⟨(stateIn .cold).modPins (fun p => { p with i2cPtr := 0 }), by decide, by decide⟩⟩

theorem wit_DivisionByZero_cases :
    (∃ a b : W32, isZero32 b = true ∧ isNan32 a = false ∧ isZero32 a = false) ∧
    (∃ a b : W32, isZero32 b = true ∧ isNan32 a = true) ∧ (∃ a b : W32, isZero32 b = true ∧ isZero32 a = true) :=
  ⟨⟨0x7F800000, 0x80000000, by decide, by decide, by decide⟩, ⟨0x7FC00000, 0, by decide, by decide⟩,
   ⟨0x80000000, 0x80000000, by decide, by decide⟩⟩

end Sys2Proof.Tests
end

section
/-!
SUPPORT. One scan of a timer, of a counter and of a division by zero: the slot words they pack, the tag they form, and the statements about
them.
-/

namespace Sys2Proof.Machine

/-! ### Operands -/

@[simp] theorem readOperand_false_some (w : TWord) : readOperand false (some w) = w := rfl

/-! ### Slot words: a field of `m` bits below two flags (R110, R113) -/

/-- A slot word whose low `m` bits hold `k` and whose bits `m` and `m + 1` hold the flags `p` and `q`. -/
def flagSlot (m k : Nat) (p q : Bool) : W64 := BitVec.ofNat 64 (k + b2n p * 2 ^ m + b2n q * 2 ^ (m + 1))

section
variable {m k : Nat} (p q : Bool)

theorem flagSlot_sum_eq : k + b2n p * 2 ^ m + b2n q * 2 ^ (m + 1) = 2 ^ m * (2 * b2n q + b2n p) + k := by ring

theorem testBit_flags (j : Nat) (hj : j < 2) :
    (2 * b2n q + b2n p).testBit j = if j = 0 then p else q := by
  obtain rfl | rfl : j = 0 ∨ j = 1 := by omega
  all_goals cases p <;> cases q <;> decide

theorem flagSlot_getLsbD (hk : k < 2 ^ m) (hm : m + 2 ≤ 64) (j : Nat) (hj : j < 2) :
    (flagSlot m k p q).getLsbD (m + j) = if j = 0 then p else q := by
  rw [flagSlot, flagSlot_sum_eq, BitVec.getLsbD_ofNat, Nat.testBit_two_pow_mul_add _ hk]
  simp [show m + j < 64 by omega, testBit_flags p q j hj]

theorem flagSlot_getLsbD_first (hk : k < 2 ^ m) (hm : m + 2 ≤ 64) : (flagSlot m k p q).getLsbD m = p := by
  simpa using flagSlot_getLsbD p q hk hm 0 (by decide)

theorem flagSlot_getLsbD_second (hk : k < 2 ^ m) (hm : m + 2 ≤ 64) : (flagSlot m k p q).getLsbD (m + 1) = q := by
  simpa using flagSlot_getLsbD p q hk hm 1 (by decide)

theorem flagSlot_toNat_mod (hk : k < 2 ^ m) (hm : m + 2 ≤ 64) : (flagSlot m k p q).toNat % 2 ^ m = k := by
  rw [flagSlot, flagSlot_sum_eq, BitVec.toNat_ofNat, Nat.mod_mod_of_dvd _ (Nat.pow_dvd_pow 2 (by omega)),
    Nat.mul_add_mod, Nat.mod_eq_of_lt hk]

end

/-! ### Timers (R109, R110) -/

/-- PT in microseconds: operand B, in milliseconds when PTU, bit 0 of the option, is 1 (R109). -/
def timerPt (param : Nat) (b : TWord) : Nat := if param / 2 ^ 18 % 2 = 1 then b.val.toNat * 1000 else b.val.toNat

theorem timerPt_lt (param : Nat) (b : TWord) : timerPt param b < 2 ^ 48 := by
  have := b.val.isLt
  unfold timerPt
  split <;> omega

theorem timerScan_fst_le (op : Nat) (inp prev q : Bool) (et t pt : Nat) : (timerScan op inp prev q et t pt).1 ≤ pt := by
  unfold timerScan
  split <;> dsimp only <;> split_ifs
  all_goals simp

/-- What one scan of a timer of type `op` makes of its operands and its slot: ET and Q. -/
def timerResult (op param n : Nat) (a b : TWord) (slot : W64) : Nat × Bool :=
  timerScan op (a.val.getLsbD 0) (slot.getLsbD 48) (slot.getLsbD 49) (slot.toNat % 2 ^ 48) (n * 250) (timerPt param b)

theorem timerPt_eq_option (param : Nat) (b : TWord) :
    timerPt param b = b.val.toNat * (if param / 2 ^ 18 % 16 % 2 = 1 then 1000 else 1) := by
  have hopt : param / 2 ^ 18 % 16 % 2 = param / 2 ^ 18 % 2 := by omega
  rw [timerPt, hopt]
  split <;> simp

section
variable {op typ param n : Nat} {test : Bool} {a b : TWord} {oc od oe : Option TWord} {slot : W64}

theorem evalBlock_timer (hop : op = 0x09 ∨ op = 0x0A ∨ op = 0x0B) :
    evalBlock op typ 0 param n test (some a) (some b) oc od oe slot =
      (⟨resTag test [a.tag, b.tag] false 0, bWord (timerResult op param n a b slot).2⟩,
       flagSlot 48 (timerResult op param n a b slot).1 (a.val.getLsbD 0) (timerResult op param n a b slot).2) := by
  have het : (timerResult op param n a b slot).1 % 2 ^ 48 = (timerResult op param n a b slot).1 :=
    Nat.mod_eq_of_lt ((timerScan_fst_le ..).trans_lt (timerPt_lt param b))
  rw [flagSlot, ← het]
  unfold timerResult
  rw [timerPt_eq_option]
  obtain rfl | rfl | rfl := hop <;> rfl

/-- A scan whose result is ET `e` and Q `r` writes Q and leaves ET, PREV and Q in the slot (R109, R110). -/
theorem evalBlock_timer_of_result {e : Nat} {r : Bool} (hop : op = 0x09 ∨ op = 0x0A ∨ op = 0x0B)
    (h : timerResult op param n a b slot = (e, r)) :
    (evalBlock op typ 0 param n test (some a) (some b) oc od oe slot).1.val = (if r then 1 else 0) ∧
    (evalBlock op typ 0 param n test (some a) (some b) oc od oe slot).2.toNat % 2 ^ 48 = e ∧
    (evalBlock op typ 0 param n test (some a) (some b) oc od oe slot).2.getLsbD 48 = a.val.getLsbD 0 ∧
    (evalBlock op typ 0 param n test (some a) (some b) oc od oe slot).2.getLsbD 49 = r := by
  have he : e < 2 ^ 48 := by
    have hle : (timerResult op param n a b slot).1 ≤ timerPt param b := timerScan_fst_le ..
    rw [h] at hle
    exact hle.trans_lt (timerPt_lt param b)
  rw [evalBlock_timer hop, h]
  exact ⟨rfl, flagSlot_toNat_mod _ _ he (by decide), flagSlot_getLsbD_first _ _ he (by decide),
    flagSlot_getLsbD_second _ _ he (by decide)⟩

end

/-- Settles O58: R109 is read off the branches of `timerScan`, one case of IN, PREV and Q at a time. -/
theorem timersScan : Obligations.TimersScan := by
  unfold Obligations.TimersScan
  intro test typ param n a b oc od oe slot inp prev q t pt et scan leaves
  have leaves_of_scan {op e : Nat} {r : Bool} (hop : op = 0x09 ∨ op = 0x0A ∨ op = 0x0B)
      (h : timerScan op inp prev q (slot.toNat % 2 ^ 48) t pt = (e, r)) : leaves op e r :=
    evalBlock_timer_of_result hop h
  have tof {e : Nat} {r : Bool} := leaves_of_scan (e := e) (r := r) (op := 0x0A) (by decide)
  have tp {e : Nat} {r : Bool} := leaves_of_scan (e := e) (r := r) (op := 0x0B) (by decide)
  refine ⟨leaves_of_scan (.inl rfl) rfl, ?_, ?_⟩
  · split_ifs with hin hprev hq
    · exact tof (if_pos hin)
    · exact tof ((if_neg hin).trans (if_pos hprev))
    · exact tof ((if_neg hin).trans ((if_neg hprev).trans (if_pos hq)))
    · exact tof ((if_neg hin).trans ((if_neg hprev).trans (if_neg hq)))
  · split_ifs with hstart hq hin
    · exact tp (if_pos hstart)
    · exact tp ((if_neg hstart).trans (if_pos hq))
    · exact tp ((if_neg hstart).trans ((if_neg hq).trans (if_pos hin)))
    · exact tp ((if_neg hstart).trans ((if_neg hq).trans (if_neg hin)))

/-! ### Counters (R113) -/

theorem toInt_mem_cvRange (v : W32) : cvMin ≤ v.toInt ∧ v.toInt ≤ cvMax := ⟨v.le_toInt, v.toInt_le⟩

theorem toInt_ofInt_of_mem_cvRange {i : Int} (h : cvMin ≤ i ∧ i ≤ cvMax) : (BitVec.ofInt 32 i).toInt = i :=
  BitVec.toInt_ofInt_eq_self (by decide) h.1 (Int.lt_add_one_of_le h.2)

/-- A scan keeps the count within its limits: it steps only where the limit is not yet reached (R113). -/
theorem counterScan_mem_cvRange (op : Nat) (a b c prevu prevd : Bool) {cv pv : Int} (hcv : cvMin ≤ cv ∧ cv ≤ cvMax)
    (hpv : cvMin ≤ pv ∧ pv ≤ cvMax) :
    cvMin ≤ counterScan op a b c prevu prevd cv pv ∧ counterScan op a b c prevu prevd cv pv ≤ cvMax := by
  have hzero : cvMin ≤ 0 ∧ 0 ≤ cvMax := by decide
  have hup {p : Bool} (h : (p && decide (cv < cvMax)) = true) : cvMin ≤ cv + 1 ∧ cv + 1 ≤ cvMax := by
    simp only [Bool.and_eq_true, decide_eq_true_eq] at h
    omega
  have hdown {p : Bool} (h : (p && decide (cv > cvMin)) = true) : cvMin ≤ cv - 1 ∧ cv - 1 ≤ cvMax := by
    simp only [Bool.and_eq_true, decide_eq_true_eq] at h
    omega
  unfold counterScan
  split
  · split_ifs with _ hcount
    exacts [hzero, hup hcount, hcv]
  · split_ifs with _ hcount
    exacts [hpv, hdown hcount, hcv]
  · dsimp only
    split_ifs with _ hcountUp hcountDown
    exacts [hzero, hup hcountUp, hdown hcountDown, hcv]

/-- The count that one scan of a counter of type `op` makes of its operands and its slot; PV is operand C, and in CTUD the first further
operand (R113). -/
def counterResult (op : Nat) (a b c d : TWord) (slot : W64) : Int :=
  counterScan op (a.val.getLsbD 0) (b.val.getLsbD 0) (c.val.getLsbD 0) (slot.getLsbD 32) (slot.getLsbD 33)
    (slot.truncate 32 : W32).toInt (if op = 0x0E then d.val.toInt else c.val.toInt)

theorem counterResult_mem_cvRange (op : Nat) (a b c d : TWord) (slot : W64) :
    cvMin ≤ counterResult op a b c d slot ∧ counterResult op a b c d slot ≤ cvMax :=
  counterScan_mem_cvRange _ _ _ _ _ _ (toInt_mem_cvRange _) (by split <;> exact toInt_mem_cvRange _)

section
variable {op typ param n : Nat} {test : Bool} {a b c d : TWord} {oe : Option TWord} {slot : W64}

theorem evalBlock_counter_slot (hop : op = 0x0C ∨ op = 0x0D ∨ op = 0x0E) :
    (evalBlock op typ 0 param n test (some a) (some b) (some c) (some d) oe slot).2 =
      flagSlot 32 (BitVec.ofInt 32 (counterResult op a b c d slot)).toNat
        (if op = 0x0D then false else a.val.getLsbD 0)
        (if op = 0x0C then false else if op = 0x0D then a.val.getLsbD 0 else b.val.getLsbD 0) := by
  obtain rfl | rfl | rfl := hop <;> rfl

/-- One scan leaves CV and the previous count inputs in the slot; the flag of an input that the type does not count is clear (R113). -/
theorem evalBlock_counter_leaves (hop : op = 0x0C ∨ op = 0x0D ∨ op = 0x0E) :
    (((evalBlock op typ 0 param n test (some a) (some b) (some c) (some d) oe slot).2.truncate 32 : W32).toInt =
      counterResult op a b c d slot) ∧
    (evalBlock op typ 0 param n test (some a) (some b) (some c) (some d) oe slot).2.getLsbD 32 =
      (if op = 0x0D then false else a.val.getLsbD 0) ∧
    (evalBlock op typ 0 param n test (some a) (some b) (some c) (some d) oe slot).2.getLsbD 33 =
      (if op = 0x0C then false else if op = 0x0D then a.val.getLsbD 0 else b.val.getLsbD 0) := by
  have hk := (BitVec.ofInt 32 (counterResult op a b c d slot)).isLt
  rw [evalBlock_counter_slot hop]
  refine ⟨?_, flagSlot_getLsbD_first _ _ hk (by decide), flagSlot_getLsbD_second _ _ hk (by decide)⟩
  have hcount : ∀ p q, ((flagSlot 32 (BitVec.ofInt 32 (counterResult op a b c d slot)).toNat p q).truncate 32 : W32) =
      BitVec.ofInt 32 (counterResult op a b c d slot) := fun p q => by
    rw [BitVec.toNat_eq, BitVec.toNat_setWidth, flagSlot_toNat_mod p q hk (by decide)]
  rw [hcount, toInt_ofInt_of_mem_cvRange (counterResult_mem_cvRange ..)]

end

/-- Settles O59: the slot holds the count of `counterScan`, which fits its 32 bits. -/
theorem countersScan : Obligations.CountersScan := by
  unfold Obligations.CountersScan
  intro test typ param n a b c d oe slot x y z cv pu pd after count
  obtain ⟨ctuCount, ctuUp, -⟩ : count 0x0C = counterResult 0x0C a b c d slot ∧ _ := evalBlock_counter_leaves (.inl rfl)
  obtain ⟨ctdCount, -, ctdDown⟩ : count 0x0D = counterResult 0x0D a b c d slot ∧ _ :=
    evalBlock_counter_leaves (.inr (.inl rfl))
  obtain ⟨ctudCount, ctudUp, ctudDown⟩ : count 0x0E = counterResult 0x0E a b c d slot ∧ _ :=
    evalBlock_counter_leaves (.inr (.inr rfl))
  exact ⟨ctuCount, ctuUp, ctdCount, ctdDown, ctudCount, ctudUp, ctudDown⟩

/-! ### Result tags (R32) -/

theorem tagSev_le_two (t : Byte) : tagSev t ≤ 2 := Nat.min_le_right ..

theorem withVal_toNat_div (t : Byte) (v : Nat) : (withVal t v).toNat / 64 = v % 4 := by
  have hlow : (t &&& 0x3F).toNat / 64 = 0 := by
    rw [BitVec.toNat_and, show (0x3F : Byte).toNat = 2 ^ 6 - 1 from rfl, Nat.and_two_pow_sub_one_eq_mod]
    omega
  have hhigh : (BitVec.ofNat 8 (v % 4 * 64)).toNat / 64 = v % 4 := by
    rw [BitVec.toNat_ofNat]
    omega
  rw [withVal, BitVec.toNat_or, show 64 = 2 ^ 6 from rfl, Nat.or_div_two_pow]
  exact (congrArg₂ (· ||| ·) hlow hhigh).trans (Nat.zero_or _)

theorem withVal_bit_one {t : Byte} (v : Nat) (h : bitOf t 1 = true) : bitOf (withVal t v) 1 = true := by
  simp_all [bitOf, withVal]

/-- An own severity INVALID makes VAL INVALID whatever the operands' tags are. -/
theorem resTag_invalid (test : Bool) (ts : List Byte) (lim : Bool) : (resTag test ts lim 2).toNat / 64 = 2 := by
  rw [resTag, worsen, withVal_toNat_div, max_eq_right (tagSev_le_two _)]

/-- A producer's own LIM is set whatever the operands' tags are. -/
theorem resTag_lim (test : Bool) (ts : List Byte) (sev : Nat) : bitOf (resTag test ts true sev) 1 = true :=
  withVal_bit_one _ (by simp [bitOf, tIf, tLIM])

/-! ### Division by zero (R117) -/

theorem isZero32_iff (v : W32) : isZero32 v = true ↔ v = 0 ∨ v = 0x80000000 := by
  have hmag : (v &&& 0x7FFFFFFF).toNat = v.toNat % 2 ^ 31 := by
    rw [BitVec.toNat_and, show (0x7FFFFFFF : W32).toNat = 2 ^ 31 - 1 from rfl, Nat.and_two_pow_sub_one_eq_mod]
  rw [isZero32, beq_iff_eq, ← BitVec.toNat_inj, hmag, ← BitVec.toNat_inj, ← BitVec.toNat_inj]
  change v.toNat % 2 ^ 31 = 0 ↔ v.toNat = 0 ∨ v.toNat = 2147483648
  omega

theorem isNan32_of_isZero32 {v : W32} (h : isZero32 v = true) : isNan32 v = false := by
  obtain rfl | rfl := (isZero32_iff v).mp h <;> decide

theorem isInf32_of_isZero32 {v : W32} (h : isZero32 v = true) : isInf32 v = false := by
  obtain rfl | rfl := (isZero32_iff v).mp h <;> decide

theorem f32div_zero_divisor {a b : W32} (hb : isZero32 b = true) :
    f32div a b = if isNan32 a || isZero32 a then nan32 else inf32 (xor (f32neg a) (f32neg b)) := by
  unfold f32div
  by_cases hnan : isNan32 a = true
  · simp [hnan]
  · by_cases hinf : isInf32 a = true
    · have hzero : isZero32 a = false := Bool.eq_false_iff.mpr fun h => by simp [isInf32_of_isZero32 h] at hinf
      simp [hnan, hinf, hzero, isNan32_of_isZero32 hb, isInf32_of_isZero32 hb]
    · simp [hnan, hinf, hb, isNan32_of_isZero32 hb, isInf32_of_isZero32 hb]

/-- The value of an integer dividend divided by zero: 0 for 0, else the bound of the range on the dividend's side (R117). -/
def divZeroInt (typ : Nat) (v : W32) : W32 :=
  if intVal typ v = 0 then 0 else BitVec.ofInt 32 (if intVal typ v < 0 then (intRange typ).1 else (intRange typ).2)

theorem divZeroInt_signed {typ : Nat} (htyp : typ = tyI32 ∨ typ = tyX32) (v : W32) :
    divZeroInt typ v = if 0 < v.toInt then 0x7FFFFFFF else if v.toInt < 0 then 0x80000000 else 0 := by
  have hval : intVal typ v = v.toInt := by obtain rfl | rfl := htyp <;> rfl
  have hrange : intRange typ = (-2147483648, 2147483647) := if_pos htyp
  rw [divZeroInt, hval, hrange]
  obtain hneg | hzero | hpos := lt_trichotomy v.toInt 0
  · simp [hneg, hneg.ne, hneg.le.not_gt]
  · simp [hzero]
  · simp [hpos, hpos.ne', hpos.le.not_gt]

theorem divZeroInt_unsigned (v : W32) : divZeroInt tyU32 v = if v = 0 then 0 else 0xFFFFFFFF := by
  change (if (v.toNat : Int) = 0 then 0 else BitVec.ofInt 32 (if (v.toNat : Int) < 0 then 0 else 4294967295)) = _
  by_cases hzero : v = 0
  · simp [hzero]
  · have hnat : (v.toNat : Int) ≠ 0 := fun h => hzero (BitVec.eq_of_toNat_eq (Int.ofNat_eq_zero.mp h))
    rw [if_neg hnat, if_neg hzero, if_neg (Int.natCast_nonneg _).not_gt]
    rfl

theorem intVal_zero (typ : Nat) : intVal typ 0 = 0 := by
  unfold intVal
  split_ifs <;> rfl

theorem arithInt_div_zero {b : W32} (hb : b = 0) (typ param : Nat) (a c : W32) (hasC : Bool) :
    arithInt 0x18 typ param a b c hasC = (divZeroInt typ a, true, 2) := by
  simp only [arithInt, divZeroInt, hb, intVal_zero, ↓reduceIte]
  split <;> rfl

section
variable {typ param n : Nat} {test : Bool} {a b : TWord} {oc od oe : Option TWord} {slot : W64}

theorem evalBlock_div_f32 : (evalBlock 0x18 tyF32 0 param n test (some a) (some b) oc od oe slot).1 =
    ⟨resTag test [a.tag, b.tag] (f32Lim (f32div a.val b.val)) (f32Sev (f32div a.val b.val)), f32div a.val b.val⟩ := rfl

/-- An integer DIV by zero sets LIM and VAL INVALID for every dividend. -/
theorem evalBlock_div_int_zero (htyp : typ ≠ tyF32) (hb : b.val = 0) :
    (evalBlock 0x18 typ 0 param n test (some a) (some b) oc od oe slot).1 =
      ⟨resTag test [a.tag, b.tag] true 2, divZeroInt typ a.val⟩ := by
  simp [evalBlock, htyp, bitOf, arithInt_div_zero hb, tagsOf]

end

/-- Settles O60: in F32 the quotient is an infinity or the NaN and its tag follows from it; in the integer types LIM and INVALID are the
block's own. -/
theorem divisionByZero : Obligations.DivisionByZero := by
  unfold Obligations.DivisionByZero
  intro test param n a b oc od oe slot out invalid
  refine ⟨fun hb hnan hzero => ?_, fun hb ha => ?_, fun hb typ htyp => ?_, fun hb => ?_⟩
  · have hdiv : f32div a.val b.val = inf32 (xor (f32neg a.val) (f32neg b.val)) := by
      simp [f32div_zero_divisor hb, hnan, hzero]
    have hlim : ∀ s, f32Lim (inf32 s) = true := by decide
    simp only [out, evalBlock_div_f32, hdiv, hlim]
    exact ⟨rfl, resTag_lim ..⟩
  · have hdiv : f32div a.val b.val = nan32 := by
      rw [f32div_zero_divisor hb, if_pos (by simpa using ha)]
    have hsev : f32Sev nan32 = 2 := by decide
    simp only [out, invalid, evalBlock_div_f32, hdiv, hsev]
    exact ⟨rfl, resTag_invalid ..⟩
  · have hne : typ ≠ tyF32 := by obtain rfl | rfl := htyp <;> decide
    simp only [out, invalid, evalBlock_div_int_zero hne hb]
    exact ⟨divZeroInt_signed htyp _, resTag_lim .., resTag_invalid ..⟩
  · simp only [out, invalid, evalBlock_div_int_zero (show tyU32 ≠ tyF32 by decide) hb]
    exact ⟨divZeroInt_unsigned _, resTag_lim .., resTag_invalid ..⟩

end Sys2Proof.Machine
end

section
/-!
SUPPORT. The dictionary transfers of a CAN controller (R300): what keeps them, what aborts and counts them, and the entry to bus-off.
-/

namespace Sys2Proof.Machine

/-! ### The operations of a controller -/

@[simp] theorem canOf_modCan (s : State) (n : Nat) (f : CanSt → CanSt) : canOf (modCan s n f) n = f (canOf s n) := by
  unfold canOf modCan
  split <;> rfl

@[simp] theorem modCan_dict (s : State) (n : Nat) (f : CanSt → CanSt) : (modCan s n f).dict = s.dict :=
  (modCan_frame s n f).same .dict (by decide)

theorem State.onlyChanges.canOf_eq {s t : State} {ps : List Part} (h : s.onlyChanges ps t) (h0 : .can0 ∉ ps) (h1 : .can1 ∉ ps) (n : Nat) :
    canOf t n = canOf s n := by
  unfold canOf
  split
  · exact h.same .can0 h0
  · exact h.same .can1 h1

@[simp] theorem canOf_logEvent (s : State) (typ : Nat) (body : Bytes) (n : Nat) : canOf (logEvent s typ body) n = canOf s n :=
  (logEvent_frame s typ body).canOf_eq (by decide) (by decide) n

@[simp] theorem canOf_raiseIrq (s : State) (src n : Nat) : canOf (raiseIrq s src) n = canOf s n :=
  (raiseIrq_frame s src).canOf_eq (by decide) (by decide) n

@[simp] theorem setCanState_dict (s : State) (n : Nat) (st : BitVec 3) : (setCanState s n st).dict = s.dict :=
  (setCanState_frame s n st).same .dict (by decide)

/-- Of the controller itself only the state changes: the record and the interrupt lie outside it (R318, R326). -/
@[simp] theorem canOf_setCanState (s : State) (n : Nat) (st : BitVec 3) :
    canOf (setCanState s n st) n = { canOf s n with state := st } := by
  unfold setCanState
  split
  case isTrue hsame => rw [← hsame]
  case isFalse hnew => dsimp only; split <;> simp

@[simp] theorem canArb_dict (s : State) (n : Nat) : (canArb s n).dict = s.dict :=
  (canArb_frame s n).same .dict (by decide)

/-! ### A controller without a transfer -/

/-- No dictionary transfer in either direction, and none that waits (R300). -/
structure CanSt.NoTransfer (c : CanSt) : Prop where
  rx : c.rx = none
  tx : c.tx = none
  tpq : c.tpq = []

theorem setCanState_noTransfer {s : State} {n : Nat} (h : (canOf s n).NoTransfer) (st : BitVec 3) :
    (canOf (setCanState s n st) n).NoTransfer := by
  rw [canOf_setCanState]
  exact ⟨h.rx, h.tx, h.tpq⟩

theorem canArb_noTransfer {s : State} {n : Nat} (h : (canOf s n).NoTransfer) : (canOf (canArb s n) n).NoTransfer := by
  unfold canArb
  split
  · rw [canOf_modCan]
    exact ⟨h.rx, h.tx, h.tpq⟩
  · exact h

theorem abortTp_noTransfer (s : State) (n : Nat) : (canOf (abortTp s n) n).NoTransfer := by
  unfold abortTp
  rw [canOf_modCan]
  exact ⟨rfl, rfl, rfl⟩

/-- The count of 0x1010:08 after the transfers of a controller are aborted: one for each direction under way (R320). -/
def CanSt.abortCount (c : CanSt) (a : Ctr) : Ctr :=
  match c.rx.isSome, c.tx.isSome with
  | true, true => a.inc.inc
  | true, false | false, true => a.inc
  | false, false => a

theorem CanSt.NoTransfer.abortCount {c : CanSt} (h : c.NoTransfer) (a : Ctr) : c.abortCount a = a := by
  simp [CanSt.abortCount, h.rx, h.tx]

theorem abortTp_dict (s : State) (n : Nat) :
    (abortTp s n).dict = { s.dict with canAborts := (canOf s n).abortCount s.dict.canAborts } := by
  cases hrx : (canOf s n).rx <;> cases htx : (canOf s n).tx <;> simp [abortTp, CanSt.abortCount, hrx, htx]

section
variable {s : State} {n : Nat}

theorem canSettle_noTransfer (h : (canOf s n).NoTransfer) : (canOf (canSettle s n) n).NoTransfer := by
  unfold canSettle
  dsimp only
  split
  · exact abortTp_noTransfer ..
  · exact canArb_noTransfer h

/-- A controller that has no transfer to abort falls asleep without a count. -/
theorem canSettle_dict_of_noTransfer (h : (canOf s n).NoTransfer) : (canSettle s n).dict = s.dict := by
  unfold canSettle
  dsimp only
  split
  · rw [abortTp_dict, (setCanState_noTransfer h 4).abortCount, setCanState_dict]
  · exact canArb_dict ..

end

/-! ### Entry to bus-off (R319, R320) -/

/-- After the abort, bus-off either falls asleep, starts the recovery or stays: none of them brings a transfer back or counts again. -/
theorem busOff_noTransfer_and_dict (s : State) (n : Nat) :
    (canOf (busOff s n) n).NoTransfer ∧
      (busOff s n).dict = { s.dict with canAborts := (canOf s n).abortCount s.dict.canAborts } := by
  unfold busOff
  extract_lets u v
  have hnone : (canOf v n).NoTransfer := abortTp_noTransfer ..
  have hdict : v.dict = { s.dict with canAborts := (canOf s n).abortCount s.dict.canAborts } := by
    simp only [v, u, abortTp_dict, canOf_modCan, modCan_dict]
    rfl
  split_ifs
  · exact ⟨canSettle_noTransfer hnone, (canSettle_dict_of_noTransfer hnone).trans hdict⟩
  · exact ⟨setCanState_noTransfer hnone 3, (setCanState_dict ..).trans hdict⟩
  · exact ⟨hnone, hdict⟩

/-- The frame on the bus met an error: a cancelled one leaves its slot, another stays pending (R317). -/
def offBus (s : State) (n : Nat) : State :=
  match (canOf s n).onBus with
  | some k => modCan s n (fun c => let c := if c.cancel.getLsbD k then c.leave k else c; { c with onBus := none })
  | none => s

theorem offBus_dict (s : State) (n : Nat) : (offBus s n).dict = s.dict := by
  unfold offBus
  split
  · exact modCan_dict ..
  · rfl

theorem offBus_keeps (s : State) (n : Nat) : (canOf (offBus s n) n).state = (canOf s n).state ∧
    (canOf (offBus s n) n).rx = (canOf s n).rx ∧ (canOf (offBus s n) n).tx = (canOf s n).tx := by
  unfold offBus
  split
  · rw [canOf_modCan]
    dsimp only
    split <;> exact ⟨rfl, rfl, rfl⟩
  · exact ⟨rfl, rfl, rfl⟩

theorem CanSt.error_keeps (c : CanSt) (e : CanErr) : (c.error e).rx = c.rx ∧ (c.error e).tx = c.tx := by
  unfold CanSt.error
  dsimp only
  split_ifs <;> exact ⟨rfl, rfl⟩

/-- The error is counted, the state follows the counters, and the frame on the bus is given up: what a bus error does before bus-off or
the next choice (R317, R318). -/
def errorTaken (s : State) (n : Nat) (e : CanErr) : State :=
  offBus (setCanState (modCan s n (fun c => c.error e)) n (errState ((canOf s n).error e))) n

section
variable (s : State) (n : Nat) (e : CanErr)

theorem errorTaken_dict : (errorTaken s n e).dict = s.dict := by
  rw [errorTaken, offBus_dict, setCanState_dict, modCan_dict]

theorem errorTaken_state : (canOf (errorTaken s n e) n).state = errState ((canOf s n).error e) := by
  rw [errorTaken, (offBus_keeps ..).1, canOf_setCanState]

theorem errorTaken_abortCount (a : Ctr) : (canOf (errorTaken s n e) n).abortCount a = (canOf s n).abortCount a := by
  obtain ⟨-, hrx, htx⟩ := offBus_keeps (setCanState (modCan s n (fun c => c.error e)) n (errState ((canOf s n).error e))) n
  obtain ⟨herx, hetx⟩ := (canOf s n).error_keeps e
  rw [canOf_setCanState, canOf_modCan] at hrx htx
  simp only [CanSt.abortCount, errorTaken, hrx, htx, herx, hetx]

end

/-- A bus error of a controller on the bus: bus-off where the counters say so, else the next choice (R316, R319). -/
theorem exec_canBusError_of_live {s : State} {n : Nat} (e : CanErr) (hn : n < 2) (hlive : canLive s n = true) :
    exec (.canBusError n e) s = .next (if errState ((canOf s n).error e) = 2 then busOff (errorTaken s n e) n
      else canSettle (errorTaken s n e) n) := by
  rw [← errorTaken_state]
  change execCanBusError n e s = _
  simp only [execCanBusError, hn.not_ge, hlive, canOf_modCan, Bool.not_true, Bool.false_eq_true, ↓reduceIte]
  rfl

/-- Settles O36: the error leaves the transfers alone, and the entry to bus-off aborts what it finds, once for each direction. -/
theorem busOffAbortsTransfers : Obligations.BusOffAbortsTransfers := by
  unfold Obligations.BusOffAbortsTransfers
  intro n e s hn hlive hoff
  obtain ⟨hnone, hdict⟩ := busOff_noTransfer_and_dict (errorTaken s n e) n
  refine ⟨busOff (errorTaken s n e) n, ?_, hnone.rx, hnone.tx, hnone.tpq, ?_⟩
  · rw [exec_canBusError_of_live e hn hlive, if_pos hoff]
  · rw [hdict, errorTaken_abortCount, errorTaken_dict]
    rfl

end Sys2Proof.Machine
end

section
/-!
SUPPORT. What each command can change: one lemma per command, from the frames of the operations it is made of. A command answers a next
state, and that state differs in no other part than those of `Instr.parts`.
-/

namespace Sys2Proof.Machine

/-- An outcome is a next state, and that state differs from `s` in no other part than those of a list. -/
structure State.runsWithin (s : State) (ps : List Part) (r : Res) : Prop where
  completes : ∃ t, r = .next t
  frame : s.onlyNext ps r

theorem State.runsWithin.next {s t : State} {ps : List Part} (h : s.onlyChanges ps t) : s.runsWithin ps (.next t) :=
  ⟨⟨t, rfl⟩, .next h⟩

theorem State.runsWithin.ite {c : Prop} [Decidable c] {s : State} {ps : List Part} {r q : Res} (h : s.runsWithin ps r)
    (g : s.runsWithin ps q) : s.runsWithin ps (if c then r else q) := by split <;> assumption

theorem port_runs {m : Master} {a kind : Nat} {s : State} {ps : List Part} {f : State → Res} (hm : m ≠ .mgmt)
    (hs : [Part.img, .cyc, .n0, .n1, .mpu, .dma, .log, .integ].all (fun q => ps.contains q) = true) (hf : s.runsWithin ps (f s)) :
    s.runsWithin ps (port m a kind f s) := by
  refine ⟨?_, port_keeps hm hs hf.frame⟩
  unfold port
  split
  · exact ⟨s, rfl⟩
  · split
    · exact ⟨_, rfl⟩
    · exact hf.completes

theorem port_runsAny {m : Master} {a kind : Nat} {s : State} {ps : List Part} {f : State → Res}
    (hs : [Part.out, .ctl, .time, .img, .cyc, .n0, .n1, .mpu, .dma, .can0, .can1, .pair, .dict, .log, .dist, .field, .integ, .boot,
      .mode].all (fun q => ps.contains q) = true) (hf : s.runsWithin ps (f s)) : s.runsWithin ps (port m a kind f s) := by
  refine ⟨?_, port_keepsAny hs hf.frame⟩
  unfold port
  split
  · exact ⟨s, rfl⟩
  · split
    · exact ⟨_, rfl⟩
    · exact hf.completes

theorem ownerPort_runs {o : Option Cp} {a kind : Nat} {s : State} {ps : List Part} {f : State → Res}
    (hs : [Part.img, .cyc, .n0, .n1, .mpu, .dma, .log, .integ].all (fun q => ps.contains q) = true) (hf : s.runsWithin ps (f s)) :
    s.runsWithin ps (ownerPort o a kind f s) := by
  unfold ownerPort
  split
  · exact .next (.refl ..)
  · exact port_runs (Cp.master_ne _) hs hf

theorem canPort_runs {n o kind : Nat} {s : State} {ps : List Part} {f : State → Res}
    (hs : [Part.img, .cyc, .n0, .n1, .mpu, .dma, .log, .integ].all (fun q => ps.contains q) = true) (hf : s.runsWithin ps (f s)) :
    s.runsWithin ps (canPort n o kind f s) := by
  unfold canPort
  split
  · exact .next (.refl ..)
  · exact ownerPort_runs hs hf

theorem onMessage_runs {s : State} {ps : List Part} {h : MjHdr} {f : State → State} (hf : ∀ u : State, u.onlyChanges ps (f u))
    (hs : [.out, .ctl, .time, .img, .cyc, .n0, .n1, .can0, .can1, .streams, .chans, .pair, .net, .dict, .log, .dist, .field, .integ,
      .mode].all (fun q => ps.contains q) = true) : s.runsWithin ps (onMessage s h f) :=
  ⟨⟨_, rfl⟩, onMessage_keeps hf hs⟩

theorem clientWrites_runs (s : State) (c : Client) (index sub : Nat) (data : Bytes) :
    s.runsWithin [.out, .ctl, .time, .img, .cyc, .n0, .n1, .mpu, .dma, .evf, .can0, .can1, .bell, .streams, .chans, .loops, .pair, .net,
      .dict, .log, .dist, .field, .integ, .boot, .mode, .life, .keys, .mem, .tick] (clientWrites s c index sub data) :=
  ⟨⟨_, rfl⟩, clientWrites_frame ..⟩

theorem State.runsWithin.weaken {s : State} {r : Res} {ps qs : List Part} (h : s.runsWithin qs r)
    (hs : qs.all (fun q => ps.contains q) = true) : s.runsWithin ps r := ⟨h.completes, h.frame.weaken hs⟩

theorem clientStreams_runs (s : State) (c : Client) (sub offset : Nat) (data : Bytes) :
    s.runsWithin [.out, .ctl, .time, .img, .cyc, .n0, .n1, .mpu, .dma, .evf, .can0, .can1, .bell, .streams, .chans, .loops, .pair, .net,
      .dict, .log, .dist, .field, .integ, .boot, .mode, .life, .keys, .mem, .tick] (clientStreams s c sub offset data) := by
  refine ⟨?_, clientStreams_frame ..⟩
  unfold clientStreams
  split <;> exact ⟨_, rfl⟩

theorem execPowerOn_runs (straps : Straps) (s : State) : s.runsWithin (Instr.parts (.powerOn straps)) (execPowerOn straps s) := by
  unfold execPowerOn
  dsimp only
  exact .ite (.next (.refl ..)) (.next (.foldl (fun _ _ => .andThen (logEvent_frame ..) rfl (.refl ..)) (.andThen (logEvent_frame ..) rfl
    (.andThen (logEvent_frame ..) rfl (.andThen (settleLife_frame ..) rfl (.andThen (recoverLog_frame ..) rfl (.andThen (State.modPins_frame
    ..) rfl (.andThen (takeStraps_frame ..) rfl (.andThen (keepState_frame ..) rfl (.andThen (countPower_frame ..) rfl (.refl ..)))))))))))

theorem execFeedChange_runs (a b : Bool) (s : State) : s.runsWithin (Instr.parts (.feedChange a b)) (execFeedChange a b s) := by
  unfold execFeedChange
  exact .next (.andThen (State.modPins_frame ..) rfl (.refl ..))

theorem execStoredEnergyWarning_runs (s : State) : s.runsWithin (Instr.parts .storedEnergyWarning) (execStoredEnergyWarning s) := by
  unfold execStoredEnergyWarning
  exact .ite (.next (.refl ..)) (.next (.andThen (State.modPins_frame ..) rfl (.andThen (State.modLog_frame ..) rfl (.refl ..))))

theorem execRstNAssert_runs (us : Nat) (s : State) : s.runsWithin (Instr.parts (.rstNAssert us)) (execRstNAssert us s) := by
  unfold execRstNAssert
  dsimp only
  exact .ite (.next (.ite (.andThen (freeValue_frame ..) rfl (.refl ..)) (.refl ..))) (.next (.ite (.andThen (resetModule_frame ..) rfl
    (.andThen (State.modPins_frame ..) rfl (.ite (.andThen (freeValue_frame ..) rfl (.refl ..)) (.refl ..)))) (.andThen (State.modPins_frame
    ..) rfl (.ite (.andThen (freeValue_frame ..) rfl (.refl ..)) (.refl ..)))))

theorem execWipeNHeld_runs (s : State) : s.runsWithin (Instr.parts .wipeNHeld) (execWipeNHeld s) := by
  unfold execWipeNHeld
  exact .ite (.next (.refl ..)) (.next (.andThen (resetModule_frame ..) rfl (.andThen (pendLife_frame ..) rfl (.refl ..))))

theorem execMaskRomCheck_runs (s : State) : s.runsWithin (Instr.parts .maskRomCheck) (execMaskRomCheck s) := by
  unfold execMaskRomCheck
  dsimp only
  refine .ite (.next (.refl ..)) ?_
  split
  · exact .ite (.next (.andThen (loaderGoesOn_frame ..) rfl (.andThen (runLoader_frame ..) rfl (.andThen (settleLife_frame ..) rfl (.refl
      ..))))) (.next (.andThen (solicitNow_frame ..) rfl (.andThen (refuseImage_frame ..) rfl (.andThen (settleLife_frame ..) rfl (.refl
      ..)))))
  · exact .next (.andThen (solicitNow_frame ..) rfl (.andThen (refuseImage_frame ..) rfl (.andThen (settleLife_frame ..) rfl (.refl ..))))

theorem execStagedLoaderInstall_runs (s : State) : s.runsWithin (Instr.parts .stagedLoaderInstall) (execStagedLoaderInstall s) := by
  unfold execStagedLoaderInstall
  dsimp only
  exact .ite (.next (.refl ..)) (.ite (.next (.andThen (loaderGoesOn_frame ..) rfl (.andThen (refuseImage_frame ..) rfl (.andThen
    (emptySlot_frame ..) rfl (.refl ..))))) (.next (.andThen (resetModule_frame ..) rfl (.andThen (State.modBoot_plain (fun _ => by rfl) ..)
    rfl (.refl ..)))))

theorem execSolicitTimer_runs (s : State) : s.runsWithin (Instr.parts .solicitTimer) (execSolicitTimer s) := by
  unfold execSolicitTimer
  exact .ite (.next (.andThen (solicitNow_frame ..) rfl (.refl ..))) (.next (.refl ..))

theorem execBootOffer_runs (b : BootHdr) (kind manLen imgLen : Nat) (s : State) :
    s.runsWithin (Instr.parts (.bootOffer b kind manLen imgLen)) (execBootOffer b kind manLen imgLen s) := by
  unfold execBootOffer
  dsimp only
  exact .ite (.next (.refl ..)) (.next (.andThen (State.modBoot_plain (fun _ => by rfl) ..) rfl (.refl ..)))

theorem execBootData_runs (b : BootHdr) (object chunk block : Nat) (data : Bytes) (s : State) :
    s.runsWithin (Instr.parts (.bootData b object chunk block data)) (execBootData b object chunk block data s) := by
  unfold execBootData
  dsimp only
  split
  · exact .next (.refl ..)
  · exact .ite (.next (.refl ..)) (.ite (.next (.refl ..)) (.next (.andThen (takeBlock_frame ..) rfl (.ite (.andThen (setMode_frame ..) rfl
      (.refl ..)) (.refl ..)))))

theorem execBootAckTimer_runs (s : State) : s.runsWithin (Instr.parts .bootAckTimer) (execBootAckTimer s) := by
  unfold execBootAckTimer
  dsimp only
  refine .ite (.next (.refl ..)) ?_
  split
  · exact .next (.refl ..)
  · exact .next (.foldl (fun _ _ => .andThen (sendAck_frame ..) rfl (.refl ..)) (.andThen (State.modBoot_plain (fun _ => by rfl) ..) rfl
      (.refl ..)))

theorem execBootTransferTimeout_runs (s : State) : s.runsWithin (Instr.parts .bootTransferTimeout) (execBootTransferTimeout s) := by
  unfold execBootTransferTimeout
  split
  · exact .next (.refl ..)
  · exact .ite (.next (.refl ..)) (.next (.andThen (endTransfer_frame ..) rfl (.refl ..)))

theorem execBootGet_runs (b : BootHdr) (object offset : Nat) (nonce : Bytes) (s : State) :
    s.runsWithin (Instr.parts (.bootGet b object offset nonce)) (execBootGet b object offset nonce s) := by
  unfold execBootGet
  exact .ite (.next (.refl ..)) (.ite (.next (.andThen (sendObject_frame ..) rfl (.refl ..))) (.ite (.next (.andThen (sendObject_frame ..)
    rfl (.refl ..))) (.ite (.next (.refl ..)) (.ite (.next (.andThen (sendObject_frame ..) rfl (.refl ..))) (.ite (.next (.andThen
    (startReport_frame ..) rfl (.refl ..))) (.next (.refl ..)))))))

theorem execProvision_runs (b : BootHdr) (body : Bytes) (s : State) :
    s.runsWithin (Instr.parts (.provision b body)) (execProvision b body s) := by
  unfold execProvision
  dsimp only
  exact .ite (.next (.refl ..)) (.ite (.next (.andThen (provResp_frame ..) rfl (.refl ..))) (.ite (.next (.andThen (provResp_frame ..) rfl
    (.refl ..))) (.next (.andThen (resetModule_frame ..) rfl (.andThen (provResp_frame ..) rfl (.andThen (pendLife_frame ..) rfl (.refl
    ..)))))))

theorem execSelftestRun_runs (failed : Option Nat) (s : State) :
    s.runsWithin (Instr.parts (.selftestRun failed)) (execSelftestRun failed s) := by
  unfold execSelftestRun
  dsimp only
  refine .ite (.next (.refl ..)) ?_
  split
  · exact .next (.andThen (enterSilent_frame ..) rfl (.andThen (State.modInteg_frame ..) rfl (.refl ..)))
  · exact .next (.andThen (canJoin_frame ..) rfl (.andThen (canJoin_frame ..) rfl (.andThen (fieldOff_frame ..) rfl (.andThen (setMode_frame
      ..) rfl (.andThen (State.modInteg_frame ..) rfl (.refl ..))))))

theorem execPackageSettle_runs (s : State) : s.runsWithin (Instr.parts .packageSettle) (execPackageSettle s) := by
  unfold execPackageSettle
  dsimp only
  refine .ite (.next (.refl ..)) (.next (notePair_keeps rfl (.andThen (joinOwner_frame ..) rfl (.andThen (trackWait_frame ..) rfl (.andThen
    (sayHello_frame ..) rfl (.andThen (canReprogram_frame ..) rfl (.andThen (State.modBoot_plain (fun _ => by rfl) ..) rfl (.andThen
    (fieldOff_frame ..) rfl (.andThen (refSwitch_frame ..) rfl (.andThen (checkProgram_frame ..) rfl (.andThen (loadProgram_frame ..) rfl
    ?_)))))))))))
  exact .ite (.andThen (settleRunning_frame ..) rfl (.andThen (settleStaged_frame ..) rfl (.andThen (settleFormat_frame ..) rfl (.refl
    ..)))) (.andThen (settleFormat_frame ..) rfl (.refl ..))

theorem execStartFromStop_runs (s : State) : s.runsWithin (Instr.parts .startFromStop) (execStartFromStop s) := by
  unfold execStartFromStop
  exact .ite (.next (.refl ..)) (.ite (.next (.ite (.andThen (lowerOwn_frame ..) rfl (.refl ..)) (.refl ..))) (.ite (.next (.andThen
    (tryPhase2_frame ..) rfl (.andThen (joinOwner_frame ..) rfl (.refl ..)))) (.ite (.next (.andThen (requestOwn_frame ..) rfl (.refl ..)))
    (.next (.andThen (trackWait_frame ..) rfl (.refl ..))))))

theorem execStartupWaitExpire_runs (s : State) : s.runsWithin (Instr.parts .startupWaitExpire) (execStartupWaitExpire s) := by
  unfold execStartupWaitExpire
  exact .ite (.next (.andThen (requestOwn_frame ..) rfl (.refl ..))) (.next (.refl ..))

theorem execOwnHighEnterAlone_runs (s : State) : s.runsWithin (Instr.parts .ownHighEnterAlone) (execOwnHighEnterAlone s) := by
  unfold execOwnHighEnterAlone
  exact .ite (.next (.refl ..)) (.ite (.next (.andThen (enterAlone_frame ..) rfl (.refl ..))) (.next (.andThen (lowerOwn_frame ..) rfl
    (.refl ..))))

theorem execStopRejoinTimer_runs (s : State) : s.runsWithin (Instr.parts .stopRejoinTimer) (execStopRejoinTimer s) := by
  unfold execStopRejoinTimer
  dsimp only
  exact .ite (.next (.refl ..)) (.next (.andThen (joinOwner_frame ..) rfl (.andThen (trackWait_frame ..) rfl (.andThen (sayHello_frame ..)
    rfl (.andThen (State.modCtl_plain (fun _ => by rfl) (fun _ => by rfl) ..) rfl (.refl ..))))))

theorem execTick_runs (s : State) : s.runsWithin (Instr.parts .tick) (execTick s) := by
  unfold execTick
  dsimp only
  split
  · exact .next (.refl ..)
  · exact .ite (.ite (.next (.andThen (advanceTick_frame ..) rfl (.andThen (markTick_frame ..) rfl (.refl ..)))) (.ite (.next (.andThen
      (sendTick_frame ..) rfl (.andThen (countSkip_frame ..) rfl (.andThen (advanceTick_frame ..) rfl (.andThen (markTick_frame ..) rfl
      (.refl ..)))))) (.next (.andThen (cutoff_frame ..) rfl (.andThen (advanceTick_frame ..) rfl (.andThen (markTick_frame ..) rfl (.refl
      ..))))))) (.ite (.next (.andThen (State.modCyc_frame ..) rfl (.andThen (markTick_frame ..) rfl (.refl ..)))) (.next (.refl ..)))

theorem execExecutionStart_runs (s : State) : s.runsWithin (Instr.parts .executionStart) (execExecutionStart s) := by
  unfold execExecutionStart
  dsimp only
  exact .ite (.next (.refl ..)) (.ite (.next (.refl ..)) (.ite (.next (.andThen (undoCutoff_frame ..) rfl (.refl ..))) (.next (.andThen
    (beginExecution_frame ..) rfl (.andThen (joinEngines_frame ..) rfl (.andThen (logLanding_frame ..) rfl (.andThen (State.modPair_frame
    ..) rfl (.andThen (countLate_frame ..) rfl (.refl ..)))))))))

theorem execExecutionEnd_runs (s : State) : s.runsWithin (Instr.parts .executionEnd) (execExecutionEnd s) := by
  unfold execExecutionEnd
  dsimp only
  exact .ite (.next (.refl ..)) (.ite (.next (.refl ..)) (.ite (.next (.andThen (release_frame ..) rfl (.andThen (State.modCyc_plain (fun _
    => by rfl) ..) rfl (.andThen (countExecution_frame ..) rfl (.refl ..))))) (.ite (.next (.andThen (release_frame ..) rfl (.andThen
    (mjSend_frame ..) rfl (.andThen (State.modCyc_plain (fun _ => by rfl) ..) rfl (.andThen (countExecution_frame ..) rfl (.refl ..))))))
    (.next (.andThen (settleDigests_frame ..) rfl (.andThen (mjSend_frame ..) rfl (.andThen (State.modCyc_plain (fun _ => by rfl) ..) rfl
    (.andThen (countExecution_frame ..) rfl (.refl ..)))))))))

theorem execMiojoOutput_runs (h : MjHdr) (tick digest engine : W64) (s : State) :
    s.runsWithin (Instr.parts (.miojoOutput h tick digest engine)) (execMiojoOutput h tick digest engine s) := by
  unfold execMiojoOutput
  exact onMessage_runs (fun _ => .andThen (takeOutput_frame ..) rfl (.refl ..)) rfl

theorem execDigestTimeout_runs (s : State) : s.runsWithin (Instr.parts .digestTimeout) (execDigestTimeout s) := by
  unfold execDigestTimeout
  dsimp only
  exact .ite (.next (.refl ..)) (.ite (.next (.refl ..)) (.ite (.next (.andThen (release_frame ..) rfl (.refl ..))) (.ite (.next (.andThen
    (verifyFail_frame ..) rfl (.refl ..))) (.ite (.next (.andThen (release_frame ..) rfl (.andThen (serveFail_frame ..) rfl (.refl ..))))
    (.ite (.ite (.next (.andThen (release_frame ..) rfl (.refl ..))) (.next (.ite (.andThen (leaveMismatch_frame ..) rfl (.refl ..))
    (.andThen (release_frame ..) rfl (.andThen (leaveMismatch_frame ..) rfl (.refl ..)))))) (.ite (.next (.andThen (linkLoss_frame ..) rfl
    (.andThen (release_frame ..) rfl (.refl ..)))) (.next (.ite (.andThen (leaveForCatchup_frame ..) rfl (.refl ..)) (.andThen
    (release_frame ..) rfl (.andThen (leaveForCatchup_frame ..) rfl (.refl ..)))))))))))

theorem execSwitchoverResume_runs (s : State) : s.runsWithin (Instr.parts .switchoverResume) (execSwitchoverResume s) := by
  unfold execSwitchoverResume
  dsimp only
  split
  · exact .next (.refl ..)
  · exact .ite (.next (.refl ..)) (.ite (.next (.andThen (enterAlone_frame ..) rfl (.andThen (State.modCtl_plain (fun _ => by rfl) (fun _ =>
      by rfl) ..) rfl (.refl ..)))) (.next (.andThen (lowerOwn_frame ..) rfl (.andThen (State.modCtl_plain (fun _ => by rfl) (fun _ => by
      rfl) ..) rfl (.refl ..)))))

theorem execAgreementTimeout_runs (s : State) : s.runsWithin (Instr.parts .agreementTimeout) (execAgreementTimeout s) := by
  unfold execAgreementTimeout
  exact .ite (.next (.refl ..)) (.ite (.next (.refl ..)) (.next (.andThen (linkLoss_frame ..) rfl (.refl ..))))

theorem execNcallTrap_runs (c : Cp) (s : State) : s.runsWithin (Instr.parts (.ncallTrap c)) (execNcallTrap c s) := by
  unfold execNcallTrap
  dsimp only
  split
  · exact .next (.refl ..)
  · exact .ite (.next (.refl ..)) (.next (.andThen (modCp_plain (fun _ => by rfl) ..) rfl (.andThen (wakeCore_frame ..) rfl (.refl ..))))

theorem execCycRettWrite_runs (c : Cp) (v : W32) (retired : Nat) (s : State) :
    s.runsWithin (Instr.parts (.cycRettWrite c v retired)) (execCycRettWrite c v s retired) := by
  unfold execCycRettWrite
  dsimp only
  refine port_runs (Cp.master_ne _) rfl ?_
  split
  · exact .next (.refl ..)
  · exact .ite (.next (.andThen (abandonCall_frame ..) rfl (.andThen (noteRetired_frame ..) rfl (.refl ..)))) (.next (.andThen
      (endCall_frame ..) rfl (.andThen (modCp_plain (fun _ => by rfl) ..) rfl (.andThen (noteRetired_frame ..) rfl (.refl ..)))))

theorem execNcallAbandon_runs (c : Cp) (retired : Nat) (s : State) :
    s.runsWithin (Instr.parts (.ncallAbandon c retired)) (execNcallAbandon c s retired) := by
  unfold execNcallAbandon
  refine .ite (.next (.refl ..)) ?_
  split
  · exact .next (.refl ..)
  · exact .ite (.next (.andThen (abandonCall_frame ..) rfl (.andThen (noteRetired_frame ..) rfl (.refl ..)))) (.next (.refl ..))

theorem execCycVecWrite_runs (c : Cp) (v : W32) (s : State) : s.runsWithin (Instr.parts (.cycVecWrite c v)) (execCycVecWrite c v s) := by
  unfold execCycVecWrite
  exact port_runs (Cp.master_ne _) rfl (.ite (.next (.refl ..)) (.next (.andThen (modCp_plain (fun _ => by rfl) ..) rfl (.refl ..))))

theorem execPointStageWrite_runs (c : Cp) (point : Nat) (v : W32) (s : State) :
    s.runsWithin (Instr.parts (.pointStageWrite c point v)) (execPointStageWrite c point v s) := by
  unfold execPointStageWrite
  exact port_runs (Cp.master_ne _) rfl (.next (.andThen (modCp_plain (fun _ => by rfl) ..) rfl (.refl ..)))

theorem execPointCommitWrite_runs (c : Cp) (point : Nat) (v : W32) (s : State) :
    s.runsWithin (Instr.parts (.pointCommitWrite c point v)) (execPointCommitWrite c point v s) := by
  unfold execPointCommitWrite
  dsimp only
  exact port_runs (Cp.master_ne _) rfl (.ite (.next (.andThen (State.modImg_frame ..) rfl (.refl ..))) (.next (.andThen (discardWrite_frame
    ..) rfl (.refl ..))))

theorem execConstantWindowWrite_runs (c : Cp) (const : Nat) (v : W32) (s : State) :
    s.runsWithin (Instr.parts (.constantWindowWrite c const v)) (execConstantWindowWrite c const v s) := by
  unfold execConstantWindowWrite
  exact .ite (.next (.refl ..)) (.next (.andThen (discardWrite_frame ..) rfl (.refl ..)))

theorem execGridInstant_runs (s : State) : s.runsWithin (Instr.parts .gridInstant) (execGridInstant s) := by
  unfold execGridInstant
  dsimp only
  exact .ite (.next (.refl ..)) (.ite (.next (.andThen (discardsAge_frame ..) rfl (.ite (.ite (.andThen (latchPulses_frame ..) rfl (.andThen
    (pulse_frame ..) rfl (.ite (.andThen (pulse_frame ..) rfl (.andThen (holdGroup_frame ..) rfl (.andThen (State.modTime_frame ..) rfl
    (.refl ..)))) (.andThen (holdGroup_frame ..) rfl (.andThen (State.modTime_frame ..) rfl (.refl ..)))))) (.andThen (pulse_frame ..) rfl
    (.ite (.andThen (pulse_frame ..) rfl (.andThen (holdGroup_frame ..) rfl (.andThen (State.modTime_frame ..) rfl (.refl ..)))) (.andThen
    (holdGroup_frame ..) rfl (.andThen (State.modTime_frame ..) rfl (.refl ..)))))) (.refl ..)))) (.next (.foldl (fun _ _ => .andThen
    (settleResults_frame ..) rfl (.andThen (formGrid_frame ..) rfl (.andThen (forceConverter_frame ..) rfl (.refl ..)))) (.andThen
    (forceSamples_frame ..) rfl (.andThen (discardsAge_frame ..) rfl (.ite (.ite (.andThen (latchPulses_frame ..) rfl (.andThen (pulse_frame
    ..) rfl (.ite (.andThen (pulse_frame ..) rfl (.andThen (holdGroup_frame ..) rfl (.andThen (State.modTime_frame ..) rfl (.refl ..))))
    (.andThen (holdGroup_frame ..) rfl (.andThen (State.modTime_frame ..) rfl (.refl ..)))))) (.andThen (pulse_frame ..) rfl (.ite (.andThen
    (pulse_frame ..) rfl (.andThen (holdGroup_frame ..) rfl (.andThen (State.modTime_frame ..) rfl (.refl ..)))) (.andThen (holdGroup_frame
    ..) rfl (.andThen (State.modTime_frame ..) rfl (.refl ..)))))) (.refl ..)))))))

theorem execSampleDeadline_runs (stream : Nat) (s : State) :
    s.runsWithin (Instr.parts (.sampleDeadline stream)) (execSampleDeadline stream s) := by
  unfold execSampleDeadline
  dsimp only
  refine .ite (.next (.refl ..)) ?_
  split
  · exact .next (.andThen (skipSamples_frame ..) rfl (.refl ..))
  · exact .ite (.next (.andThen (skipSamples_frame ..) rfl (.refl ..))) (.ite (.next (.andThen (fixSample_frame ..) rfl (.andThen
      (skipSamples_frame ..) rfl (.refl ..)))) (.ite (.next (.andThen (fixSample_frame ..) rfl (.ite (.andThen (skipSamples_frame ..) rfl
      (.refl ..)) (.andThen (supplySample_frame ..) rfl (.andThen (modStream_frame ..) rfl (.andThen (mjSend_frame ..) rfl (.andThen
      (skipSamples_frame ..) rfl (.refl ..)))))))) (.next (.ite (.andThen (skipSamples_frame ..) rfl (.refl ..)) (.andThen
      (supplySample_frame ..) rfl (.andThen (modStream_frame ..) rfl (.andThen (mjSend_frame ..) rfl (.andThen (skipSamples_frame ..) rfl
      (.refl ..)))))))))

theorem execAnalysisInstant_runs (ch : Nat) (s : State) : s.runsWithin (Instr.parts (.analysisInstant ch)) (execAnalysisInstant ch s) := by
  unfold execAnalysisInstant
  split
  · exact .next (.refl ..)
  · exact .ite (.next (.refl ..)) (.next (.getD (fun _ h => .andThen (analyse_frame (ht := h) ..) rfl (.refl ..)) (.refl ..)))

theorem execTrackingLossTimer_runs (ch : Nat) (s : State) :
    s.runsWithin (Instr.parts (.trackingLossTimer ch)) (execTrackingLossTimer ch s) := by
  unfold execTrackingLossTimer
  dsimp only
  split
  · exact .next (.refl ..)
  · exact .ite (.next (.refl ..)) (.next (.andThen (setChBit_frame ..) rfl (.andThen (trackingLost_frame ..) rfl (.refl ..))))

theorem execLoopUpdate_runs (n : Nat) (s : State) : s.runsWithin (Instr.parts (.loopUpdate n)) (execLoopUpdate n s) := by
  unfold execLoopUpdate
  split
  · exact .next (.refl ..)
  · exact .ite (.next (.refl ..)) (.next (.andThen (pacedNow_frame ..) rfl (.getD (fun _ h => .andThen (loopStep_frame (ht := h) ..) rfl
      (.refl ..)) (.refl ..))))

theorem execShareToFull_runs (n : Nat) (s : State) : s.runsWithin (Instr.parts (.shareToFull n)) (execShareToFull n s) := by
  unfold execShareToFull
  dsimp only
  exact .ite (.next (.andThen (logField_frame ..) rfl (.andThen (modL_frame ..) rfl (.refl ..)))) (.next (.refl ..))

theorem execFullToShare_runs (n : Nat) (s : State) : s.runsWithin (Instr.parts (.fullToShare n)) (execFullToShare n s) := by
  unfold execFullToShare
  dsimp only
  exact .ite (.next (.andThen (logField_frame ..) rfl (.andThen (modL_frame ..) rfl (.refl ..)))) (.next (.refl ..))

theorem execMiojoHello_runs (h : MjHdr) (x : Hello) (s : State) : s.runsWithin (Instr.parts (.miojoHello h x)) (execMiojoHello h x s) := by
  unfold execMiojoHello
  dsimp only
  exact onMessage_runs (fun _ => .andThen (tryPhase2_frame ..) rfl (.andThen (joinOwner_frame ..) rfl (.andThen (trackWait_frame ..) rfl
    (.ite (.andThen (beginPhase1_frame ..) rfl (.andThen (clearCycle_frame ..) rfl (.ite (.andThen (changeMode_frame ..) rfl (.ite (.andThen
    (logPair_frame ..) rfl (.ite (.andThen (changePair_frame ..) rfl (.refl ..)) (.andThen (raiseLink_frame ..) rfl (.andThen
    (sayHello_frame ..) rfl (.andThen (changePair_frame ..) rfl (.refl ..)))))) (.ite (.andThen (changePair_frame ..) rfl (.refl ..))
    (.andThen (raiseLink_frame ..) rfl (.andThen (sayHello_frame ..) rfl (.andThen (changePair_frame ..) rfl (.refl ..))))))) (.ite
    (.andThen (logPair_frame ..) rfl (.ite (.andThen (changePair_frame ..) rfl (.refl ..)) (.andThen (raiseLink_frame ..) rfl (.andThen
    (sayHello_frame ..) rfl (.andThen (changePair_frame ..) rfl (.refl ..)))))) (.ite (.andThen (changePair_frame ..) rfl (.refl ..))
    (.andThen (raiseLink_frame ..) rfl (.andThen (sayHello_frame ..) rfl (.andThen (changePair_frame ..) rfl (.refl ..))))))))) (.ite
    (.andThen (changeMode_frame ..) rfl (.ite (.andThen (logPair_frame ..) rfl (.ite (.andThen (changePair_frame ..) rfl (.refl ..))
    (.andThen (raiseLink_frame ..) rfl (.andThen (sayHello_frame ..) rfl (.andThen (changePair_frame ..) rfl (.refl ..)))))) (.ite (.andThen
    (changePair_frame ..) rfl (.refl ..)) (.andThen (raiseLink_frame ..) rfl (.andThen (sayHello_frame ..) rfl (.andThen (changePair_frame
    ..) rfl (.refl ..))))))) (.ite (.andThen (logPair_frame ..) rfl (.ite (.andThen (changePair_frame ..) rfl (.refl ..)) (.andThen
    (raiseLink_frame ..) rfl (.andThen (sayHello_frame ..) rfl (.andThen (changePair_frame ..) rfl (.refl ..)))))) (.ite (.andThen
    (changePair_frame ..) rfl (.refl ..)) (.andThen (raiseLink_frame ..) rfl (.andThen (sayHello_frame ..) rfl (.andThen (changePair_frame
    ..) rfl (.refl ..))))))))))) rfl

theorem execMiojoKeep_runs (h : MjHdr) (s : State) : s.runsWithin (Instr.parts (.miojoKeep h)) (execMiojoKeep h s) := by
  unfold execMiojoKeep
  exact onMessage_runs (fun _ => .refl ..) rfl

theorem execKeepSendTimer_runs (lane : Bool) (s : State) : s.runsWithin (Instr.parts (.keepSendTimer lane)) (execKeepSendTimer lane s) := by
  unfold execKeepSendTimer
  dsimp only
  exact .ite (.next (.andThen (mjSendOn_frame ..) rfl (.refl ..))) (.next (.refl ..))

theorem execMiojoDelay_runs (h : MjHdr) (response : Bool) (raw : W64) (turnaround : W32) (s : State) :
    s.runsWithin (Instr.parts (.miojoDelay h response raw turnaround)) (execMiojoDelay h response raw turnaround s) := by
  unfold execMiojoDelay
  refine onMessage_runs (fun _ => ?_) rfl
  split
  · exact .andThen (mjSendOn_frame ..) rfl (.refl ..)
  · exact .andThen (takeDelay_frame ..) rfl (.refl ..)
  · exact .refl ..

theorem execDelayMeasureTimer_runs (s : State) : s.runsWithin (Instr.parts .delayMeasureTimer) (execDelayMeasureTimer s) := by
  unfold execDelayMeasureTimer
  exact .ite (.next (.refl ..)) (.ite (.next (.andThen (measureDelay_frame ..) rfl (.refl ..))) (.next (.refl ..)))

theorem execMiojoTick_runs (h : MjHdr) (t : TickMsg) (s : State) : s.runsWithin (Instr.parts (.miojoTick h t)) (execMiojoTick h t s) := by
  unfold execMiojoTick
  dsimp only
  exact onMessage_runs (fun _ => .ite (.andThen (showOffset_frame ..) rfl (.andThen (State.modCyc_frame ..) rfl (.refl ..))) (.ite (.refl
    ..) (.andThen (takeOffset_frame ..) rfl (.ite (.andThen (supplyPartner_frame ..) rfl (.andThen (confirmTick_frame ..) rfl (.andThen
    (State.modCyc_plain (fun _ => by rfl) ..) rfl (.refl ..)))) (.andThen (State.modCyc_plain (fun _ => by rfl) ..) rfl (.refl ..)))))) rfl

theorem execMiojoSupply_runs (h : MjHdr) (slot : Nat) (f : SlotFrame) (s : State) :
    s.runsWithin (Instr.parts (.miojoSupply h slot f)) (execMiojoSupply h slot f s) := by
  unfold execMiojoSupply
  refine onMessage_runs (fun _ => .ite (.refl ..) (.andThen (State.modCyc_plain (fun _ => ?_) ..) rfl (.andThen (State.modPair_frame ..) rfl
    (.refl ..)))) rfl
  cases f <;> rfl

theorem execMiojoSample_runs (h : MjHdr) (m : SampleMsg) (s : State) :
    s.runsWithin (Instr.parts (.miojoSample h m)) (execMiojoSample h m s) := by
  unfold execMiojoSample
  exact onMessage_runs (fun _ => .ite (.andThen (takePeerSample_frame ..) rfl (.refl ..)) (.refl ..)) rfl

theorem execMiojoSvsupply_runs (h : MjHdr) (stream : Nat) (f : SvFrame) (s : State) :
    s.runsWithin (Instr.parts (.miojoSvsupply h stream f)) (execMiojoSvsupply h stream f s) := by
  unfold execMiojoSvsupply
  exact onMessage_runs (fun _ => .ite (.andThen (takeSvSupply_frame ..) rfl (.refl ..)) (.refl ..)) rfl

theorem execMiojoSidein_runs (h : MjHdr) (xs : List SideItem) (s : State) :
    s.runsWithin (Instr.parts (.miojoSidein h xs)) (execMiojoSidein h xs s) := by
  unfold execMiojoSidein
  exact onMessage_runs (fun _ => .ite (.foldl (fun _ _ => .andThen (replaySide_frame ..) rfl (.refl ..)) (.refl ..)) (.refl ..)) rfl

theorem execMiojoForward_runs (h : MjHdr) (fwd : W32) (r : PairReq) (s : State) :
    s.runsWithin (Instr.parts (.miojoForward h fwd r)) (execMiojoForward h fwd r s) := by
  unfold execMiojoForward
  dsimp only
  refine onMessage_runs (fun _ => ?_) rfl
  refine .ite (.refl ..) ?_
  split
  · split
    · exact .ite (.andThen (mjSend_frame ..) rfl (.refl ..)) (.andThen (mjSend_frame ..) rfl (.refl ..))
    · exact .andThen (mjSend_frame ..) rfl (.refl ..)
  · exact .ite (.andThen (mjSend_frame ..) rfl (.refl ..)) (.andThen (sequence_frame ..) rfl (.andThen (remember_frame ..) rfl (.refl ..)))

theorem execMiojoWrite_runs (h : MjHdr) (w : WriteMsg) (s : State) :
    s.runsWithin (Instr.parts (.miojoWrite h w)) (execMiojoWrite h w s) := by
  unfold execMiojoWrite
  dsimp only
  exact onMessage_runs (fun _ => .ite (.refl ..) (.ite (.andThen (repeatWrite_frame ..) rfl (.andThen (State.modPair_frame ..) rfl (.andThen
    (mjSend_frame ..) rfl (.refl ..)))) (.andThen (takeWrite_frame ..) rfl (.andThen (State.modPair_frame ..) rfl (.andThen (mjSend_frame
    ..) rfl (.refl ..)))))) rfl

theorem execWriteResendTimer_runs (s : State) : s.runsWithin (Instr.parts .writeResendTimer) (execWriteResendTimer s) := by
  unfold execWriteResendTimer
  exact .ite (.next (.refl ..)) (.ite (.next (.andThen (State.modPair_frame ..) rfl (.refl ..))) (.next (.andThen (resendAnnounces_frame ..)
    rfl (.foldl (fun _ _ => .ite (.refl ..) (.andThen (mjSend_frame ..) rfl (.andThen (State.modPair_frame ..) rfl (.refl ..)))) (.refl
    ..)))))

theorem execMiojoWack_runs (h : MjHdr) (wsn : W32) (s : State) : s.runsWithin (Instr.parts (.miojoWack h wsn)) (execMiojoWack h wsn s) := by
  unfold execMiojoWack
  exact onMessage_runs (fun _ => .andThen (State.modPair_frame ..) rfl (.refl ..)) rfl

theorem execMiojoRefuse_runs (h : MjHdr) (fwd : W32) (code : W16) (s : State) :
    s.runsWithin (Instr.parts (.miojoRefuse h fwd code)) (execMiojoRefuse h fwd code s) := by
  unfold execMiojoRefuse
  refine onMessage_runs (fun _ => ?_) rfl
  split
  · exact .refl ..
  · exact .andThen (answerFwd_frame ..) rfl (.andThen (State.modPair_frame ..) rfl (.refl ..))

theorem execMiojoHandover_runs (h : MjHdr) (tick : W64) (s : State) :
    s.runsWithin (Instr.parts (.miojoHandover h tick)) (execMiojoHandover h tick s) := by
  unfold execMiojoHandover
  dsimp only
  exact onMessage_runs (fun _ => .ite (.refl ..) (.andThen (requestOwn_frame ..) rfl (.andThen (logPair_frame ..) rfl (.andThen
    (changePair_frame ..) rfl (.refl ..))))) rfl

theorem execMiojoAnnounce_runs (h : MjHdr) (a : Announce) (s : State) :
    s.runsWithin (Instr.parts (.miojoAnnounce h a)) (execMiojoAnnounce h a s) := by
  unfold execMiojoAnnounce
  refine onMessage_runs (fun _ => ?_) rfl
  refine .ite (.refl ..) ?_
  split
  · exact .andThen (mjSend_frame ..) rfl (.refl ..)
  · exact .andThen (takeAnnounce_frame ..) rfl (.refl ..)

theorem execMiojoCheck_runs (h : MjHdr) (tick : W64) (outcome : Nat) (digest : Bytes) (s : State) :
    s.runsWithin (Instr.parts (.miojoCheck h tick outcome digest)) (execMiojoCheck h tick outcome digest s) := by
  unfold execMiojoCheck
  dsimp only
  exact onMessage_runs (fun _ => .ite (.refl ..) (.ite (.andThen (decideChange_frame ..) rfl (.andThen (State.modCyc_plain (fun _ => by rfl)
    ..) rfl (.refl ..))) (.andThen (State.modCyc_plain (fun _ => by rfl) ..) rfl (.refl ..)))) rfl

theorem execMiojoSilent_runs (h : MjHdr) (reason : Nat) (s : State) :
    s.runsWithin (Instr.parts (.miojoSilent h reason)) (execMiojoSilent h reason s) := by
  unfold execMiojoSilent
  exact onMessage_runs (fun _ => .andThen (partnerDied_frame ..) rfl (.andThen (State.modPair_frame ..) rfl (.refl ..))) rfl

theorem execMiojoState_runs (h : MjHdr) (region offset : Nat) (data : Bytes) (s : State) :
    s.runsWithin (Instr.parts (.miojoState h region offset data)) (execMiojoState h region offset data s) := by
  unfold execMiojoState
  dsimp only
  exact onMessage_runs (fun _ => .ite (.refl ..) (.andThen (mjSend_frame ..) rfl (.andThen (State.modPair_frame ..) rfl (.refl ..)))) rfl

theorem execMiojoStateack_runs (h : MjHdr) (seq : W32) (s : State) :
    s.runsWithin (Instr.parts (.miojoStateack h seq)) (execMiojoStateack h seq s) := by
  unfold execMiojoStateack
  exact onMessage_runs (fun _ => .andThen (takeStateAck_frame ..) rfl (.refl ..)) rfl

theorem execStateResendTimer_runs (s : State) : s.runsWithin (Instr.parts .stateResendTimer) (execStateResendTimer s) := by
  unfold execStateResendTimer
  dsimp only
  exact .ite (.next (.refl ..)) (.ite (.next (.refl ..)) (.next (.foldl (fun _ _ => .andThen (State.modPair_frame ..) rfl (.andThen
    (send_frame ..) rfl (.refl ..))) (.refl ..))))

theorem execMiojoLog_runs (h : MjHdr) (tick : W64) (items : List LogItem) (s : State) :
    s.runsWithin (Instr.parts (.miojoLog h tick items)) (execMiojoLog h tick items s) := by
  unfold execMiojoLog
  dsimp only
  exact onMessage_runs (fun _ => .ite (.refl ..) (.andThen (mjSend_frame ..) rfl (.andThen (State.modPair_frame ..) rfl (.refl ..)))) rfl

theorem execMiojoCatch_runs (h : MjHdr) (phase : Nat) (snapshot : W64) (reason : Option Nat) (s : State) :
    s.runsWithin (Instr.parts (.miojoCatch h phase snapshot reason)) (execMiojoCatch h phase snapshot reason s) := by
  unfold execMiojoCatch
  exact onMessage_runs (fun _ => .ite (.andThen (joinCatch_frame ..) rfl (.refl ..)) (.ite (.andThen (serveCatch_frame ..) rfl (.refl ..))
    (.refl ..))) rfl

theorem execMiojoBadCrc_runs (lane : Bool) (s : State) : s.runsWithin (Instr.parts (.miojoBadCrc lane)) (execMiojoBadCrc lane s) := by
  unfold execMiojoBadCrc
  exact .next (.andThen (State.modPair_frame ..) rfl (.refl ..))

theorem execLaneUp_runs (lane : Bool) (s : State) : s.runsWithin (Instr.parts (.laneUp lane)) (execLaneUp lane s) := by
  unfold execLaneUp
  dsimp only
  exact .next (.andThen (laneUp_frame ..) rfl (.andThen (State.modPair_frame ..) rfl (.refl ..)))

theorem execLaneDown_runs (lane : Bool) (s : State) : s.runsWithin (Instr.parts (.laneDown lane)) (execLaneDown lane s) := by
  unfold execLaneDown
  dsimp only
  exact .ite (.next (.refl ..)) (.ite (.next (.andThen (logPair_frame ..) rfl (.andThen (changePair_frame ..) rfl (.refl ..)))) (.next
    (.andThen (changePair_frame ..) rfl (.refl ..))))

theorem execMiojoLinkDown_runs (s : State) : s.runsWithin (Instr.parts .miojoLinkDown) (execMiojoLinkDown s) := by
  unfold execMiojoLinkDown
  dsimp only
  exact .ite (.next (.refl ..)) (.next (.ite (.andThen (changePair_frame ..) rfl (.refl ..)) (.andThen (linkLoss_frame ..) rfl (.andThen
    (changePair_frame ..) rfl (.refl ..)))))

theorem execAliveToggle_runs (s : State) : s.runsWithin (Instr.parts .aliveToggle) (execAliveToggle s) := by
  unfold execAliveToggle
  exact .ite (.ite (.next (.refl ..)) (.next (.andThen (State.modPair_frame ..) rfl (.refl ..)))) (.next (.andThen (State.modPair_frame ..)
    rfl (.refl ..)))

theorem execAlivePermitWrite_runs (s : State) : s.runsWithin (Instr.parts .alivePermitWrite) (execAlivePermitWrite s) := by
  unfold execAlivePermitWrite
  exact .ite (.next (.andThen (State.modPair_frame ..) rfl (.refl ..))) (.next (.refl ..))

theorem execAlivePermitExpire_runs (s : State) : s.runsWithin (Instr.parts .alivePermitExpire) (execAlivePermitExpire s) := by
  unfold execAlivePermitExpire
  exact .ite (.next (.refl ..)) (.next (.andThen (State.modPair_frame ..) rfl (.refl ..)))

theorem execAliveInEdge_runs (s : State) : s.runsWithin (Instr.parts .aliveInEdge) (execAliveInEdge s) := by
  unfold execAliveInEdge
  exact .next (.andThen (trackWait_frame ..) rfl (.andThen (trackWiring_frame ..) rfl (.andThen (changePair_frame ..) rfl (.refl ..))))

theorem execAliveTimeout_runs (s : State) : s.runsWithin (Instr.parts .aliveTimeout) (execAliveTimeout s) := by
  unfold execAliveTimeout
  dsimp only
  exact .ite (.next (.refl ..)) (.ite (.next (.refl ..)) (.next (.andThen (partnerDied_frame ..) rfl (.refl ..))))

theorem execOwnInChange_runs (high : Bool) (s : State) : s.runsWithin (Instr.parts (.ownInChange high)) (execOwnInChange high s) := by
  unfold execOwnInChange
  dsimp only
  exact .ite (.next (.refl ..)) (.ite (.next (.andThen (joinOwner_frame ..) rfl (.ite (.andThen (partnerTakes_frame ..) rfl (.andThen
    (withdraw_frame ..) rfl (.andThen (trackWait_frame ..) rfl (.andThen (trackWiring_frame ..) rfl (.andThen (changePair_frame ..) rfl
    (.refl ..)))))) (.andThen (withdraw_frame ..) rfl (.andThen (trackWait_frame ..) rfl (.andThen (trackWiring_frame ..) rfl (.andThen
    (changePair_frame ..) rfl (.refl ..)))))))) (.ite (.next (.andThen (changePair_frame ..) rfl (.andThen (trackWait_frame ..) rfl
    (.andThen (trackWiring_frame ..) rfl (.andThen (changePair_frame ..) rfl (.refl ..)))))) (.next (.andThen (trackWait_frame ..) rfl
    (.andThen (trackWiring_frame ..) rfl (.andThen (changePair_frame ..) rfl (.refl ..)))))))

theorem execOwnPermitExpire_runs (s : State) : s.runsWithin (Instr.parts .ownPermitExpire) (execOwnPermitExpire s) := by
  unfold execOwnPermitExpire
  dsimp only
  exact .ite (.next (.refl ..)) (.ite (.next (.refl ..)) (.next (.ite (.andThen (takeOwnership_frame ..) rfl (.andThen (changePair_frame ..)
    rfl (.refl ..))) (.andThen (changePair_frame ..) rfl (.refl ..)))))

theorem execInterlockWiringFault_runs (s : State) : s.runsWithin (Instr.parts .interlockWiringFault) (execInterlockWiringFault s) := by
  unfold execInterlockWiringFault
  dsimp only
  exact .ite (.next (.refl ..)) (.ite (.next (.refl ..)) (.ite (.next (.andThen (changePair_frame ..) rfl (.refl ..))) (.next (.andThen
    (logPair_frame ..) rfl (.andThen (changePair_frame ..) rfl (.refl ..))))))

theorem execCatchupBulkPassDone_runs (dirty : Nat) (s : State) :
    s.runsWithin (Instr.parts (.catchupBulkPassDone dirty)) (execCatchupBulkPassDone dirty s) := by
  unfold execCatchupBulkPassDone
  exact .ite (.next (.refl ..)) (.ite (.next (.refl ..)) (.ite (.next (.andThen (mjSend_frame ..) rfl (.andThen (State.modPair_frame ..) rfl
    (.refl ..)))) (.ite (.next (.andThen (serveFail_frame ..) rfl (.refl ..))) (.next (.andThen (sendValues_frame ..) rfl (.andThen
    (sendPages_frame ..) rfl (.andThen (State.modPair_frame ..) rfl (.refl ..))))))))

theorem execCatchupReplayTick_runs (s : State) : s.runsWithin (Instr.parts .catchupReplayTick) (execCatchupReplayTick s) := by
  unfold execCatchupReplayTick
  dsimp only
  refine .ite (.next (.refl ..)) ?_
  refine .ite (.ite (.next (.andThen (endReplay_frame ..) rfl (.refl ..))) (.next (.refl ..))) ?_
  refine .ite (.next (.andThen (catchFail_frame ..) rfl (.refl ..))) ?_
  split
  · exact .next (.andThen (replayTick_frame ..) rfl (.refl ..))
  · exact .ite (.next (.andThen (beginVerify_frame ..) rfl (.refl ..))) (.next (.refl ..))

theorem execCatchupRetryTimer_runs (s : State) : s.runsWithin (Instr.parts .catchupRetryTimer) (execCatchupRetryTimer s) := by
  unfold execCatchupRetryTimer
  exact .ite (.next (.andThen (tryPhase2_frame ..) rfl (.andThen (beginPhase1_frame ..) rfl (.refl ..)))) (.next (.refl ..))

theorem execTwinStableTimer_runs (s : State) : s.runsWithin (Instr.parts .twinStableTimer) (execTwinStableTimer s) := by
  unfold execTwinStableTimer
  exact .ite (.next (.andThen (State.modPair_frame ..) rfl (.refl ..))) (.next (.refl ..))

theorem execPublicationReceive_runs (f : Frame) (s : State) :
    s.runsWithin (Instr.parts (.publicationReceive f)) (execPublicationReceive f s) := by
  unfold execPublicationReceive
  exact .ite (.next (.refl ..)) (.next (.foldl (fun _ _ => .ite (.andThen (holdPub_frame ..) rfl (.refl ..)) (.refl ..)) (.refl ..)))

theorem execSlotForgetTimer_runs (slot : Nat) (s : State) :
    s.runsWithin (Instr.parts (.slotForgetTimer slot)) (execSlotForgetTimer slot s) := by
  unfold execSlotForgetTimer
  exact .ite (.next (.refl ..)) (.ite (.next (.andThen (modSub_frame ..) rfl (.refl ..))) (.next (.refl ..)))

theorem execGooseReceive_runs (g : GooseMsg) (s : State) : s.runsWithin (Instr.parts (.gooseReceive g)) (execGooseReceive g s) := by
  unfold execGooseReceive
  exact .ite (.next (.refl ..)) (.next (.foldl (fun _ _ => .ite (.andThen (holdGoose_frame ..) rfl (.refl ..)) (.refl ..)) (.refl ..)))

theorem execGooseRetransmit_runs (pub : Nat) (s : State) :
    s.runsWithin (Instr.parts (.gooseRetransmit pub)) (execGooseRetransmit pub s) := by
  unfold execGooseRetransmit
  exact .ite (.next (.andThen (gooseRepeats_frame ..) rfl (.refl ..))) (.next (.refl ..))

theorem execSvFrameReceive_runs (f : SvFrame) (at_ : W64) (s : State) :
    s.runsWithin (Instr.parts (.svFrameReceive f at_)) (execSvFrameReceive f s at_) := by
  unfold execSvFrameReceive
  dsimp only
  split
  · exact .next (.refl ..)
  · exact .ite (.next (.refl ..)) (.ite (.next (.andThen (svDiscard_frame ..) rfl (.refl ..))) (.ite (.next (.refl ..)) (.ite (.next
      (.andThen (svHold_frame ..) rfl (.foldl (fun _ _ => .andThen (setChBit_frame ..) rfl (.refl ..)) (.andThen (modStream_frame ..) rfl
      (.refl ..))))) (.ite (.next (.refl ..)) (.next (.andThen (svHold_frame ..) rfl (.refl ..)))))))

theorem execBellReceive_runs (herd : W16) (mac : W48) (s : State) :
    s.runsWithin (Instr.parts (.bellReceive herd mac)) (execBellReceive herd mac s) := by
  unfold execBellReceive
  dsimp only
  exact .ite (.next (.refl ..)) (.ite (.ite (.next (.andThen (State.modInteg_frame ..) rfl (.andThen (logEvent_frame ..) rfl (.refl ..))))
    (.next (.andThen (State.modCtl_plain (fun _ => by rfl) (fun _ => by rfl) ..) rfl (.andThen (logEvent_frame ..) rfl (.refl ..))))) (.next
    (.refl ..)))

theorem execBellSendTimer_runs (s : State) : s.runsWithin (Instr.parts .bellSendTimer) (execBellSendTimer s) := by
  unfold execBellSendTimer
  dsimp only
  exact .ite (.next (.andThen (State.modBell_frame ..) rfl (.andThen (sourceFrame_frame ..) rfl (.refl ..)))) (.next (.refl ..))

theorem execCanBellSend_runs (ctrl : Nat) (s : State) : s.runsWithin (Instr.parts (.canBellSend ctrl)) (execCanBellSend ctrl s) := by
  unfold execCanBellSend
  dsimp only
  refine .ite (.next (.refl ..)) ?_
  split
  · exact .next (.refl ..)
  · exact .ite (.next (.andThen (modCan_frame ..) rfl (.andThen (putSlot_frame ..) rfl (.refl ..)))) (.next (.refl ..))

theorem execRingFrameArrival_runs (onP1 : Bool) (f : Frame) (broken : Bool) (s : State) :
    s.runsWithin (Instr.parts (.ringFrameArrival onP1 f broken)) (execRingFrameArrival onP1 f s broken) := by
  unfold execRingFrameArrival
  dsimp only
  refine .ite (.next (.refl ..)) ?_
  refine .ite (.next (.andThen (modPort_frame ..) rfl (.andThen (modPort_frame ..) rfl (.refl ..)))) ?_
  refine .ite (.next (.andThen (State.modInteg_frame ..) rfl (.andThen (modPort_frame ..) rfl (.refl ..)))) ?_
  split
  · exact .ite (.next (.andThen (modPort_frame ..) rfl (.refl ..))) (.next (.andThen (modPort_frame ..) rfl (.andThen (modPort_frame ..) rfl
      (.refl ..))))
  · exact .next (.andThen (passUp_frame ..) rfl (.ite (.ite (.andThen (State.modNet_frame ..) rfl (.andThen (modPort_frame ..) rfl (.refl
      ..))) (.andThen (modPort_frame ..) rfl (.refl ..))) (.ite (.andThen (modPort_frame ..) rfl (.refl ..)) (.ite (.andThen (send_frame ..)
      rfl (.andThen (modPort_frame ..) rfl (.andThen (sepAdd_frame ..) rfl (.andThen (modPort_frame ..) rfl (.refl ..))))) (.andThen
      (modPort_frame ..) rfl (.refl ..))))))

theorem execStationFrameArrival_runs (p : Port) (f : Frame) (broken : Bool) (s : State) :
    s.runsWithin (Instr.parts (.stationFrameArrival p f broken)) (execStationFrameArrival p f s broken) := by
  unfold execStationFrameArrival
  dsimp only
  refine .ite (.next (.refl ..)) ?_
  refine .ite (.next (.andThen (modPort_frame ..) rfl (.andThen (modPort_frame ..) rfl (.refl ..)))) ?_
  refine .ite (.next (.andThen (State.modInteg_frame ..) rfl (.andThen (modPort_frame ..) rfl (.refl ..)))) ?_
  refine .ite (.next (.andThen (hostFrame_frame ..) rfl (.andThen (modPort_frame ..) rfl (.refl ..)))) ?_
  refine .ite (.next (.andThen (modPort_frame ..) rfl (.refl ..))) ?_
  split
  · exact .next (.andThen (passUp_frame ..) rfl (.andThen (modPort_frame ..) rfl (.refl ..)))
  · exact .next (.andThen (passUp_frame ..) rfl (.ite (.andThen (modPort_frame ..) rfl (.refl ..)) (.andThen (State.modNet_frame ..) rfl
      (.andThen (modPort_frame ..) rfl (.refl ..)))))

theorem execSeparatorEntryExpire_runs (s : State) : s.runsWithin (Instr.parts .separatorEntryExpire) (execSeparatorEntryExpire s) := by
  unfold execSeparatorEntryExpire
  exact .next (.andThen (State.modNet_frame ..) rfl (.refl ..))

theorem execSupervisionSendTimer_runs (s : State) : s.runsWithin (Instr.parts .supervisionSendTimer) (execSupervisionSendTimer s) := by
  unfold execSupervisionSendTimer
  dsimp only
  exact .ite (.next (.andThen (State.modNet_frame ..) rfl (.andThen (sourceFrame_frame ..) rfl (.refl ..)))) (.next (.refl ..))

theorem execRingLinkChange_runs (p : Port) (up : Bool) (medium : Nat) (s : State) :
    s.runsWithin (Instr.parts (.ringLinkChange p up medium)) (execRingLinkChange p up medium s) := by
  unfold execRingLinkChange
  dsimp only
  refine .ite (.next (.refl ..)) ?_
  refine .ite (.next (.andThen (setLink_frame ..) rfl (.andThen (modPort_frame ..) rfl (.refl ..)))) ?_
  refine .ite (.next (.refl ..)) ?_
  refine .ite (.next (.andThen (setLink_frame ..) rfl (.andThen (modPort_frame ..) rfl (.refl ..)))) ?_
  split
  · exact .ite (.next (.andThen (modPort_frame ..) rfl (.refl ..))) (.next (.andThen (setLink_frame ..) rfl (.andThen (modPort_frame ..) rfl
      (.andThen (modPort_frame ..) rfl (.refl ..)))))
  · exact .ite (.next (.andThen (setLink_frame ..) rfl (.andThen (setLink_frame ..) rfl (.andThen (State.modNet_frame ..) rfl (.andThen
      (modPort_frame ..) rfl (.andThen (modPort_frame ..) rfl (.refl ..))))))) (.next (.andThen (logEvent_frame ..) rfl (.andThen
      (State.modNet_frame ..) rfl (.andThen (setLink_frame ..) rfl (.andThen (setLink_frame ..) rfl (.andThen (modPort_frame ..) rfl (.refl
      ..)))))))

theorem execRingMediumDetectTimer_runs (s : State) : s.runsWithin (Instr.parts .ringMediumDetectTimer) (execRingMediumDetectTimer s) := by
  unfold execRingMediumDetectTimer
  dsimp only
  exact .ite (.next (.refl ..)) (.ite (.next (.andThen (State.modNet_frame ..) rfl (.andThen (modPort_frame ..) rfl (.andThen (modPort_frame
    ..) rfl (.refl ..))))) (.ite (.next (.andThen (State.modNet_frame ..) rfl (.refl ..))) (.next (.refl ..))))

theorem execArpRequest_runs (p : Port) (mac : W48) (ip target : W32) (s : State) :
    s.runsWithin (Instr.parts (.arpRequest p mac ip target)) (execArpRequest p mac ip target s) := by
  unfold execArpRequest
  dsimp only
  exact .ite (.next (.andThen (send_frame ..) rfl (.andThen (ownFrame_frame ..) rfl (.refl ..)))) (.next (.refl ..))

theorem execIcmpEcho_runs (p : Port) (target : W32) (id seq : W16) (data : Bytes) (s : State) :
    s.runsWithin (Instr.parts (.icmpEcho p target id seq data)) (execIcmpEcho p target id seq data s) := by
  unfold execIcmpEcho
  dsimp only
  exact .ite (.next (.andThen (send_frame ..) rfl (.andThen (ownFrame_frame ..) rfl (.refl ..)))) (.next (.refl ..))

theorem execPtpSyncReceive_runs (m : PtpSync) (s : State) : s.runsWithin (Instr.parts (.ptpSyncReceive m)) (execPtpSyncReceive m s) := by
  unfold execPtpSyncReceive
  exact .ite (.next (.andThen (takeSync_frame ..) rfl (.refl ..))) (.next (.refl ..))

theorem execPtpFollowUpReceive_runs (srcPort : W80) (seq : W16) (origin : Nat) (correction : ℤ) (s : State) :
    s.runsWithin (Instr.parts (.ptpFollowUpReceive srcPort seq origin correction)) (execPtpFollowUpReceive srcPort seq origin correction s)
      := by
  unfold execPtpFollowUpReceive
  dsimp only
  split
  · exact .next (.refl ..)
  · exact .ite (.next (.andThen (servo_frame ..) rfl (.andThen (State.modTime_frame ..) rfl (.refl ..)))) (.next (.refl ..))

theorem execPtpAnnounceReceive_runs (m : PtpAnnounce) (s : State) :
    s.runsWithin (Instr.parts (.ptpAnnounceReceive m)) (execPtpAnnounceReceive m s) := by
  unfold execPtpAnnounceReceive
  dsimp only
  exact .ite (.next (.refl ..)) (.next (.andThen (chooseMaster_frame ..) rfl (.andThen (State.modTime_frame ..) rfl (.refl ..))))

theorem execPdelayReqReceive_runs (port : Nat) (seq : W16) (correction : ℤ) (ingress egress : W64) (s : State) :
    s.runsWithin (Instr.parts (.pdelayReqReceive port seq correction ingress egress)) (execPdelayReqReceive port seq correction ingress
      egress s) := by
  unfold execPdelayReqReceive
  exact .ite (.next (.andThen (ptpSend_frame ..) rfl (.refl ..))) (.next (.refl ..))

theorem execPdelayRespReceive_runs (port : Nat) (seq : W16) (ingress : W64) (turnaround : ℤ) (s : State) :
    s.runsWithin (Instr.parts (.pdelayRespReceive port seq ingress turnaround)) (execPdelayRespReceive port seq ingress turnaround s) := by
  unfold execPdelayRespReceive
  dsimp only
  split
  · exact .next (.refl ..)
  · exact .ite (.next (.andThen (modPd_frame ..) rfl (.refl ..))) (.next (.refl ..))

theorem execPdelayReqTimer_runs (egress : List W64) (s : State) :
    s.runsWithin (Instr.parts (.pdelayReqTimer egress)) (execPdelayReqTimer s egress) := by
  unfold execPdelayReqTimer
  dsimp only
  exact .ite (.next (.refl ..)) (.next (.foldl (fun _ _ => .ite (.andThen (ptpSend_frame ..) rfl (.andThen (modPd_frame ..) rfl (.refl ..)))
    (.refl ..)) (.refl ..)))

theorem execPtpTcForward_runs (m : PtpFwd) (s : State) : s.runsWithin (Instr.parts (.ptpTcForward m)) (execPtpTcForward m s) := by
  unfold execPtpTcForward
  dsimp only
  refine .ite (.next (.refl ..)) ?_
  refine .ite (.next (.andThen (State.modTime_frame ..) rfl (.refl ..))) ?_
  refine .ite (.next (.ite (.andThen (send_frame ..) rfl (.andThen (State.modTime_frame ..) rfl (.andThen (modPort_frame ..) rfl (.andThen
    (tcAdd_frame ..) rfl (.refl ..))))) (.refl ..))) ?_
  refine .ite ?_ (.next (.ite (.andThen (send_frame ..) rfl (.andThen (State.modTime_frame ..) rfl (.andThen (modPort_frame ..) rfl
    (.andThen (tcAdd_frame ..) rfl (.refl ..))))) (.refl ..)))
  split
  · exact .next (.andThen (State.modTime_frame ..) rfl (.refl ..))
  · exact .next (.ite (.andThen (send_frame ..) rfl (.andThen (State.modTime_frame ..) rfl (.andThen (modPort_frame ..) rfl (.andThen
      (tcAdd_frame ..) rfl (.refl ..))))) (.refl ..))

theorem execPtpTcEntryExpire_runs (s : State) : s.runsWithin (Instr.parts .ptpTcEntryExpire) (execPtpTcEntryExpire s) := by
  unfold execPtpTcEntryExpire
  exact .next (.andThen (State.modTime_frame ..) rfl (.refl ..))

theorem execSyncLossTimer_runs (s : State) : s.runsWithin (Instr.parts .syncLossTimer) (execSyncLossTimer s) := by
  unfold execSyncLossTimer
  dsimp only
  refine .ite ?_ (.next (.refl ..))
  split
  · exact .next (.andThen (setOwnTime_frame ..) rfl (.andThen (State.modTime_frame ..) rfl (.refl ..)))
  · exact .next (.andThen (setOwnTime_frame ..) rfl (.andThen (State.modTime_frame ..) rfl (.refl ..)))
  · exact .next (.andThen (State.modTime_frame ..) rfl (.refl ..))
  · exact .next (.andThen (State.modTime_frame ..) rfl (.refl ..))
  · exact .next (.andThen (State.modTime_frame ..) rfl (.refl ..))

theorem execHoldoverLimitExpire_runs (s : State) : s.runsWithin (Instr.parts .holdoverLimitExpire) (execHoldoverLimitExpire s) := by
  unfold execHoldoverLimitExpire
  exact .ite (.next (.andThen (setOwnTime_frame ..) rfl (.refl ..))) (.next (.refl ..))

theorem execRefInQualify_runs (diff : ℤ) (s : State) : s.runsWithin (Instr.parts (.refInQualify diff)) (execRefInQualify diff s) := by
  unfold execRefInQualify
  dsimp only
  exact .ite (.next (.andThen (refLose_frame ..) rfl (.andThen (State.modTime_frame ..) rfl (.refl ..)))) (.next (.andThen (refSwitch_frame
    ..) rfl (.ite (.andThen (State.modTime_frame ..) rfl (.andThen (State.modTime_frame ..) rfl (.refl ..))) (.andThen (raiseIrq_frame ..)
    rfl (.andThen (State.modTime_frame ..) rfl (.andThen (State.modTime_frame ..) rfl (.refl ..)))))))

theorem execRefInLoss_runs (s : State) : s.runsWithin (Instr.parts .refInLoss) (execRefInLoss s) := by
  unfold execRefInLoss
  exact .next (.andThen (refLose_frame ..) rfl (.refl ..))

theorem execPpsInEdge_runs (at_ : W64) (s : State) : s.runsWithin (Instr.parts (.ppsInEdge at_)) (execPpsInEdge s at_) := by
  unfold execPpsInEdge
  dsimp only
  exact .next (.andThen (raiseIrq_frame ..) rfl (.andThen (State.modTime_frame ..) rfl (.refl ..)))

theorem execWholeSecond_runs (s : State) : s.runsWithin (Instr.parts .wholeSecond) (execWholeSecond s) := by
  unfold execWholeSecond
  dsimp only
  exact .ite (.next (.refl ..)) (.next (.andThen (pulse_frame ..) rfl (.andThen (raiseIrq_frame ..) rfl (.ite (.andThen (State.modTime_frame
    ..) rfl (.andThen (State.modTime_frame ..) rfl (.refl ..))) (.andThen (State.modTime_frame ..) rfl (.refl ..))))))

theorem execTimeAlarmFire_runs (s : State) : s.runsWithin (Instr.parts .timeAlarmFire) (execTimeAlarmFire s) := by
  unfold execTimeAlarmFire
  exact .ite (.next (.andThen (fireAlarm_frame ..) rfl (.refl ..))) (.next (.refl ..))

theorem execTimeAlarmArm_runs (s : State) : s.runsWithin (Instr.parts .timeAlarmArm) (execTimeAlarmArm s) := by
  unfold execTimeAlarmArm
  exact .ite (.next (.refl ..)) (.next (.andThen (State.modTime_frame ..) rfl (.refl ..)))

theorem execTimeAlarmDisarm_runs (s : State) : s.runsWithin (Instr.parts .timeAlarmDisarm) (execTimeAlarmDisarm s) := by
  unfold execTimeAlarmDisarm
  exact .ite (.next (.refl ..)) (.next (.andThen (State.modTime_frame ..) rfl (.refl ..)))

theorem execRateWrite_runs (rate : W32) (s : State) : s.runsWithin (Instr.parts (.rateWrite rate)) (execRateWrite rate s) := by
  unfold execRateWrite
  exact .ite (.next (.refl ..)) (.next (.andThen (writeRate_frame ..) rfl (.refl ..)))

theorem execTimeGroupLatchRead_runs (reg : Nat) (m : Master) (s : State) :
    s.runsWithin (Instr.parts (.timeGroupLatchRead reg m)) (execTimeGroupLatchRead reg s m) := by
  unfold execTimeGroupLatchRead
  dsimp only
  exact port_runsAny rfl (.next (.andThen (send_frame ..) rfl (.andThen (timeRead_frame ..) rfl (.refl ..))))

theorem execForerunnerLoad_runs (v : W32) (s : State) : s.runsWithin (Instr.parts (.forerunnerLoad v)) (execForerunnerLoad v s) := by
  unfold execForerunnerLoad
  exact .ite (.next (.refl ..)) (.next (.andThen (State.modTime_frame ..) rfl (.refl ..)))

theorem execSessionOpen_runs (h : MsgHdr) (body : Bytes) (s : State) :
    s.runsWithin (Instr.parts (.sessionOpen h body)) (execSessionOpen h body s) := by
  unfold execSessionOpen
  exact .ite (.next (.refl ..)) (.ite (.next (.andThen (serveOpen_frame ..) rfl (.refl ..))) (.next (.andThen (serveMalformed_frame ..) rfl
    (.refl ..))))

theorem execSessionSetupTimeout_runs (sid : W32) (s : State) :
    s.runsWithin (Instr.parts (.sessionSetupTimeout sid)) (execSessionSetupTimeout sid s) := by
  unfold execSessionSetupTimeout
  split
  · exact .next (.refl ..)
  · exact .ite (.next (.andThen (endSession_frame ..) rfl (.refl ..))) (.next (.refl ..))

theorem execSessionIdleTimeout_runs (sid : W32) (s : State) :
    s.runsWithin (Instr.parts (.sessionIdleTimeout sid)) (execSessionIdleTimeout sid s) := by
  unfold execSessionIdleTimeout
  split
  · exact .next (.refl ..)
  · exact .ite (.next (.andThen (closeSession_frame ..) rfl (.refl ..))) (.next (.refl ..))

theorem execSessionClose_runs (h : MsgHdr) (s : State) : s.runsWithin (Instr.parts (.sessionClose h)) (execSessionClose h s) := by
  unfold execSessionClose
  exact .ite (.next (.andThen (serveClose_frame ..) rfl (.refl ..))) (.next (.refl ..))

theorem execDictRead_runs (h : MsgHdr) (items : List ReadItem) (rsv : Bytes) (s : State) :
    s.runsWithin (Instr.parts (.dictRead h items rsv)) (execDictRead h items s rsv) := by
  unfold execDictRead
  exact .ite (.next (.andThen (serveRead_frame ..) rfl (.refl ..))) (.next (.refl ..))

theorem execDictWrite_runs (h : MsgHdr) (w : WritePiece) (rsv : Bytes) (s : State) :
    s.runsWithin (Instr.parts (.dictWrite h w rsv)) (execDictWrite h w s rsv) := by
  unfold execDictWrite
  exact .ite (.next (.andThen (serveWriteMsg_frame ..) rfl (.refl ..))) (.next (.refl ..))

theorem execDictMalformed_runs (h : MsgHdr) (type : Nat) (body : Bytes) (s : State) :
    s.runsWithin (Instr.parts (.dictMalformed h type body)) (execDictMalformed h type body s) := by
  unfold execDictMalformed
  exact .ite (.next (.andThen (serveMalformed_frame ..) rfl (.refl ..))) (.next (.refl ..))

theorem execCanTpFrame_runs (ctrl : Nat) (f : CanFrame) (s : State) :
    s.runsWithin (Instr.parts (.canTpFrame ctrl f)) (execCanTpFrame ctrl f s) := by
  unfold execCanTpFrame
  refine .ite (.next (.refl ..)) ?_
  split
  · exact .next (.andThen (tpSingle_frame ..) rfl (.refl ..))
  · exact .next (.andThen (tpFirst_frame ..) rfl (.refl ..))
  · exact .next (.andThen (tpConsec_frame ..) rfl (.refl ..))
  · exact .next (.andThen (tpFlow_frame ..) rfl (.refl ..))
  · exact .next (.refl ..)

theorem execCanTpTimeout_runs (ctrl : Nat) (s : State) : s.runsWithin (Instr.parts (.canTpTimeout ctrl)) (execCanTpTimeout ctrl s) := by
  unfold execCanTpTimeout
  dsimp only
  refine .ite (.next (.refl ..)) ?_
  split
  · refine .ite ?_ ?_
    · refine .next ?_
      refine .andThen (tpConsecOut_frame ..) rfl ?_
      split
      · refine .ite ?_ ?_
        · refine .andThen (abortTx_frame ..) rfl ?_
          split
          · exact .ite (.andThen (abortRx_frame ..) rfl (.refl ..)) (.refl ..)
          · exact .refl ..
        · split
          · exact .ite (.andThen (abortRx_frame ..) rfl (.refl ..)) (.refl ..)
          · exact .refl ..
      · split
        · exact .ite (.andThen (abortRx_frame ..) rfl (.refl ..)) (.refl ..)
        · exact .refl ..
    · refine .next ?_
      split
      · refine .ite ?_ ?_
        · refine .andThen (abortTx_frame ..) rfl ?_
          split
          · exact .ite (.andThen (abortRx_frame ..) rfl (.refl ..)) (.refl ..)
          · exact .refl ..
        · split
          · exact .ite (.andThen (abortRx_frame ..) rfl (.refl ..)) (.refl ..)
          · exact .refl ..
      · split
        · exact .ite (.andThen (abortRx_frame ..) rfl (.refl ..)) (.refl ..)
        · exact .refl ..
  · refine .next ?_
    split
    · refine .ite ?_ ?_
      · refine .andThen (abortTx_frame ..) rfl ?_
        split
        · exact .ite (.andThen (abortRx_frame ..) rfl (.refl ..)) (.refl ..)
        · exact .refl ..
      · split
        · exact .ite (.andThen (abortRx_frame ..) rfl (.refl ..)) (.refl ..)
        · exact .refl ..
    · split
      · exact .ite (.andThen (abortRx_frame ..) rfl (.refl ..)) (.refl ..)
      · exact .refl ..

theorem execServiceUnlock_runs (c : Client) (data : Bytes) (s : State) :
    s.runsWithin (Instr.parts (.serviceUnlock c data)) (execServiceUnlock c data s) := by
  unfold execServiceUnlock
  exact .ite (.next (.refl ..)) (.ite (.next (.andThen (serveWrite_frame ..) rfl (.refl ..))) (.next (.andThen (answerError_frame ..) rfl
    (.refl ..))))

theorem execClearCounters_runs (c : Client) (index sub : Nat) (s : State) :
    s.runsWithin (Instr.parts (.clearCounters c index sub)) (execClearCounters c index sub s) := by
  unfold execClearCounters
  exact .ite (clientWrites_runs .. |>.weaken rfl) (.next (.refl ..))

theorem execLoopModeSet_runs (c : Client) (n mode : Nat) (s : State) :
    s.runsWithin (Instr.parts (.loopModeSet c n mode)) (execLoopModeSet c n mode s) := by
  unfold execLoopModeSet
  exact .ite (clientWrites_runs .. |>.weaken rfl) (.next (.refl ..))

theorem execLoopBankCommand_runs (c : Client) (n bank : Nat) (s : State) :
    s.runsWithin (Instr.parts (.loopBankCommand c n bank)) (execLoopBankCommand c n bank s) := by
  unfold execLoopBankCommand
  exact .ite (clientWrites_runs .. |>.weaken rfl) (.next (.refl ..))

theorem execClearRepetitiveMemory_runs (c : Client) (n : Nat) (s : State) :
    s.runsWithin (Instr.parts (.clearRepetitiveMemory c n)) (execClearRepetitiveMemory c n s) := by
  unfold execClearRepetitiveMemory
  exact .ite (clientWrites_runs .. |>.weaken rfl) (.next (.refl ..))

theorem execClearDFault_runs (c : Option Client) (held : Bool) (s : State) :
    s.runsWithin (Instr.parts (.clearDFault c held)) (execClearDFault c s held) := by
  unfold execClearDFault
  split
  · exact clientWrites_runs .. |>.weaken rfl
  · exact .next (.andThen (State.modField_frame ..) rfl (.refl ..))

theorem execAttestationSigned_runs (s : State) : s.runsWithin (Instr.parts .attestationSigned) (execAttestationSigned s) := by
  unfold execAttestationSigned
  dsimp only
  refine .ite (.next (.refl ..)) ?_
  refine .ite (.next (.refl ..)) ?_
  split
  · exact .ite (.next (.andThen (State.modBoot_plain (fun _ => by rfl) ..) rfl (.refl ..))) (.next (.andThen (sendObject_frame ..) rfl
      (.andThen (State.modBoot_plain (fun _ => by rfl) ..) rfl (.refl ..))))
  · exact .next (.andThen (State.modBoot_plain (fun _ => by rfl) ..) rfl (.refl ..))

theorem execLogRecordWrite_runs (s : State) : s.runsWithin (Instr.parts .logRecordWrite) (execLogRecordWrite s) := by
  unfold execLogRecordWrite
  dsimp only
  refine .ite (.next (.refl ..)) ?_
  refine .ite (.next (.andThen (writeLog_frame ..) rfl (.andThen (State.modLog_frame ..) rfl (.refl ..)))) ?_
  split
  · exact .next (.refl ..)
  · split
    · exact .next (.andThen (writeLog_frame ..) rfl (.andThen (State.modLog_frame ..) rfl (.refl ..)))
    · exact .next (.andThen (modCp_plain (fun _ => by rfl) ..) rfl (.andThen (writeLog_frame ..) rfl (.andThen (State.modLog_frame ..) rfl
        (.refl ..))))

theorem execLogMirrorCopy_runs (s : State) : s.runsWithin (Instr.parts .logMirrorCopy) (execLogMirrorCopy s) := by
  unfold execLogMirrorCopy
  dsimp only
  exact .ite (.next (.refl ..)) (.next (.andThen (State.modLog_frame ..) rfl (.refl ..)))

theorem execOperatingSecond_runs (s : State) : s.runsWithin (Instr.parts .operatingSecond) (execOperatingSecond s) := by
  unfold execOperatingSecond
  dsimp only
  exact .ite (.next (.refl ..)) (.next (.andThen (State.modLog_frame ..) rfl (.refl ..)))

theorem execRecordStart_runs (s : State) : s.runsWithin (Instr.parts .recordStart) (execRecordStart s) := by
  unfold execRecordStart
  dsimp only
  refine .ite (.next (.refl ..)) ?_
  split
  · exact .next (.refl ..)
  · split
    · exact .next (.andThen (openRecord_frame ..) rfl (.andThen (State.modPair_frame ..) rfl (.refl ..)))
    · exact .next (.andThen (State.modPair_frame ..) rfl (.refl ..))
    · exact .next (.andThen (State.modPair_frame ..) rfl (.refl ..))
    · exact .next (.andThen (State.modPair_frame ..) rfl (.refl ..))

theorem execRecordCommit_runs (number : W32) (s : State) :
    s.runsWithin (Instr.parts (.recordCommit number)) (execRecordCommit number s) := by
  unfold execRecordCommit
  dsimp only
  refine .ite (.next (.refl ..)) ?_
  split
  · exact .next (.refl ..)
  · exact .next (.andThen (raiseIrq_frame ..) rfl (.andThen (logEvent_frame ..) rfl (.andThen (makeRoom_frame ..) rfl (.andThen
      (State.modDist_frame ..) rfl (.refl ..)))))

theorem execRecLoggo_runs (c : Cp) (s : State) : s.runsWithin (Instr.parts (.recLoggo c)) (execRecLoggo c s) := by
  unfold execRecLoggo
  dsimp only
  exact port_runs (Cp.master_ne _) rfl (.ite (.next (.refl ..)) (.ite (.next (.andThen (modCp_plain (fun _ => by rfl) ..) rfl (.refl ..)))
    (.ite (.next (.andThen (modCp_plain (fun _ => by rfl) ..) rfl (.andThen (queueLog_frame ..) rfl (.refl ..)))) (.next (.andThen
    (modCp_plain (fun _ => by rfl) ..) rfl (.andThen (queueLog_frame ..) rfl (.refl ..)))))))

theorem execDmbGo_runs (c : Cp) (s : State) : s.runsWithin (Instr.parts (.dmbGo c)) (execDmbGo c s) := by
  unfold execDmbGo
  dsimp only
  exact port_runs (Cp.master_ne _) rfl (.ite (.next (.andThen (dmbDiscard_frame ..) rfl (.refl ..))) (.ite (.next (.andThen (modDmb_frame
    ..) rfl (.refl ..))) (.ite (.next (.andThen (dmbServe_frame ..) rfl (.andThen (modDmb_frame ..) rfl (.refl ..)))) (.next (.andThen
    (modDmb_frame ..) rfl (.refl ..))))))

theorem execDmbAbort_runs (c : Cp) (s : State) : s.runsWithin (Instr.parts (.dmbAbort c)) (execDmbAbort c s) := by
  unfold execDmbAbort
  dsimp only
  refine port_runs (Cp.master_ne _) rfl ?_
  refine .ite (.next (.andThen (dmbDiscard_frame ..) rfl (.refl ..))) ?_
  split
  · exact .next (.andThen (modDmb_frame ..) rfl (.refl ..))
  · exact .next (.refl ..)

theorem execDmbDone_runs (c : Cp) (s : State) : s.runsWithin (Instr.parts (.dmbDone c)) (execDmbDone c s) := by
  unfold execDmbDone
  refine .ite (.next (.refl ..)) ?_
  split
  · exact .next (.refl ..)
  · exact .next (.andThen (modDmb_frame ..) rfl (.refl ..))

theorem execDmbNcallDiscard_runs (c : Cp) (offset : Nat) (v : W32) (load : Bool) (s : State) :
    s.runsWithin (Instr.parts (.dmbNcallDiscard c offset v load)) (execDmbNcallDiscard c offset v s load) := by
  unfold execDmbNcallDiscard
  dsimp only
  exact port_runs (Cp.master_ne _) rfl (.ite (.next (.ite (.andThen (send_frame ..) rfl (.andThen (dmbDiscard_frame ..) rfl (.refl ..)))
    (.andThen (dmbDiscard_frame ..) rfl (.refl ..)))) (.next (.refl ..)))

theorem execCanFrameReceive_runs (ctrl : Nat) (f : CanFrame) (s : State) :
    s.runsWithin (Instr.parts (.canFrameReceive ctrl f)) (execCanFrameReceive ctrl f s) := by
  unfold execCanFrameReceive
  dsimp only
  refine .ite (.next (.refl ..)) ?_
  refine .ite (.next (.refl ..)) ?_
  refine .ite (.next (.andThen (arbLost_frame ..) rfl (.andThen (setCanState_frame ..) rfl (.andThen (rxGood_frame ..) rfl (.refl ..))))) ?_
  split
  · exact .next (.andThen (arbLost_frame ..) rfl (.andThen (setCanState_frame ..) rfl (.andThen (rxGood_frame ..) rfl (.refl ..))))
  · exact .ite (.next (.andThen (modCan_frame ..) rfl (.andThen (arbLost_frame ..) rfl (.andThen (setCanState_frame ..) rfl (.andThen
      (rxGood_frame ..) rfl (.refl ..)))))) (.next (.andThen (pulseNow_frame ..) rfl (.andThen (modCan_frame ..) rfl (.andThen
      (arbLost_frame ..) rfl (.andThen (setCanState_frame ..) rfl (.andThen (rxGood_frame ..) rfl (.refl ..)))))))

theorem execCanTxComplete_runs (ctrl : Nat) (s : State) : s.runsWithin (Instr.parts (.canTxComplete ctrl)) (execCanTxComplete ctrl s) := by
  unfold execCanTxComplete
  dsimp only
  refine .ite (.next (.refl ..)) ?_
  refine .ite (.next (.refl ..)) ?_
  split
  · exact .next (.refl ..)
  · split
    · exact .next (.refl ..)
    · exact .next (.ite (.andThen (tpNext_frame ..) rfl (.andThen (canSettle_frame ..) rfl (.andThen (setCanState_frame ..) rfl (.andThen
        (modCan_frame ..) rfl (.andThen (send_frame ..) rfl (.refl ..)))))) (.andThen (canSettle_frame ..) rfl (.andThen (setCanState_frame
        ..) rfl (.andThen (modCan_frame ..) rfl (.andThen (send_frame ..) rfl (.refl ..))))))

theorem execCanBusError_runs (ctrl : Nat) (e : CanErr) (s : State) :
    s.runsWithin (Instr.parts (.canBusError ctrl e)) (execCanBusError ctrl e s) := by
  unfold execCanBusError
  dsimp only
  refine .ite (.next (.refl ..)) ?_
  refine .ite (.next (.refl ..)) ?_
  refine .next ?_
  refine .ite ?_ ?_
  · refine .andThen (busOff_frame ..) rfl ?_
    split
    · exact .andThen (modCan_frame ..) rfl (.andThen (setCanState_frame ..) rfl (.andThen (modCan_frame ..) rfl (.refl ..)))
    · exact .andThen (setCanState_frame ..) rfl (.andThen (modCan_frame ..) rfl (.refl ..))
  · refine .andThen (canSettle_frame ..) rfl ?_
    split
    · exact .andThen (modCan_frame ..) rfl (.andThen (setCanState_frame ..) rfl (.andThen (modCan_frame ..) rfl (.refl ..)))
    · exact .andThen (setCanState_frame ..) rfl (.andThen (modCan_frame ..) rfl (.refl ..))

theorem execCanRecoveryDone_runs (ctrl : Nat) (s : State) :
    s.runsWithin (Instr.parts (.canRecoveryDone ctrl)) (execCanRecoveryDone ctrl s) := by
  unfold execCanRecoveryDone
  exact .ite (.next (.refl ..)) (.ite (.next (.refl ..)) (.next (.andThen (canSettle_frame ..) rfl (.andThen (setCanState_frame ..) rfl
    (.andThen (modCan_frame ..) rfl (.refl ..))))))

theorem execCanTxsubmit_runs (ctrl : Nat) (v : W32) (s : State) :
    s.runsWithin (Instr.parts (.canTxsubmit ctrl v)) (execCanTxsubmit ctrl v s) := by
  unfold execCanTxsubmit
  dsimp only
  exact canPort_runs rfl (.ite (.next (.andThen (modCan_frame ..) rfl (.refl ..))) (.next (.andThen (putSlot_frame ..) rfl (.refl ..))))

theorem execCanTxcancel_runs (ctrl : Nat) (v : W32) (s : State) :
    s.runsWithin (Instr.parts (.canTxcancel ctrl v)) (execCanTxcancel ctrl v s) := by
  unfold execCanTxcancel
  exact canPort_runs rfl (.next (.andThen (modCan_frame ..) rfl (.refl ..)))

theorem execCanRxack_runs (ctrl : Nat) (s : State) : s.runsWithin (Instr.parts (.canRxack ctrl)) (execCanRxack ctrl s) := by
  unfold execCanRxack
  exact canPort_runs rfl (.next (.andThen (modCan_frame ..) rfl (.refl ..)))

theorem execCanRecover_runs (ctrl : Nat) (s : State) : s.runsWithin (Instr.parts (.canRecover ctrl)) (execCanRecover ctrl s) := by
  unfold execCanRecover
  exact canPort_runs rfl (.ite (.next (.refl ..)) (.next (.andThen (setCanState_frame ..) rfl (.refl ..))))

theorem execCanSleep_runs (ctrl : Nat) (s : State) : s.runsWithin (Instr.parts (.canSleep ctrl)) (execCanSleep ctrl s) := by
  unfold execCanSleep
  dsimp only
  exact canPort_runs rfl (.next (.andThen (canSettle_frame ..) rfl (.andThen (modCan_frame ..) rfl (.refl ..))))

theorem execCanWakeCommand_runs (ctrl : Nat) (s : State) :
    s.runsWithin (Instr.parts (.canWakeCommand ctrl)) (execCanWakeCommand ctrl s) := by
  unfold execCanWakeCommand
  exact canPort_runs rfl (.ite (.next (.andThen (canWake_frame ..) rfl (.refl ..))) (.next (.andThen (modCan_frame ..) rfl (.refl ..))))

theorem execCanWake_runs (ctrl : Nat) (cause : CanWakeCause) (s : State) :
    s.runsWithin (Instr.parts (.canWake ctrl cause)) (execCanWake ctrl cause s) := by
  unfold execCanWake
  exact .ite (.next (.refl ..)) (.ite (.next (.refl ..)) (.ite (.next (.andThen (canWake_frame ..) rfl (.refl ..))) (.next (.refl ..))))

theorem execCanLasterrRead_runs (ctrl : Nat) (held : W32) (s : State) :
    s.runsWithin (Instr.parts (.canLasterrRead ctrl held)) (execCanLasterrRead ctrl s held) := by
  unfold execCanLasterrRead
  dsimp only
  exact canPort_runs rfl (.next (.andThen (send_frame ..) rfl (.andThen (readCan_frame ..) rfl (.refl ..))))

theorem execInterruptEvent_runs (c : Cp) (src : Nat) (s : State) :
    s.runsWithin (Instr.parts (.interruptEvent c src)) (execInterruptEvent c src s) := by
  unfold execInterruptEvent
  dsimp only
  exact .ite (.next (.andThen (modClk_frame ..) rfl (.refl ..))) (.next (.andThen (modIntc_frame ..) rfl (.refl ..)))

theorem execIntcClaim_runs (c : Cp) (v : W32) (s : State) : s.runsWithin (Instr.parts (.intcClaim c v)) (execIntcClaim c v s) := by
  unfold execIntcClaim
  dsimp only
  exact port_runs (Cp.master_ne _) rfl (.ite (.next (.refl ..)) (.next (.andThen (modIntc_frame ..) rfl (.refl ..))))

theorem execIntcComplete_runs (c : Cp) (v : W32) (s : State) : s.runsWithin (Instr.parts (.intcComplete c v)) (execIntcComplete c v s) := by
  unfold execIntcComplete
  dsimp only
  exact port_runs (Cp.master_ne _) rfl (.ite (.next (.refl ..)) (.ite (.next (.andThen (modIntc_frame ..) rfl (.refl ..))) (.next (.andThen
    (modIntc_frame ..) rfl (.refl ..)))))

theorem execIntcSwset_runs (c : Cp) (v : W32) (s : State) : s.runsWithin (Instr.parts (.intcSwset c v)) (execIntcSwset c v s) := by
  unfold execIntcSwset
  exact port_runs (Cp.master_ne _) rfl (.next (.foldl (fun _ _ => .ite (.andThen (raiseIrq_frame ..) rfl (.refl ..)) (.refl ..)) (.refl
    ..)))

theorem execIntcStrayClear_runs (c : Cp) (s : State) : s.runsWithin (Instr.parts (.intcStrayClear c)) (execIntcStrayClear c s) := by
  unfold execIntcStrayClear
  exact port_runs (Cp.master_ne _) rfl (.next (.andThen (modIntc_frame ..) rfl (.refl ..)))

theorem execHoldExpire_runs (c : Cp) (src : Nat) (s : State) : s.runsWithin (Instr.parts (.holdExpire c src)) (execHoldExpire c src s) := by
  unfold execHoldExpire
  dsimp only
  refine .ite (.next (.refl ..)) ?_
  split
  · exact .next (.refl ..)
  · exact .ite (.ite (.next (.andThen (modClk_frame ..) rfl (.andThen (modIntc_frame ..) rfl (.refl ..)))) (.next (.andThen (modIntc_frame
      ..) rfl (.refl ..)))) (.next (.refl ..))

theorem execWfi_runs (c : Cp) (s : State) : s.runsWithin (Instr.parts (.wfi c)) (execWfi c s) := by
  unfold execWfi
  exact .ite (.next (.refl ..)) (.ite (.next (.andThen (modClk_frame ..) rfl (.refl ..))) (.next (.refl ..)))

theorem execCoreWake_runs (c : Cp) (s : State) : s.runsWithin (Instr.parts (.coreWake c)) (execCoreWake c s) := by
  unfold execCoreWake
  exact .ite (.next (.refl ..)) (.next (.andThen (wakeCore_frame ..) rfl (.refl ..)))

theorem execDmaGo_runs (ch : Nat) (s : State) : s.runsWithin (Instr.parts (.dmaGo ch)) (execDmaGo ch s) := by
  unfold execDmaGo
  dsimp only
  exact ownerPort_runs rfl (.ite (.next (.andThen (loadDesc_frame ..) rfl (.andThen (modCh_frame ..) rfl (.refl ..)))) (.next (.refl ..)))

theorem execDmaResume_runs (ch : Nat) (s : State) : s.runsWithin (Instr.parts (.dmaResume ch)) (execDmaResume ch s) := by
  unfold execDmaResume
  dsimp only
  exact ownerPort_runs rfl (.ite (.next (.refl ..)) (.ite (.next (.andThen (resumeCh_frame ..) rfl (.refl ..))) (.ite (.next (.andThen
    (modCh_frame ..) rfl (.refl ..))) (.next (.refl ..)))))

theorem execDmaStop_runs (ch : Nat) (s : State) : s.runsWithin (Instr.parts (.dmaStop ch)) (execDmaStop ch s) := by
  unfold execDmaStop
  exact ownerPort_runs rfl (.next (.andThen (modCh_frame ..) rfl (.refl ..)))

theorem execDmaDisable_runs (s : State) : s.runsWithin (Instr.parts .dmaDisable) (execDmaDisable s) := by
  unfold execDmaDisable
  exact ownerPort_runs rfl (.next (.andThen (State.modDma_frame ..) rfl (.andThen (dmaDrop_frame ..) rfl (.refl ..))))

theorem execDmaBeat_runs (ch : Nat) (held : W32) (s : State) : s.runsWithin (Instr.parts (.dmaBeat ch held)) (execDmaBeat ch s held) := by
  unfold execDmaBeat
  dsimp only
  refine .ite ?_ (.next (.refl ..))
  split
  · exact .next (.andThen (modCh_frame ..) rfl (.refl ..))
  · refine .ite (.next (.andThen (busError_frame ..) rfl (.ite (.andThen (State.modEvf_frame ..) rfl (.refl ..)) (.refl ..)))) ?_
    refine .ite (.next (.andThen (busError_frame ..) rfl (.ite (.andThen (State.modEvf_frame ..) rfl (.refl ..)) (.refl ..)))) ?_
    split
    · exact .next (.andThen (violate_frame ..) rfl (.ite (.andThen (State.modEvf_frame ..) rfl (.refl ..)) (.refl ..)))
    · exact .next (.andThen (violate_frame ..) rfl (.ite (.andThen (State.modEvf_frame ..) rfl (.refl ..)) (.refl ..)))
    · exact .next (.andThen (moveBeat_frame ..) rfl (.ite (.andThen (State.modEvf_frame ..) rfl (.refl ..)) (.refl ..)))

theorem execDmaDescriptorDone_runs (ch : Nat) (s : State) :
    s.runsWithin (Instr.parts (.dmaDescriptorDone ch)) (execDmaDescriptorDone ch s) := by
  unfold execDmaDescriptorDone
  dsimp only
  exact .ite (.ite (.next (.ite (.andThen (resumeCh_frame ..) rfl (.andThen (modCh_frame ..) rfl (.ite (.andThen (pulseNow_frame ..) rfl
    (.andThen (modCh_frame ..) rfl (.refl ..))) (.andThen (modCh_frame ..) rfl (.refl ..))))) (.andThen (modCh_frame ..) rfl (.ite (.andThen
    (pulseNow_frame ..) rfl (.andThen (modCh_frame ..) rfl (.refl ..))) (.andThen (modCh_frame ..) rfl (.refl ..)))))) (.next (.andThen
    (loadDesc_frame ..) rfl (.ite (.andThen (pulseNow_frame ..) rfl (.andThen (modCh_frame ..) rfl (.refl ..))) (.andThen (modCh_frame ..)
    rfl (.refl ..)))))) (.next (.refl ..))

theorem execDmaBusError_runs (ch : Nat) (addr : W32) (s : State) :
    s.runsWithin (Instr.parts (.dmaBusError ch addr)) (execDmaBusError ch addr s) := by
  unfold execDmaBusError
  exact .ite (.next (.andThen (busError_frame ..) rfl (.refl ..))) (.next (.refl ..))

theorem execDmaUnfreeze_runs (c : Cp) (held : Bool) (s : State) :
    s.runsWithin (Instr.parts (.dmaUnfreeze c held)) (execDmaUnfreeze c s held) := by
  unfold execDmaUnfreeze
  exact port_runs (Cp.master_ne _) rfl (.next (.andThen (State.modMpu_frame ..) rfl (.refl ..)))

theorem execEvfSwpulse_runs (v : W32) (m : Master) (s : State) : s.runsWithin (Instr.parts (.evfSwpulse v m)) (execEvfSwpulse v s m) := by
  unfold execEvfSwpulse
  exact port_runsAny rfl (.next (.foldl (fun _ _ => .ite (.andThen (pulseNow_frame ..) rfl (.refl ..)) (.refl ..)) (.refl ..)))

theorem execEventDelivery_runs (producer : Nat) (s : State) :
    s.runsWithin (Instr.parts (.eventDelivery producer)) (execEventDelivery producer s) := by
  unfold execEventDelivery
  exact .ite (.next (.refl ..)) (.ite (.next (.andThen (pulse_frame ..) rfl (.refl ..))) (.next (.andThen (pulseNow_frame ..) rfl (.refl
    ..))))

theorem execEvfLostClear_runs (m : Master) (s : State) : s.runsWithin (Instr.parts (.evfLostClear m)) (execEvfLostClear s m) := by
  unfold execEvfLostClear
  exact port_runsAny rfl (.next (.andThen (State.modEvf_frame ..) rfl (.refl ..)))

theorem execClkWakesClear_runs (c : Cp) (s : State) : s.runsWithin (Instr.parts (.clkWakesClear c)) (execClkWakesClear c s) := by
  unfold execClkWakesClear
  exact port_runs (Cp.master_ne _) rfl (.next (.andThen (modClk_frame ..) rfl (.refl ..)))

theorem execMpuSyncRead_runs (c : Cp) (s : State) : s.runsWithin (Instr.parts (.mpuSyncRead c)) (execMpuSyncRead c s) := by
  unfold execMpuSyncRead
  dsimp only
  exact port_runs (Cp.master_ne _) rfl (.next (.andThen (send_frame ..) rfl (.ite (.andThen (allEffective_frame ..) rfl (.andThen
    (allEffective_frame ..) rfl (.refl ..))) (.andThen (allEffective_frame ..) rfl (.refl ..)))))

theorem execMpuRegionLock_runs (c : Cp) (region : Nat) (s : State) :
    s.runsWithin (Instr.parts (.mpuRegionLock c region)) (execMpuRegionLock c region s) := by
  unfold execMpuRegionLock
  dsimp only
  exact port_runs (Cp.master_ne _) rfl (.next (.andThen (allEffective_frame ..) rfl (.andThen (waitRule_frame ..) rfl (.andThen
    (allEffective_frame ..) rfl (.refl ..)))))

theorem execProtectionViolation_runs (v : Violation) (s : State) :
    s.runsWithin (Instr.parts (.protectionViolation v)) (execProtectionViolation v s) := by
  unfold execProtectionViolation
  dsimp only
  refine .ite (.next (.refl ..)) ?_
  refine .ite (.next (.andThen (breach_frame ..) rfl (.refl ..))) ?_
  split
  · exact .next (.andThen (breach_frame ..) rfl (.refl ..))
  · exact .next (.refl ..)

theorem execAccessFault_runs (m : Master) (addr : W32) (type ch : Nat) (s : State) :
    s.runsWithin (Instr.parts (.accessFault m addr type ch)) (execAccessFault m addr type ch s) := by
  unfold execAccessFault
  dsimp only
  refine .ite (.next (.refl ..)) ?_
  split
  · exact .ite (.next (.andThen (takeException_frame ..) rfl (.refl ..))) (.next (.refl ..))
  · exact .ite (.next (.andThen (takeException_frame ..) rfl (.refl ..))) (.next (.refl ..))
  · exact .next (.andThen (busError_frame ..) rfl (.refl ..))
  · exact .ite (.next (.andThen (send_frame ..) rfl (.refl ..))) (.next (.refl ..))
  · exact .next (.refl ..)

theorem execMisalignedAccess_runs (c : Cp) (addr : W32) (store : Bool) (s : State) :
    s.runsWithin (Instr.parts (.misalignedAccess c addr store)) (execMisalignedAccess c addr store s) := by
  unfold execMisalignedAccess
  exact .ite (.next (.andThen (takeException_frame ..) rfl (.refl ..))) (.next (.refl ..))

theorem execRegisterWrite_runs (m : Master) (addr v : W32) (size : Nat) (held : W32) (s : State) :
    s.runsWithin (Instr.parts (.registerWrite m addr v size held)) (execRegisterWrite m addr v s size held) := by
  unfold execRegisterWrite
  dsimp only
  refine .ite (.next (.refl ..)) ?_
  split
  · exact .next (.refl ..)
  · split
    · exact .next (.andThen (breach_frame ..) rfl (.refl ..))
    · exact .next (.andThen (storeWord_frame ..) rfl (.refl ..))

theorem execAdcSwgo_runs (v : W32) (s : State) : s.runsWithin (Instr.parts (.adcSwgo v)) (execAdcSwgo v s) := by
  unfold execAdcSwgo
  exact ownerPort_runs rfl (.next (.andThen (holdEntries_frame ..) rfl (.refl ..)))

theorem execAdcInjectWrite_runs (v : W32) (s : State) : s.runsWithin (Instr.parts (.adcInjectWrite v)) (execAdcInjectWrite v s) := by
  unfold execAdcInjectWrite
  dsimp only
  exact ownerPort_runs rfl (.ite (.next (.refl ..)) (.ite (.next (.andThen (State.modField_frame ..) rfl (.refl ..))) (.next (.andThen
    (State.modField_frame ..) rfl (.refl ..)))))

theorem execConversionDone_runs (code : W16) (at_ : W64) (s : State) :
    s.runsWithin (Instr.parts (.conversionDone code at_)) (execConversionDone code s at_) := by
  unfold execConversionDone
  dsimp only
  refine .ite (.next (.refl ..)) ?_
  split
  · exact .next (.refl ..)
  · split
    · exact .next (.andThen (storeConversion_frame ..) rfl (.refl ..))
    · exact .ite (.ite (.next (.andThen (mjSend_frame ..) rfl (.andThen (logItems_frame ..) rfl (.andThen (converterTap_frame ..) rfl
        (.andThen (storeConversion_frame ..) rfl (.refl ..)))))) (.next (.andThen (logItems_frame ..) rfl (.andThen (converterTap_frame ..)
        rfl (.andThen (storeConversion_frame ..) rfl (.refl ..)))))) (.next (.andThen (storeConversion_frame ..) rfl (.refl ..)))

theorem execAdcResultRead_runs (reg : Nat) (held : W32) (m : Master) (s : State) :
    s.runsWithin (Instr.parts (.adcResultRead reg held m)) (execAdcResultRead reg s held m) := by
  unfold execAdcResultRead
  dsimp only
  exact .ite (.next (.refl ..)) (port_runsAny rfl (.next (.andThen (send_frame ..) rfl (.andThen (peripheralRead_frame ..) rfl (.refl
    ..)))))

theorem execConverterCalibration_runs (offsets gains : List ℤ) (s : State) :
    s.runsWithin (Instr.parts (.converterCalibration offsets gains)) (execConverterCalibration offsets gains s) := by
  unfold execConverterCalibration
  dsimp only
  exact .ite (.next (.refl ..)) (.next (.andThen (State.modField_frame ..) rfl (.refl ..)))

theorem execReferenceCheck_runs (uv : Nat) (s : State) : s.runsWithin (Instr.parts (.referenceCheck uv)) (execReferenceCheck uv s) := by
  unfold execReferenceCheck
  dsimp only
  exact .ite (.next (.refl ..)) (.ite (.next (.andThen (State.modField_frame ..) rfl (.andThen (State.modField_frame ..) rfl (.refl ..))))
    (.next (.andThen (logField_frame ..) rfl (.andThen (State.modField_frame ..) rfl (.andThen (State.modField_frame ..) rfl (.refl ..))))))

theorem execFieldRefresh_runs (s : State) : s.runsWithin (Instr.parts .fieldRefresh) (execFieldRefresh s) := by
  unfold execFieldRefresh
  dsimp only
  exact .ite (.next (.foldl (fun _ _ => .ite (.andThen (setLoopUa_frame ..) rfl (.refl ..)) (.refl ..)) (.andThen (fieldRun_frame ..) rfl
    (.andThen (driveD_frame ..) rfl (.andThen (State.modField_frame ..) rfl (.andThen (State.modField_frame ..) rfl (.andThen (send_frame
    ..) rfl (.refl ..)))))))) (.next (.andThen (State.modField_frame ..) rfl (.andThen (send_frame ..) rfl (.refl ..))))

theorem execFieldWatchdogTrip_runs (s : State) : s.runsWithin (Instr.parts .fieldWatchdogTrip) (execFieldWatchdogTrip s) := by
  unfold execFieldWatchdogTrip
  dsimp only
  exact .ite (.next (.andThen (logField_frame ..) rfl (.andThen (fieldTrip_frame ..) rfl (.andThen (State.modField_frame ..) rfl (.refl
    ..))))) (.next (.refl ..))

theorem execDInputSample_runs (levels : List Bool) (s : State) :
    s.runsWithin (Instr.parts (.dInputSample levels)) (execDInputSample levels s) := by
  unfold execDInputSample
  exact .next (.andThen (State.modField_frame ..) rfl (.refl ..))

theorem execDInputTest_runs (failed : List Nat) (s : State) :
    s.runsWithin (Instr.parts (.dInputTest failed)) (execDInputTest failed s) := by
  unfold execDInputTest
  dsimp only
  exact .next (.andThen (State.modField_frame ..) rfl (.refl ..))

theorem execPulseEdge_runs (n : Nat) (s : State) : s.runsWithin (Instr.parts (.pulseEdge n)) (execPulseEdge n s) := by
  unfold execPulseEdge
  exact .ite (.next (.andThen (modD_frame ..) rfl (.refl ..))) (.next (.refl ..))

theorem execOvercurrentTrip_runs (n : Nat) (s : State) : s.runsWithin (Instr.parts (.overcurrentTrip n)) (execOvercurrentTrip n s) := by
  unfold execOvercurrentTrip
  dsimp only
  exact .ite (.next (.andThen (logField_frame ..) rfl (.andThen (State.modField_frame ..) rfl (.andThen (modD_frame ..) rfl (.refl ..)))))
    (.next (.refl ..))

theorem execTripRetry_runs (n : Nat) (s : State) : s.runsWithin (Instr.parts (.tripRetry n)) (execTripRetry n s) := by
  unfold execTripRetry
  dsimp only
  exact .ite (.next (.andThen (modD_frame ..) rfl (.refl ..))) (.next (.refl ..))

theorem execLplusSag_runs (mv : W16) (s : State) : s.runsWithin (Instr.parts (.lplusSag mv)) (execLplusSag mv s) := by
  unfold execLplusSag
  dsimp only
  exact .ite (.next (.refl ..)) (.ite (.next (.andThen (logField_frame ..) rfl (.andThen (driveD_frame ..) rfl (.andThen
    (State.modField_frame ..) rfl (.ite (.andThen (logField_frame ..) rfl (.andThen (State.modField_frame ..) rfl (.andThen
    (State.modField_frame ..) rfl (.refl ..)))) (.andThen (State.modField_frame ..) rfl (.refl ..))))))) (.next (.ite (.andThen
    (logField_frame ..) rfl (.andThen (State.modField_frame ..) rfl (.andThen (State.modField_frame ..) rfl (.refl ..)))) (.andThen
    (State.modField_frame ..) rfl (.refl ..)))))

theorem execLplusRecover_runs (mv : W16) (s : State) : s.runsWithin (Instr.parts (.lplusRecover mv)) (execLplusRecover mv s) := by
  unfold execLplusRecover
  dsimp only
  refine .ite (.next (.andThen (State.modField_frame ..) rfl (.andThen (State.modField_frame ..) rfl (.refl ..)))) ?_
  split
  · exact .next (.andThen (State.modField_frame ..) rfl (.andThen (State.modField_frame ..) rfl (.refl ..)))
  · exact .ite (.next (.ite (.andThen (logField_frame ..) rfl (.andThen (driveD_frame ..) rfl (.andThen (State.modField_frame ..) rfl
      (.andThen (State.modField_frame ..) rfl (.refl ..))))) (.andThen (driveD_frame ..) rfl (.andThen (State.modField_frame ..) rfl
      (.andThen (State.modField_frame ..) rfl (.refl ..)))))) (.next (.andThen (State.modField_frame ..) rfl (.refl ..)))

theorem execComplianceShortfall_runs (n : Nat) (s : State) :
    s.runsWithin (Instr.parts (.complianceShortfall n)) (execComplianceShortfall n s) := by
  unfold execComplianceShortfall
  dsimp only
  exact .ite (.next (.andThen (logField_frame ..) rfl (.andThen (State.modField_frame ..) rfl (.andThen (modL_frame ..) rfl (.refl ..)))))
    (.next (.refl ..))

theorem execLockstepMismatch_runs (unit : Nat) (detail : W32) (s : State) :
    s.runsWithin (Instr.parts (.lockstepMismatch unit detail)) (execLockstepMismatch unit detail s) := by
  unfold execLockstepMismatch
  exact .ite (.next (.refl ..)) (.ite (.next (.andThen (enterSilent_frame ..) rfl (.andThen (State.modInteg_frame ..) rfl (.refl ..))))
    (.next (.andThen (enterSilent_frame ..) rfl (.refl ..))))

theorem execUncorrectableError_runs (m : EccPlace) (detail : W32) (s : State) :
    s.runsWithin (Instr.parts (.uncorrectableError m detail)) (execUncorrectableError m detail s) := by
  unfold execUncorrectableError
  split
  · exact .next (.andThen (enterSilent_frame ..) rfl (.refl ..))
  · exact .next (.andThen (enterSilent_frame ..) rfl (.refl ..))
  · exact .next (.andThen (enterSilent_frame ..) rfl (.refl ..))
  · exact .next (.andThen (enterSilent_frame ..) rfl (.refl ..))
  · exact .next (.andThen (ringError_frame ..) rfl (.refl ..))
  · exact .next (.andThen (mramError_frame ..) rfl (.refl ..))
  · exact .next (.andThen (flashError_frame ..) rfl (.refl ..))
  · exact .next (.andThen (modPort_frame ..) rfl (.refl ..))

theorem execCorrectedError_runs (m : EccPlace) (s : State) : s.runsWithin (Instr.parts (.correctedError m)) (execCorrectedError m s) := by
  unfold execCorrectedError
  dsimp only
  exact .ite (.next (.refl ..)) (.next (.andThen (raiseIrq_frame ..) rfl (.andThen (State.modInteg_frame ..) rfl (.refl ..))))

theorem execManagementWatchdog_runs (s : State) : s.runsWithin (Instr.parts .managementWatchdog) (execManagementWatchdog s) := by
  unfold execManagementWatchdog
  exact .ite (.next (.andThen (enterSilent_frame ..) rfl (.refl ..))) (.next (.refl ..))

theorem execSupplyClockFault_runs (unit : Nat) (s : State) :
    s.runsWithin (Instr.parts (.supplyClockFault unit)) (execSupplyClockFault unit s) := by
  unfold execSupplyClockFault
  dsimp only
  exact .ite (.next (.refl ..)) (.next (.andThen (enterSilent_frame ..) rfl (.refl ..)))

theorem execScrubStep_runs (m : EccPlace) (words : Nat) (s : State) :
    s.runsWithin (Instr.parts (.scrubStep m words)) (execScrubStep m words s) := by
  unfold execScrubStep
  dsimp only
  refine .ite (.next (.refl ..)) ?_
  split
  · exact .ite (.next (.andThen (State.modInteg_frame ..) rfl (.refl ..))) (.next (.refl ..))
  · exact .ite (.next (.andThen (State.modInteg_frame ..) rfl (.refl ..))) (.next (.refl ..))
  · exact .ite (.next (.andThen (State.modInteg_frame ..) rfl (.refl ..))) (.next (.refl ..))
  · exact .next (.refl ..)
  · exact .next (.refl ..)
  · exact .next (.refl ..)
  · exact .next (.refl ..)
  · exact .next (.refl ..)

theorem execRuntimeComparatorTest_runs (unit : Nat) (pass : Bool) (s : State) :
    s.runsWithin (Instr.parts (.runtimeComparatorTest unit pass)) (execRuntimeComparatorTest unit pass s) := by
  unfold execRuntimeComparatorTest
  dsimp only
  exact .ite (.next (.refl ..)) (.ite (.next (.andThen (State.modInteg_frame ..) rfl (.refl ..))) (.next (.andThen (latentFault_frame ..)
    rfl (.andThen (State.modInteg_frame ..) rfl (.refl ..)))))

theorem execEccDecoderTest_runs (unit : Nat) (pass : Bool) (s : State) :
    s.runsWithin (Instr.parts (.eccDecoderTest unit pass)) (execEccDecoderTest unit pass s) := by
  unfold execEccDecoderTest
  dsimp only
  exact .ite (.next (.ite (.andThen (State.modInteg_frame ..) rfl (.refl ..)) (.andThen (latentFault_frame ..) rfl (.andThen
    (State.modInteg_frame ..) rfl (.refl ..))))) (.next (.refl ..))

theorem execAutomaticRestart_runs (s : State) : s.runsWithin (Instr.parts .automaticRestart) (execAutomaticRestart s) := by
  unfold execAutomaticRestart
  dsimp only
  exact .ite (.next (.andThen (resetModule_frame ..) rfl (.andThen (State.modInteg_frame ..) rfl (.refl ..)))) (.next (.refl ..))

theorem execDebugHalt_runs (c : Cp) (op : DbgOp) (s : State) : s.runsWithin (Instr.parts (.debugHalt c op)) (execDebugHalt c s op) := by
  unfold execDebugHalt
  exact .ite (.next (.andThen (applyDbg_frame ..) rfl (.andThen (breakLockstep_frame ..) rfl (.refl ..)))) (.next (.refl ..))

theorem execEbreak_runs (c : Cp) (s : State) : s.runsWithin (Instr.parts (.ebreak c)) (execEbreak c s) := by
  unfold execEbreak
  exact .ite (.next (.refl ..)) (.ite (.next (.andThen (applyDbg_frame ..) rfl (.andThen (breakLockstep_frame ..) rfl (.refl ..)))) (.next
    (.andThen (takeException_frame ..) rfl (.refl ..))))

theorem execDebugLockedAccess_runs (addr : W32) (region : Nat) (s : State) :
    s.runsWithin (Instr.parts (.debugLockedAccess addr region)) (execDebugLockedAccess addr region s) := by
  unfold execDebugLockedAccess
  exact .ite (.next (.andThen (violate_frame ..) rfl (.refl ..))) (.next (.refl ..))

theorem execDebugReset_runs (s : State) : s.runsWithin (Instr.parts .debugReset) (execDebugReset s) := by
  unfold execDebugReset
  exact .next (.andThen (State.modInteg_frame ..) rfl (.andThen (State.modMpu_frame ..) rfl (.refl ..)))

theorem execManagementDebugOp_runs (s : State) : s.runsWithin (Instr.parts .managementDebugOp) (execManagementDebugOp s) := by
  unfold execManagementDebugOp
  exact .ite (.next (.andThen (State.modInteg_frame ..) rfl (.refl ..))) (.next (.refl ..))

theorem execI2cWrite_runs (b : Byte) (s : State) : s.runsWithin (Instr.parts (.i2cWrite b)) (execI2cWrite b s) := by
  unfold execI2cWrite
  dsimp only
  exact .ite (.next (.refl ..)) (.ite (.next (.andThen (State.modPins_frame ..) rfl (.refl ..))) (.next (.andThen (State.modPins_frame ..)
    rfl (.andThen (freeValue_frame ..) rfl (.refl ..)))))

theorem execI2cRead_runs (n : Nat) (s : State) : s.runsWithin (Instr.parts (.i2cRead n)) (execI2cRead n s) := by
  unfold execI2cRead
  dsimp only
  exact .ite (.next (.refl ..)) (.next (.andThen (State.modPins_frame ..) rfl (.andThen (send_frame ..) rfl (.andThen (freeValue_frame ..)
    rfl (.refl ..)))))

theorem readAccess_frame {s t : State} {m : Master} {a size : Nat} {held w : W32} (h : readAccess s m a size held = .word w t) :
    s.onlyChanges [.time, .can0, .can1, .dict, .field] t := by
  unfold readAccess at h
  split at h
  · cases h
  · split at h
    · cases h
    · cases h
      exact loadWord_frame ..

theorem execJtagAccess_runs (ir : Nat) (v : W32) (mem : Option W32) (s : State) :
    s.runsWithin (Instr.parts (.jtagAccess ir v mem)) (execJtagAccess ir v s mem) := by
  unfold execJtagAccess
  dsimp only
  refine .ite (.next (.refl ..)) ?_
  refine .ite (.next (.andThen (send_frame ..) rfl (.refl ..))) ?_
  refine .ite (.next (.andThen (send_frame ..) rfl (.andThen (freeValue_frame ..) rfl (.refl ..)))) ?_
  refine .ite ?_ (.next (.andThen (send_frame ..) rfl (.refl ..)))
  split
  · exact .next (.andThen (send_frame ..) rfl (.andThen (State.modInteg_frame ..) rfl (.andThen (freeValue_frame ..) rfl (.refl ..))))
  · split
    · exact .next (.andThen (send_frame ..) rfl (.andThen (State.modInteg_frame ..) rfl (.refl ..)))
    · exact .next (.andThen (breach_frame ..) rfl (.andThen (State.modInteg_frame ..) rfl (.refl ..)))
    · rename_i h
      exact .next (.andThen (send_frame ..) rfl (.andThen (readAccess_frame h) rfl (.andThen (State.modInteg_frame ..) rfl (.refl ..))))

theorem execRstNRelease_runs (straps : Straps) (s : State) :
    s.runsWithin (Instr.parts (.rstNRelease straps)) (execRstNRelease straps s) := by
  unfold execRstNRelease
  dsimp only
  exact .ite (.next (.refl ..)) (.next (.ite (.andThen (takeStraps_frame ..) rfl (.andThen (State.modPins_frame ..) rfl (.refl ..)))
    (.andThen (State.modPins_frame ..) rfl (.refl ..))))

theorem execPgoodFall_runs (s : State) : s.runsWithin (Instr.parts .pgoodFall) (execPgoodFall s) := by
  unfold execPgoodFall
  dsimp only
  exact .ite (.next (.refl ..)) (.next (.andThen (State.modPins_frame ..) rfl (.andThen (State.modDist_frame ..) rfl (.andThen
    (keepState_frame ..) rfl (.refl ..)))))

theorem execAnnounceReceiptTimeout_runs (s : State) :
    s.runsWithin (Instr.parts .announceReceiptTimeout) (execAnnounceReceiptTimeout s) := by
  unfold execAnnounceReceiptTimeout
  dsimp only
  split
  · exact .next (.refl ..)
  · exact .ite (.next (.refl ..)) (.next (.andThen (chooseMaster_frame ..) rfl (.andThen (State.modTime_frame ..) rfl (.refl ..))))

theorem execNcallTimeBudgetElapsed_runs (c : Cp) (s : State) :
    s.runsWithin (Instr.parts (.ncallTimeBudgetElapsed c)) (execNcallTimeBudgetElapsed c s) := by
  unfold execNcallTimeBudgetElapsed
  refine .ite (.next (.refl ..)) ?_
  refine .ite (.next (.refl ..)) ?_
  split
  · exact .next (.andThen (abandonCall_frame ..) rfl (.refl ..))
  · exact .next (.andThen (endCall_frame ..) rfl (.andThen (modCp_plain (fun _ => by rfl) ..) rfl (.refl ..)))
  · exact .next (.refl ..)

theorem execPpsOutFall_runs (s : State) : s.runsWithin (Instr.parts .ppsOutFall) (execPpsOutFall s) := by
  unfold execPpsOutFall
  exact .ite (.next (.andThen (State.modTime_frame ..) rfl (.refl ..))) (.next (.refl ..))

theorem execLedFlashToggle_runs (pairLed : Bool) (s : State) :
    s.runsWithin (Instr.parts (.ledFlashToggle pairLed)) (execLedFlashToggle pairLed s) := by
  unfold execLedFlashToggle
  exact .ite (.ite (.next (.andThen (State.modCtl_plain (fun _ => by rfl) (fun _ => by rfl) ..) rfl (.refl ..))) (.next (.refl ..))) (.ite
    (.next (.andThen (State.modCtl_plain (fun _ => by rfl) (fun _ => by rfl) ..) rfl (.refl ..))) (.next (.refl ..)))

theorem execCutoffConverterHold_runs (task : Nat) (s : State) :
    s.runsWithin (Instr.parts (.cutoffConverterHold task)) (execCutoffConverterHold task s) := by
  unfold execCutoffConverterHold
  refine .ite (.next (.refl ..)) ?_
  cases cutoffNear s task with
  | none => exact .next (.refl ..)
  | some _ => exact .next (.andThen (holdGroup_frame ..) rfl (.andThen (State.modField_frame ..) rfl (.refl ..)))

theorem execMpuRuleWriteEffective_runs (m : Master) (s : State) :
    s.runsWithin (Instr.parts (.mpuRuleWriteEffective m)) (execMpuRuleWriteEffective m s) := by
  unfold execMpuRuleWriteEffective
  exact .ite (.next (.refl ..)) (.next (.andThen (ruleEffective_frame ..) rfl (.refl ..)))

/-- Every command answers a next state that differs in no other part than those of its list. -/
theorem exec_runs (c : Instr) (s : State) : s.runsWithin (Instr.parts c) (exec c s) := by
  cases c with
  | powerOn _ => exact execPowerOn_runs ..
  | feedChange _ _ => exact execFeedChange_runs ..
  | storedEnergyWarning => exact execStoredEnergyWarning_runs ..
  | rstNAssert _ => exact execRstNAssert_runs ..
  | wipeNHeld => exact execWipeNHeld_runs ..
  | maskRomCheck => exact execMaskRomCheck_runs ..
  | stagedLoaderInstall => exact execStagedLoaderInstall_runs ..
  | solicitTimer => exact execSolicitTimer_runs ..
  | bootOffer _ _ _ _ => exact execBootOffer_runs ..
  | bootData _ _ _ _ _ => exact execBootData_runs ..
  | bootAckTimer => exact execBootAckTimer_runs ..
  | bootTransferTimeout => exact execBootTransferTimeout_runs ..
  | bootGet _ _ _ _ => exact execBootGet_runs ..
  | provision _ _ => exact execProvision_runs ..
  | selftestRun _ => exact execSelftestRun_runs ..
  | packageSettle => exact execPackageSettle_runs ..
  | startFromStop => exact execStartFromStop_runs ..
  | startupWaitExpire => exact execStartupWaitExpire_runs ..
  | ownHighEnterAlone => exact execOwnHighEnterAlone_runs ..
  | stopRejoinTimer => exact execStopRejoinTimer_runs ..
  | tick => exact execTick_runs ..
  | executionStart => exact execExecutionStart_runs ..
  | executionEnd => exact execExecutionEnd_runs ..
  | miojoOutput _ _ _ _ => exact execMiojoOutput_runs ..
  | digestTimeout => exact execDigestTimeout_runs ..
  | switchoverResume => exact execSwitchoverResume_runs ..
  | agreementTimeout => exact execAgreementTimeout_runs ..
  | ncallTrap _ => exact execNcallTrap_runs ..
  | cycRettWrite _ _ _ => exact execCycRettWrite_runs ..
  | ncallAbandon _ _ => exact execNcallAbandon_runs ..
  | cycVecWrite _ _ => exact execCycVecWrite_runs ..
  | pointStageWrite _ _ _ => exact execPointStageWrite_runs ..
  | pointCommitWrite _ _ _ => exact execPointCommitWrite_runs ..
  | constantWindowWrite _ _ _ => exact execConstantWindowWrite_runs ..
  | gridInstant => exact execGridInstant_runs ..
  | sampleDeadline _ => exact execSampleDeadline_runs ..
  | analysisInstant _ => exact execAnalysisInstant_runs ..
  | trackingLossTimer _ => exact execTrackingLossTimer_runs ..
  | loopUpdate _ => exact execLoopUpdate_runs ..
  | shareToFull _ => exact execShareToFull_runs ..
  | fullToShare _ => exact execFullToShare_runs ..
  | miojoHello _ _ => exact execMiojoHello_runs ..
  | miojoKeep _ => exact execMiojoKeep_runs ..
  | keepSendTimer _ => exact execKeepSendTimer_runs ..
  | miojoDelay _ _ _ _ => exact execMiojoDelay_runs ..
  | delayMeasureTimer => exact execDelayMeasureTimer_runs ..
  | miojoTick _ _ => exact execMiojoTick_runs ..
  | miojoSupply _ _ _ => exact execMiojoSupply_runs ..
  | miojoSample _ _ => exact execMiojoSample_runs ..
  | miojoSvsupply _ _ _ => exact execMiojoSvsupply_runs ..
  | miojoSidein _ _ => exact execMiojoSidein_runs ..
  | miojoForward _ _ _ => exact execMiojoForward_runs ..
  | miojoWrite _ _ => exact execMiojoWrite_runs ..
  | writeResendTimer => exact execWriteResendTimer_runs ..
  | miojoWack _ _ => exact execMiojoWack_runs ..
  | miojoRefuse _ _ _ => exact execMiojoRefuse_runs ..
  | miojoHandover _ _ => exact execMiojoHandover_runs ..
  | miojoAnnounce _ _ => exact execMiojoAnnounce_runs ..
  | miojoCheck _ _ _ _ => exact execMiojoCheck_runs ..
  | miojoSilent _ _ => exact execMiojoSilent_runs ..
  | miojoState _ _ _ _ => exact execMiojoState_runs ..
  | miojoStateack _ _ => exact execMiojoStateack_runs ..
  | stateResendTimer => exact execStateResendTimer_runs ..
  | miojoLog _ _ _ => exact execMiojoLog_runs ..
  | miojoCatch _ _ _ _ => exact execMiojoCatch_runs ..
  | miojoBadCrc _ => exact execMiojoBadCrc_runs ..
  | laneUp _ => exact execLaneUp_runs ..
  | laneDown _ => exact execLaneDown_runs ..
  | miojoLinkDown => exact execMiojoLinkDown_runs ..
  | aliveToggle => exact execAliveToggle_runs ..
  | alivePermitWrite => exact execAlivePermitWrite_runs ..
  | alivePermitExpire => exact execAlivePermitExpire_runs ..
  | aliveInEdge => exact execAliveInEdge_runs ..
  | aliveTimeout => exact execAliveTimeout_runs ..
  | ownInChange _ => exact execOwnInChange_runs ..
  | ownPermitExpire => exact execOwnPermitExpire_runs ..
  | interlockWiringFault => exact execInterlockWiringFault_runs ..
  | catchupBulkPassDone _ => exact execCatchupBulkPassDone_runs ..
  | catchupReplayTick => exact execCatchupReplayTick_runs ..
  | catchupRetryTimer => exact execCatchupRetryTimer_runs ..
  | twinStableTimer => exact execTwinStableTimer_runs ..
  | publicationReceive _ => exact execPublicationReceive_runs ..
  | slotForgetTimer _ => exact execSlotForgetTimer_runs ..
  | gooseReceive _ => exact execGooseReceive_runs ..
  | gooseRetransmit _ => exact execGooseRetransmit_runs ..
  | svFrameReceive _ _ => exact execSvFrameReceive_runs ..
  | bellReceive _ _ => exact execBellReceive_runs ..
  | bellSendTimer => exact execBellSendTimer_runs ..
  | canBellSend _ => exact execCanBellSend_runs ..
  | ringFrameArrival _ _ _ => exact execRingFrameArrival_runs ..
  | stationFrameArrival _ _ _ => exact execStationFrameArrival_runs ..
  | separatorEntryExpire => exact execSeparatorEntryExpire_runs ..
  | supervisionSendTimer => exact execSupervisionSendTimer_runs ..
  | ringLinkChange _ _ _ => exact execRingLinkChange_runs ..
  | ringMediumDetectTimer => exact execRingMediumDetectTimer_runs ..
  | arpRequest _ _ _ _ => exact execArpRequest_runs ..
  | icmpEcho _ _ _ _ _ => exact execIcmpEcho_runs ..
  | ptpSyncReceive _ => exact execPtpSyncReceive_runs ..
  | ptpFollowUpReceive _ _ _ _ => exact execPtpFollowUpReceive_runs ..
  | ptpAnnounceReceive _ => exact execPtpAnnounceReceive_runs ..
  | pdelayReqReceive _ _ _ _ _ => exact execPdelayReqReceive_runs ..
  | pdelayRespReceive _ _ _ _ => exact execPdelayRespReceive_runs ..
  | pdelayReqTimer _ => exact execPdelayReqTimer_runs ..
  | ptpTcForward _ => exact execPtpTcForward_runs ..
  | ptpTcEntryExpire => exact execPtpTcEntryExpire_runs ..
  | syncLossTimer => exact execSyncLossTimer_runs ..
  | holdoverLimitExpire => exact execHoldoverLimitExpire_runs ..
  | refInQualify _ => exact execRefInQualify_runs ..
  | refInLoss => exact execRefInLoss_runs ..
  | ppsInEdge _ => exact execPpsInEdge_runs ..
  | wholeSecond => exact execWholeSecond_runs ..
  | timeAlarmFire => exact execTimeAlarmFire_runs ..
  | timeAlarmArm => exact execTimeAlarmArm_runs ..
  | timeAlarmDisarm => exact execTimeAlarmDisarm_runs ..
  | rateWrite _ => exact execRateWrite_runs ..
  | timeGroupLatchRead _ _ => exact execTimeGroupLatchRead_runs ..
  | forerunnerLoad _ => exact execForerunnerLoad_runs ..
  | sessionOpen _ _ => exact execSessionOpen_runs ..
  | sessionSetupTimeout _ => exact execSessionSetupTimeout_runs ..
  | sessionIdleTimeout _ => exact execSessionIdleTimeout_runs ..
  | sessionClose _ => exact execSessionClose_runs ..
  | dictRead _ _ _ => exact execDictRead_runs ..
  | dictWrite _ _ _ => exact execDictWrite_runs ..
  | dictMalformed _ _ _ => exact execDictMalformed_runs ..
  | canTpFrame _ _ => exact execCanTpFrame_runs ..
  | canTpTimeout _ => exact execCanTpTimeout_runs ..
  | serviceUnlock _ _ => exact execServiceUnlock_runs ..
  | clearCounters _ _ _ => exact execClearCounters_runs ..
  | loopModeSet _ _ _ => exact execLoopModeSet_runs ..
  | loopBankCommand _ _ _ => exact execLoopBankCommand_runs ..
  | clearRepetitiveMemory _ _ => exact execClearRepetitiveMemory_runs ..
  | clearDFault _ _ => exact execClearDFault_runs ..
  | attestationSigned => exact execAttestationSigned_runs ..
  | logRecordWrite => exact execLogRecordWrite_runs ..
  | logMirrorCopy => exact execLogMirrorCopy_runs ..
  | operatingSecond => exact execOperatingSecond_runs ..
  | recordStart => exact execRecordStart_runs ..
  | recordCommit _ => exact execRecordCommit_runs ..
  | recLoggo _ => exact execRecLoggo_runs ..
  | dmbGo _ => exact execDmbGo_runs ..
  | dmbAbort _ => exact execDmbAbort_runs ..
  | dmbDone _ => exact execDmbDone_runs ..
  | dmbNcallDiscard _ _ _ _ => exact execDmbNcallDiscard_runs ..
  | canFrameReceive _ _ => exact execCanFrameReceive_runs ..
  | canTxComplete _ => exact execCanTxComplete_runs ..
  | canBusError _ _ => exact execCanBusError_runs ..
  | canRecoveryDone _ => exact execCanRecoveryDone_runs ..
  | canTxsubmit _ _ => exact execCanTxsubmit_runs ..
  | canTxcancel _ _ => exact execCanTxcancel_runs ..
  | canRxack _ => exact execCanRxack_runs ..
  | canRecover _ => exact execCanRecover_runs ..
  | canSleep _ => exact execCanSleep_runs ..
  | canWakeCommand _ => exact execCanWakeCommand_runs ..
  | canWake _ _ => exact execCanWake_runs ..
  | canLasterrRead _ _ => exact execCanLasterrRead_runs ..
  | interruptEvent _ _ => exact execInterruptEvent_runs ..
  | intcClaim _ _ => exact execIntcClaim_runs ..
  | intcComplete _ _ => exact execIntcComplete_runs ..
  | intcSwset _ _ => exact execIntcSwset_runs ..
  | intcStrayClear _ => exact execIntcStrayClear_runs ..
  | holdExpire _ _ => exact execHoldExpire_runs ..
  | wfi _ => exact execWfi_runs ..
  | coreWake _ => exact execCoreWake_runs ..
  | dmaGo _ => exact execDmaGo_runs ..
  | dmaResume _ => exact execDmaResume_runs ..
  | dmaStop _ => exact execDmaStop_runs ..
  | dmaDisable => exact execDmaDisable_runs ..
  | dmaBeat _ _ => exact execDmaBeat_runs ..
  | dmaDescriptorDone _ => exact execDmaDescriptorDone_runs ..
  | dmaBusError _ _ => exact execDmaBusError_runs ..
  | dmaUnfreeze _ _ => exact execDmaUnfreeze_runs ..
  | evfSwpulse _ _ => exact execEvfSwpulse_runs ..
  | eventDelivery _ => exact execEventDelivery_runs ..
  | evfLostClear _ => exact execEvfLostClear_runs ..
  | clkWakesClear _ => exact execClkWakesClear_runs ..
  | mpuSyncRead _ => exact execMpuSyncRead_runs ..
  | mpuRegionLock _ _ => exact execMpuRegionLock_runs ..
  | protectionViolation _ => exact execProtectionViolation_runs ..
  | accessFault _ _ _ _ => exact execAccessFault_runs ..
  | misalignedAccess _ _ _ => exact execMisalignedAccess_runs ..
  | registerWrite _ _ _ _ _ => exact execRegisterWrite_runs ..
  | adcSwgo _ => exact execAdcSwgo_runs ..
  | adcInjectWrite _ => exact execAdcInjectWrite_runs ..
  | conversionDone _ _ => exact execConversionDone_runs ..
  | adcResultRead _ _ _ => exact execAdcResultRead_runs ..
  | converterCalibration _ _ => exact execConverterCalibration_runs ..
  | referenceCheck _ => exact execReferenceCheck_runs ..
  | fieldRefresh => exact execFieldRefresh_runs ..
  | fieldWatchdogTrip => exact execFieldWatchdogTrip_runs ..
  | dInputSample _ => exact execDInputSample_runs ..
  | dInputTest _ => exact execDInputTest_runs ..
  | pulseEdge _ => exact execPulseEdge_runs ..
  | overcurrentTrip _ => exact execOvercurrentTrip_runs ..
  | tripRetry _ => exact execTripRetry_runs ..
  | lplusSag _ => exact execLplusSag_runs ..
  | lplusRecover _ => exact execLplusRecover_runs ..
  | complianceShortfall _ => exact execComplianceShortfall_runs ..
  | lockstepMismatch _ _ => exact execLockstepMismatch_runs ..
  | uncorrectableError _ _ => exact execUncorrectableError_runs ..
  | correctedError _ => exact execCorrectedError_runs ..
  | managementWatchdog => exact execManagementWatchdog_runs ..
  | supplyClockFault _ => exact execSupplyClockFault_runs ..
  | scrubStep _ _ => exact execScrubStep_runs ..
  | runtimeComparatorTest _ _ => exact execRuntimeComparatorTest_runs ..
  | eccDecoderTest _ _ => exact execEccDecoderTest_runs ..
  | automaticRestart => exact execAutomaticRestart_runs ..
  | debugHalt _ _ => exact execDebugHalt_runs ..
  | ebreak _ => exact execEbreak_runs ..
  | debugLockedAccess _ _ => exact execDebugLockedAccess_runs ..
  | debugReset => exact execDebugReset_runs ..
  | managementDebugOp => exact execManagementDebugOp_runs ..
  | i2cWrite _ => exact execI2cWrite_runs ..
  | i2cRead _ => exact execI2cRead_runs ..
  | jtagAccess _ _ _ => exact execJtagAccess_runs ..
  | rstNRelease _ => exact execRstNRelease_runs ..
  | pgoodFall => exact execPgoodFall_runs ..
  | announceReceiptTimeout => exact execAnnounceReceiptTimeout_runs ..
  | ncallTimeBudgetElapsed _ => exact execNcallTimeBudgetElapsed_runs ..
  | ppsOutFall => exact execPpsOutFall_runs ..
  | ledFlashToggle _ => exact execLedFlashToggle_runs ..
  | cutoffConverterHold _ => exact execCutoffConverterHold_runs ..
  | mpuRuleWriteEffective _ => exact execMpuRuleWriteEffective_runs ..
  | restartWarm _ | restartCold _ | setForce _ _ | releaseForce _ _ | releaseAllForces _ | onlineChangeActivate _
  | onlineChangeDiscard _ | commandedHandover _ | retryCatchup _ | manualTrigger _ | deleteAllRecords _ | clearDebugged _
  | clearLatentFault _ | commandedStop _ | liftStop _ | commandedReset _ | testEnter _ | testLeave _ | commission _
  | returnToBlank _ | decommission _ | raiseMinimumSvn _ | packageKeyA1Write _ _ | wrappedRoleKeyWrite _ _ | removeRoleKey _ _
  | attestationNonce _ _ | beginStaging _ _ | confirmSettings _ | discardSlot _ | runPreviousPackage _ | prepareSwitchover _
  | switchover _ =>
    exact (clientWrites_runs ..).weaken rfl
  | manifestStreamWrite _ _ _ | imageStreamWrite _ _ _ => exact (clientStreams_runs ..).weaken rfl

/-! ### The statements -/

theorem pending_not_mem_parts (c : Instr) : Part.pending ∉ Instr.parts c :=
  of_decide_eq_true (by cases c <;> rfl)

theorem ident_not_mem_parts (c : Instr) : Part.ident ∉ Instr.parts c :=
  of_decide_eq_true (by cases c <;> rfl)

/-- Settles O4: the frame of each command is that of the operations it is made of. -/
theorem commandsChangeOnlyTheirParts : Obligations.CommandsChangeOnlyTheirParts := by
  unfold Obligations.CommandsChangeOnlyTheirParts
  exact fun c s t h => (exec_runs c s).frame.same t h

/-- Settles O3: each branch of each command ends in a next state. -/
theorem everyCommandCompletes : Obligations.EveryCommandCompletes := by
  unfold Obligations.EveryCommandCompletes
  exact fun c s => (exec_runs c s).completes

/-- A step is the clock's, with no command waiting, or that of the command in front. -/
theorem step_cases {s t : State} (h : step s = .next t) :
    (s.pending = [] ∧ t = aonTick s) ∨ ∃ c rest, s.pending = c :: rest ∧ exec c { s with pending := rest } = .next t := by
  unfold step at h
  split at h
  · rename_i hp
    cases h
    exact .inl ⟨hp, rfl⟩
  · rename_i c rest hp
    exact .inr ⟨c, rest, hp, h⟩

/-- Settles O5: the queue and the identity are in the list of no command, nor in that of the clock. -/
theorem queueIsOnlyConsumed : Obligations.QueueIsOnlyConsumed := by
  unfold Obligations.QueueIsOnlyConsumed
  intro s t h
  rcases step_cases h with ⟨hp, rfl⟩ | ⟨c, rest, hp, hc⟩
  · rw [hp]
    exact ⟨((aonTick_frame s).same .pending (by decide)).trans hp, (aonTick_frame s).same .ident (by decide)⟩
  · have hf := (exec_runs c _).frame.same t hc
    rw [hp]
    exact ⟨hf.same .pending (pending_not_mem_parts c), hf.same .ident (ident_not_mem_parts c)⟩

end Sys2Proof.Machine
end

section
/-!
SUPPORT. Properties that a step keeps although a client's write may reach the parts they speak of: what is closed under the changes
outside the memories and the life cycle, and under the service of a command, is kept by every message of a client.
-/

namespace Sys2Proof.Machine

/-- A property that no change outside the memories and the life cycle ends, and no command that a client writes. -/
structure KeptByClients (P : State → Prop) : Prop where
  outside : ∀ {s t : State} {ps : List Part}, s.onlyChanges ps t → ps.contains .mem = false → ps.contains .life = false → P s → P t
  command : ∀ {s : State} (c : Client) (i u ty : Nat) (data : Bytes), P s → P (serveCommand s c i u ty data)

namespace KeptByClients

variable {P : State → Prop} (h : KeptByClients P)
include h

theorem serveWrite {s : State} (c : Client) (i u ty : Nat) (data : Bytes) (hs : P s) : P (serveWrite s c i u ty data) := by
  unfold Machine.serveWrite
  split
  · exact h.outside (answerWrite_frame ..) rfl rfl hs
  · split
    · exact h.outside (servePair_frame ..) rfl rfl hs
    · exact h.command c i u ty data hs
    · split
      · exact h.outside (answerWrite_frame ..) rfl rfl (h.outside (writeLocal_frame ..) rfl rfl hs)
      · exact h.outside (answerWrite_frame ..) rfl rfl hs
    · exact hs
    · exact hs

theorem serveStream {s : State} (c : Client) (u ty off : Nat) (data : Bytes) (hs : P s) : P (serveStream s c u ty off data) :=
  h.outside (serveStream_frame ..) rfl rfl hs

theorem rowWrite {s : State} (c : Client) (i u ty : Nat) (data : Bytes) (hs : P s) : P (rowWrite s c i u ty data) := by
  unfold Machine.rowWrite
  split_ifs
  · exact hs
  · exact h.outside (dictOut_frame ..) rfl rfl hs
  · exact h.serveWrite _ _ _ _ _ hs

theorem sessionWrite {s : State} (c : Client) (w : WritePiece) (hs : P s) : P (sessionWrite s c w) := by
  have hm : ∀ f, P (modSession s c.sid f) := fun _ => h.outside (modSession_frame ..) rfl rfl hs
  refine iteInduction (fun _ => h.outside (answerError_frame ..) rfl rfl hs) (fun _ => ?_)
  refine iteInduction (fun _ => h.serveStream _ _ _ _ _ hs) (fun _ => ?_)
  split
  · exact h.outside (answerWrite_frame ..) rfl rfl (hm _)
  · exact iteInduction (fun _ => h.outside (answerWrite_frame ..) rfl rfl (hm _)) (fun _ => h.serveWrite _ _ _ _ _ (hm _))

theorem strangerWrite {s : State} (m : MsgHdr) (w : WritePiece) (hs : P s) : P (strangerWrite s m w) := by
  have hm : ∀ f, P (s.modDict f) := fun _ => h.outside (State.modDict_frame ..) rfl rfl hs
  refine iteInduction (fun _ => h.outside (strangerError_frame ..) rfl rfl hs) (fun _ => ?_)
  refine iteInduction (fun _ => h.outside (strangerError_frame ..) rfl rfl hs) (fun _ => ?_)
  refine iteInduction (fun _ => h.serveWrite _ _ _ _ _ hs) (fun _ => ?_)
  split
  · exact h.outside (answerWrite_frame ..) rfl rfl (hm _)
  · exact iteInduction (fun _ => h.outside (answerWrite_frame ..) rfl rfl (hm _)) (fun _ => h.serveWrite _ _ _ _ _ (hm _))

theorem serveWriteMsg {s : State} (m : MsgHdr) (w : WritePiece) (body : Bytes) (hs : P s) : P (serveWriteMsg s m w body) := by
  unfold Machine.serveWriteMsg
  split_ifs
  · exact h.strangerWrite _ _ hs
  · have key := receive_frame s m mtWrite body
    unfold inSession
    cases hr : receive s m mtWrite body with
    | unknown => exact h.outside (strangerError_frame ..) rfl rfl hs
    | ended u => exact h.outside (hr ▸ key) rfl rfl hs
    | accepted c u => exact h.sessionWrite _ _ (h.outside (hr ▸ key) rfl rfl hs)

theorem dictMessage {s : State} (via : Via) (m : Bytes) (hs : P s) : P (dictMessage s via m) := by
  unfold Machine.dictMessage
  dsimp only
  split_ifs
  · exact hs
  · exact h.outside (serveMalformed_frame ..) rfl rfl hs
  · exact h.outside (serveOpen_frame ..) rfl rfl hs
  · exact h.outside (serveClose_frame ..) rfl rfl hs
  · exact h.outside (serveRead_frame ..) rfl rfl hs
  · exact h.serveWriteMsg _ _ _ hs
  · exact h.outside (serveMalformed_frame ..) rfl rfl hs

theorem tpSingle {s : State} (n : Nat) (d : Bytes) (hs : P s) : P (tpSingle s n d) :=
  iteInduction (fun _ => hs) (fun _ => h.dictMessage _ _ (h.outside (abortRx_frame ..) rfl rfl hs))

theorem tpConsec {s : State} (n : Nat) (d : Bytes) (hs : P s) : P (tpConsec s n d) := by
  unfold Machine.tpConsec
  split
  · exact hs
  dsimp only
  split_ifs
  · exact h.outside (abortRx_frame ..) rfl rfl hs
  · exact h.dictMessage _ _ (h.outside (modCan_frame ..) rfl rfl hs)
  · exact h.outside (sendFlow_frame ..) rfl rfl (h.outside (modCan_frame ..) rfl rfl hs)
  · exact h.outside (modCan_frame ..) rfl rfl hs

theorem dmbServe {s : State} (c : Cp) (hs : P s) : P (dmbServe s c) := by
  refine iteInduction (fun _ => h.outside (dmbReady_frame ..) rfl rfl hs) (fun _ => ?_)
  refine iteInduction (fun _ => h.outside (dmbReady_frame ..) rfl rfl (h.outside (countStatus_frame ..) rfl rfl hs)) (fun _ => ?_)
  refine iteInduction (fun _ => h.serveStream _ _ _ _ _ hs) (fun _ => ?_)
  exact iteInduction (fun _ => h.outside (answerWrite_frame ..) rfl rfl hs) (fun _ => h.serveWrite _ _ _ _ _ hs)

end KeptByClients

/-- Every next state of an outcome has a property. -/
def Res.all (P : State → Prop) (r : Res) : Prop := ∀ t, r = .next t → P t

theorem Res.all_next {P : State → Prop} {t : State} : Res.all P (.next t) ↔ P t :=
  ⟨fun h => h t rfl, fun h u hu => by cases hu; exact h⟩

theorem Res.all_port {P : State → Prop} {m : Master} {a kind : Nat} {f : State → Res} {s : State} (hs : P s)
    (hb : ∀ v, P (breach s v)) (hf : Res.all P (f s)) : Res.all P (port m a kind f s) := by
  unfold port
  split_ifs
  · exact Res.all_next.mpr hs
  · split
    · exact Res.all_next.mpr (hb _)
    · exact hf

theorem Res.all_ownerPort {P : State → Prop} {o : Option Cp} {a kind : Nat} {f : State → Res} {s : State} (hs : P s)
    (hb : ∀ v, P (breach s v)) (hf : Res.all P (f s)) : Res.all P (ownerPort o a kind f s) := by
  unfold ownerPort
  split
  · exact Res.all_next.mpr hs
  · exact Res.all_port hs hb hf

/-- The commands that bring a client's message or write (spec/10_dictionary.md). -/
def Instr.isOfClient : Instr → Bool
  | .dictWrite _ _ _ | .canTpFrame _ _ | .serviceUnlock _ _ | .restartWarm _ | .restartCold _ | .setForce _ _ | .releaseForce _ _
  | .releaseAllForces _ | .onlineChangeActivate _ | .onlineChangeDiscard _ | .clearCounters _ _ _ | .loopModeSet _ _ _
  | .loopBankCommand _ _ _ | .clearRepetitiveMemory _ _ | .commandedHandover _ | .retryCatchup _ | .manualTrigger _
  | .deleteAllRecords _ | .clearDFault _ _ | .clearDebugged _ | .clearLatentFault _ | .commandedStop _ | .liftStop _
  | .commandedReset _ | .testEnter _ | .testLeave _ | .commission _ | .returnToBlank _ | .decommission _ | .raiseMinimumSvn _
  | .packageKeyA1Write _ _ | .wrappedRoleKeyWrite _ _ | .removeRoleKey _ _ | .attestationNonce _ _ | .beginStaging _ _
  | .manifestStreamWrite _ _ _ | .imageStreamWrite _ _ _ | .confirmSettings _ | .discardSlot _ | .runPreviousPackage _
  | .prepareSwitchover _ | .switchover _ | .dmbGo _ => true
  | _ => false

namespace KeptByClients

variable {P : State → Prop} (h : KeptByClients P)
include h

theorem clientWrites {s : State} (c : Client) (i u : Nat) (data : Bytes) (hs : P s) : Res.all P (clientWrites s c i u data) :=
  Res.all_next.mpr (h.rowWrite _ _ _ _ _ hs)

theorem clientStreams {s : State} (c : Client) (u off : Nat) (data : Bytes) (hs : P s) : Res.all P (clientStreams s c u off data) := by
  unfold Machine.clientStreams
  split_ifs
  · exact h.clientWrites _ _ _ _ hs
  · exact Res.all_next.mpr (h.serveStream _ _ _ _ _ hs)

theorem breach {s : State} (v : Violation) (hs : P s) : P (breach s v) := h.outside (breach_frame ..) rfl rfl hs

theorem dmbGo {s : State} (c : Cp) (hs : P s) : Res.all P (execDmbGo c s) := by
  refine Res.all_port hs (fun _ => h.breach _ hs) ?_
  have hd : ∀ f, P (modDmb s c f) := fun _ => h.outside (modDmb_frame ..) rfl rfl hs
  dsimp only
  split_ifs
  · exact Res.all_next.mpr (h.outside (dmbDiscard_frame ..) rfl rfl hs)
  · exact Res.all_next.mpr (hd _)
  · exact Res.all_next.mpr (h.dmbServe _ (hd _))
  · exact Res.all_next.mpr (hd _)

theorem canTpFrame {s : State} (n : Nat) (f : CanFrame) (hs : P s) : Res.all P (execCanTpFrame n f s) := by
  unfold execCanTpFrame
  split_ifs
  · exact Res.all_next.mpr hs
  split
  · exact Res.all_next.mpr (h.tpSingle _ _ hs)
  · exact Res.all_next.mpr (h.outside (tpFirst_frame ..) rfl rfl hs)
  · exact Res.all_next.mpr (h.tpConsec _ _ hs)
  · exact Res.all_next.mpr (h.outside (tpFlow_frame ..) rfl rfl hs)
  · exact Res.all_next.mpr hs

theorem serviceUnlock {s : State} (c : Client) (data : Bytes) (hs : P s) : Res.all P (execServiceUnlock c data s) := by
  unfold execServiceUnlock
  split_ifs
  · exact Res.all_next.mpr hs
  · exact Res.all_next.mpr (h.serveWrite _ _ _ _ _ hs)
  · exact Res.all_next.mpr (h.outside (answerError_frame ..) rfl rfl hs)

/-- A row that brings a write of a client, where its operands let it. -/
theorem clientRow {s : State} {p : Prop} [Decidable p] (c : Client) (i u : Nat) (data : Bytes) (hs : P s) :
    Res.all P (if p then Machine.clientWrites s c i u data else .next s) := by
  split_ifs
  · exact h.clientWrites _ _ _ _ hs
  · exact Res.all_next.mpr hs

theorem ofClient {s : State} {c : Instr} (hc : Instr.isOfClient c = true) (hs : P s) : Res.all P (exec c s) := by
  cases c with
  | dmbGo c => exact h.dmbGo c hs
  | canTpFrame n f => exact h.canTpFrame n f hs
  | serviceUnlock c data => exact h.serviceUnlock c data hs
  | dictWrite m w rsv =>
    change Res.all P (execDictWrite m w s rsv)
    unfold execDictWrite
    split_ifs
    · exact Res.all_next.mpr (h.serveWriteMsg _ _ _ hs)
    · exact Res.all_next.mpr hs
  | clearDFault c held =>
    cases c with
    | some c => exact h.clientWrites _ _ _ _ hs
    | none => exact Res.all_next.mpr (h.outside (State.modField_frame ..) rfl rfl hs)
  | clearCounters _ _ _ | loopModeSet _ _ _ | loopBankCommand _ _ _ | clearRepetitiveMemory _ _ => exact h.clientRow _ _ _ _ hs
  | manifestStreamWrite _ _ _ | imageStreamWrite _ _ _ => exact h.clientStreams _ _ _ _ hs
  | restartWarm _ | restartCold _ | setForce _ _ | releaseForce _ _ | releaseAllForces _ | onlineChangeActivate _
  | onlineChangeDiscard _ | commandedHandover _ | retryCatchup _ | manualTrigger _ | deleteAllRecords _ | clearDebugged _
  | clearLatentFault _ | commandedStop _ | liftStop _ | commandedReset _ | testEnter _ | testLeave _ | commission _
  | returnToBlank _ | decommission _ | raiseMinimumSvn _ | packageKeyA1Write _ _ | wrappedRoleKeyWrite _ _ | removeRoleKey _ _
  | attestationNonce _ _ | beginStaging _ _ | confirmSettings _ | discardSlot _ | runPreviousPackage _ | prepareSwitchover _
  | switchover _ => exact h.clientWrites _ _ _ _ hs
  | _ => cases hc

/-- A command of a client, or one whose list leaves out the part that the property is about. -/
theorem byParts {d : Part} (hd : ∀ {s t : State} {ps : List Part}, s.onlyChanges ps t → ps.contains d = false → P s → P t) {c : Instr}
    {s : State} (hc : (Instr.isOfClient c || !(Instr.parts c).contains d) = true) (hs : P s) : Res.all P (exec c s) := by
  rcases Bool.or_eq_true _ _ |>.mp hc with hc | hc
  · exact h.ofClient hc hs
  · exact fun t ht => hd ((exec_runs c s).frame.same t ht) (by simpa using hc) hs

end KeptByClients

/-! ### Resets -/

theorem foldl_keeps {α : Type} {P : State → Prop} {f : State → α → State} (hf : ∀ (s : State) (x : α), P s → P (f s x)) (l : List α)
    {s : State} (hs : P s) : P (l.foldl f s) := by
  induction l generalizing s with
  | nil => exact hs
  | cons x xs ih => exact ih (hf _ _ hs)

/-- A property that no change outside the memories and the life cycle ends, nor what a reset keeps of the state, nor the change of the
life cycle that a reset carries out (R464). -/
structure KeptByResets (P : State → Prop) : Prop where
  outside : ∀ {s t : State} {ps : List Part}, s.onlyChanges ps t → ps.contains .mem = false → ps.contains .life = false → P s → P t
  keep : ∀ {s : State}, P s → P (keepState s)
  settle : ∀ {s : State}, P s → P (settleLife s)

namespace KeptByResets

variable {P : State → Prop} (h : KeptByResets P)
include h

theorem logs {α : Type} (l : List α) (b : α → Bytes) {s : State} (hs : P s) : P (l.foldl (fun t x => logEvent t ltDist (b x)) s) :=
  foldl_keeps (P := P) (fun _ _ ht => h.outside (logEvent_frame ..) rfl rfl ht) l hs

theorem resetModule {s : State} (cause : Nat) (hs : P s) : P (resetModule s cause) :=
  h.logs _ _ (h.outside (logEvent_frame ..) rfl rfl (h.outside (logEvent_frame ..) rfl rfl (h.settle (h.keep hs))))

theorem powerOn {s : State} (x : Straps) (hs : P s) : Res.all P (execPowerOn x s) := by
  refine iteInduction (fun _ => Res.all_next.mpr hs) (fun _ => Res.all_next.mpr (h.logs _ _ ?_))
  refine h.outside (logEvent_frame ..) rfl rfl (h.outside (logEvent_frame ..) rfl rfl (h.settle ?_))
  refine h.outside (recoverLog_frame ..) rfl rfl (h.outside (State.modPins_frame ..) rfl rfl (h.outside (takeStraps_frame ..) rfl rfl ?_))
  exact h.keep (h.outside (countPower_frame ..) rfl rfl hs)

theorem rstNAssert {s : State} (us : Nat) (hs : P s) : Res.all P (execRstNAssert us s) := by
  have hv : ∀ {b : Bool}, P (if b = true then (freeValue s).2 else s) :=
    iteInduction (fun _ => h.outside (freeValue_frame s) rfl rfl hs) (fun _ => hs)
  have hp : ∀ {b : Bool} {f : Pins → Pins}, P (State.modPins (if b = true then (freeValue s).2 else s) f) :=
    h.outside (State.modPins_frame ..) rfl rfl hv
  refine iteInduction (fun _ => Res.all_next.mpr hv) (fun _ => Res.all_next.mpr ?_)
  exact iteInduction (fun _ => h.resetModule _ hp) (fun _ => hp)

theorem maskRomCheck {s : State} (hs : P s) : Res.all P (execMaskRomCheck s) := by
  have hr : ∀ code, P (solicitNow (refuseImage (settleLife s) code)) := fun _ =>
    h.outside (solicitNow_frame ..) rfl rfl (h.outside (refuseImage_frame ..) rfl rfl (h.settle hs))
  refine iteInduction (fun _ => Res.all_next.mpr hs) (fun _ => ?_)
  dsimp only
  cases (settleLife s).boot.loader with
  | none => exact Res.all_next.mpr (hr _)
  | some m =>
    refine iteInduction (fun _ => Res.all_next.mpr ?_) (fun _ => Res.all_next.mpr (hr _))
    exact h.outside (loaderGoesOn_frame ..) rfl rfl (h.outside (runLoader_frame ..) rfl rfl (h.settle hs))

theorem stagedLoaderInstall {s : State} (hs : P s) : Res.all P (execStagedLoaderInstall s) := by
  refine iteInduction (fun _ => Res.all_next.mpr hs) (fun _ => iteInduction (fun _ => Res.all_next.mpr ?_) (fun _ => Res.all_next.mpr ?_))
  · exact h.outside (loaderGoesOn_frame ..) rfl rfl (h.outside (refuseImage_frame ..) rfl rfl (h.outside (emptySlot_frame ..) rfl rfl hs))
  · exact h.resetModule _ (h.outside (State.modBoot_frame ..) rfl rfl hs)

theorem automaticRestart {s : State} (hs : P s) : Res.all P (execAutomaticRestart s) :=
  iteInduction (fun _ => Res.all_next.mpr (h.resetModule _ (h.outside (State.modInteg_frame ..) rfl rfl hs)))
    (fun _ => Res.all_next.mpr hs)

end KeptByResets

end Sys2Proof.Machine
end

section
/-!
SUPPORT. The life cycle: no step leads out of DECOMMISSIONED.
-/

namespace Sys2Proof.Machine

/-- DECOMMISSIONED with no change pending. -/
def State.gone (s : State) : Prop := s.ctl.life = .decommissioned ∧ s.ctl.lifePending = none

theorem State.onlyChanges.keepsGone {s t : State} {ps : List Part} (h : s.onlyChanges ps t) (hp : ps.contains .life = false)
    (hs : s.gone) : t.gone := by
  have hl : t.ctl.lifeOf = s.ctl.lifeOf := h.same .life (by simpa using hp)
  obtain ⟨h1, h2⟩ := Prod.mk.inj hl
  exact ⟨h1.trans hs.1, h2.trans hs.2⟩

theorem settleLife_of_none {s : State} (h : s.ctl.lifePending = none) : settleLife s = s := by
  unfold settleLife
  rw [h]

theorem settleLife_keepsGone {s : State} (hs : s.gone) : (settleLife s).gone := by
  rw [settleLife_of_none hs.2]
  exact hs

theorem gone_keptByResets : KeptByResets State.gone where
  outside h _ hl := h.keepsGone hl
  keep := (keepState_frame _).keepsGone rfl
  settle := settleLife_keepsGone

/-- No life-cycle command is taken in DECOMMISSIONED (R463). -/
theorem lifeCheck_ne_zero_of_gone {s : State} (v : Nat) (hs : s.gone) : lifeCheck s v ≠ 0 := by
  unfold lifeCheck
  dsimp only
  rw [hs.1]
  split_ifs
  · decide
  · decide
  · split <;> simp
  · simp_all
  · decide

theorem serveCommand_keepsGone {s : State} (c : Client) (i u ty : Nat) (data : Bytes) (hs : s.gone) : (serveCommand s c i u ty data).gone := by
  have ans : ∀ {t : State} (st : Nat), t.gone → (answerWrite t c i u st 0 noTick).gone := fun _ => (answerWrite_frame ..).keepsGone rfl
  unfold serveCommand
  dsimp only
  rw [if_pos (lifeCheck_ne_zero_of_gone (beNat data) hs)]
  split_ifs
  · exact ans _ hs
  · exact ans _ hs
  · exact gone_keptByResets.resetModule _ (ans _ hs)
  · exact ans _ ((runCommand_frame ..).keepsGone rfl hs)

theorem gone_keptByClients : KeptByClients State.gone where
  outside h _ hl := h.keepsGone hl
  command := serveCommand_keepsGone

theorem wipeNHeld_keepsGone {s : State} (hs : s.gone) : Res.all State.gone (execWipeNHeld s) := by
  refine iteInduction (fun _ => Res.all_next.mpr hs) (fun hn => absurd hs.1 ?_)
  intro h
  simp [h] at hn

theorem provision_keepsGone {s : State} (b : BootHdr) (body : Bytes) (hs : s.gone) : Res.all State.gone (execProvision b body s) := by
  unfold execProvision
  have hl : s.ctl.life ≠ .blank := by rw [hs.1]; decide
  simp only [hl, ne_eq, not_false_eq_true, true_or, ↓reduceIte]
  split_ifs
  · exact Res.all_next.mpr hs
  · exact Res.all_next.mpr ((provResp_frame ..).keepsGone rfl hs)

theorem exec_keepsGone (c : Instr) {s : State} (hs : s.gone) : Res.all State.gone (exec c s) := by
  cases c with
  | powerOn x => exact gone_keptByResets.powerOn x hs
  | rstNAssert us => exact gone_keptByResets.rstNAssert us hs
  | wipeNHeld => exact wipeNHeld_keepsGone hs
  | maskRomCheck => exact gone_keptByResets.maskRomCheck hs
  | stagedLoaderInstall => exact gone_keptByResets.stagedLoaderInstall hs
  | provision b body => exact provision_keepsGone b body hs
  | automaticRestart => exact gone_keptByResets.automaticRestart hs
  | _ => exact gone_keptByClients.byParts State.onlyChanges.keepsGone rfl hs

/-- Settles O8: the resets find no change to carry out, the service takes no life-cycle command, and nothing else reaches the life
cycle. -/
theorem decommissionedIsFinal : Obligations.DecommissionedIsFinal := by
  unfold Obligations.DecommissionedIsFinal
  intro s t hl hn h
  rcases step_cases h with ⟨-, rfl⟩ | ⟨c, rest, -, hc⟩
  · exact (aonTick_frame s).keepsGone rfl ⟨hl, hn⟩
  · exact exec_keepsGone c (s := { s with pending := rest }) ⟨hl, hn⟩ t hc

end Sys2Proof.Machine
end

section
/-!
SUPPORT. The native memories: whatever writes them keeps their canonical form (R383), and every other operation leaves them alone.
-/

namespace Sys2Proof.Machine

/-- The memories of both core pairs are in canonical form. -/
structure State.canonical (s : State) : Prop where
  ok : s.memsOk = true

theorem State.canonical_iff (s : State) : s.canonical ↔ s.n0.memsOk = true ∧ s.n1.memsOk = true :=
  ⟨fun h => s.memsOk_iff.mp h.ok, fun h => ⟨s.memsOk_iff.mpr h⟩⟩

theorem State.onlyChanges.keepsMems {s t : State} {ps : List Part} (h : s.onlyChanges ps t) (hp : ps.contains .mem = false)
    (hs : s.canonical) : t.canonical :=
  ⟨(h.memsOk (by simpa using hp)).trans hs.ok⟩

theorem CpSt.memsOk_iff (n : CpSt) : n.memsOk = true ↔ memWf n.tcm ∧ memWf n.dram ∧ memWf n.mram := by
  simp only [CpSt.memsOk, Bool.and_eq_true, decide_eq_true_eq, and_assoc]

theorem CpSt.reset_memsOk : CpSt.reset.memsOk = true := by decide

theorem State.modN0_canonical {s : State} {f : CpSt → CpSt} (hf : ∀ c, c.memsOk = true → (f c).memsOk = true) (hs : s.canonical) :
    (s.modN0 f).canonical := by
  rw [State.canonical_iff] at hs ⊢
  exact ⟨hf _ hs.1, hs.2⟩

theorem State.modN1_canonical {s : State} {f : CpSt → CpSt} (hf : ∀ c, c.memsOk = true → (f c).memsOk = true) (hs : s.canonical) :
    (s.modN1 f).canonical := by
  rw [State.canonical_iff] at hs ⊢
  exact ⟨hs.1, hf _ hs.2⟩

theorem modCp_canonical {s : State} {f : CpSt → CpSt} (c : Cp) (hf : ∀ c, c.memsOk = true → (f c).memsOk = true) (hs : s.canonical) :
    (modCp s c f).canonical := by
  cases c
  · exact State.modN0_canonical hf hs
  · exact State.modN1_canonical hf hs

theorem cpPutAll_canonical {s : State} (c : Cp) (a : Nat) (l : Bytes) (hs : s.canonical) : (cpPutAll s c a l).canonical :=
  ⟨cpPutAll_memsOk c a l hs.ok⟩

/-! ### Core pairs -/

theorem CpSt.afterReset_memsOk {c : CpSt} (h : c.memsOk = true) : c.afterReset.memsOk = true := by
  rw [CpSt.memsOk_iff] at h ⊢
  exact ⟨memWf_nil, memWf_nil, h.2.2⟩

theorem foldl_putBytes_wf (l : List (Nat × Bytes)) (g : Nat → Nat) {m : List (Nat × Byte)} (h : memWf m) :
    memWf (l.foldl (fun m x => putBytes m (g x.1) x.2) m) := by
  induction l generalizing m with
  | nil => exact h
  | cons x xs ih => exact ih (putBytes_wf _ _ h)

theorem releaseCp_memsOk {c : CpSt} (image : List (Nat × Bytes)) (entry : W32) (h : c.memsOk = true) :
    (releaseCp c image entry).memsOk = true := by
  rw [CpSt.memsOk_iff] at h ⊢
  exact ⟨foldl_putBytes_wf _ id memWf_nil, foldl_putBytes_wf _ (· - 0x80000000) memWf_nil, h.2.2⟩

theorem CpSt.clearMram_memsOk {c : CpSt} (h : c.memsOk = true) : ({ c with mram := [] } : CpSt).memsOk = true := by
  rw [CpSt.memsOk_iff] at h ⊢
  exact ⟨h.1, h.2.1, memWf_nil⟩

theorem putRegion_canonical {s : State} (region off : Nat) (b : Bytes) (hs : s.canonical) : (putRegion s region off b).canonical := by
  have tcm : ∀ c : CpSt, c.memsOk = true → ({ c with tcm := putBytes c.tcm off b } : CpSt).memsOk = true := fun c h => by
    rw [CpSt.memsOk_iff] at h ⊢
    exact ⟨putBytes_wf _ _ h.1, h.2⟩
  have dram : ∀ c : CpSt, c.memsOk = true → ({ c with dram := putBytes c.dram off b } : CpSt).memsOk = true := fun c h => by
    rw [CpSt.memsOk_iff] at h ⊢
    exact ⟨h.1, putBytes_wf _ _ h.2.1, h.2.2⟩
  have mram : ∀ c : CpSt, c.memsOk = true → ({ c with mram := putBytes c.mram off b } : CpSt).memsOk = true := fun c h => by
    rw [CpSt.memsOk_iff] at h ⊢
    exact ⟨h.1, h.2.1, putBytes_wf _ _ h.2.2⟩
  unfold putRegion
  split
  · exact State.modN0_canonical tcm hs
  · exact State.modN1_canonical tcm hs
  · exact State.modN0_canonical dram hs
  · exact State.modN1_canonical dram hs
  · exact State.modN0_canonical mram hs
  · exact State.modN1_canonical mram hs

/-! ### Resets, restarts and changes of mode -/

theorem keepState_canonical {s : State} (hs : s.canonical) : (keepState s).canonical := by
  unfold keepState
  dsimp only
  rw [State.canonical_iff] at hs
  refine (State.modDict_frame ..).keepsMems rfl ((draw_frame ..).keepsMems rfl ?_)
  rw [State.canonical_iff]
  exact ⟨CpSt.afterReset_memsOk hs.1, CpSt.afterReset_memsOk hs.2⟩

theorem settleLife_canonical {s : State} (hs : s.canonical) : (settleLife s).canonical := by
  unfold settleLife
  split
  · exact hs
  · refine foldl_keeps (fun t p => (logEvent_frame ..).keepsMems rfl) _ ((writeLog_frame ..).keepsMems rfl ?_)
    rw [State.canonical_iff]
    exact ⟨CpSt.reset_memsOk, CpSt.reset_memsOk⟩

theorem canonical_keptByResets : KeptByResets State.canonical where
  outside h hm _ := h.keepsMems hm
  keep := keepState_canonical
  settle := settleLife_canonical

theorem nativeRelease_canonical {s : State} (hs : s.canonical) : (nativeRelease s).canonical := by
  unfold nativeRelease
  split
  · exact hs
  · refine (mpuOff_frame ..).keepsMems rfl ((State.modMpu_frame ..).keepsMems rfl ?_)
    exact modCp_canonical _ (fun _ => releaseCp_memsOk _ _) (modCp_canonical _ (fun _ => releaseCp_memsOk _ _) hs)

theorem restart_canonical {s : State} (hs : s.canonical) : (restart s).canonical := by
  unfold restart
  dsimp only
  refine (State.modCtl_frame ..).keepsMems rfl ((loopsStart_frame ..).keepsMems rfl ((channelsStart_frame ..).keepsMems rfl
    ((State.modCyc_frame ..).keepsMems rfl ?_)))
  have h : ∀ f w, (restartForces (State.modImg (restartCounts (clearCycle (loadProgram s))) f) w).canonical := fun _ _ =>
    (restartForces_frame ..).keepsMems rfl ((State.modImg_frame ..).keepsMems rfl ((restartCounts_frame ..).keepsMems rfl
      ((clearCycle_frame ..).keepsMems rfl ((loadProgram_frame ..).keepsMems rfl hs))))
  refine iteInduction (fun _ => (State.modImg_frame ..).keepsMems rfl (h ..)) (fun _ => ?_)
  exact State.modN1_canonical (fun _ => CpSt.clearMram_memsOk) (State.modN0_canonical (fun _ => CpSt.clearMram_memsOk)
    ((State.modImg_frame ..).keepsMems rfl (h ..)))

theorem enterRun_canonical {s : State} (m : Mode) (reason : Nat) (hs : s.canonical) : (enterRun s m reason).canonical :=
  (canJoin_frame ..).keepsMems rfl ((canJoin_frame ..).keepsMems rfl ((fieldRun_frame ..).keepsMems rfl (nativeRelease_canonical
    ((unfreeze_frame ..).keepsMems rfl ((State.modCtl_frame ..).keepsMems rfl ((changeMode_frame ..).keepsMems rfl hs))))))

theorem enterAlone_canonical {s : State} (reason : Nat) (hs : s.canonical) : (enterAlone s reason).canonical :=
  (followTest_frame ..).keepsMems rfl ((placeHeld_frame ..).keepsMems rfl ((ownerChanged_frame ..).keepsMems rfl
    (enterRun_canonical _ _ (restart_canonical hs))))

theorem loadSnapshot_canonical {s : State} (hs : s.canonical) : (loadSnapshot s).canonical := by
  have hrec : ∀ {t : State} {b : Bytes} {f : State → Bytes → State × Nat} {ps : List Part}, ps.contains .mem = false →
      (∀ (u : State) b, u.onlyChanges ps (f u b).1) → t.canonical → (readRecords t b f).canonical :=
    fun hp hf => (readRecords_keeps hf (.refl ..)).keepsMems hp
  unfold loadSnapshot
  refine (State.modPair_frame ..).keepsMems rfl ((State.modCyc_frame ..).keepsMems rfl ((followTriggers_frame ..).keepsMems rfl
    ((State.modImg_frame ..).keepsMems rfl ((readCalls_frame ..).keepsMems rfl ?_))))
  refine hrec rfl (fun _ _ => readLoop_frame ..) (hrec rfl (fun _ _ => readChan_frame ..) ((readCounts_frame ..).keepsMems rfl ?_))
  refine hrec rfl (fun _ _ => readSlot_frame ..) (hrec rfl (fun _ _ => readForce_frame ..) (hrec rfl (fun _ _ => readPoint_frame ..) ?_))
  refine (readCopies_frame ..).keepsMems rfl (foldl_keeps (fun t x ht => ?_) _ ?_)
  · exact iteInduction (fun _ => putRegion_canonical _ _ _ ht) (fun _ => ht)
  refine (State.modLoops_frame ..).keepsMems rfl ((loopsStart_frame ..).keepsMems rfl ((channelsStart_frame ..).keepsMems rfl
    ((State.modImg_frame ..).keepsMems rfl (hrec rfl (fun _ _ => readValueRec_frame ..) ?_))))
  exact (dropPairValues_frame ..).keepsMems rfl ((clearCycle_frame ..).keepsMems rfl ((loadProgram_frame ..).keepsMems rfl
    (nativeRelease_canonical hs)))

theorem joinCatch_canonical {s : State} (phase : Nat) (snapshot : W64) (reason : Option Nat) (hs : s.canonical) :
    (joinCatch s phase snapshot reason).canonical := by
  unfold joinCatch
  split_ifs
  · exact (mjSend_frame ..).keepsMems rfl ((State.modPair_frame ..).keepsMems rfl hs)
  · exact (mjSend_frame ..).keepsMems rfl (loadSnapshot_canonical ((State.modPair_frame ..).keepsMems rfl hs))
  · exact (catchFail_frame ..).keepsMems rfl ((clearCycle_frame ..).keepsMems rfl hs)
  · exact hs

theorem debugRestart_canonical {s : State} (hs : s.canonical) : (debugRestart s).canonical :=
  iteInduction (fun _ => nativeRelease_canonical ((unfreeze_frame ..).keepsMems rfl (restart_canonical hs))) (fun _ => hs)

theorem enterDebug_canonical {s : State} (hs : s.canonical) : (enterDebug s).canonical := by
  refine iteInduction (fun _ => hs) (fun _ => ?_)
  have h : ∀ {f g k b}, (leaveTest (fieldOff (dropAnnounced (State.modBoot (State.modCtl (setMode (changePair (stopServing
      (lowerOwn (dropRequests s))) f) .dbg k) g) b)))).canonical := fun {_ _ _ _} =>
    (leaveTest_frame ..).keepsMems rfl ((fieldOff_frame ..).keepsMems rfl ((dropAnnounced_frame ..).keepsMems rfl
      ((State.modBoot_frame ..).keepsMems rfl ((State.modCtl_frame ..).keepsMems rfl ((setMode_frame ..).keepsMems rfl
      ((changePair_frame ..).keepsMems rfl ((stopServing_frame ..).keepsMems rfl ((lowerOwn_frame ..).keepsMems rfl
      ((dropRequests_frame ..).keepsMems rfl hs)))))))))
  exact iteInduction (fun _ => debugRestart_canonical h) (fun _ => h)

theorem breakLockstep_canonical {s : State} (c : Cp) (hs : s.canonical) : (breakLockstep s c).canonical :=
  enterDebug_canonical ((logEvent_frame ..).keepsMems rfl ((State.modInteg_frame ..).keepsMems rfl
    ((modCp_plain (fun _ => by rfl) ..).keepsMems rfl ((freeValue_frame ..).keepsMems rfl hs))))

/-! ### The DMA engine -/

theorem loseBeat_canonical {s : State} (n : Nat) (hs : s.canonical) : (loseBeat s n).canonical :=
  iteInduction (fun _ => cpPutAll_canonical _ _ _ ((freeValue_frame ..).keepsMems rfl hs)) (fun _ => hs)

theorem loseChannel_canonical {s : State} (n : Nat) (hs : s.canonical) : (loseChannel s n).canonical :=
  (modCh_frame ..).keepsMems rfl ((freeValue_frame ..).keepsMems rfl (loseBeat_canonical n hs))

theorem dmaDrop_canonical {s : State} (hs : s.canonical) : (dmaDrop s).canonical := by
  unfold dmaDrop
  exact (State.modEvf_frame ..).keepsMems rfl (foldl_keeps (fun _ n => loseChannel_canonical n) _ hs)

theorem busError_canonical {s : State} (ch : Nat) (addr : W32) (hs : s.canonical) : (busError s ch addr).canonical :=
  (State.modDma_frame ..).keepsMems rfl (dmaDrop_canonical hs)

theorem loadDesc_canonical {s : State} (n : Nat) (addr : W32) (hs : s.canonical) : (loadDesc s n addr).canonical := by
  refine iteInduction (fun _ => busError_canonical _ _ hs) (fun _ => ?_)
  split
  · exact (violate_frame ..).keepsMems rfl hs
  · exact (modCh_frame ..).keepsMems rfl ((modCh_frame ..).keepsMems rfl hs)

theorem resumeCh_canonical {s : State} (n : Nat) (hs : s.canonical) : (resumeCh s n).canonical := by
  have h : ∀ {f}, (modCh s n f).canonical := (modCh_frame ..).keepsMems rfl hs
  unfold resumeCh
  dsimp only
  split
  · exact (violate_frame ..).keepsMems rfl h
  · exact iteInduction (fun _ => busError_canonical _ _ h) (fun _ => iteInduction (fun _ => h) (fun _ => loadDesc_canonical _ _ h))

theorem moveBeat_canonical {s : State} (n : Nat) (ns held : W32) (hs : s.canonical) : (moveBeat s n ns held).canonical := by
  refine (modCh_frame ..).keepsMems rfl ((modCh_frame ..).keepsMems rfl ?_)
  have h : ∀ {o c}, (beatData s o c ns held).2.canonical := (beatData_frame ..).keepsMems rfl hs
  exact iteInduction (fun _ => cpPutAll_canonical _ _ _ h) (fun _ => h)

theorem storeWord_canonical {s : State} (m : Master) (t a size : Nat) (v held : W32) (hs : s.canonical) :
    (storeWord s m t a size v held).canonical := by
  refine iteInduction (fun _ => cpPutAll_canonical _ _ _ hs) (fun _ => ?_)
  refine iteInduction (fun _ => (dmbDiscard_frame ..).keepsMems rfl hs) (fun _ => ?_)
  refine iteInduction (fun _ => hs) (fun _ => ?_)
  split
  · exact (writeIntc_frame ..).keepsMems rfl hs
  · exact (writeDma_frame ..).keepsMems rfl hs
  · exact (writeMpu_frame ..).keepsMems rfl hs
  · exact (writeTime_frame ..).keepsMems rfl hs
  · exact (writeCan_frame ..).keepsMems rfl hs
  · exact (writeCan_frame ..).keepsMems rfl hs
  · exact (writeAdc_frame ..).keepsMems rfl hs
  · exact (writeFio_frame ..).keepsMems rfl hs
  · exact (writeEvf_frame ..).keepsMems rfl hs
  · exact (writeDmb_frame ..).keepsMems rfl hs
  · exact iteInduction (fun _ => (modClk_frame ..).keepsMems rfl hs) (fun _ => hs)
  · exact iteInduction (fun _ => (modCp_plain (fun _ => by rfl) ..).keepsMems rfl hs) (fun _ => hs)
  · exact iteInduction (fun _ => hs) (fun _ => (writeRec_frame ..).keepsMems rfl hs)
  · exact hs

end Sys2Proof.Machine
end

section
/-!
SUPPORT. The commands that reach the native memories, and the statements about their form.
-/

namespace Sys2Proof.Machine

theorem serveCommand_canonical {s : State} (c : Client) (i u ty : Nat) (data : Bytes) (hs : s.canonical) :
    (serveCommand s c i u ty data).canonical := by
  have ans : ∀ {t : State} (st : Nat), t.canonical → (answerWrite t c i u st 0 noTick).canonical := fun _ =>
    (answerWrite_frame ..).keepsMems rfl
  unfold serveCommand
  dsimp only
  split_ifs
  · exact ans _ hs
  · exact canonical_keptByResets.resetModule _ (ans _ ((lifeCommand_frame ..).keepsMems rfl hs))
  · exact ans _ hs
  · exact canonical_keptByResets.resetModule _ (ans _ hs)
  · exact ans _ ((runCommand_frame ..).keepsMems rfl hs)

theorem canonical_keptByClients : KeptByClients State.canonical where
  outside h hm _ := h.keepsMems hm
  command := serveCommand_canonical

theorem wipeNHeld_canonical {s : State} (hs : s.canonical) : Res.all State.canonical (execWipeNHeld s) :=
  iteInduction (fun _ => Res.all_next.mpr hs)
    (fun _ => Res.all_next.mpr (canonical_keptByResets.resetModule _ ((pendLife_frame ..).keepsMems rfl hs)))

theorem provision_canonical {s : State} (b : BootHdr) (body : Bytes) (hs : s.canonical) :
    Res.all State.canonical (execProvision b body s) := by
  have hr : ∀ {t : State} {code x}, t.canonical → (provResp t b code x).canonical := (provResp_frame ..).keepsMems rfl
  refine iteInduction (fun _ => Res.all_next.mpr hs) (fun _ => iteInduction (fun _ => Res.all_next.mpr (hr hs)) (fun _ => ?_))
  refine iteInduction (fun _ => Res.all_next.mpr (hr hs)) (fun _ => Res.all_next.mpr ?_)
  exact canonical_keptByResets.resetModule _ (hr ((pendLife_frame ..).keepsMems rfl hs))

theorem ownHighEnterAlone_canonical {s : State} (hs : s.canonical) : Res.all State.canonical (execOwnHighEnterAlone s) :=
  iteInduction (fun _ => Res.all_next.mpr hs) (fun _ => iteInduction (fun _ => Res.all_next.mpr (enterAlone_canonical _ hs))
    (fun _ => Res.all_next.mpr ((lowerOwn_frame ..).keepsMems rfl hs)))

theorem switchoverResume_canonical {s : State} (hs : s.canonical) : Res.all State.canonical (execSwitchoverResume s) := by
  have hm : ∀ {f}, (s.modCtl f).canonical := (State.modCtl_frame ..).keepsMems rfl hs
  unfold execSwitchoverResume
  split
  · exact Res.all_next.mpr hs
  · exact iteInduction (fun _ => Res.all_next.mpr hs) (fun _ => iteInduction (fun _ => Res.all_next.mpr (enterAlone_canonical _ hm))
      (fun _ => Res.all_next.mpr ((lowerOwn_frame ..).keepsMems rfl hm)))

theorem onMessage_canonical {s : State} {h : MjHdr} {f : State → State} (hf : ∀ u : State, u.canonical → (f u).canonical)
    (hs : s.canonical) : Res.all State.canonical (onMessage s h f) := by
  have hh : (hear s h).1.canonical := (hear_frame ..).keepsMems rfl hs
  exact Res.all_next.mpr (iteInduction (fun _ => hf _ hh) (fun _ => hh))

theorem miojoCatch_canonical {s : State} (h : MjHdr) (phase : Nat) (snapshot : W64) (reason : Option Nat) (hs : s.canonical) :
    Res.all State.canonical (execMiojoCatch h phase snapshot reason s) :=
  onMessage_canonical (fun _ hu => iteInduction (fun _ => joinCatch_canonical _ _ _ hu)
    (fun _ => iteInduction (fun _ => (serveCatch_frame ..).keepsMems rfl hu) (fun _ => hu))) hs

theorem dmaPort_canonical {s : State} {a : Nat} {f : State → Res} (hf : Res.all State.canonical (f s)) (hs : s.canonical) :
    Res.all State.canonical (ownerPort (dmaOwner s) a kWrite f s) :=
  Res.all_ownerPort hs (fun _ => (breach_frame ..).keepsMems rfl hs) hf

theorem modCh_canonical {s : State} {n : Nat} {f : DmaCh → DmaCh} (hs : s.canonical) : (modCh s n f).canonical :=
  (modCh_frame ..).keepsMems rfl hs

theorem dmaGo_canonical {s : State} (ch : Nat) (hs : s.canonical) : Res.all State.canonical (execDmaGo ch s) :=
  dmaPort_canonical (iteInduction (fun _ => Res.all_next.mpr (loadDesc_canonical _ _ (modCh_canonical hs)))
    (fun _ => Res.all_next.mpr hs)) hs

theorem dmaResume_canonical {s : State} (ch : Nat) (hs : s.canonical) : Res.all State.canonical (execDmaResume ch s) :=
  dmaPort_canonical (iteInduction (fun _ => Res.all_next.mpr hs) (fun _ =>
    iteInduction (fun _ => Res.all_next.mpr (resumeCh_canonical _ hs)) (fun _ =>
      iteInduction (fun _ => Res.all_next.mpr (modCh_canonical hs)) (fun _ => Res.all_next.mpr hs)))) hs

theorem dmaDisable_canonical {s : State} (hs : s.canonical) : Res.all State.canonical (execDmaDisable s) :=
  dmaPort_canonical (Res.all_next.mpr ((State.modDma_frame ..).keepsMems rfl (dmaDrop_canonical hs))) hs

theorem dmaBeat_canonical {s : State} (ch : Nat) (held : W32) (hs : s.canonical) : Res.all State.canonical (execDmaBeat ch s held) := by
  refine iteInduction (fun _ => ?_) (fun _ => Res.all_next.mpr hs)
  split
  · exact Res.all_next.mpr (modCh_canonical hs)
  · have ht : ∀ {f}, State.canonical (if (dmaCh s ch).trig = true then s.modEvf f else s) :=
      iteInduction (fun _ => (State.modEvf_frame ..).keepsMems rfl hs) (fun _ => hs)
    refine iteInduction (fun _ => Res.all_next.mpr (busError_canonical _ _ ht)) (fun _ => ?_)
    refine iteInduction (fun _ => Res.all_next.mpr (busError_canonical _ _ ht)) (fun _ => ?_)
    split
    · exact Res.all_next.mpr ((violate_frame ..).keepsMems rfl ht)
    · exact Res.all_next.mpr ((violate_frame ..).keepsMems rfl ht)
    · exact Res.all_next.mpr (moveBeat_canonical _ _ _ ht)

theorem dmaDescriptorDone_canonical {s : State} (ch : Nat) (hs : s.canonical) :
    Res.all State.canonical (execDmaDescriptorDone ch s) := by
  have hp : ∀ {b : Bool} {f}, State.canonical (if b = true then pulseNow (modCh s ch f) (16 + ch) else modCh s ch f) :=
    iteInduction (fun _ => (pulseNow_frame ..).keepsMems rfl (modCh_canonical hs)) (fun _ => modCh_canonical hs)
  refine iteInduction (fun _ => ?_) (fun _ => Res.all_next.mpr hs)
  refine iteInduction (fun _ => Res.all_next.mpr ?_) (fun _ => Res.all_next.mpr (loadDesc_canonical _ _ hp))
  exact iteInduction (fun _ => resumeCh_canonical _ (modCh_canonical hp)) (fun _ => modCh_canonical hp)

theorem dmaBusError_canonical {s : State} (ch : Nat) (addr : W32) (hs : s.canonical) :
    Res.all State.canonical (execDmaBusError ch addr s) :=
  iteInduction (fun _ => Res.all_next.mpr (busError_canonical _ _ hs)) (fun _ => Res.all_next.mpr hs)

theorem accessFault_canonical {s : State} (m : Master) (addr : W32) (type ch : Nat) (hs : s.canonical) :
    Res.all State.canonical (execAccessFault m addr type ch s) := by
  have he : ∀ {c k}, (takeException s c k addr).canonical := (takeException_frame ..).keepsMems rfl hs
  refine iteInduction (fun _ => Res.all_next.mpr hs) (fun _ => ?_)
  cases m with
  | n0 => exact iteInduction (fun _ => Res.all_next.mpr he) (fun _ => Res.all_next.mpr hs)
  | n1 => exact iteInduction (fun _ => Res.all_next.mpr he) (fun _ => Res.all_next.mpr hs)
  | dma => exact Res.all_next.mpr (busError_canonical _ _ hs)
  | dap => exact iteInduction (fun _ => Res.all_next.mpr ((send_frame ..).keepsMems rfl hs)) (fun _ => Res.all_next.mpr hs)
  | mgmt => exact Res.all_next.mpr hs

theorem registerWrite_canonical {s : State} (m : Master) (addr v : W32) (size : Nat) (held : W32) (hs : s.canonical) :
    Res.all State.canonical (execRegisterWrite m addr v s size held) := by
  refine iteInduction (fun _ => Res.all_next.mpr hs) (fun _ => ?_)
  split
  · exact Res.all_next.mpr hs
  split
  · exact Res.all_next.mpr ((breach_frame ..).keepsMems rfl hs)
  · exact Res.all_next.mpr (storeWord_canonical _ _ _ _ _ _ hs)

theorem debugHalt_canonical {s : State} (c : Cp) (op : DbgOp) (hs : s.canonical) : Res.all State.canonical (execDebugHalt c s op) :=
  iteInduction (fun _ => Res.all_next.mpr ((applyDbg_frame ..).keepsMems rfl (breakLockstep_canonical c hs)))
    (fun _ => Res.all_next.mpr hs)

theorem ebreak_canonical {s : State} (c : Cp) (hs : s.canonical) : Res.all State.canonical (execEbreak c s) :=
  iteInduction (fun _ => Res.all_next.mpr hs) (fun _ =>
    iteInduction (fun _ => Res.all_next.mpr ((applyDbg_frame ..).keepsMems rfl (breakLockstep_canonical c hs)))
      (fun _ => Res.all_next.mpr ((takeException_frame ..).keepsMems rfl hs)))

theorem pgoodFall_canonical {s : State} (hs : s.canonical) : Res.all State.canonical (execPgoodFall s) :=
  iteInduction (fun _ => Res.all_next.mpr hs) (fun _ => Res.all_next.mpr ((State.modPins_frame ..).keepsMems rfl
    ((State.modDist_frame ..).keepsMems rfl (keepState_canonical hs))))

theorem exec_canonical (c : Instr) {s : State} (hs : s.canonical) : Res.all State.canonical (exec c s) := by
  cases c with
  | powerOn x => exact canonical_keptByResets.powerOn x hs
  | rstNAssert us => exact canonical_keptByResets.rstNAssert us hs
  | wipeNHeld => exact wipeNHeld_canonical hs
  | maskRomCheck => exact canonical_keptByResets.maskRomCheck hs
  | stagedLoaderInstall => exact canonical_keptByResets.stagedLoaderInstall hs
  | provision b body => exact provision_canonical b body hs
  | ownHighEnterAlone => exact ownHighEnterAlone_canonical hs
  | switchoverResume => exact switchoverResume_canonical hs
  | miojoCatch h phase snapshot reason => exact miojoCatch_canonical h phase snapshot reason hs
  | dmaGo ch => exact dmaGo_canonical ch hs
  | dmaResume ch => exact dmaResume_canonical ch hs
  | dmaDisable => exact dmaDisable_canonical hs
  | dmaBeat ch held => exact dmaBeat_canonical ch held hs
  | dmaDescriptorDone ch => exact dmaDescriptorDone_canonical ch hs
  | dmaBusError ch addr => exact dmaBusError_canonical ch addr hs
  | accessFault m addr type ch => exact accessFault_canonical m addr type ch hs
  | registerWrite m addr v size held => exact registerWrite_canonical m addr v size held hs
  | automaticRestart => exact canonical_keptByResets.automaticRestart hs
  | debugHalt c op => exact debugHalt_canonical c op hs
  | ebreak c => exact ebreak_canonical c hs
  | pgoodFall => exact pgoodFall_canonical hs
  | _ => exact canonical_keptByClients.byParts State.onlyChanges.keepsMems rfl hs

/-- Settles O6: each command that writes a native memory writes it byte by byte, or empties it, or loads an image into an empty one. -/
theorem memoriesStayCanonical : Obligations.MemoriesStayCanonical := by
  unfold Obligations.MemoriesStayCanonical
  intro s t hs h
  rcases step_cases h with ⟨-, rfl⟩ | ⟨c, rest, -, hc⟩
  · exact ((aonTick_frame s).keepsMems rfl ⟨hs⟩).ok
  · exact (exec_canonical c (s := { s with pending := rest }) ⟨hs⟩ t hc).ok

/-- Settles O7: the state after reset lists no byte. -/
theorem memoriesCanonicalAtReset : Obligations.MemoriesCanonicalAtReset := by
  unfold Obligations.MemoriesCanonicalAtReset
  exact ⟨(State.memsOk_iff _).mpr ⟨CpSt.reset_memsOk, CpSt.reset_memsOk⟩, rfl, rfl⟩

end Sys2Proof.Machine
end

section
/-!
SUPPORT. SILENT: what the module still does there leaves the mode as it is, but for a reset (R445).
-/

namespace Sys2Proof.Machine

/-- The module is in SILENT. -/
structure State.silent (s : State) : Prop where
  mode : s.ctl.mode = .silent

theorem State.onlyChanges.mode_eq {s t : State} {ps : List Part} (h : s.onlyChanges ps t) (hp : ps.contains .mode = false) :
    t.ctl.mode = s.ctl.mode := h.same .mode (by simpa using hp)

theorem State.onlyChanges.keepsSilent {s t : State} {ps : List Part} (h : s.onlyChanges ps t) (hp : ps.contains .mode = false)
    (hs : s.silent) : t.silent := ⟨(h.mode_eq hp).trans hs.mode⟩

/-! ### A reset leads to COLD -/

theorem keepState_mode (s : State) : (keepState s).ctl.mode = .cold := rfl

theorem logs_mode {α : Type} (l : List α) (b : α → Bytes) (s : State) :
    (l.foldl (fun t x => logEvent t ltDist (b x)) s).ctl.mode = s.ctl.mode :=
  (State.onlyChanges.foldl (fun _ _ => logEvent_frame ..) (.refl ..)).mode_eq rfl

theorem resetModule_mode (s : State) (cause : Nat) : (resetModule s cause).ctl.mode = .cold := by
  unfold resetModule
  dsimp only
  rw [logs_mode, (logEvent_frame ..).mode_eq rfl, (logEvent_frame ..).mode_eq rfl, (settleLife_frame ..).mode_eq rfl, keepState_mode]

/-! ### What the module does in SILENT -/

section
variable {s : State} (hs : s.silent)
include hs

theorem State.silent.clocksRun : clocksRun s = false := by simp [Machine.clocksRun, hs.mode]

theorem State.silent.dictServed (via : Via) : dictServed s via = false := by simp [Machine.dictServed, hs.mode]

theorem State.silent.mayStart : mayStart s = false := by simp [Machine.mayStart, hs.mode]

theorem State.silent.coreRuns (c : Cp) : coreRuns s c = false := by simp [Machine.coreRuns, coreReady, pllOn, hs.mode]

theorem State.silent.wantedKind : wantedKind s = none := by simp [Machine.wantedKind, hs.mode]

theorem State.silent.joinOwner : joinOwner s = s := by simp [Machine.joinOwner, hs.mayStart]

theorem State.silent.enterSilent (reason unit : Nat) (detail : W32) : (enterSilent s reason unit detail).silent := by
  unfold Machine.enterSilent
  rw [hs.mode]
  exact (State.modInteg_frame ..).keepsSilent rfl hs

theorem State.silent.violate (v : Violation) : (violate s v).silent := by
  refine iteInduction (fun _ => hs) (fun _ => ?_)
  cases masterOf v.master with
  | mgmt => exact hs.enterSilent _ _ _
  | n0 | n1 =>
    exact (logEvent_frame ..).keepsSilent rfl ((modCp_frame ..).keepsSilent rfl ((recordViolation_frame ..).keepsSilent rfl hs))
  | dma => exact (logEvent_frame ..).keepsSilent rfl ((State.modDma_frame ..).keepsSilent rfl ((State.modMpu_frame ..).keepsSilent rfl
      ((recordViolation_frame ..).keepsSilent rfl hs)))
  | dap =>
    have h : ∀ {f g}, (((recordViolation s v).modMpu f).modInteg g).silent := (State.modInteg_frame ..).keepsSilent rfl
      ((State.modMpu_frame ..).keepsSilent rfl ((recordViolation_frame ..).keepsSilent rfl hs))
    exact iteInduction (fun _ => (logEvent_frame ..).keepsSilent rfl ((State.modInteg_frame ..).keepsSilent rfl h))
      (fun _ => (logEvent_frame ..).keepsSilent rfl h)

theorem State.silent.breach (v : Violation) : (breach s v).silent := by
  have h := hs.violate v
  refine iteInduction (fun _ => hs) (fun _ => ?_)
  dsimp only
  cases masterOf v.master with
  | n0 | n1 => exact (abandonPosted_frame ..).keepsSilent rfl ((abandonCall_frame ..).keepsSilent rfl h)
  | dma | dap | mgmt => exact h

theorem State.silent.port {m : Master} {a kind : Nat} {f : State → Res} (hf : Res.all State.silent (f s)) :
    Res.all State.silent (port m a kind f s) := Res.all_port hs hs.breach hf

theorem State.silent.ownerPort (o : Option Cp) (a kind : Nat) (f : State → Res) : ownerPort o a kind f s = .next s := by
  unfold Machine.ownerPort
  cases o with
  | none => rfl
  | some c => cases c <;> simp [Machine.port, masterRuns, Cp.master, hs.coreRuns]

theorem State.silent.withdraw : (withdraw s).silent := by
  refine iteInduction (fun _ => ?_) (fun _ => hs)
  have h : ∀ {f}, ((lowerOwn s).modPair f).silent := (State.modPair_frame ..).keepsSilent rfl ((lowerOwn_frame ..).keepsSilent rfl hs)
  exact iteInduction (fun _ => h.joinOwner.symm ▸ h) (fun _ => h)

theorem State.silent.linkLoss : linkLoss s = s := by simp [Machine.linkLoss, hs.mode, Mode.run]

/-- No message is accepted: at most its lane lives (R198). -/
theorem State.silent.hear (h : MjHdr) : (hear s h).1.silent ∧ (hear s h).2 = false := by
  have hl : ∀ {f}, (laneUp (s.modPair f) h.lane).silent := (laneUp_frame ..).keepsSilent rfl ((State.modPair_frame ..).keepsSilent rfl hs)
  unfold Machine.hear
  dsimp only
  rw [hl.clocksRun]
  exact iteInduction (motive := fun r : State × Bool => r.1.silent ∧ r.2 = false) (fun _ => ⟨hs, rfl⟩) (fun _ => ⟨hl, rfl⟩)

theorem State.silent.onMessage (h : MjHdr) (f : State → State) : Res.all State.silent (onMessage s h f) := by
  obtain ⟨h1, h2⟩ := hs.hear h
  refine Res.all_next.mpr ?_
  rw [h2]
  exact h1

end

end Sys2Proof.Machine
end

section
/-!
SUPPORT. The commands in SILENT, and the statement that only a reset leaves it.
-/

namespace Sys2Proof.Machine

/-- The module stands in SILENT or in COLD. -/
structure State.silentOrCold (s : State) : Prop where
  mode : s.ctl.mode = .silent ∨ s.ctl.mode = .cold

theorem State.silent.orCold {s : State} (h : s.silent) : s.silentOrCold := ⟨.inl h.mode⟩

theorem Res.all.imp {P Q : State → Prop} {r : Res} (h : Res.all P r) (hpq : ∀ t, P t → Q t) : Res.all Q r := fun t ht => hpq t (h t ht)

section
variable {s : State} (hs : s.silent)
include hs

/-- The event does not happen in SILENT. -/
theorem State.silent.stays : Res.all State.silent (.next s) := Res.all_next.mpr hs

theorem State.silent.stays_of {r : Res} (h : r = .next s) : Res.all State.silent r := h ▸ hs.stays

/-! ### Resets -/

theorem State.silent.powerOn (x : Straps) : Res.all State.silentOrCold (execPowerOn x s) := by
  refine iteInduction (fun _ => Res.all_next.mpr hs.orCold) (fun _ => Res.all_next.mpr ⟨.inr ?_⟩)
  rw [logs_mode, (logEvent_frame ..).mode_eq rfl, (logEvent_frame ..).mode_eq rfl, (settleLife_frame ..).mode_eq rfl,
    (recoverLog_frame ..).mode_eq rfl, (State.modPins_frame ..).mode_eq rfl, (takeStraps_frame ..).mode_eq rfl, keepState_mode]

theorem State.silent.rstNAssert (us : Nat) : Res.all State.silentOrCold (execRstNAssert us s) := by
  have hv : ∀ {b : Bool}, State.silent (if b = true then (freeValue s).2 else s) :=
    iteInduction (fun _ => (freeValue_frame s).keepsSilent rfl hs) (fun _ => hs)
  refine iteInduction (fun _ => Res.all_next.mpr hv.orCold) (fun _ => Res.all_next.mpr ?_)
  refine iteInduction (fun _ => ⟨.inr (resetModule_mode ..)⟩) (fun _ => State.silent.orCold ?_)
  exact (State.modPins_frame ..).keepsSilent rfl hv

theorem State.silent.wipeNHeld : Res.all State.silentOrCold (execWipeNHeld s) :=
  iteInduction (fun _ => Res.all_next.mpr hs.orCold) (fun _ => Res.all_next.mpr ⟨.inr (resetModule_mode ..)⟩)

theorem State.silent.automaticRestart : Res.all State.silentOrCold (execAutomaticRestart s) :=
  iteInduction (fun _ => Res.all_next.mpr ⟨.inr (resetModule_mode ..)⟩) (fun _ => Res.all_next.mpr hs.orCold)

theorem State.silent.pgoodFall : Res.all State.silentOrCold (execPgoodFall s) := by
  refine iteInduction (fun _ => Res.all_next.mpr hs.orCold) (fun _ => Res.all_next.mpr ⟨.inr ?_⟩)
  rw [(State.modPins_frame ..).mode_eq rfl, (State.modDist_frame ..).mode_eq rfl, keepState_mode]

/-! ### Boot and start -/

theorem State.silent.maskRomCheck : execMaskRomCheck s = .next s := by simp [execMaskRomCheck, hs.mode]

theorem State.silent.stagedLoaderInstall : execStagedLoaderInstall s = .next s := by simp [execStagedLoaderInstall, hs.mode]

theorem State.silent.bootData (b : BootHdr) (object chunk block : Nat) (data : Bytes) :
    execBootData b object chunk block data s = .next s := by
  unfold execBootData
  cases s.boot.xfer with
  | none => rfl
  | some x => simp [hs.wantedKind]

theorem State.silent.bootTransferTimeout : Res.all State.silent (execBootTransferTimeout s) := by
  unfold execBootTransferTimeout
  cases s.boot.xfer with
  | none => exact hs.stays
  | some x =>
    refine iteInduction (fun _ => hs.stays) (fun _ => Res.all_next.mpr ?_)
    have h : ∀ {f}, (s.modBoot f).silent := (State.modBoot_frame ..).keepsSilent rfl hs
    exact iteInduction (fun hv => absurd (h.mode.symm.trans hv) (by decide)) (fun _ => h)

theorem State.silent.provision (b : BootHdr) (body : Bytes) : execProvision b body s = .next s := by simp [execProvision, hs.mode]

theorem State.silent.switchoverResume : execSwitchoverResume s = .next s := by
  unfold execSwitchoverResume
  cases s.ctl.startsAt with
  | none => rfl
  | some t => simp [hs.mode]

/-! ### The pair -/

theorem State.silent.miojoLinkDown : Res.all State.silent (execMiojoLinkDown s) := by
  have h : ∀ {f}, (changePair s f).silent := (changePair_frame ..).keepsSilent rfl hs
  exact iteInduction (fun _ => hs.stays) (fun _ => Res.all_next.mpr (iteInduction (fun _ => h) (fun _ => h.linkLoss.symm ▸ h)))

theorem State.silent.ownInChange (high : Bool) : Res.all State.silent (execOwnInChange high s) := by
  refine iteInduction (fun _ => hs.stays) (fun _ => ?_)
  dsimp only
  have h : ∀ {f}, (trackWait (trackWiring (changePair s f))).silent := (trackWait_frame ..).keepsSilent rfl
    ((trackWiring_frame ..).keepsSilent rfl ((changePair_frame ..).keepsSilent rfl hs))
  refine iteInduction (fun _ => Res.all_next.mpr ?_) (fun _ => iteInduction (fun hr => ?_) (fun _ => h.stays))
  · have hw : ∀ {f}, (Machine.withdraw (trackWait (trackWiring (changePair s f)))).silent := h.withdraw
    have hr : ∀ {t : State}, t.silent → (t.ctl.mode.run && t.pair.noOwner && !t.pair.ownOut) = false := fun ht => by
      rw [ht.mode]; rfl
    rw [hr hw]
    exact hw.joinOwner.symm ▸ hw
  · rw [h.mode] at hr
    cases hr

/-! ### Native masters, the DMA engine and debug -/

theorem State.silent.timeGroupLatchRead (reg : Nat) (m : Master) : Res.all State.silent (execTimeGroupLatchRead reg s m) :=
  hs.port (Res.all_next.mpr ((send_frame ..).keepsSilent rfl ((timeRead_frame ..).keepsSilent rfl hs)))

theorem State.silent.adcResultRead (reg : Nat) (held : W32) (m : Master) : Res.all State.silent (execAdcResultRead reg s held m) :=
  iteInduction (fun _ => hs.stays) (fun _ => hs.port (Res.all_next.mpr ((send_frame ..).keepsSilent rfl
    ((peripheralRead_frame ..).keepsSilent rfl hs))))

theorem State.silent.evfSwpulse (v : W32) (m : Master) : Res.all State.silent (execEvfSwpulse v s m) :=
  hs.port (Res.all_next.mpr (foldl_keeps (P := State.silent) (fun _ _ ht => iteInduction
    (fun _ => (pulseNow_frame ..).keepsSilent rfl ht) (fun _ => ht)) _ hs))

theorem State.silent.evfLostClear (m : Master) : Res.all State.silent (execEvfLostClear s m) :=
  hs.port (Res.all_next.mpr ((State.modEvf_frame ..).keepsSilent rfl hs))

theorem State.silent.dmaReady : dmaReady s = false := by simp [Machine.dmaReady, pllOn, hs.mode]

theorem State.silent.dmaBeat (ch : Nat) (held : W32) : execDmaBeat ch s held = .next s := by simp [execDmaBeat, hs.dmaReady]

theorem State.silent.dmaDescriptorDone (ch : Nat) : execDmaDescriptorDone ch s = .next s := by simp [execDmaDescriptorDone, hs.dmaReady]

theorem State.silent.protectionViolation (v : Violation) : Res.all State.silent (execProtectionViolation v s) := by
  refine iteInduction (fun _ => hs.stays) (fun _ => iteInduction (fun _ => Res.all_next.mpr (hs.breach v)) (fun _ => ?_))
  cases checkAccess s (masterOf v.master) v.addr.toNat v.kind (masterPriv s (masterOf v.master)) with
  | none => exact hs.stays
  | some x => exact Res.all_next.mpr (hs.breach x)

theorem State.silent.registerWrite (m : Master) (addr v : W32) (size : Nat) (held : W32) :
    Res.all State.silent (execRegisterWrite m addr v s size held) := by
  refine iteInduction (fun _ => hs.stays) (fun _ => ?_)
  split
  · exact hs.stays
  split
  · exact Res.all_next.mpr (hs.breach _)
  · exact Res.all_next.mpr ((storeWord_frame ..).keepsSilent rfl hs)

theorem State.silent.debugHalt (c : Cp) (op : DbgOp) : execDebugHalt c s op = .next s := by simp [execDebugHalt, hs.clocksRun]

theorem State.silent.ebreak (c : Cp) : execEbreak c s = .next s := by simp [execEbreak, hs.coreRuns]

theorem State.silent.debugLockedAccess (addr : W32) (region : Nat) : Res.all State.silent (execDebugLockedAccess addr region s) :=
  iteInduction (fun _ => Res.all_next.mpr (hs.violate _)) (fun _ => hs.stays)

theorem State.silent.jtagAccess (ir : Nat) (v : W32) (mem : Option W32) : Res.all State.silent (execJtagAccess ir v s mem) := by
  have send : ∀ {t : State} {o}, t.silent → Res.all State.silent (.next (send t o)) := fun ht =>
    Res.all_next.mpr ((send_frame ..).keepsSilent rfl ht)
  have hf : (freeValue s).2.silent := (freeValue_frame s).keepsSilent rfl hs
  have hi : ∀ {t : State} {f}, t.silent → (t.modInteg f).silent := (State.modInteg_frame ..).keepsSilent rfl
  refine iteInduction (fun _ => hs.stays) (fun _ => iteInduction (fun _ => send hs) (fun _ => ?_))
  refine iteInduction (fun _ => send hf) (fun _ => iteInduction (fun _ => ?_) (fun _ => send hs))
  cases mem with
  | none => exact send (hi hf)
  | some a =>
    dsimp only
    split
    · exact send (hi hs)
    · exact Res.all_next.mpr ((hi hs).breach _)
    · rename_i h
      exact send ((readAccess_frame h).keepsSilent rfl (hi hs))

/-! ### Errors -/

theorem State.silent.lockstepMismatch (unit : Nat) (detail : W32) : Res.all State.silent (execLockstepMismatch unit detail s) := by
  refine iteInduction (fun _ => hs.stays) (fun _ => iteInduction (fun _ => Res.all_next.mpr ?_)
    (fun _ => Res.all_next.mpr (hs.enterSilent _ _ _)))
  exact State.silent.enterSilent ((State.modInteg_frame ..).keepsSilent rfl hs) _ _ _

theorem State.silent.uncorrectableError (m : EccPlace) (detail : W32) : Res.all State.silent (execUncorrectableError m detail s) := by
  cases m with
  | image | desc | tcm _ | dram _ => exact Res.all_next.mpr (hs.enterSilent _ _ _)
  | ring => exact Res.all_next.mpr ((ringError_frame ..).keepsSilent rfl hs)
  | mram => exact Res.all_next.mpr ((mramError_frame ..).keepsSilent rfl hs)
  | flash => exact Res.all_next.mpr ((flashError_frame ..).keepsSilent rfl hs)
  | frame p => exact Res.all_next.mpr ((modPort_frame ..).keepsSilent rfl hs)

theorem State.silent.supplyClockFault (unit : Nat) : Res.all State.silent (execSupplyClockFault unit s) :=
  iteInduction (fun _ => hs.stays) (fun _ => Res.all_next.mpr (hs.enterSilent _ _ _))

/-! ### Clients -/

theorem State.silent.clientWrites (c : Client) (i u : Nat) (data : Bytes) : clientWrites s c i u data = .next s := by
  simp [Machine.clientWrites, rowWrite, hs.dictServed]

theorem State.silent.clientStreams (c : Client) (u off : Nat) (data : Bytes) : clientStreams s c u off data = .next s := by
  simp [Machine.clientStreams, hs.dictServed, hs.clientWrites]

theorem State.silent.dmbGo (c : Cp) : Res.all State.silent (execDmbGo c s) := by
  refine hs.port ?_
  have hd : ∀ {f}, (modDmb s c f).silent := (modDmb_frame ..).keepsSilent rfl hs
  refine iteInduction (fun _ => Res.all_next.mpr ((dmbDiscard_frame ..).keepsSilent rfl hs)) (fun _ => ?_)
  refine iteInduction (fun _ => Res.all_next.mpr hd) (fun _ => ?_)
  dsimp only
  rw [hd.dictServed]
  exact Res.all_next.mpr hd

theorem State.silent.ofClient {c : Instr} (hc : Instr.isOfClient c = true) : Res.all State.silent (exec c s) := by
  cases c with
  | dmbGo c => exact hs.dmbGo c
  | canTpFrame n f =>
    have h : execCanTpFrame n f s = .next s := by simp [execCanTpFrame, hs.dictServed]
    exact hs.stays_of h
  | serviceUnlock c data =>
    have h : execServiceUnlock c data s = .next s := by simp [execServiceUnlock, hs.dictServed]
    exact hs.stays_of h
  | dictWrite m w rsv =>
    have h : execDictWrite m w s rsv = .next s := by simp [execDictWrite, hs.dictServed]
    exact hs.stays_of h
  | clearDFault c held =>
    cases c with
    | some c => exact hs.stays_of (hs.clientWrites ..)
    | none => exact Res.all_next.mpr ((State.modField_frame ..).keepsSilent rfl hs)
  | clearCounters _ _ _ | loopModeSet _ _ _ | loopBankCommand _ _ _ | clearRepetitiveMemory _ _ =>
    exact iteInduction (fun _ => hs.stays_of (hs.clientWrites ..)) (fun _ => hs.stays)
  | manifestStreamWrite _ _ _ | imageStreamWrite _ _ _ => exact hs.stays_of (hs.clientStreams ..)
  | restartWarm _ | restartCold _ | setForce _ _ | releaseForce _ _ | releaseAllForces _ | onlineChangeActivate _
  | onlineChangeDiscard _ | commandedHandover _ | retryCatchup _ | manualTrigger _ | deleteAllRecords _ | clearDebugged _
  | clearLatentFault _ | commandedStop _ | liftStop _ | commandedReset _ | testEnter _ | testLeave _ | commission _
  | returnToBlank _ | decommission _ | raiseMinimumSvn _ | packageKeyA1Write _ _ | wrappedRoleKeyWrite _ _ | removeRoleKey _ _
  | attestationNonce _ _ | beginStaging _ _ | confirmSettings _ | discardSlot _ | runPreviousPackage _ | prepareSwitchover _
  | switchover _ => exact hs.stays_of (hs.clientWrites ..)
  | _ => cases hc

/-- A command of a client, or one whose list leaves the mode out. -/
theorem State.silent.byParts {c : Instr} (hc : (Instr.isOfClient c || !(Instr.parts c).contains .mode) = true) :
    Res.all State.silentOrCold (exec c s) := by
  rcases Bool.or_eq_true _ _ |>.mp hc with hc | hc
  · exact (hs.ofClient hc).imp (fun _ => State.silent.orCold)
  · exact fun t ht => (((exec_runs c s).frame.same t ht).keepsSilent (by simpa using hc) hs).orCold

end

/-- In SILENT a command leaves the mode as it is, or resets the module. -/
theorem State.silent.exec (c : Instr) {s : State} (hs : s.silent) : Res.all State.silentOrCold (exec c s) := by
  have of : ∀ {r : Res}, Res.all State.silent r → Res.all State.silentOrCold r := fun h => h.imp (fun _ => State.silent.orCold)
  have off : ∀ {r : Res}, r = .next s → Res.all State.silentOrCold r := fun h =>
    of (hs.stays_of h)
  cases c with
  | powerOn x => exact hs.powerOn x
  | rstNAssert us => exact hs.rstNAssert us
  | wipeNHeld => exact hs.wipeNHeld
  | automaticRestart => exact hs.automaticRestart
  | pgoodFall => exact hs.pgoodFall
  | maskRomCheck => exact off hs.maskRomCheck
  | stagedLoaderInstall => exact off hs.stagedLoaderInstall
  | bootData b object chunk block data => exact off (hs.bootData b object chunk block data)
  | bootTransferTimeout => exact of hs.bootTransferTimeout
  | provision b body => exact off (hs.provision b body)
  | selftestRun failed => exact off (if_pos (by rw [hs.mode]; decide))
  | packageSettle => exact off (if_pos (.inl (by rw [hs.mode]; decide)))
  | startFromStop => exact off (if_pos (.inl (by rw [hs.mode]; decide)))
  | ownHighEnterAlone => exact off (if_pos (.inl (by rw [hs.mode]; decide)))
  | stopRejoinTimer => exact off (if_pos (.inl (by rw [hs.mode]; decide)))
  | catchupReplayTick => exact off (if_pos (.inl (by rw [hs.mode]; decide)))
  | executionStart | executionEnd | digestTimeout | agreementTimeout | aliveTimeout | ownPermitExpire =>
    exact off (if_pos (by rw [hs.clocksRun]; rfl))
  | switchoverResume => exact off hs.switchoverResume
  | miojoOutput h _ _ _ | miojoHello h _ | miojoKeep h | miojoDelay h _ _ _ | miojoTick h _ | miojoSupply h _ _ | miojoSample h _ | miojoSvsupply h _ _
  | miojoSidein h _ | miojoForward h _ _ | miojoWrite h _ | miojoWack h _ | miojoRefuse h _ _ | miojoHandover h _
  | miojoAnnounce h _ | miojoCheck h _ _ _ | miojoSilent h _ | miojoState h _ _ _ | miojoStateack h _ | miojoLog h _ _
  | miojoCatch h _ _ _ =>
    simp only [Machine.exec]
    exact of (hs.onMessage h _)
  | miojoLinkDown => exact of hs.miojoLinkDown
  | ownInChange high => exact of (hs.ownInChange high)
  | timeGroupLatchRead reg m => exact of (hs.timeGroupLatchRead reg m)
  | adcResultRead reg held m => exact of (hs.adcResultRead reg held m)
  | evfSwpulse v m => exact of (hs.evfSwpulse v m)
  | evfLostClear m => exact of (hs.evfLostClear m)
  | dmaGo ch | dmaResume ch => exact off (hs.ownerPort ..)
  | dmaBeat ch held => exact off (hs.dmaBeat ch held)
  | dmaDescriptorDone ch => exact off (hs.dmaDescriptorDone ch)
  | protectionViolation v => exact of (hs.protectionViolation v)
  | registerWrite m addr v size held => exact of (hs.registerWrite m addr v size held)
  | debugHalt c op => exact off (hs.debugHalt c op)
  | ebreak c => exact off (hs.ebreak c)
  | debugLockedAccess addr region => exact of (hs.debugLockedAccess addr region)
  | jtagAccess ir v mem => exact of (hs.jtagAccess ir v mem)
  | lockstepMismatch unit detail => exact of (hs.lockstepMismatch unit detail)
  | uncorrectableError m detail => exact of (hs.uncorrectableError m detail)
  | managementWatchdog => exact of (iteInduction (fun _ => Res.all_next.mpr (hs.enterSilent _ _ _)) (fun _ => hs.stays))
  | supplyClockFault unit => exact of (hs.supplyClockFault unit)
  | _ => exact hs.byParts rfl

/-- Settles O9: of the commands that reach the mode, those of SILENT are the resets, an error, which leaves a latched module as it is, and
events that do not happen there. -/
theorem silentLeftOnlyByReset : Obligations.SilentLeftOnlyByReset := by
  unfold Obligations.SilentLeftOnlyByReset
  intro s t hs h
  rcases step_cases h with ⟨-, rfl⟩ | ⟨c, rest, -, hc⟩
  · exact .inl (((aonTick_frame s).mode_eq rfl).trans hs)
  · exact (State.silent.exec c (s := { s with pending := rest }) ⟨hs⟩ t hc).mode

end Sys2Proof.Machine
end

section
/-!
SUPPORT. One step: the command in front, or one AON tick; and the write of RATE, which stands for the tick at which it takes effect.
-/

namespace Sys2Proof.Machine

/-- Settles O1: the step is the dispatcher's on the rest of the queue. -/
theorem stepRunsFrontCommand : Obligations.StepRunsFrontCommand := by
  unfold Obligations.StepRunsFrontCommand
  intro s c rest h
  unfold step
  rw [h]

/-! ### The core pairs at an AON tick -/

/-- Two states of a core pair that differ in its interrupt unit at most. -/
def CpSt.sameButIntc (a b : CpSt) : Prop := b = { a with intc := b.intc }

theorem cpOf_raiseIrq (s : State) (n : Nat) (p : Cp) : (cpOf s p).sameButIntc (cpOf (raiseIrq s n) p) := by
  cases p <;> rfl

theorem cpOf_notePair (s t : State) (p : Cp) : (cpOf t p).sameButIntc (cpOf (notePair s t) p) := by
  unfold notePair
  split_ifs
  · rfl
  · exact cpOf_raiseIrq ..

theorem cpOf_modCp (s : State) (c p : Cp) (f : CpSt → CpSt) : cpOf (modCp s c f) p = if c = p then f (cpOf s p) else cpOf s p := by
  cases c <;> cases p <;> rfl

theorem cpOf_takeInterrupt (s : State) (c p : Cp) :
    cpOf (takeInterrupt s c) p = cpOf s p ∨
      (c = p ∧ coreRuns s p = true ∧ (cpOf s p).mstatus.getLsbD 3 = true ∧ cpOf (takeInterrupt s c) p = (cpOf s p).interrupt) := by
  unfold takeInterrupt
  dsimp only
  split_ifs with h
  · rw [cpOf_modCp]
    split_ifs with hp
    · subst hp
      simp only [Bool.and_eq_true] at h
      obtain ⟨⟨⟨⟨hr, -⟩, hm⟩, -⟩, -⟩ := h
      exact .inr ⟨rfl, hr, hm, rfl⟩
    · exact .inl rfl
  · exact .inl rfl

theorem takeInterrupt_ctl (s : State) (c : Cp) : (takeInterrupt s c).ctl = s.ctl := (takeInterrupt_frame ..).same .ctl (by decide)

theorem cpOf_countCores (s : State) (p : Cp) :
    cpOf (countCores s) p = if clocksRun s then (cpOf s p).count p.num s.time.raw (coreRuns s p) else cpOf s p := by
  unfold countCores
  split_ifs
  · cases p <;> rfl
  · rfl

/-- The tick before the interrupts are taken. -/
def tickBody (s : State) : State := pacedNow (powerConverter (holdsBegin (advanceTime (countCores s))))

theorem tickBody_onlyChanges (s : State) :
    (countCores s).onlyChanges [.out, .time, .cyc, .evf, .net, .field, .integ] (tickBody s) :=
  .andThen (pacedNow_frame ..) rfl (.andThen (powerConverter_frame ..) rfl (.andThen (holdsBegin_frame ..) rfl
    (.andThen (advanceTime_frame ..) rfl (.refl ..))))

theorem cpOf_tickBody (s : State) (p : Cp) :
    cpOf (tickBody s) p = if clocksRun s then (cpOf s p).count p.num s.time.raw (coreRuns s p) else cpOf s p := by
  rw [← cpOf_countCores]
  cases p
  · exact (tickBody_onlyChanges s).same .n0 (by decide)
  · exact (tickBody_onlyChanges s).same .n1 (by decide)

theorem coreRuns_tickBody (s : State) (p : Cp) : coreRuns (tickBody s) p = coreRuns s p := by
  have hc : (tickBody s).ctl = s.ctl := ((tickBody_onlyChanges s).same .ctl (by decide)).trans ((countCores_frame s).same .ctl (by decide))
  unfold coreRuns coreReady
  rw [cpOf_tickBody, hc]
  split_ifs <;> rfl

/-- At a tick a core pair counts, and it may take an interrupt where it runs and has them enabled. -/
theorem cpOf_aonTick (s : State) (p : Cp) :
    (cpOf (tickBody s) p).sameButIntc (cpOf (aonTick s) p) ∨
      (coreRuns s p = true ∧ (cpOf s p).mstatus.getLsbD 3 = true ∧ (cpOf (tickBody s) p).interrupt.sameButIntc (cpOf (aonTick s) p)) := by
  have hm : (cpOf (tickBody s) p).mstatus = (cpOf s p).mstatus := by
    rw [cpOf_tickBody]
    split_ifs <;> rfl
  have key : cpOf (takeInterrupt (takeInterrupt (tickBody s) .n0) .n1) p = cpOf (tickBody s) p ∨
      (coreRuns s p = true ∧ (cpOf s p).mstatus.getLsbD 3 = true ∧
        cpOf (takeInterrupt (takeInterrupt (tickBody s) .n0) .n1) p = (cpOf (tickBody s) p).interrupt) := by
    rw [← hm, ← coreRuns_tickBody]
    rcases cpOf_takeInterrupt (tickBody s) .n0 p with h0 | ⟨rfl, hr, hb, h0⟩
    · have hr0 : coreRuns (takeInterrupt (tickBody s) .n0) p = coreRuns (tickBody s) p := by
        unfold coreRuns coreReady
        rw [h0, takeInterrupt_ctl]
      rcases cpOf_takeInterrupt (takeInterrupt (tickBody s) .n0) .n1 p with h1 | ⟨-, hr, hb, h1⟩
      · exact .inl (h1.trans h0)
      · rw [hr0] at hr
        rw [h0] at hb h1
        exact .inr ⟨hr, hb, h1⟩
    · rcases cpOf_takeInterrupt (takeInterrupt (tickBody s) .n0) .n1 .n0 with h1 | ⟨h1, -⟩
      · exact .inr ⟨hr, hb, h1.trans h0⟩
      · cases h1
  have hn := cpOf_notePair s (takeInterrupt (takeInterrupt (tickBody s) .n0) .n1) p
  rcases key with h | ⟨hr, hb, h⟩
  · exact .inl (h ▸ hn)
  · exact .inr ⟨hr, hb, h ▸ hn⟩

/-- What neither counting nor an interrupt changes is as before the tick. -/
theorem cpOf_aonTick_keeps {α : Type} (g : CpSt → α) (hi : ∀ a b : CpSt, a.sameButIntc b → g b = g a)
    (ht : ∀ a : CpSt, g a.interrupt = g a) (s : State) (p : Cp) : g (cpOf (aonTick s) p) = g (cpOf (tickBody s) p) := by
  rcases cpOf_aonTick s p with h | ⟨-, -, h⟩
  · exact hi _ _ h
  · exact (hi _ _ h).trans (ht _)

theorem aonTick_time (s : State) : (aonTick s).time = (advanceTime s).time := by
  have h1 : (aonTick s).time = (tickBody s).time :=
    (notePair_keeps (s := tickBody s) rfl (.andThen (takeInterrupt_frame ..) rfl (.andThen (takeInterrupt_frame ..) rfl
      (.refl ..)))).same .time (ps := [.n0, .n1]) (by decide)
  have h2 : (tickBody s).time = (advanceTime (countCores s)).time :=
    (State.onlyChanges.andThen (pacedNow_frame ..) rfl (.andThen (powerConverter_frame ..) rfl (.andThen (holdsBegin_frame ..) rfl
      (.refl _ [.out, .cyc, .net, .integ, .evf, .field])))).same .time (by decide)
  have h3 : (countCores s).time = s.time := (countCores_frame s).same .time (by decide)
  rw [h1, h2]
  unfold advanceTime
  simp only [State.modTime_time, h3]

/-- The forerunner's count with its fraction takes its increment (R250). -/
theorem forerunner_append (c : W64) (f : BitVec 24) (i : W32) :
    BitVec.ofNat 64 ((c.toNat * 2 ^ 24 + f.toNat + i.toNat) / 2 ^ 24) ++ BitVec.ofNat 24 (c.toNat * 2 ^ 24 + f.toNat + i.toNat) =
      c ++ f + i.zeroExtend 88 := by
  have hi : i.toNat % 2 ^ 88 = i.toNat := Nat.mod_eq_of_lt (i.isLt.trans (by decide))
  have hn : ∀ n : Nat, n / 2 ^ 24 % 2 ^ 64 * 2 ^ 24 + n % 2 ^ 24 = n % (2 ^ 24 * 2 ^ 64) := fun n => by
    rw [Nat.mod_mul, Nat.mul_comm, Nat.add_comm]
  apply BitVec.eq_of_toNat_eq
  rw [BitVec.toNat_append, BitVec.toNat_add, BitVec.toNat_append, BitVec.zeroExtend, BitVec.toNat_setWidth, hi,
    BitVec.toNat_ofNat, BitVec.toNat_ofNat, ← Nat.shiftLeft_add_eq_or_of_lt f.isLt,
    ← Nat.shiftLeft_add_eq_or_of_lt (Nat.mod_lt _ (by decide)), Nat.shiftLeft_eq, Nat.shiftLeft_eq, hn, ← Nat.pow_add]

theorem advanceTime_time (s : State) : (advanceTime s).time = { s.time with
    raw := s.time.raw + 640, frCount := (advanceTime s).time.frCount, frFrac := (advanceTime s).time.frFrac } := by
  unfold advanceTime
  simp only [State.modTime_time]
  split_ifs <;> rfl

theorem advanceTime_of_stopped {s : State} (h : s.time.fren = false) :
    (advanceTime s).time.frCount = s.time.frCount ∧ (advanceTime s).time.frFrac = s.time.frFrac := by
  unfold advanceTime
  simp only [State.modTime_time, h, Bool.false_eq_true, if_false, and_self]

theorem advanceTime_of_running {s : State} (h : s.time.fren = true) :
    (advanceTime s).time.frCount ++ (advanceTime s).time.frFrac = s.time.frCount ++ s.time.frFrac + s.time.frinc.zeroExtend 88 := by
  rw [← forerunner_append]
  unfold advanceTime
  simp only [State.modTime_time, h, if_true]

theorem cpOf_aonTick_counts (s : State) (p : Cp) :
    (cpOf (aonTick s) p).cycleCsr = (cpOf (tickBody s) p).cycleCsr ∧ (cpOf (aonTick s) p).timeCsr = (cpOf (tickBody s) p).timeCsr ∧
      (cpOf (aonTick s) p).instretCsr = (cpOf (tickBody s) p).instretCsr :=
  ⟨cpOf_aonTick_keeps (·.cycleCsr) (fun _ _ h => h ▸ rfl) (fun _ => rfl) s p,
    cpOf_aonTick_keeps (·.timeCsr) (fun _ _ h => h ▸ rfl) (fun _ => rfl) s p,
    cpOf_aonTick_keeps (·.instretCsr) (fun _ _ h => h ▸ rfl) (fun _ => rfl) s p⟩

theorem cpOf_aonTick_mems (s : State) (p : Cp) :
    (cpOf (aonTick s) p).memsOf = (cpOf s p).memsOf ∧ (cpOf (aonTick s) p).regs = (cpOf s p).regs := by
  rw [cpOf_aonTick_keeps CpSt.memsOf (fun _ _ h => h ▸ rfl) (fun _ => rfl), cpOf_aonTick_keeps CpSt.regs (fun _ _ h => h ▸ rfl)
    (fun _ => rfl), cpOf_tickBody]
  split_ifs <;> exact ⟨rfl, rfl⟩

theorem cpOf_aonTick_uninterrupted {s : State} {p : Cp} (h : coreRuns s p = false ∨ (cpOf s p).mstatus.getLsbD 3 = false) :
    (cpOf (aonTick s) p).pc = (cpOf s p).pc ∧ (cpOf (aonTick s) p).machine = (cpOf s p).machine ∧
      (cpOf (aonTick s) p).mstatus = (cpOf s p).mstatus := by
  rcases cpOf_aonTick s p with ht | ⟨hr, hb, -⟩
  · rw [ht, cpOf_tickBody]
    split_ifs <;> exact ⟨rfl, rfl, rfl⟩
  · rcases h with h | h
    · rw [h] at hr
      cases hr
    · rw [h] at hb
      cases hb

/-- Settles O2: a tick counts, moves the time, and may take an interrupt, which keeps registers, memories and counts. -/
theorem idleStepIsOneAonTick : Obligations.IdleStepIsOneAonTick := by
  unfold Obligations.IdleStepIsOneAonTick
  intro s hp
  refine ⟨aonTick s, by unfold step; rw [hp], aonTick_frame s, ⟨(advanceTime s).time.frCount, (advanceTime s).time.frFrac, ?_,
    advanceTime_of_stopped, advanceTime_of_running⟩, cpOf_aonTick_mems s, fun p hc => ?_, fun p hc => ?_,
    fun p => cpOf_aonTick_uninterrupted⟩
  · exact (aonTick_time s).trans (advanceTime_time s)
  · obtain ⟨h1, h2, h3⟩ := cpOf_aonTick_counts s p
    rw [h1, h2, h3, cpOf_tickBody, if_pos hc]
    exact ⟨rfl, rfl, rfl⟩
  · obtain ⟨h1, h2, h3⟩ := cpOf_aonTick_counts s p
    rw [h1, h2, h3, cpOf_tickBody, if_neg (by rw [hc]; decide)]
    exact ⟨rfl, rfl, rfl⟩

/-! ### RATE -/

theorem timeAt_lt (t : TimeSt) (r : W64) : timeAt t r < 2 ^ 80 :=
  (Int.toNat_lt (Int.emod_nonneg _ (by norm_num))).mpr (Int.emod_lt_of_pos _ (by norm_num))

theorem timeAt_anchor (t : TimeSt) : timeAt t t.anchor = t.base.toNat := by
  have hb := t.base.isLt
  have h0 : (((t.anchor - t.anchor).toNat : Nat) : Int) = 0 := by simp
  simp only [timeAt, h0, zero_mul, Int.zero_ediv, add_zero]
  omega

/-- Settles O39: at the anchor TIME reads BASE, which took what it read. -/
theorem rateWritesReanchor : Obligations.RateWritesReanchor := by
  unfold Obligations.RateWritesReanchor
  intro v s hm
  have hc : clocksRun s = true := by simpa [clocksRun] using hm
  refine ⟨writeRate s v, ?_, rfl, ?_⟩
  · exact if_neg (by simp [hc])
  · refine (timeAt_anchor (writeRate s v).time).trans ?_
    exact Nat.mod_eq_of_lt (timeAt_lt ..)

end Sys2Proof.Machine
end

section
/-!
SUPPORT. The field side: its terminals, their channels and logs; what the D group and the current outputs do.
-/

namespace Sys2Proof.Machine

/-! ### The channels of the field side -/

@[simp] theorem logField_field (s : State) (g c d : Nat) : (logField s g c d).field = s.field :=
  (logField_frame ..).same .field (by decide)

@[simp] theorem dChan_logField (s : State) (g c d n : Nat) : dChan (logField s g c d) n = dChan s n :=
  congrArg (·.ds.getD n DChan.reset) (logField_field ..)

@[simp] theorem lChan_logField (s : State) (g c d n : Nat) : lChan (logField s g c d) n = lChan s n :=
  congrArg (·.ls.getD n LChan.reset) (logField_field ..)

@[simp] theorem modD_field (s : State) (n : Nat) (f : DChan → DChan) : (modD s n f).field = { s.field with ds := lupd s.field.ds n f } := rfl

@[simp] theorem modL_field (s : State) (n : Nat) (f : LChan → LChan) : (modL s n f).field = { s.field with ls := lupd s.field.ls n f } := rfl

@[simp] theorem driveD_field (s : State) :
    (driveD s).field = { s.field with ds := s.field.ds.map (fun d => { d with on := s.field.mayDrive d }) } := rfl

theorem getD_lupd_same {α : Type} (l : List α) (n : Nat) (f : α → α) (d : α) (h : n < l.length) :
    (lupd l n f).getD n d = f (l.getD n d) := by
  simp [lupd, List.getD_eq_getElem?_getD, h]

theorem getD_lupd_other {α : Type} (l : List α) {n m : Nat} (f : α → α) (d : α) (h : m ≠ n) : (lupd l n f).getD m d = l.getD m d := by
  simp [lupd, List.getD_eq_getElem?_getD, Ne.symm h]

theorem dChan_modD_same {s : State} {n : Nat} (f : DChan → DChan) (h : n < s.field.ds.length) : dChan (modD s n f) n = f (dChan s n) :=
  getD_lupd_same _ _ _ _ h

theorem dChan_modD_other (s : State) {n m : Nat} (f : DChan → DChan) (h : m ≠ n) : dChan (modD s n f) m = dChan s m :=
  getD_lupd_other _ _ _ h

theorem lChan_modL_same {s : State} {n : Nat} (f : LChan → LChan) (h : n < s.field.ls.length) : lChan (modL s n f) n = f (lChan s n) :=
  getD_lupd_same _ _ _ _ h

/-- An entry that is not the default is in the list. -/
theorem lt_length_of_getD {α β : Type} {l : List α} {n : Nat} {d : α} (g : α → β) (h : g (l.getD n d) ≠ g d) : n < l.length := by
  by_contra hn
  exact h (by rw [List.getD_eq_default _ _ (Nat.le_of_not_lt hn)])

theorem lt_of_dChan_on {s : State} {n : Nat} (h : (dChan s n).on = true) : n < s.field.ds.length :=
  lt_length_of_getD (d := DChan.reset) (·.on) (by rw [show (s.field.ds.getD n DChan.reset).on = true from h]; decide)

theorem lt_of_dChan_tripped {s : State} {n : Nat} (h : (dChan s n).tripped = true) : n < s.field.ds.length :=
  lt_length_of_getD (d := DChan.reset) (·.tripped) (by rw [show (s.field.ds.getD n DChan.reset).tripped = true from h]; decide)

/-- A map over the list that leaves the default's value leaves the value of every entry, listed or not. -/
theorem getD_map_eq {α β : Type} {l : List α} {n : Nat} {d : α} {f : α → α} {g : α → β} {b : β} (hf : ∀ x, g (f x) = b) (hd : g d = b) :
    g ((l.map f).getD n d) = b := by
  rcases Nat.lt_or_ge n l.length with h | h
  · simp [List.getD_eq_getElem?_getD, h, hf]
  · rw [List.getD_eq_default _ _ (by simpa using h), hd]

theorem getD_map_of_lt {α : Type} {l : List α} {n : Nat} {d : α} {f : α → α} (h : n < l.length) : (l.map f).getD n d = f (l.getD n d) := by
  simp [List.getD_eq_getElem?_getD, h]

theorem getD_zipIdx_map_of_lt {α : Type} {l : List α} {n : Nat} {d : α} {f : α × Nat → α} (h : n < l.length) :
    (l.zipIdx.map f).getD n d = f (l.getD n d, n) := by
  simp [List.getD_eq_getElem?_getD, h]

/-! ### O24, the D group -/

theorem debounce_keeps (F : Nat) (d : DChan) (v : Bool) : (debounce F d v).terminal = v ∧ (debounce F d v).on = d.on ∧
    (debounce F d v).command = d.command ∧ (debounce F d v).count = d.count := by
  unfold debounce
  split_ifs <;> exact ⟨rfl, rfl, rfl, rfl⟩

theorem past_some {s : State} {w : W64} {d : Nat} (h : d ≤ (s.time.raw - w).toNat) : past s (some w) d = true := decide_eq_true h

/-- What a step that completes leaves has the property. -/
def Res.ends (P : State → Prop) (r : Res) : Prop := ∃ t, r = .next t ∧ P t

theorem Res.ends_next {P : State → Prop} {t : State} (h : P t) : Res.ends P (.next t) := ⟨t, rfl, h⟩

/-- A refresh that the barrier heard in state `s` (R374). -/
structure State.refreshed (s t : State) : Prop where
  out : t.out = s.out ++ [.barrierRefresh]
  ready : t.field.ready = true
  at_ : t.field.refreshAt = some s.time.raw

theorem State.refreshed.modLs {s t u : State} (h : s.refreshed t) (ho : u.out = t.out) (hf : ∃ l, u.field = { t.field with ls := l }) :
    s.refreshed u := by
  obtain ⟨l, hl⟩ := hf
  exact ⟨ho.trans h.out, by rw [hl]; exact h.ready, by rw [hl]; exact h.at_⟩

theorem fieldRun_field (s : State) : ∃ l, (fieldRun s).field = { s.field with ls := l } := by
  unfold fieldRun
  split_ifs
  · exact ⟨s.field.ls, rfl⟩
  · exact ⟨_, rfl⟩

theorem execFieldRefresh_ends (s : State) : Res.ends s.refreshed (execFieldRefresh s) := by
  unfold execFieldRefresh
  refine iteInduction (fun _ => Res.ends_next ?_) (fun _ => Res.ends_next ⟨rfl, rfl, rfl⟩)
  refine foldl_keeps (fun u n hu => iteInduction (fun _ => ?_) (fun _ => hu)) _ ?_
  · exact hu.modLs rfl ⟨_, rfl⟩
  · exact State.refreshed.modLs ⟨rfl, rfl, rfl⟩ ((fieldRun_frame ..).same .out (by decide)) (fieldRun_field _)

theorem fieldTrip_on (s : State) (n : Nat) : (dChan (fieldTrip s) n).on = false :=
  getD_map_eq (d := DChan.reset) (g := DChan.on) (fun _ => rfl) rfl

theorem driveD_on_of_latch {s : State} (h : s.field.latch = true) (n : Nat) : (dChan (driveD s) n).on = false :=
  getD_map_eq (d := DChan.reset) (g := DChan.on) (fun x => by simp [FieldSt.mayDrive, h]) rfl

theorem driveD_on_of_lt {s : State} {n : Nat} (h : n < s.field.ds.length) : (dChan (driveD s) n).on = s.field.mayDrive (dChan s n) := by
  simp only [dChan, driveD_field, getD_map_of_lt h]

/-- Settles O24: each command's channel changes as the command says, and the logs leave the field side alone. -/
theorem dGroup : Obligations.DGroup := by
  unfold Obligations.DGroup
  refine ⟨fun l s => ⟨_, rfl, rfl, rfl, by simp, fun n hn => ?_⟩, fun l s => ⟨_, rfl, rfl, rfl⟩, fun n s hf hn => ?_, fun n s hf ho => ?_,
    fun n w s ht hc hw hp => ?_, fun s => ?_, fun w s hr hw hp => ?_⟩
  · simp only [dChan, State.modField_field, getD_zipIdx_map_of_lt hn]
    exact debounce_keeps ..
  · refine ⟨modD s n (fun d => { d with count := d.count + 1 }), if_pos hf, ?_, fun m hm => ?_⟩
    · rw [dChan_modD_same _ hn]
    · rw [dChan_modD_other _ _ hm]
  · refine ⟨_, if_pos ⟨hf, ho⟩, ?_⟩
    have hn := lt_of_dChan_on ho
    simp only [dChan, logField_field, State.modField_field, modD_field, getD_lupd_same _ _ _ _ hn, and_self]
  · refine ⟨_, if_pos ?_, ?_⟩
    · rw [ht, hc, hw]
      exact past_some hp
    · have hn := lt_of_dChan_tripped ht
      simp only [dChan_modD_same _ hn, FieldSt.mayDrive, hc, Bool.not_false, Bool.true_and, Bool.and_true, and_self]
  · obtain ⟨t, ht, h⟩ := execFieldRefresh_ends s
    exact ⟨t, ht, h.out, h.ready, h.at_⟩
  · refine ⟨_, if_pos ?_, ?_⟩
    · rw [hr, hw]
      exact past_some hp
    · simp only [dChan, logField_field]
      exact ⟨rfl, rfl, rfl, rfl, fieldTrip_on _⟩

/-! ### O25, the field supply and the current outputs -/

/-- The field side after a sag below 18 V, before the latch. -/
def FieldSt.sagged (f : FieldSt) (mv : W16) : FieldSt :=
  { f with lplus := mv, sag := true, sagSeen := 15, above19 := none, sags := if f.sag then f.sags else f.sags.inc }

/-- The sag as execLplusSag notes it, with its log. -/
def noteSag (s : State) (mv : W16) : State :=
  let t := s.modField (fun f => { f with lplus := mv, sag := true, sagSeen := 15, above19 := none })
  if !s.field.sag then logField (t.modField (fun f => { f with sags := f.sags.inc })) 2 0 mv.toNat else t

theorem noteSag_field (s : State) (mv : W16) : (noteSag s mv).field = s.field.sagged mv := by
  unfold noteSag FieldSt.sagged
  cases s.field.sag
  · simp
  · simp

theorem execLplusSag_of_lt {mv : W16} {s : State} (h : mv.toNat < 18000) : execLplusSag mv s =
    if decide (mv.toNat < 14000) && !s.field.latch then
      .next (logField (driveD ((noteSag s mv).modField (fun f => { f with latch := true, latchOffs := f.latchOffs.inc }))) 0 2 mv.toNat)
    else .next (noteSag s mv) :=
  if_neg (Nat.not_le.mpr h)

/-- The field side once the supply has recovered: the outputs follow their commands again. -/
def recovered (s : State) (mv : W16) : State :=
  driveD ((s.modField (fun f => { f with lplus := mv })).modField (fun f => { f with latch := false, sag := false }))

/-- Settles O25: the sag and the recovery drive the D outputs by the latch; a current output changes its own channel only. -/
theorem fieldSupplyAndCurrents : Obligations.FieldSupplyAndCurrents := by
  unfold Obligations.FieldSupplyAndCurrents
  refine ⟨fun mv s hv => ?_, fun mv w s hv hw hp => ?_, fun mv s hv ha => ?_, fun n s hp hf hs hn => ?_, fun n w s hs hm hw hp hn => ?_,
    fun n s hf hs hn => ?_, fun _ _ => rfl⟩
  · simp only [exec]
    rw [execLplusSag_of_lt hv]
    by_cases hl : (decide (mv.toNat < 14000) && !s.field.latch) = true
    · refine ⟨_, if_pos hl, ?_⟩
      simp only [Bool.and_eq_true, decide_eq_true_eq, Bool.not_eq_true'] at hl
      obtain ⟨hlow, hla⟩ := hl
      simp only [dChan_logField, logField_field, driveD_field, State.modField_field, noteSag_field, FieldSt.sagged, hlow, hla,
        decide_true, Bool.false_or, true_and, forall_const]
      exact driveD_on_of_latch (by rfl)
    · refine ⟨_, if_neg hl, ?_⟩
      rw [noteSag_field]
      refine ⟨rfl, rfl, rfl, rfl, ?_, fun hlow hla => absurd (by simp [hlow, hla]) hl⟩
      cases hla : s.field.latch <;> simp_all [FieldSt.sagged]
  · have h19 : ¬ mv.toNat ≤ 19000 := Nat.not_le.mpr hv
    have hl : execLplusRecover mv s = .next (if s.field.latch then logField (recovered s mv) 0 3 mv.toNat else recovered s mv) := by
      unfold execLplusRecover
      simp only [State.modField_field, h19, hw, if_false]
      exact if_pos (past_some hp)
    refine ⟨_, hl, ?_⟩
    have hf : ∀ b : Bool, (if b then logField (recovered s mv) 0 3 mv.toNat else recovered s mv).field = (recovered s mv).field := fun b => by
      cases b
      · rfl
      · exact logField_field ..
    simp only [dChan, hf]
    refine ⟨rfl, rfl, rfl, fun n hn => (driveD_on_of_lt (by exact hn)).trans ?_⟩
    simp [FieldSt.mayDrive, dChan]
  · simp only [exec, execLplusRecover, State.modField_field, Nat.not_le.mpr hv, ha, if_false]
    rfl
  · refine ⟨_, if_pos (by rw [hp, hf, hs]; rfl), ?_⟩
    rw [lChan_logField, lChan_modL_same _ hn]
    exact ⟨rfl, rfl, rfl⟩
  · refine ⟨_, if_pos (by rw [hs, hm, hw]; exact past_some hp), ?_⟩
    rw [lChan_logField, lChan_modL_same _ hn]
    exact ⟨rfl, rfl⟩
  · refine ⟨_, if_pos (by rw [hf, hs]; rfl), ?_⟩
    simp only [lChan, logField_field, State.modField_field, modL_field, getD_lupd_same _ _ _ _ hn, and_self]

end Sys2Proof.Machine
end

section
/-!
SUPPORT. Accesses that both checks let pass, and the local converter: its holds, its results and its tasks in the slack.
-/

namespace Sys2Proof.Machine

/-! ### Accesses that both checks let pass -/

theorem port_of_access {s : State} {m : Master} {a kind : Nat} (h : mayAccess s m a kind = true) (f : State → Res) :
    port m a kind f s = f s := by
  unfold mayAccess at h
  unfold port
  rw [Bool.and_eq_true, Option.isNone_iff_eq_none] at h
  obtain ⟨hr, hc⟩ := h
  rw [hr, hc]
  rfl

theorem ownerPort_of_access {s : State} {o : Option Cp} {c : Cp} {a kind : Nat} (ho : o = some c)
    (h : mayAccess s c.master a kind = true) (f : State → Res) : ownerPort o a kind f s = f s := by
  rw [ho]
  exact port_of_access h f

/-! ### The holds of the converter -/

/-- The record of the field side with holds appended and the converter's power as it may be. -/
def FieldSt.appended (f g : FieldSt) (l : List HoldReq) : Prop := g = { f with holds := f.holds ++ l, awake := g.awake }

theorem FieldSt.appended.refl (f : FieldSt) : f.appended f [] := by
  unfold FieldSt.appended
  rw [List.append_nil]

theorem FieldSt.appended.trans {f g k : FieldSt} {l m : List HoldReq} (h1 : f.appended g l) (h2 : g.appended k m) :
    f.appended k (l ++ m) := by
  unfold FieldSt.appended at *
  rw [h2, h1]
  simp [List.append_assoc]

theorem FieldSt.appended.holds {f g : FieldSt} {l : List HoldReq} (h : f.appended g l) : g.holds = f.holds ++ l := congrArg FieldSt.holds h

theorem FieldSt.appended.cutHeld {f g : FieldSt} {l : List HoldReq} (h : f.appended g l) : g.cutHeld = f.cutHeld := by
  unfold FieldSt.appended at h
  rw [h]

theorem FieldSt.appended.res {f g : FieldSt} {l : List HoldReq} (h : f.appended g l) : g.res = f.res := by
  unfold FieldSt.appended at h
  rw [h]

theorem addHold_appended (s : State) (e : Option Nat) (i : Nat) (r : W64) : s.field.appended (addHold s e i r).field [⟨e, i, r⟩] := rfl

/-- The entries of a group, in entry order. -/
theorem foldl_holds_appended (r : W64) (sel : Nat → SeqCfg → Bool) (cfg : Nat → SeqCfg) (l : List Nat) (s : State)
    (hc : ∀ e, seqCfg s e = cfg e) :
    s.field.appended (l.foldl (fun s e => let c := seqCfg s e; if sel e c then addHold s (some e) c.input r else s) s).field
      ((l.filter (fun e => sel e (cfg e))).map (fun e => ⟨some e, (cfg e).input, r⟩)) := by
  induction l generalizing s with
  | nil => exact .refl _
  | cons e l ih =>
    simp only [List.foldl_cons, hc]
    by_cases h : sel e (cfg e) = true
    · rw [if_pos h, List.filter_cons_of_pos (by exact h), List.map_cons, ← List.singleton_append]
      exact .trans (addHold_appended ..) (ih _ hc)
    · rw [if_neg h, List.filter_cons_of_neg (by exact h)]
      exact ih s hc

theorem holdEntries_appended (s : State) (r : W64) (sel : Nat → SeqCfg → Bool) : s.field.appended (holdEntries s r sel).field
    (((List.range 16).filter (fun e => sel e (seqCfg s e))).map (fun e => ⟨some e, (seqCfg s e).input, r⟩)) :=
  foldl_holds_appended r sel (seqCfg s) _ s (fun _ => rfl)

/-- A hold may be appended by what an event moves on. -/
def FieldSt.mayAppend (f g : FieldSt) : Prop := ∃ l, f.appended g l

theorem FieldSt.mayAppend.trans {f g k : FieldSt} : f.mayAppend g → g.mayAppend k → f.mayAppend k
  | ⟨l, h1⟩, ⟨m, h2⟩ => ⟨l ++ m, h1.trans h2⟩

theorem FieldSt.mayAppend.refl (f : FieldSt) : f.mayAppend f := ⟨[], .refl f⟩

theorem seqConsume_mayAppend (s : State) (t : Nat) : s.field.mayAppend (seqConsume s t).field := by
  unfold seqConsume
  dsimp only
  split_ifs
  · exact .refl _
  · exact ⟨_, addHold_appended ..⟩
  · exact ⟨_, addHold_appended ..⟩
  · exact .refl _

theorem pulse_mayAppend (s : State) (p : Nat) (v : W32) : s.field.mayAppend (pulse s p v).field := by
  unfold pulse
  split_ifs
  · exact .refl _
  · refine foldl_keeps (P := fun u => s.field.mayAppend u.field) (fun u t hu => ?_) _ (.refl _)
    dsimp only
    split_ifs
    · exact hu.trans (seqConsume_mayAppend ..)
    · exact hu

/-! ### A conversion's result -/

/-- The state after the oldest hold is off the queue and its code has gone to its input. -/
def tookHold (s : State) (h : HoldReq) (code : W16) : State :=
  regulate (powerConverter (s.modField (fun f => { f with holds := f.holds.drop 1, codes := mset f.codes h.input code }))) h.input

theorem tookHold_field (s : State) (h : HoldReq) (code : W16) : (tookHold s h code).field = { s.field with
    holds := s.field.holds.drop 1, codes := mset s.field.codes h.input code, awake := (tookHold s h code).field.awake,
    ls := (tookHold s h code).field.ls } := by
  unfold tookHold regulate
  dsimp only
  split_ifs <;> rfl

theorem tookHold_frame (s : State) (h : HoldReq) (code : W16) : s.onlyChanges [.field] (tookHold s h code) :=
  .andThen (regulate_frame ..) rfl (.andThen (powerConverter_frame ..) rfl (.andThen (State.modField_frame ..) rfl (.refl ..)))

/-- An entry's result, before a pending event may move its entry on. -/
def entryStored (s : State) (e : Nat) (ns : W32) (code : W16) : State :=
  let c := seqCfg s e
  let s := s.modField (fun f => { f with codes := mset f.codes (32 + e) code, res := lupd f.res e (fun r => { r with ns := ns }) })
  if c.toReg || c.toDma then s.modField (fun f => { f with res := lupd f.res e (fun r => r.write code) }) else s

theorem entryStored_field (s : State) (e : Nat) (ns : W32) (code : W16) : (entryStored s e ns code).field =
    { s.field with codes := mset s.field.codes (32 + e) code, res := (entryStored s e ns code).field.res } := by
  unfold entryStored
  dsimp only
  split_ifs <;> rfl

theorem storeConversion_none {s : State} {h : HoldReq} (code : W16) (he : h.entry = none) :
    storeConversion s h code = (tookHold s h code).modField (fun f => { f with injCode := code, injDone := true }) := by
  unfold storeConversion tookHold
  rw [he]

theorem storeConversion_some {s : State} {h : HoldReq} {e : Nat} (code : W16) (he : h.entry = some e) :
    ∃ ns, storeConversion s h code = seqConsume (if (seqCfg (tookHold s h code) e).toDma
      then pulse (entryStored (tookHold s h code) e ns code) e ns else entryStored (tookHold s h code) e ns code) (16 + e) := by
  refine ⟨ns32Of (stampTime (tookHold s h code) h.hold), ?_⟩
  unfold storeConversion
  rw [he]
  rfl

/-- What the conversion of an entry leaves: its code at its input and at its entry, and the holds that waited, with what an event added. -/
theorem storeConversion_entry {s : State} {h : HoldReq} {e : Nat} (code : W16) (he : h.entry = some e) :
    ∃ l a ls res, (storeConversion s h code).field = { s.field with
      holds := s.field.holds.drop 1 ++ l, codes := mset (mset s.field.codes h.input code) (32 + e) code, awake := a, ls := ls,
      res := res } := by
  obtain ⟨ns, hs⟩ := storeConversion_some (s := s) code he
  have hm : (entryStored (tookHold s h code) e ns code).field.mayAppend (storeConversion s h code).field := by
    rw [hs]
    refine .trans ?_ (seqConsume_mayAppend ..)
    split_ifs
    · exact pulse_mayAppend ..
    · exact .refl _
  obtain ⟨l, hl⟩ := hm
  rw [hl, entryStored_field, tookHold_field]
  exact ⟨l, _, _, _, rfl⟩

theorem execConversionDone_of_hold {s : State} {h : HoldReq} {rest : List HoldReq} (code : W16) (r : W64) (hm : s.ctl.mode ≠ .silent)
    (hh : s.field.holds = h :: rest) : ∃ w : W64, Res.ends (fun t => t.field = (storeConversion s { h with hold := w } code).field ∧
      (h.entry = none → t = storeConversion s { h with hold := w } code)) (execConversionDone code s r) := by
  refine ⟨stampNear h.hold r, ?_⟩
  have hc : (!clocksRun s) = false := by simp [clocksRun, hm]
  unfold execConversionDone
  rw [hc, hh]
  simp only [Bool.false_eq_true, if_false]
  cases he : h.entry with
  | none => exact Res.ends_next ⟨rfl, fun _ => rfl⟩
  | some e =>
    simp only [reduceCtorEq, false_implies, and_true]
    refine iteInduction (fun _ => ?_) (fun _ => Res.ends_next rfl)
    refine iteInduction (fun _ => Res.ends_next ?_) (fun _ => Res.ends_next ?_)
    · exact (State.onlyChanges.andThen (mjSend_frame ..) rfl (.andThen (logItems_frame ..) rfl (.andThen (converterTap_frame ..) rfl
        (.refl _ [.out, .pair, .chans])))).same .field (by decide)
    · exact (State.onlyChanges.andThen (logItems_frame ..) rfl (.andThen (converterTap_frame ..) rfl
        (.refl _ [.out, .pair, .chans]))).same .field (by decide)

/-! ### The registers of the converter -/

theorem peripheralRead_result (s : State) {n : Nat} (held : W32) (hn : n < 16) : peripheralRead s (0x40050040 + 4 * n) held =
    (let r := s.field.res.getD n SeqRes.reset
     (BitVec.ofNat 32 (r.code.toNat + 65536 * b2n r.isNew + 131072 * b2n r.lost), s.modField (fun f => { f with
       res := lupd f.res n (fun r => { r with isNew := r.isNew && held.getLsbD 16, lost := r.lost && held.getLsbD 17 }) }))) := by
  have hb : (0x40050040 + 4 * n) / 4096 = 0x40050 := by omega
  have ho : (0x40050040 + 4 * n) % 4096 = 0x40 + 4 * n := by omega
  have hi : (0x40 + 4 * n - 0x40) / 4 = n := by omega
  have h0 : ¬ 0x40 + 4 * n = 0 := by omega
  have h1 : ¬ 0x40 + 4 * n = 0x0C := by omega
  have h2 : ¬ 0x40 + 4 * n = 0x10 := by omega
  have h3 : 0x40 ≤ 0x40 + 4 * n ∧ 0x40 + 4 * n < 0x80 := by omega
  unfold peripheralRead
  simp only [hb, ho, if_true, if_neg h0, if_neg h1, if_neg h2, if_pos h3, hi]

/-! ### The tasks in the slack -/

theorem slackTask_of_due {s : State} {w : Option W64} {d : Nat} (hc : clocksRun s = true) (hm : s.ctl.mode ≠ .cold)
    (hp : s.cyc.phase = .slack) (hd : w = none ∨ past s w d = true) : slackTask s w d = true := by
  unfold slackTask
  rw [hc, hp]
  rcases hd with rfl | hd
  · simp [hm]
  · simp [hm, hd]

theorem slackTask_of_recent {s : State} {w : W64} {d : Nat} (h : (s.time.raw - w).toNat < d) : slackTask s (some w) d = false := by
  have hp : past s (some w) d = false := decide_eq_false (Nat.not_le.mpr h)
  simp [slackTask, hp]

/-! ### The hold before a cutoff -/

theorem mget_foldl_mset {m : Nat} (l : List Nat) (h : List (Nat × Nat)) {k : Nat} (hk : k ∈ l ∨ mget h k = some m) :
    mget (l.foldl (fun h t => mset h t m) h) k = some m := by
  induction l generalizing h with
  | nil => exact hk.resolve_left (List.not_mem_nil)
  | cons t l ih =>
    refine ih _ ?_
    rw [mget_mset]
    split_ifs with he
    · exact .inr rfl
    · exact hk.imp (fun hm => (List.mem_cons.mp hm).resolve_left he) id

/-- The group of a trigger holds; an injection that would run into it waits behind it (R375). -/
theorem holdGroup_holds (s : State) (sel : Nat → SeqCfg → Bool) :
    (holdGroup s sel).field.holds = (let es := (List.range 16).filter (fun e => sel e (seqCfg s e))
      if es.length = 0 then s.field.holds else
        ((s.field.holds.zipIdx.filter (fun x => !runsInto s.time.raw x)).map (·.1)) ++
          es.map (fun e => ⟨some e, (seqCfg s e).input, s.time.raw⟩) ++
          (s.field.holds.zipIdx.filter (runsInto s.time.raw)).map
            (fun x => { x.1 with hold := s.time.raw + BitVec.ofNat 64 (16000 * es.length) })) := by
  unfold holdGroup
  dsimp only
  split_ifs
  · rfl
  · rw [State.modField_field]
    dsimp only
    congr 1
    exact (holdEntries_appended ..).holds

theorem seqCfg_modField (s : State) (f : FieldSt → FieldSt) (e : Nat) : seqCfg (s.modField f) e = seqCfg s e := rfl

theorem holdGroup_modField_holds {g : FieldSt → FieldSt} (hg : ∀ f, (g f).holds = f.holds) (s : State) (sel : Nat → SeqCfg → Bool) :
    (holdGroup (s.modField g) sel).field.holds = (holdGroup s sel).field.holds := by
  simp only [holdGroup_holds, seqCfg_modField, State.modField_field, State.modField_time, hg]

theorem holdGroup_cutHeld (s : State) (sel : Nat → SeqCfg → Bool) : (holdGroup s sel).field.cutHeld = s.field.cutHeld := by
  unfold holdGroup
  dsimp only
  split_ifs
  · rfl
  · rw [State.modField_field]
    exact (holdEntries_appended ..).cutHeld

theorem runsInto_eq (r : W64) : runsInto r =
    fun x => x.1.entry.isNone && (decide (0 < x.2) || decide ((r - x.1.hold + 16000000).toNat < 16016000)) := by
  funext x
  simp only [runsInto, rUs, Nat.reduceMul]
  rfl

/-- The tasks whose cutoff at `m` holds now. -/
def cutoffTasks (s : State) (m : Nat) : List Nat := (List.range 4).filter (fun t => cutoffNear s t == some m)

theorem contains_cutoffTasks (s : State) (m k : Nat) : (cutoffTasks s m).contains k = (decide (k < 4) && cutoffNear s k == some m) := by
  rw [Bool.eq_iff_iff]
  simp [cutoffTasks]

/-- The state once the entries of the tasks whose cutoff is `m` hold. -/
def cutoffHeld (s : State) (m : Nat) : State :=
  holdGroup (s.modField (fun f => { f with cutHeld := (cutoffTasks s m).foldl (fun h t => mset h t m) f.cutHeld }))
    (fun _ c => c.trigger == 3 && c.boundTo == 2 && (cutoffTasks s m).contains (descOf s.img c.number).task)

theorem execCutoffConverterHold_of_near {s : State} {k m : Nat} (hm : s.ctl.mode ≠ .silent) (hn : cutoffNear s k = some m) :
    execCutoffConverterHold k s = .next (cutoffHeld s m) := by
  have hc : (!clocksRun s) = false := by simp [clocksRun, hm]
  unfold execCutoffConverterHold
  rw [hc, hn]
  rfl

theorem mget_cutoffHeld {s : State} {k m : Nat} (hk : k < 4) (hn : cutoffNear s k = some m) :
    mget (cutoffHeld s m).field.cutHeld k = some m := by
  have hmem : k ∈ cutoffTasks s m := List.mem_filter.mpr ⟨List.mem_range.mpr hk, by rw [hn]; exact beq_self_eq_true _⟩
  rw [cutoffHeld, holdGroup_cutHeld, State.modField_field]
  simp only [mget_foldl_mset _ _ (.inl hmem)]

/-- Settles O23: holds are appended in entry order, a result goes where its hold says, and the tasks in the slack keep their periods. -/
theorem localConverter : Obligations.LocalConverter := by
  unfold Obligations.LocalConverter
  refine ⟨fun c v s hw ha => ?_, fun c v s hw ha hv => ?_, fun code r h rest s hm hh he => ?_, fun code r e h rest s hm hh he hi => ?_,
    fun m n held s ha hn hl => ?_, fun m held s ha => ?_, fun o g s hc hm hp hd => ?_, fun o g w s hw hp => ?_, fun uv s hc hm hp hd => ?_,
    fun uv w s hw hp => ?_, fun k m s hm hk hn => ?_⟩
  · refine ⟨_, ownerPort_of_access hw ha _, ?_⟩
    have h := holdEntries_appended s (holdNow s) (fun e c => v.getLsbD e && c.trigger == 4)
    exact ⟨h.holds, h.res⟩
  · have h24 : ¬ 24 ≤ v.toNat % 32 := Nat.not_le.mpr hv
    simp only [exec, execAdcInjectWrite]
    rw [ownerPort_of_access hw ha, if_neg h24]
    cases hi : injPending s
    · refine ⟨_, rfl, fun h => absurd hi (by rw [injPending, h]; decide), fun _ => ⟨rfl, rfl, rfl, rfl⟩⟩
    · refine ⟨_, rfl, fun _ => ⟨rfl, rfl, rfl⟩, fun h => absurd hi (by rw [injPending, h]; decide)⟩
  · obtain ⟨w, t, ht, -, heq⟩ := execConversionDone_of_hold code r hm hh
    refine ⟨t, ht, ?_⟩
    have hout : (tookHold s { h with hold := w } code).out = s.out := (tookHold_frame s { h with hold := w } code).same .out (by decide)
    rw [heq he, storeConversion_none code (by exact he), State.modField_field, tookHold_field, hh]
    simp only [State.modField_out, hout, List.drop_succ_cons, List.drop_zero, mget_mset, if_true, and_self]
  · obtain ⟨w, t, ht, hst, -⟩ := execConversionDone_of_hold code r hm hh
    obtain ⟨l, a, ls, res, hf⟩ := storeConversion_entry (s := s) (h := { h with hold := w }) code he
    refine ⟨t, ht, ?_⟩
    have hne : h.input ≠ 32 + e := by omega
    rw [hst, hf, hh]
    simp only [List.drop_succ_cons, List.drop_zero, List.isPrefixOf_iff_prefix, List.prefix_append, mget_mset, if_true, if_neg hne,
      and_self]
  · have hr : ¬ 17 ≤ n := by omega
    have hr' : n ≠ 16 := by omega
    simp only [exec, execAdcResultRead, if_neg hr, if_neg hr']
    rw [port_of_access ha, peripheralRead_result s held hn]
    refine ⟨_, rfl, rfl, ?_⟩
    exact getD_lupd_same _ _ _ _ hl
  · simp only [exec, execAdcResultRead, if_true, if_neg (by decide : ¬ 17 ≤ 16)]
    rw [port_of_access ha]
    exact ⟨_, rfl, rfl, rfl⟩
  · have h : slackTask s s.field.calAt (rSec (setting s 0x1900 1 60)) = true := slackTask_of_due hc hm hp hd
    simp only [exec, execConverterCalibration]
    rw [h]
    rfl
  · have h : slackTask s s.field.calAt (rSec (setting s 0x1900 1 60)) = false := by
      rw [hw]
      exact slackTask_of_recent hp
    simp only [exec, execConverterCalibration]
    rw [h]
    rfl
  · have h : slackTask s s.field.refAt (rSec 1) = true := slackTask_of_due hc hm hp hd
    simp only [exec, execReferenceCheck]
    rw [h]
    by_cases hr : 2497500 ≤ uv ∧ uv ≤ 2502500
    · simp only [hr, and_self, Bool.not_true, Bool.false_eq_true, if_false, if_true]
      exact ⟨_, rfl, rfl, rfl, rfl, rfl⟩
    · simp only [hr, Bool.not_true, Bool.false_eq_true, if_false, decide_false, Bool.not_false]
      refine ⟨_, rfl, ?_⟩
      rw [logField_field]
      exact ⟨rfl, rfl, rfl, rfl⟩
  · have h : slackTask s s.field.refAt (rSec 1) = false := by
      rw [hw]
      exact slackTask_of_recent hp
    simp only [exec, execReferenceCheck]
    rw [h]
    rfl
  · simp only [exec]
    rw [execCutoffConverterHold_of_near hm hn]
    refine ⟨_, rfl, mget_cutoffHeld hk hn, ?_⟩
    rw [cutoffHeld, holdGroup_modField_holds (by intro; rfl), holdGroup_holds]
    simp only [contains_cutoffTasks, ← Bool.and_assoc, runsInto_eq]

end Sys2Proof.Machine
end

section
/-!
SUPPORT. Native calls, and the writes of native code to the point window and the constant window.
-/

namespace Sys2Proof.Machine

/-! ### What the program's execution leaves of a core pair -/

/-- Two states of a core pair that differ in its interrupt unit and in the calls posted to it at most. -/
def CpSt.sameButCalls (a b : CpSt) : Prop := b = { a with intc := b.intc, posted := b.posted }

/-- Both core pairs keep what they run. -/
structure State.sameContexts (s t : State) : Prop where
  core : ∀ c, (cpOf s c).sameButCalls (cpOf t c)

theorem CpSt.sameButCalls.trans {a b c : CpSt} (h1 : a.sameButCalls b) (h2 : b.sameButCalls c) : a.sameButCalls c := by
  unfold CpSt.sameButCalls at *
  rw [h2, h1]

theorem State.sameContexts.refl (s : State) : s.sameContexts s := ⟨fun _ => rfl⟩

theorem State.sameContexts.trans {s t u : State} (h1 : s.sameContexts t) (h2 : t.sameContexts u) : s.sameContexts u :=
  ⟨fun c => (h1.core c).trans (h2.core c)⟩

theorem State.sameContexts.of_eq {s t : State} (h0 : t.n0 = s.n0) (h1 : t.n1 = s.n1) : s.sameContexts t := by
  refine ⟨fun c => ?_⟩
  cases c
  · change s.n0.sameButCalls t.n0
    rw [h0]
    rfl
  · change s.n1.sameButCalls t.n1
    rw [h1]
    rfl

theorem modCyc_sameContexts (s : State) (f : CycSt → CycSt) : s.sameContexts (s.modCyc f) := .of_eq rfl rfl

theorem discardWrite_sameContexts (s : State) : s.sameContexts (discardWrite s) := by
  refine ⟨fun c => ?_⟩
  cases c <;> rfl

theorem produce_sameContexts (s : State) (k p : Nat) (w : TWord) : s.sameContexts (produce s k p w) :=
  iteInduction (fun _ => .of_eq rfl rfl) (fun _ => discardWrite_sameContexts s)

theorem modCp_posted_sameContexts (s : State) (c : Cp) (f : List CallRec → List CallRec) :
    s.sameContexts (modCp s c (fun p => { p with posted := f p.posted })) := by
  refine ⟨fun d => ?_⟩
  cases c <;> cases d <;> rfl

theorem raiseIrq_sameContexts (s : State) (n : Nat) : s.sameContexts (raiseIrq s n) := by
  refine ⟨fun c => ?_⟩
  cases c <;> rfl

theorem postCall_sameContexts (s : State) (t : Nat) (b : BlockInst) : s.sameContexts (postCall s t b) := by
  unfold postCall
  refine iteInduction (fun _ => produce_sameContexts ..) (fun _ => ?_)
  exact .trans (modCp_posted_sameContexts s _ (· ++ [callRecord s t b])) (.trans (raiseIrq_sameContexts ..) (.of_eq rfl rfl))

theorem foldl_sameContexts {α : Type} {f : State → α → State} (hf : ∀ (s : State) (x : α), s.sameContexts (f s x)) (l : List α) (s : State) :
    s.sameContexts (l.foldl f s) :=
  foldl_keeps (P := s.sameContexts) (fun _ _ h => h.trans (hf ..)) l (.refl s)

theorem evalRank_sameContexts (s : State) (t : Nat) (r : List BlockInst) : s.sameContexts (evalRank s t r) := by
  unfold evalRank
  exact .trans (foldl_sameContexts (fun _ _ => postCall_sameContexts ..) _ s)
    (.trans (foldl_sameContexts (fun _ _ => produce_sameContexts ..) _ _) (.of_eq rfl rfl))

theorem runRanks_sameContexts (t : Nat) (l : List (List BlockInst)) (s : State) : s.sameContexts (runRanks t l s) := by
  induction l generalizing s with
  | nil => exact .refl s
  | cons r l ih =>
    unfold runRanks
    exact iteInduction (fun _ => .trans (evalRank_sameContexts ..) (ih _)) (fun _ => evalRank_sameContexts ..)

theorem runTasks_sameContexts (l : List Nat) (s : State) : s.sameContexts (runTasks l s) := by
  induction l generalizing s with
  | nil => exact .of_eq rfl rfl
  | cons t l ih =>
    unfold runTasks
    refine iteInduction (fun _ => ?_) (fun _ => runRanks_sameContexts ..)
    exact .trans (runRanks_sameContexts t (ranksLeft s t) s) (.trans (modCyc_sameContexts ..) (ih _))

theorem runOn_sameContexts (s : State) : s.sameContexts (runOn s) :=
  iteInduction (fun _ => runTasks_sameContexts ..) (fun _ => .refl s)

theorem endCall_sameContexts (s : State) (c : Cp) (i : Nat) (w : State → W128 → TWord) : s.sameContexts (endCall s c i w) := by
  unfold endCall
  dsimp only
  cases instOf (pkgD s [] (·.blocks)) i with
  | none => exact .trans (modCyc_sameContexts ..) (runOn_sameContexts _)
  | some b => exact .trans (produce_sameContexts ..) (.trans (modCyc_sameContexts ..) (runOn_sameContexts _))

/-! ### O18, native calls -/

theorem cpOf_noteRetired (s : State) (c : Cp) (n : Nat) : cpOf (noteRetired s c n) c = { cpOf s c with retired := n } := by
  cases c <;> rfl

theorem cpOf_modCp_same (s : State) (c : Cp) (f : CpSt → CpSt) : cpOf (modCp s c f) c = f (cpOf s c) := by
  cases c <;> rfl

/-- A call that ends with its count of instructions noted restores what was saved. -/
theorem endCall_resumes (s : State) (c : Cp) (n i : Nat) (w : State → W128 → TWord) :
    CpSt.sameButCalls (CpSt.resume { cpOf s c with retired := n }) (cpOf (endCall (modCp (noteRetired s c n) c CpSt.resume) c i w) c) := by
  have h := (endCall_sameContexts (modCp (noteRetired s c n) c CpSt.resume) c i w).core c
  rwa [cpOf_modCp_same, cpOf_noteRetired] at h

/-- A call that is abandoned restores what was saved. -/
theorem abandonCall_resumes {s : State} {c : Cp} {k : CallRec} (h : (cpOf s c).call = some k) :
    (cpOf s c).resume.sameButCalls (cpOf (abandonCall s c) c) := by
  unfold abandonCall
  rw [h]
  have := (endCall_sameContexts (modCp s c CpSt.resume) c k.inst abandonedWord).core c
  rwa [cpOf_modCp_same] at this

theorem clocksRun_of_ne {s : State} (h : s.ctl.mode ≠ .silent) : clocksRun s = true := by
  simp [clocksRun, h]

/-- Settles O18: a call saves the context, and its end restores it, whatever the program goes on to run. -/
theorem nativeCalls : Obligations.NativeCalls := by
  unfold Obligations.NativeCalls
  refine ⟨fun c k rest s hr hc hp => ?_, fun c v n k s ha hc hn => ?_, fun c n k s hm hc hn => ?_, fun c k s hm hc => ?_, fun c v s ha => ?_⟩
  · simp only [exec, execNcallTrap]
    rw [hp]
    simp [hc, hr]
  · simp only [exec, execCycRettWrite]
    rw [port_of_access ha, hc]
    dsimp only
    rw [if_neg (Nat.not_lt.mpr hn)]
    refine ⟨_, rfl, ?_⟩
    rw [endCall_resumes]
    exact ⟨rfl, rfl, rfl, rfl, rfl, rfl, rfl, rfl, rfl, rfl⟩
  · have hk : (cpOf (noteRetired s c n) c).call = some k := by rw [cpOf_noteRetired]; exact hc
    simp only [exec, execNcallAbandon]
    rw [clocksRun_of_ne hm, hc]
    simp only [Bool.not_true, Bool.false_eq_true, if_false, if_pos hn]
    have h := abandonCall_resumes hk
    rw [cpOf_noteRetired] at h
    exact ⟨_, rfl, by rw [h]; exact ⟨rfl, rfl, rfl, rfl, rfl⟩⟩
  · simp only [exec, execNcallTimeBudgetElapsed]
    rw [clocksRun_of_ne hm, hc]
    cases hh : (cpOf s c).halted
    · exact ⟨s, rfl, fun h => (Bool.false_ne_true h).elim, fun _ => rfl⟩
    · refine ⟨_, rfl, fun _ => ?_, fun h => (Bool.false_ne_true h.symm).elim⟩
      rw [abandonCall_resumes hc]
      exact ⟨rfl, rfl, hh⟩
  · simp only [exec, execCycVecWrite]
    rw [port_of_access ha]
    cases (cpOf s c).call <;> rfl

/-! ### O19, the point window and the constant window -/

theorem find?_forcePut (l : List Force) (f : Force) (q : Nat) :
    (forcePut l f).find? (fun x => x.point == q) = if f.point = q then some f else l.find? (fun x => x.point == q) := by
  induction l with
  | nil => simp [forcePut]
  | cons x l ih =>
    unfold forcePut
    by_cases hq : f.point = q
    · rw [if_pos hq] at ih ⊢
      split_ifs with hlt heq
      · rw [List.find?_cons_of_pos (by simpa using hq)]
      · rw [List.find?_cons_of_pos (by simpa using hq)]
      · rw [List.find?_cons_of_neg (by simpa using fun h => heq (hq.trans h.symm)), ih]
    · rw [if_neg hq] at ih ⊢
      split_ifs with hlt heq
      · rw [List.find?_cons_of_neg (by simpa using hq)]
      · rw [List.find?_cons_of_neg (by simpa using hq), List.find?_cons_of_neg (by simpa [← heq] using hq)]
      · rw [List.find?_cons, List.find?_cons, ih]

theorem store_consts (i : Img) (p : Nat) (w : TWord) : (i.store p w).consts = i.consts ∧ (i.store p w).descs = i.descs := by
  unfold Img.store
  dsimp only
  cases forceOn i p <;> exact ⟨rfl, rfl⟩

theorem forceOn_point {i : Img} {p : Nat} {f : Force} (h : forceOn i p = some f) : f.point = p := by
  simpa using List.find?_some h

theorem ownWord_store_same {i : Img} {p : Nat} (w : TWord) (hu : (descOf i p).source ≠ srcUnused) :
    ownWord (i.store p w) p = normWord (descOf i p).typ w := by
  unfold Img.store
  dsimp only
  cases h : forceOn i p with
  | none =>
    have hf : forceOn { i with points := mset i.points p (normWord (descOf i p).typ w) } p = none := h
    have hd : (descOf { i with points := mset i.points p (normWord (descOf i p).typ w) } p).source ≠ srcUnused := hu
    simp only [ownWord, hf, pointWord, if_neg hd, mgetD, mget_mset, if_true, Option.getD_some]
  | some f =>
    have hf : forceOn { i with forces := forcePut i.forces { f with shadow := normWord (descOf i p).typ w } } p =
        some { f with shadow := normWord (descOf i p).typ w } := by
      simp only [forceOn, find?_forcePut, forceOn_point h, if_true]
    simp only [ownWord, hf]

theorem pointWord_store_forced {i : Img} {p : Nat} {f : Force} (w : TWord) (h : forceOn i p = some f) (q : Nat) :
    pointWord (i.store p w) q = pointWord i q := by
  unfold Img.store
  rw [h]
  rfl

theorem pointWord_store_other (i : Img) {p q : Nat} (w : TWord) (hq : q ≠ p) : pointWord (i.store p w) q = pointWord i q := by
  unfold Img.store
  dsimp only
  cases forceOn i p with
  | none =>
    simp only [pointWord, descOf, mgetD, mget_mset, if_neg hq]
    rfl
  | some f => rfl

theorem ownWord_store_other (i : Img) {p q : Nat} (w : TWord) (hq : q ≠ p) : ownWord (i.store p w) q = ownWord i q := by
  have hf : forceOn (i.store p w) q = forceOn i q := by
    unfold Img.store
    dsimp only
    cases h : forceOn i p with
    | none => rfl
    | some f => simp only [forceOn, find?_forcePut, forceOn_point h, if_neg (Ne.symm hq)]
  simp only [ownWord, hf, pointWord_store_other i w hq]

theorem discardWrite_effect (s : State) : (discardWrite s).img = s.img ∧ (discardWrite s).integ.discards = s.integ.discards.inc ∧
    (discardWrite s).n0.intc = s.n0.intc.edge 114 ∧ (discardWrite s).n1.intc = s.n1.intc.edge 114 := ⟨rfl, rfl, rfl, rfl⟩

theorem source_of_writerOk {s : State} {c : Cp} {p : Nat} (h : writerOk s c p = true) : (descOf s.img p).source = srcNative := by
  unfold writerOk at h
  split at h
  · cases h
  · simp only [Bool.and_eq_true, beq_iff_eq] at h
    exact h.1

/-- Settles O19: the staging register takes the value, the writer's store changes its own point, and any other write is discarded. -/
theorem nativeWritesOfPoints : Obligations.NativeWritesOfPoints := by
  unfold Obligations.NativeWritesOfPoints
  refine ⟨fun c p v s ha => ?_, fun c p v s ha hw => ?_, fun c p v s ha hw => ?_, fun c k v s hr => ?_⟩
  · simp only [exec, execPointStageWrite]
    rw [port_of_access ha]
  · simp only [exec, execPointCommitWrite]
    rw [port_of_access ha, if_pos hw]
    have hu : (descOf s.img p).source ≠ srcUnused := by rw [source_of_writerOk hw]; decide
    obtain ⟨hconst, hdesc⟩ := store_consts s.img p ⟨v.truncate 8 ||| tIf (inTest s) tTST, (cpOf s c).staging⟩
    exact ⟨_, rfl, rfl, ownWord_store_same _ hu, fun f hf => pointWord_store_forced _ hf p, hconst, hdesc,
      fun q hq => ⟨pointWord_store_other _ _ hq, ownWord_store_other _ _ hq⟩⟩
  · simp only [exec, execPointCommitWrite]
    rw [port_of_access ha, if_neg (by rw [hw]; decide)]
    exact ⟨_, rfl, discardWrite_effect s⟩
  · simp only [exec, execConstantWindowWrite, hr]
    exact ⟨_, rfl, discardWrite_effect s⟩

end Sys2Proof.Machine
end

section
/-!
SUPPORT. Statements of the pair that a state in a corner refutes: each refutation gives the state and what the model makes of it.
-/

namespace Sys2Proof.Machine

open Sys2Proof.Tests

/-- A property that the model can decide holds of what a step leaves. -/
def leaves (p : State → Bool) : Res → Bool
  | .next t => p t
  | _ => false

/-! ### O26: the measurement that a rising link begins -/

/-- A side in TWIN whose link is down although the partner's HELLO is here, before the tenth delay in a row that is too long. -/
def delayedTwin : State := ((pairSide .twin).modBoot (fun b => { b with settled := true })).modPair (fun p => { p with
  lane0 := true, hello := some default, delayReq := some 0, overDelay := 9 })

theorem delayedTwin_hears : hear delayedTwin default = ((hear delayedTwin default).1, true) ∧
    (hear delayedTwin default).1.pair.delayReq = some 0 :=
  ⟨Prod.ext rfl (by decide +kernel), by decide +kernel⟩

theorem delayedTwin_measures :
    leaves (·.pair.delayReq.isSome) (exec (.miojoDelay default true 0 0) delayedTwin) = true := by decide +kernel

/-- Refutes O26: the response that ends a tenth delay that is too long takes a side in TWIN to CATCHUP, whose HELLO brings a link
that was down up and so sends the next DELAY request. -/
theorem not_lanesLinkAndCopies : ¬ Obligations.LanesLinkAndCopies := by
  unfold Obligations.LanesLinkAndCopies
  rintro ⟨-, -, -, -, -, -, -, -, -, -, h, -⟩
  obtain ⟨t, ht, hd, -⟩ := h default 0 0 0 delayedTwin _ delayedTwin_hears.1 delayedTwin_hears.2
  have ha := delayedTwin_measures
  rw [ht, leaves, hd] at ha
  cases ha

/-! ### O17: a stop that waits for the release -/

/-- A side in TWIN in the output phase, 25 µs and more after the end of execution, whose partner's OUTPUT differs, while a stop waits
for the release. -/
def stoppingTwin : State := (((pairSide .twin).modPair (fun p => { p with link := true, lane0 := true, pMode := 7 })).modCyc (fun c => { c with
  phase := .output, partnerOut := some (c.cutTick, 1, 1) })).modCtl (fun c => { c with stopPending := some 0x000B })

theorem stoppingTwin_leaves : leaves (fun t => t.ctl.mode != .catchup) (exec .digestTimeout stoppingTwin) = true := by decide +kernel

/-- Refutes O17: where a stop waits for the release, the side in TWIN that leaves on differing digests ends in STOP. -/
theorem not_digestsDecideTheRelease : ¬ Obligations.DigestsDecideTheRelease := by
  unfold Obligations.DigestsDecideTheRelease
  rintro ⟨-, h, -⟩
  obtain ⟨t, ht, -, -, h⟩ := h stoppingTwin (by decide +kernel) (by decide +kernel) (by decide +kernel)
  obtain ⟨hm, -⟩ := h (by decide +kernel) (by decide +kernel) (by decide +kernel) (by decide +kernel) (by decide +kernel)
  have hl := stoppingTwin_leaves
  rw [ht, leaves, hm] at hl
  cases hl

end Sys2Proof.Machine
end

section
/-!
SUPPORT. The log queue, what a reset leaves, and the commands of the supply, of RST_N and of WIPE_N.
-/

namespace Sys2Proof.Machine

/-! ### The log queue -/

/-- The oldest log record that waits, by its type and body. -/
def State.oldestLog (s : State) : Option (Nat × Bytes) := s.log.queue.head?.map (fun r => (r.typ, r.body))

theorem queueLog_queue (s : State) (r : LogReq) : ∃ l, (queueLog s r).log.queue = s.log.queue ++ l ∧
    (s.log.queue = [] → l = [r]) := by
  unfold queueLog
  split_ifs with h
  · exact ⟨[], (List.append_nil _).symm, fun he => by simp [he] at h⟩
  · exact ⟨[r], rfl, fun _ => rfl⟩

theorem queueLog_power (s : State) (r : LogReq) : (queueLog s r).log.power = s.log.power := by
  unfold queueLog
  split_ifs <;> rfl

theorem logEvent_power (s : State) (t : Nat) (b : Bytes) : (logEvent s t b).log.power = s.log.power := queueLog_power ..

theorem logEvent_oldest_first {s : State} (h : s.log.queue = []) (t : Nat) (b : Bytes) : (logEvent s t b).oldestLog = some (t, b) := by
  obtain ⟨l, hl, he⟩ := queueLog_queue s (mkLog s t (logSeverity t) b none)
  unfold State.oldestLog logEvent
  rw [hl, h, he h]
  rfl

theorem logEvent_oldest {s : State} {x : Nat × Bytes} (h : s.oldestLog = some x) (t : Nat) (b : Bytes) :
    (logEvent s t b).oldestLog = some x := by
  obtain ⟨l, hl, -⟩ := queueLog_queue s (mkLog s t (logSeverity t) b none)
  unfold State.oldestLog logEvent at *
  rw [hl]
  cases hq : s.log.queue with
  | nil => rw [hq] at h; cases h
  | cons r rest =>
    rw [hq] at h
    exact h

/-! ### What a reset leaves -/

/-- The reset with its cause and the mode it left are logged, and each record that it closed. -/
def loggedReset (u : State) (cause : Nat) (old : Mode) (l : List DRec) : State :=
  l.foldl (fun s r => logEvent s ltDist (distBody 2 r.number))
    (logEvent (logEvent u ltReset (resetBody u cause)) ltMode (modeBody old .cold 0))

theorem loggedReset_frame (u : State) (cause : Nat) (old : Mode) (l : List DRec) : u.onlyChanges [.log] (loggedReset u cause old l) :=
  .foldl (fun _ _ => logEvent_frame ..) (.andThen (logEvent_frame ..) rfl (logEvent_frame ..))

theorem loggedReset_oldest {u : State} (h : u.log.queue = []) (cause : Nat) (old : Mode) (l : List DRec) :
    (loggedReset u cause old l).oldestLog = some (ltReset, resetBody (loggedReset u cause old l) cause) := by
  have hb : resetBody (loggedReset u cause old l) cause = resetBody u cause := by
    have : (loggedReset u cause old l).boot = u.boot := (loggedReset_frame ..).same .boot (by decide)
    simp only [resetBody, loaderVersion, fwVersion, this]
  rw [hb]
  exact foldl_keeps (P := fun s => s.oldestLog = some (ltReset, resetBody u cause)) (fun _ _ hs => logEvent_oldest hs _ _) l
    (logEvent_oldest (logEvent_oldest_first h _ _) _ _)

theorem loggedReset_power (u : State) (cause : Nat) (old : Mode) (l : List DRec) : (loggedReset u cause old l).log.power = u.log.power :=
  foldl_keeps (P := fun s => s.log.power = u.log.power) (fun _ _ hs => (logEvent_power ..).trans hs) l
    ((logEvent_power ..).trans (logEvent_power ..))

theorem resetModule_eq (s : State) (cause : Nat) :
    resetModule s cause = loggedReset (settleLife (keepState s)) cause s.ctl.mode s.dist.openRecs := rfl

theorem settleLife_log_of_none {s : State} (h : s.ctl.lifePending = none) : (settleLife s).log = s.log := by
  rw [settleLife_of_none h]

/-- A life-cycle change erases what belongs to the package and to the keys, and keeps the identity (R464). -/
structure State.wiped (s t : State) (l : Life) : Prop where
  life : t.ctl.life = l
  pending : t.ctl.lifePending = none
  roles : t.boot.roles = (s.boot.pendKeys.getD ⟨[], none, none⟩).roles
  a0 : t.boot.a0 = (s.boot.pendKeys.getD ⟨[], none, none⟩).a0
  a1 : t.boot.a1 = (s.boot.pendKeys.getD ⟨[], none, none⟩).a1
  running : t.boot.running = none
  settings : t.dict.settings = []
  sessions : t.dict.sessions = []
  forces : t.img.forces = []
  copies : t.img.copies = []
  identityKey : t.boot.identityKey = if l = .decommissioned then none else s.boot.identityKey

theorem wipeLife_wiped (s : State) (l : Life) : s.wiped (wipeLife s l) l := by
  obtain ⟨u, hu, hs⟩ : ∃ u : State, u.onlyChanges [.out, .log] (wipeLife s l) ∧ s.wiped u l :=
    ⟨_, .foldl (fun _ _ => .andThen (logEvent_frame ..) rfl (.refl ..)) (.andThen (writeLog_frame ..) rfl (.refl ..)),
      ⟨rfl, rfl, rfl, rfl, rfl, rfl, rfl, rfl, rfl, rfl, rfl⟩⟩
  have hc : (wipeLife s l).ctl = u.ctl := hu.same .ctl (by decide)
  have hb : (wipeLife s l).boot = u.boot := hu.same .boot (by decide)
  have hd : (wipeLife s l).dict = u.dict := hu.same .dict (by decide)
  have hi : (wipeLife s l).img = u.img := hu.same .img (by decide)
  exact ⟨hc ▸ hs.life, hc ▸ hs.pending, hb ▸ hs.roles, hb ▸ hs.a0, hb ▸ hs.a1, hb ▸ hs.running, hd ▸ hs.settings, hd ▸ hs.sessions,
    hi ▸ hs.forces, hi ▸ hs.copies, hb ▸ hs.identityKey⟩

theorem settleLife_life (s : State) :
    (settleLife s).ctl.life = s.ctl.lifePending.getD s.ctl.life ∧ (settleLife s).ctl.lifePending = none := by
  unfold settleLife
  cases h : s.ctl.lifePending with
  | none => exact ⟨rfl, h⟩
  | some l => exact ⟨(wipeLife_wiped s l).life, (wipeLife_wiped s l).pending⟩

theorem settleLife_sessions {s : State} (h : s.dict.sessions = []) : (settleLife s).dict.sessions = [] := by
  unfold settleLife
  cases s.ctl.lifePending with
  | none => exact h
  | some l => exact (wipeLife_wiped s l).sessions

/-! ### O10, the supply and the contacts -/

theorem recoverLog_queue (s : State) : (recoverLog s).log.queue = s.log.queue ∧ (recoverLog s).log.power = s.log.power := by
  unfold recoverLog
  dsimp only
  split
  · exact ⟨rfl, rfl⟩
  · split <;> exact ⟨rfl, rfl⟩

theorem countPower_power (s : State) :
    (countPower s).log.power = if s.pins.aonPowered then s.log.power else (Ctr.inc ⟨s.log.power, s.log.powerSat⟩).n := by
  unfold countPower
  split_ifs <;> rfl

/-- The state at POWER_ON before a pending life-cycle change and the logs. -/
def poweredOn (s : State) (x : Straps) : State :=
  recoverLog ((takeStraps (keepState (countPower s)) x).modPins (fun p => { p with pgood := true, aonPowered := true, warnAt := none }))

theorem execPowerOn_of_fed {s : State} (x : Straps) (hp : s.pins.pgood = false) (hf : s.pins.vinA = true ∨ s.pins.vinB = true) :
    execPowerOn x s = .next (loggedReset (settleLife (poweredOn s x)) 0 .cold s.dist.openRecs) := by
  have hn : ¬ (s.pins.pgood || !fed s) = true := by
    rw [hp]
    rcases hf with hf | hf <;> simp [fed, hf]
  exact if_neg hn

theorem poweredOn_frame (s : State) (x : Straps) : (keepState (countPower s)).onlyChanges [.pins, .log] (poweredOn s x) :=
  .andThen (recoverLog_frame ..) rfl (.andThen (State.modPins_frame ..) rfl (.andThen (takeStraps_frame ..) rfl (.refl ..)))

theorem countPower_pins (s : State) : (countPower s).pins = s.pins ∧ (countPower s).ctl = s.ctl :=
  ⟨(countPower_frame ..).same .pins (by decide), (countPower_frame ..).same .ctl (by decide)⟩

theorem powerOn_effect {s : State} (x : Straps) (hp : s.pins.pgood = false) (hf : s.pins.vinA = true ∨ s.pins.vinB = true) :
    Res.ends (fun t =>
      t.pins = { s.pins with pgood := true, aonPowered := true, warnAt := none, sideB := x.sideB, pos := x.pos, strapOpen := x.anyOpen } ∧
      t.ctl.mode = .cold ∧ t.ctl.life = s.ctl.lifePending.getD s.ctl.life ∧ t.ctl.lifePending = none ∧ t.dict.sessions = [] ∧
      t.pair.lane0 = false ∧ t.pair.lane1 = false ∧
      (s.ctl.lifePending = none → t.oldestLog = some (ltReset, resetBody t 0) ∧
        t.log.power = (if s.pins.aonPowered then s.log.power else (Ctr.inc ⟨s.log.power, s.log.powerSat⟩).n))) (execPowerOn x s) := by
  rw [execPowerOn_of_fed x hp hf]
  have hl := loggedReset_frame (settleLife (poweredOn s x)) 0 .cold s.dist.openRecs
  have hs := settleLife_frame (poweredOn s x)
  have hk := poweredOn_frame s x
  obtain ⟨hpins, hctl⟩ := countPower_pins s
  have hc : (poweredOn s x).ctl = (keepState (countPower s)).ctl := hk.same .ctl (by decide)
  have hlife : (poweredOn s x).ctl.lifePending.getD (poweredOn s x).ctl.life = s.ctl.lifePending.getD s.ctl.life ∧
      (poweredOn s x).ctl.lifePending = s.ctl.lifePending := by
    rw [hc, show (keepState (countPower s)).ctl.lifePending = (countPower s).ctl.lifePending from rfl,
      show (keepState (countPower s)).ctl.life = (countPower s).ctl.life from rfl, hctl]
    exact ⟨rfl, rfl⟩
  obtain ⟨hlf, hlp⟩ := settleLife_life (poweredOn s x)
  have htc : (loggedReset (settleLife (poweredOn s x)) 0 .cold s.dist.openRecs).ctl = (settleLife (poweredOn s x)).ctl :=
    hl.same .ctl (by decide)
  have htp : (loggedReset (settleLife (poweredOn s x)) 0 .cold s.dist.openRecs).pair = (keepState (countPower s)).pair :=
    (hl.same .pair (by decide)).trans ((hs.same .pair (by decide)).trans (hk.same .pair (by decide)))
  refine Res.ends_next ⟨?_, ?_, htc ▸ hlf.trans hlife.1, htc ▸ hlp, ?_, htp ▸ rfl, htp ▸ rfl, fun hn => ⟨?_, ?_⟩⟩
  · have hr : (poweredOn s x).pins = _ := (recoverLog_frame _).same .pins (by decide)
    have ht : (loggedReset (settleLife (poweredOn s x)) 0 .cold s.dist.openRecs).pins = (poweredOn s x).pins :=
      (hl.same .pins (by decide)).trans (hs.same .pins (by decide))
    rw [ht, hr, ← hpins]
    rfl
  · have hm : (settleLife (poweredOn s x)).ctl.mode = (poweredOn s x).ctl.mode := hs.mode_eq rfl
    rw [htc, hm, hc]
    rfl
  · have hd : (loggedReset (settleLife (poweredOn s x)) 0 .cold s.dist.openRecs).dict = (settleLife (poweredOn s x)).dict :=
      hl.same .dict (by decide)
    rw [hd]
    refine settleLife_sessions ?_
    have hd2 : (poweredOn s x).dict = (keepState (countPower s)).dict := hk.same .dict (by decide)
    rw [hd2]
    rfl
  · refine loggedReset_oldest ?_ _ _ _
    rw [settleLife_log_of_none (hlife.2.trans hn)]
    exact (recoverLog_queue _).1
  · rw [loggedReset_power, settleLife_log_of_none (hlife.2.trans hn)]
    exact (recoverLog_queue _).2.trans (countPower_power s)

theorem pgoodFall_effect {s : State} {w : W64} (ha : s.pins.vinA = false) (hb : s.pins.vinB = false) (hp : s.pins.pgood = true)
    (hw : s.pins.warnAt = some w) (he : 16000000 ≤ (s.time.raw - w).toNat) :
    execPgoodFall s = .next (((keepState s).modDist (fun d => { d with openRecs := s.dist.openRecs, discarded := Ctr.reset })).modPins
      (fun p => { p with pgood := false, aonPowered := false, warnAt := none })) := by
  have hn : ¬ (fed s || !s.pins.pgood || !past s s.pins.warnAt (rMs 1)) = true := by
    have hpast : past s (some w) (rMs 1) = true := past_some he
    rw [hw, hpast, hp, fed, ha, hb]
    decide
  exact if_neg hn

theorem resetModule_cold {s : State} (cause : Nat) : (resetModule s cause).ctl.mode = .cold ∧ (resetModule s cause).pins = s.pins ∧
    (resetModule s cause).pending = s.pending ∧ (resetModule s cause).ident = s.ident ∧
    (s.ctl.lifePending = none → (resetModule s cause).oldestLog = some (ltReset, resetBody (resetModule s cause) cause)) := by
  have h := resetModule_frame s cause
  refine ⟨resetModule_mode s cause, h.same .pins (by decide), h.same .pending (by decide), h.same .ident (by decide), fun hn => ?_⟩
  rw [resetModule_eq]
  refine loggedReset_oldest ?_ _ _ _
  rw [settleLife_log_of_none (s := keepState s) hn]
  rfl

/-- RST_N low for less than 1 µs does nothing, for 10 µs and more it is a reset, and in between a free value says (log entry 14). -/
theorem execRstNAssert_long {us : Nat} (h : 10 ≤ us) (s : State) : execRstNAssert us s =
    .next (if s.pins.pgood then resetModule (s.modPins (fun p => { p with rstHigh := false })) 1
      else s.modPins (fun p => { p with rstHigh := false })) := by
  have h1 : decide (us < 10) = false := decide_eq_false (Nat.not_lt.mpr h)
  have h2 : ¬ us < 1 := by omega
  simp only [execRstNAssert, h1, Bool.and_false, Bool.false_eq_true, if_false, h2, false_and, or_self]
  rfl

theorem execRstNAssert_between {us : Nat} {s : State} (h1 : 1 ≤ us) (h2 : us < 10) (hp : s.pins.pgood = true) :
    execRstNAssert us s = .next (if (freeValue s).1.getLsbD 0 = false then (freeValue s).2
      else resetModule ((freeValue s).2.modPins (fun p => { p with rstHigh := false })) 1) := by
  have hn : ¬ us < 1 := by omega
  have hf : ((freeValue s).2.modPins (fun p => { p with rstHigh := false })).pins.pgood = true := hp
  simp only [execRstNAssert, h1, h2, decide_true, Bool.and_self, hn, if_true, true_and, false_or, hf]
  split_ifs <;> rfl

/-- The wipe of a module with keys is a reset into BLANK without keys. -/
theorem execWipeNHeld_of_keyed {s : State} (hp : s.pins.pgood = true) (hn : s.ctl.lifePending = none)
    (hl : s.ctl.life = .provisioned ∨ s.ctl.life = .commissioned) :
    execWipeNHeld s = .next (resetModule (pendLife s .blank ⟨[], none, none⟩) 2) := by
  have h : ¬ (s.pins.pgood = false ∨ s.ctl.lifePending.isSome = true ∨ (s.ctl.life ≠ .provisioned ∧ s.ctl.life ≠ .commissioned)) := by
    rw [hp, hn]
    rcases hl with hl | hl <;> simp [hl]
  exact if_neg h

theorem resetModule_wiped {s : State} {l : Life} (cause : Nat) (h : s.ctl.lifePending = some l) :
    (keepState s).wiped (resetModule s cause) l := by
  have hs : settleLife (keepState s) = wipeLife (keepState s) l := by
    unfold settleLife
    rw [show (keepState s).ctl.lifePending = some l from h]
  have hl := loggedReset_frame (wipeLife (keepState s) l) cause s.ctl.mode s.dist.openRecs
  have hw := wipeLife_wiped (keepState s) l
  rw [resetModule_eq, hs]
  have hc : (loggedReset (wipeLife (keepState s) l) cause s.ctl.mode s.dist.openRecs).ctl = _ := hl.same .ctl (by decide)
  have hb : (loggedReset (wipeLife (keepState s) l) cause s.ctl.mode s.dist.openRecs).boot = _ := hl.same .boot (by decide)
  have hd : (loggedReset (wipeLife (keepState s) l) cause s.ctl.mode s.dist.openRecs).dict = _ := hl.same .dict (by decide)
  have hi : (loggedReset (wipeLife (keepState s) l) cause s.ctl.mode s.dist.openRecs).img = _ := hl.same .img (by decide)
  exact ⟨by rw [hc]; exact hw.life, by rw [hc]; exact hw.pending, by rw [hb]; exact hw.roles, by rw [hb]; exact hw.a0,
    by rw [hb]; exact hw.a1, by rw [hb]; exact hw.running, by rw [hd]; exact hw.settings, by rw [hd]; exact hw.sessions,
    by rw [hi]; exact hw.forces, by rw [hi]; exact hw.copies, by rw [hb]; exact hw.identityKey⟩

/-- Settles O10: each command is its reset or nothing, and the reset's own rules say what stands after it. -/
theorem supplyResetPinsAndWipe : Obligations.SupplyResetPinsAndWipe := by
  unfold Obligations.SupplyResetPinsAndWipe
  refine ⟨fun x s hp hf => powerOn_effect x hp hf, fun _ _ _ => rfl, fun s ha hb hp hw => ?_, fun s w ha hb hp hw he => ?_,
    fun us s hu hp => ?_, fun us s hu hp => ?_, fun s => ?_, fun us s h1 h2 hp => ?_, fun x s hr hp => ?_, fun s hp hn hl => ?_, fun s h => ?_⟩
  · exact if_neg (by simp [fed, ha, hb, hp, hw])
  · exact ⟨_, pgoodFall_effect ha hb hp hw he, rfl, rfl, rfl, rfl, rfl, rfl, rfl, rfl, rfl, rfl⟩
  · obtain ⟨hm, hpi, hq, -, hl⟩ := resetModule_cold (s := s.modPins (fun p => { p with rstHigh := false })) 1
    refine ⟨_, (execRstNAssert_long hu s).trans (by rw [if_pos hp]), hm, hpi, hq, fun hn => hl hn⟩
  · exact (execRstNAssert_long hu s).trans (by rw [hp]; rfl)
  · rfl
  · refine ⟨_, execRstNAssert_between h1 h2 hp, ?_⟩
    cases hf : (freeValue s).1.getLsbD 0
    · exact .inl ⟨rfl, rfl, rfl⟩
    · obtain ⟨hm, hpi, -⟩ := resetModule_cold (s := (freeValue s).2.modPins (fun p => { p with rstHigh := false })) 1
      exact .inr ⟨hm, hpi⟩
  · have h : execRstNRelease x s = .next (if s.pins.pgood then takeStraps (s.modPins (fun p => { p with rstHigh := true })) x
        else s.modPins (fun p => { p with rstHigh := true })) := if_neg (by rw [hr]; decide)
    exact h.trans (by rw [if_pos hp]; rfl)
  · have hw := resetModule_wiped (s := pendLife s .blank ⟨[], none, none⟩) 2 rfl
    obtain ⟨hm, -, -, hid, -⟩ := resetModule_cold (s := pendLife s .blank ⟨[], none, none⟩) 2
    exact ⟨_, execWipeNHeld_of_keyed hp hn hl, hm, hw.life, hw.pending, hw.roles, hw.a0, hw.a1, hw.running, hw.settings, hw.forces, hw.copies,
      hw.identityKey, hid⟩
  · refine if_pos ?_
    rcases h with h | h | h | h
    · exact .inl h
    · exact .inr (.inl (Option.isSome_iff_ne_none.mpr h))
    · exact .inr (.inr (by rw [h]; decide))
    · exact .inr (.inr (by rw [h]; decide))

end Sys2Proof.Machine
end

section
/-!
SUPPORT. Statements of the start and of the stop that a state in a corner refutes: each refutation gives the state and what the model makes of it.
-/

namespace Sys2Proof.Machine

open Sys2Proof.Tests

/-! ### O11: the life-cycle change that the boot carries out is logged -/

/-- A powered module in COLD without a loader whose life-cycle change is still to be carried out. -/
def coldPending : State := ((stateIn .cold).modPins (fun p => { p with pgood := true, rstHigh := true })).modCtl (fun c => { c with
  lifePending := some .blank })

theorem coldPending_sendsTwice : leaves (fun t => decide (t.out.length = 2)) (exec .maskRomCheck coldPending) = true := by decide +kernel

/-- Refutes O11: MASK_ROM_CHECK carries out a pending life-cycle change first, whose log record leaves before SOLICIT. -/
theorem not_bootChainSteps : ¬ Obligations.BootChainSteps := by
  unfold Obligations.BootChainSteps
  rintro ⟨h, -⟩
  obtain ⟨t, ht, -, -, -, -, d, hout⟩ := h coldPending (by decide +kernel) (by decide +kernel) (by decide +kernel) (by decide +kernel)
    (by decide +kernel) (by decide +kernel) (by decide +kernel)
  have hs := coldPending_sendsTwice
  have he : coldPending.out = [] := by decide +kernel
  rw [ht, leaves, hout, he] at hs
  cases hs

/-! ### O14: a stop that is pending in STOP -/

/-- A side in STOP whose 4 ms of R459 have passed and whose partner owns, with a stop pending. -/
def rejoining : State := ((startable (fun p => { p with paired := true })).modPair (fun p => { p with ownIn := true })).modCtl (fun c => { c with
  stoppedAt := some 0, stopPending := some 0x000B })

theorem rejoining_stops : leaves (·.ctl.stoppedAt.isSome) (exec .stopRejoinTimer rejoining) = true := by decide +kernel

/-- Refutes O14: the side joins the owning partner, and the pending stop ends the CATCHUP it enters, which begins the 4 ms again. -/
theorem not_settleAndStart : ¬ Obligations.SettleAndStart := by
  unfold Obligations.SettleAndStart
  rintro ⟨-, -, -, -, -, h, -⟩
  obtain ⟨t, ht, hn, -⟩ := h 0 rejoining (by decide +kernel) (by decide +kernel) (by decide +kernel) (by decide +kernel)
  have hs := rejoining_stops
  rw [ht, leaves, hn] at hs
  cases hs

/-! ### O15: a step of TIME named for the tick -/

/-- A module in ALONE whose task 0 is due at every tick, with a step of TIME announced for the next one. -/
def steppingTick : State := ((packaged .alone (fun p => { p with periods := [1] })).modCyc (fun c => { c with released := true })).modTime (fun t =>
  { t with announced := [⟨0, true, false, .locked, 0, 0, 0⟩] })

theorem steppingTick_steps : leaves (·.cyc.stepped) (exec .tick steppingTick) = true := by decide +kernel

/-- Refutes O15: a step that is announced for the tick takes effect at it, after which the next tick waits for its 250 µs of RAW. -/
theorem not_ticksAndCutoff : ¬ Obligations.TicksAndCutoff := by
  unfold Obligations.TicksAndCutoff
  rintro ⟨h, -⟩
  obtain ⟨m, hm⟩ := Option.isSome_iff_exists.mp (show (tickReached steppingTick).isSome = true by decide +kernel)
  obtain ⟨t, ht, -, -, hn, -⟩ := h m steppingTick (by decide +kernel) hm
  have hs := steppingTick_steps
  rw [ht, leaves, hn] at hs
  cases hs

end Sys2Proof.Machine
end

section
/-!
SUPPORT. Statements of the channels that a state in a corner refutes: each refutation gives the state and what the model makes of it.
-/

namespace Sys2Proof.Machine

open Sys2Proof.Tests

/-! ### O20: a partner's stamp that outlives the sharing -/

/-- A stream whose sample at 124 s this side received 1/16 ns after it, and the partner, as its SAMPLE said, 1/16 ns before it. -/
def stampedStream : StreamSt :=
  { StreamSt.reset with
    sync := true, lastT := some 1983999999999,
    held := [⟨svFrame, 1984000000001, false⟩],
    peers := [⟨0, true, true, 0, 1984000000000, 1983999999999, 0⟩] }

/-- A module that shares with no partner now, with that stream. -/
def stampedAlone : State := sampling.modStreams (fun _ => [(0, stampedStream)])

theorem stampedAlone_lastT :
    leaves (fun t => (stSt t 0).lastT == some 1968000000000) (exec (.sampleDeadline 0) stampedAlone) = true := by decide +kernel

/-- Refutes O20: the agreed arrival stamp is the earlier of the two also where the partner is gone, and the sample's instant is taken from
it, a second before the one its own stamp gives. -/
theorem not_sampledValueFrames : ¬ Obligations.SampledValueFrames := by
  unfold Obligations.SampledValueFrames
  rintro ⟨-, -, h⟩
  obtain ⟨t, ht, hs, -⟩ := h 0 1984000000000 stampedAlone (by decide +kernel) (by decide +kernel) (by decide +kernel) (by decide +kernel)
  obtain ⟨-, hl⟩ := hs (by decide +kernel)
  have hv := stampedAlone_lastT
  rw [ht, leaves, hl] at hv
  exact absurd hv (by decide +kernel)

end Sys2Proof.Machine
end

section
/-!
SUPPORT. The records of the channels, and what the grid, the analysis and the loss of tracking make of them.
-/

namespace Sys2Proof.Machine

theorem mgetD_mupd {α : Type} (l : List (Nat × α)) (k j : Nat) (d : α) (f : α → α) :
    mgetD (mupd l k d f) j d = if j = k then f (mgetD l k d) else mgetD l j d := by
  unfold mupd mgetD
  rw [mget_mset]
  split_ifs <;> rfl

theorem chSt_modChan_same (s : State) (n : Nat) (f : ChSt → ChSt) : chSt (modChan s n f) n = f (chSt s n) :=
  (mgetD_mupd ..).trans (if_pos rfl)

/-- A channel's count of analysis samples, its latest instant, its window and its taps stand. -/
structure ChSt.sameSamples (a b : ChSt) : Prop where
  m : b.m = a.m
  lastA : b.lastA = a.lastA
  window : b.window = a.window
  taps : b.taps = a.taps

theorem ChSt.sameSamples.refl (a : ChSt) : a.sameSamples a := ⟨rfl, rfl, rfl, rfl⟩

theorem ChSt.sameSamples.trans {a b c : ChSt} (h : a.sameSamples b) (g : b.sameSamples c) : a.sameSamples c :=
  ⟨g.m.trans h.m, g.lastA.trans h.lastA, g.window.trans h.window, g.taps.trans h.taps⟩

theorem modChan_sameSamples {s : State} {n : Nat} {f : ChSt → ChSt} (h : (chSt s n).sameSamples (f (chSt s n))) :
    (chSt s n).sameSamples (chSt (modChan s n f) n) := by
  rwa [chSt_modChan_same]

theorem chSt_setChBit (s : State) (n b : Nat) (v : Bool) :
    chSt (setChBit s n b v) n = { chSt s n with status := (chSt (setChBit s n b v) n).status } := by
  unfold setChBit
  split_ifs
  · rfl
  · have h : chSt (raiseIrq (modChan s n (fun c => { c with status := setBit c.status b v })) 80) n =
        chSt (modChan s n (fun c => { c with status := setBit c.status b v })) n := rfl
    rw [h, chSt_modChan_same]

theorem setChBit_sameSamples (s : State) (n b : Nat) (v : Bool) : (chSt s n).sameSamples (chSt (setChBit s n b v) n) := by
  rw [chSt_setChBit]
  exact ⟨rfl, rfl, rfl, rfl⟩

theorem trackingLost_sameSamples (s : State) (n a : Nat) (c : ChannelCfg) : (chSt s n).sameSamples (chSt (trackingLost s n a c) n) := by
  unfold trackingLost
  split
  · exact .refl _
  · split_ifs
    · exact modChan_sameSamples ⟨rfl, rfl, rfl, rfl⟩
    · exact .refl _

theorem latchMeasure_sameSamples (s : State) (n : Nat) (r : ChSt) (k : Nat) :
    (chSt s n).sameSamples (chSt (latchMeasure s n r k) n) :=
  modChan_sameSamples ⟨rfl, rfl, rfl, rfl⟩

theorem measure_sameSamples (s : State) (n : Nat) (c : ChannelCfg) : (chSt s n).sameSamples (chSt (measure s n c) n) := by
  unfold measure
  refine .trans ?_ (latchMeasure_sameSamples ..)
  have h1 := modChan_sameSamples (s := s) (n := n) (f := fun q => { q with thr := chThreshold s n }) ⟨rfl, rfl, rfl, rfl⟩
  refine iteInduction (motive := fun u => (chSt s n).sameSamples (chSt u n)) (fun _ => ?_) (fun _ => ?_)
  · exact .trans h1 (modChan_sameSamples ⟨rfl, rfl, rfl, rfl⟩)
  · exact .trans (.trans h1 (modChan_sameSamples ⟨rfl, rfl, rfl, rfl⟩)) (modChan_sameSamples ⟨rfl, rfl, rfl, rfl⟩)

theorem trackRef_sameSamples (s : State) (n a : Nat) (c : ChannelCfg) : (chSt s n).sameSamples (chSt (trackRef s n a c) n) := by
  unfold trackRef
  refine .trans (.trans (.trans ?_ (modChan_sameSamples ⟨rfl, rfl, rfl, rfl⟩)) (trackingLost_sameSamples ..))
    (modChan_sameSamples ⟨rfl, rfl, rfl, rfl⟩)
  exact iteInduction (motive := fun u => (chSt s n).sameSamples (chSt u n)) (fun _ => measure_sameSamples ..) (fun _ => .refl _)

theorem followRef_sameSamples (s : State) (n a : Nat) (c : ChannelCfg) : (chSt s n).sameSamples (chSt (followRef s n a c) n) := by
  unfold followRef
  dsimp only
  split
  · exact .refl _
  · refine iteInduction (motive := fun u => (chSt s n).sameSamples (chSt u n)) (fun _ => ?_) (fun _ => ?_)
    · exact .trans (modChan_sameSamples ⟨rfl, rfl, rfl, rfl⟩) (latchMeasure_sameSamples ..)
    · exact modChan_sameSamples ⟨rfl, rfl, rfl, rfl⟩

theorem settleResults_sameSamples (s : State) (n : Nat) (c : ChannelCfg) : (chSt s n).sameSamples (chSt (settleResults s n c) n) := by
  unfold settleResults
  dsimp only
  split
  · exact .refl _
  · exact modChan_sameSamples ⟨rfl, rfl, rfl, rfl⟩

/-- What of a record an analysis instant leaves in it: the instant counted and noted, at the end of the window. -/
structure ChSt.sampled (q : ChSt) (c : ChannelCfg) (a : Nat) (y : F64) (g : Byte) (r : ChSt) : Prop where
  m : r.m = q.m + 1
  lastA : r.lastA = a
  window : r.window = lastN (nZero c) (q.window ++ [(a, y, g)])
  taps : r.taps = q.taps

theorem ChSt.sampled.trans {q r r' : ChSt} {c : ChannelCfg} {a : Nat} {y : F64} {g : Byte} (h : q.sampled c a y g r)
    (hr : r.sameSamples r') : q.sampled c a y g r' :=
  ⟨hr.m.trans h.m, hr.lastA.trans h.lastA, hr.window.trans h.window, hr.taps.trans h.taps⟩

theorem ChSt.sameSamples.sampled {q q' r : ChSt} {c : ChannelCfg} {a : Nat} {y : F64} {g : Byte} (hq : q.sameSamples q')
    (h : q'.sampled c a y g r) : q.sampled c a y g r :=
  ⟨by rw [h.m, hq.m], h.lastA, by rw [h.window, hq.window], by rw [h.taps, hq.taps]⟩

/-- An analysis instant enters the window; what follows leaves the samples alone. -/
theorem takeAnalysis_sampled (s : State) (n a : Nat) (c : ChannelCfg) (y : F64) (g : Byte) :
    (chSt s n).sampled c a y g (chSt (takeAnalysis s n a c y g) n) := by
  unfold takeAnalysis
  refine .trans ?_ (.trans (setChBit_sameSamples ..) (setChBit_sameSamples ..))
  refine .trans ?_ (iteInduction (motive := fun u => (chSt _ n).sameSamples (chSt u n)) (fun _ => trackRef_sameSamples ..)
      (fun _ => followRef_sameSamples ..))
  refine .trans ?_ (setChBit_sameSamples ..)
  rw [chSt_modChan_same]
  exact ⟨rfl, rfl, rfl, rfl⟩

theorem setNext_sameSamples (s : State) (n i : Nat) : (chSt s n).sameSamples (chSt (modChan s n (fun q => { q with next := i })) n) :=
  modChan_sameSamples ⟨rfl, rfl, rfl, rfl⟩

theorem analyse_sampled {s : State} {n a : Nat} {c : ChannelCfg} {y : F64} {g : Byte} (ha : nextAnalysis s n c = some a)
    (hi : interp ((chSt s n).grid.map (fun x => (x.1, x.2.1, x.2.2.tag))) a = some (y, g)) :
    ∃ t, analyse s n c = some t ∧ (chSt s n).sampled c a y g (chSt t n) := by
  unfold analyse
  rw [ha]
  dsimp only
  rw [hi]
  refine ⟨_, rfl, .trans ?_ (settleResults_sameSamples ..)⟩
  refine .trans ?_ (iteInduction (motive := fun u => (chSt _ n).sameSamples (chSt u n)) (fun _ => setNext_sameSamples ..)
    (fun _ => .refl _))
  exact (settleResults_sameSamples s n c).sampled (takeAnalysis_sampled ..)

theorem setBit_false_getLsbD {w : Nat} (v : BitVec w) (i : Nat) : (setBit v i false).getLsbD i = false := by
  simp [setBit]

theorem chSt_raiseIrq (s : State) (i n : Nat) : chSt (raiseIrq s i) n = chSt s n := rfl

theorem setChBit_clears (s : State) (n b : Nat) : (chSt (setChBit s n b false) n).status.getLsbD b = false := by
  unfold setChBit
  split_ifs with h
  · exact h
  · rw [chSt_raiseIrq, chSt_modChan_same]
    exact setBit_false_getLsbD ..

theorem setChBit_fhat (s : State) (n b : Nat) (v : Bool) : (chSt (setChBit s n b v) n).fhat = (chSt s n).fhat := by
  rw [chSt_setChBit]

theorem setChBit_clamped (s : State) (n b : Nat) (v : Bool) : (chSt (setChBit s n b v) n).clamped = (chSt s n).clamped := by
  rw [chSt_setChBit]

theorem trackingLost_of_past {s : State} {n a b : Nat} (c : ChannelCfg) (hb : (chSt s n).belowSince = some b)
    (h : b + 32000000000 ≤ a) : chSt (trackingLost s n a c) n = { chSt s n with fhat := fint c.f0, clamped := false } := by
  unfold trackingLost
  rw [hb]
  dsimp only
  rw [if_pos (show b + rSec 2 ≤ a from h), chSt_modChan_same]

theorem trackingLost_of_within {s : State} {n a b : Nat} (c : ChannelCfg) (hb : (chSt s n).belowSince = some b)
    (h : a < b + 32000000000) : trackingLost s n a c = s := by
  unfold trackingLost
  rw [hb]
  exact if_neg (show ¬ b + rSec 2 ≤ a from Nat.not_le.mpr h)

/-- What the forming of the grid samples does to the state does not reach the time or the event fabric. -/
theorem formAll_frame (s : State) (l : List (Nat × ChannelCfg)) :
    s.onlyChanges [.n0, .n1, .streams, .chans, .pair, .dist]
      (l.foldl (fun s x => settleResults (formGrid 64 (forceConverter s x.1 x.2) x.1 x.2) x.1 x.2) s) :=
  .foldl (fun u x => (settleResults_frame ..).andThen (by decide) ((formGrid_frame ..).andThen (by decide)
    ((forceConverter_frame ..).andThen (by decide) (.refl u _)))) (.refl ..)

/-- The time and the event fabric stand. -/
structure State.sameTimeEvf (s t : State) : Prop where
  time : t.time = s.time
  evf : t.evf = s.evf

theorem State.onlyChanges.sameTimeEvf {s t : State} {ps : List Part} (h : s.onlyChanges ps t) (ht : Part.time ∉ ps)
    (he : Part.evf ∉ ps) : s.sameTimeEvf t :=
  ⟨h.same .time ht, h.same .evf he⟩

theorem State.sameTimeEvf.trans {s t u : State} (h : s.sameTimeEvf t) (g : t.sameTimeEvf u) : s.sameTimeEvf u :=
  ⟨g.time.trans h.time, g.evf.trans h.evf⟩

/-- What GRID_INSTANT does past the triggers of the instant. -/
theorem formSamples_ends (s : State) : Res.ends s.sameTimeEvf (if !enginesLive (discardsAge s) then .next (discardsAge s)
    else .next ((channelsOn (forceSamples (discardsAge s))).foldl
      (fun s x => settleResults (formGrid 64 (forceConverter s x.1 x.2) x.1 x.2) x.1 x.2) (forceSamples (discardsAge s)))) := by
  have hd := (discardsAge_frame s).sameTimeEvf (by decide) (by decide)
  refine iteInduction (fun _ => Res.ends_next hd) (fun _ => Res.ends_next ?_)
  exact (hd.trans ((forceSamples_frame ..).sameTimeEvf (by decide) (by decide))).trans
    ((formAll_frame ..).sameTimeEvf (by decide) (by decide))

/-- The triggers of a grid instant: the holds, the pulses and the counts that the loops take. -/
theorem gridTriggers_frame (s : State) (g : Nat) (slow : Bool) (ns : W32) (sel : Nat → SeqCfg → Bool) :
    s.onlyChanges [.out, .loops, .pair, .evf, .field] (
      let s := holdGroup s sel
      let s := if slow then pulse s 40 ns else s
      let s := pulse s 41 ns
      if enginesLive s then latchPulses s g else s) := by
  dsimp only
  have h1 : s.onlyChanges [.out, .loops, .pair, .evf, .field] (holdGroup s sel) :=
    (holdGroup_frame ..).andThen (by decide) (.refl ..)
  have h2 : s.onlyChanges [.out, .loops, .pair, .evf, .field] (if slow then pulse (holdGroup s sel) 40 ns else holdGroup s sel) :=
    .ite ((pulse_frame ..).andThen (by decide) h1) h1
  have h3 := (pulse_frame _ 41 ns).andThen (by decide) h2
  exact .ite ((latchPulses_frame ..).andThen (by decide) h3) h3

/-- The number of the instant is not yet noted. -/
def State.gridFresh (s : State) : Bool :=
  match s.time.gridDone with
  | some d => decide (d < gridIdx 14400 (timeNow s))
  | none => true

theorem execGridInstant_ends {s : State} (hc : clocksRun s = true) (hm : s.ctl.mode ≠ .cold) :
    Res.ends (fun t => (s.gridFresh = true → t.time = { s.time with gridDone := some (gridIdx 14400 (timeNow s)) }) ∧
      (s.gridFresh = false → s.sameTimeEvf t)) (execGridInstant s) := by
  unfold execGridInstant
  rw [if_neg (by simp [hc, hm])]
  obtain ⟨t, ht, h⟩ := formSamples_ends (if s.gridFresh = true then
    let s' := s.modTime (fun t => { t with gridDone := some (gridIdx 14400 (timeNow s)) })
    let u := holdGroup s' (fun _ c => c.trigger == 1 || (gridIdx 14400 (timeNow s) % 3 == 0 && c.trigger == 2))
    let u := if gridIdx 14400 (timeNow s) % 3 == 0 then pulse u 40 (ns32Of (gridAt 14400 (gridIdx 14400 (timeNow s)))) else u
    let u := pulse u 41 (ns32Of (gridAt 14400 (gridIdx 14400 (timeNow s))))
    if enginesLive u then latchPulses u (gridIdx 14400 (timeNow s)) else u
    else s)
  refine ⟨t, ht, fun hf => ?_, fun hf => ?_⟩
  · rw [if_pos hf] at h
    exact h.time.trans ((gridTriggers_frame ..).same .time (by decide))
  · rwa [if_neg (by rw [hf]; decide)] at h

theorem execAnalysisInstant_ends {s : State} {n a : Nat} {c : ChannelCfg} {y : F64} {g : Byte} (hc : chCfg s n = some c)
    (hl : enginesLive s = true) (ha : nextAnalysis s n c = some a)
    (hi : interp ((chSt s n).grid.map (fun x => (x.1, x.2.1, x.2.2.tag))) a = some (y, g)) :
    Res.ends (fun t => (chSt s n).sampled c a y g (chSt t n)) (execAnalysisInstant n s) := by
  obtain ⟨t, ht, h⟩ := analyse_sampled ha hi
  unfold execAnalysisInstant
  rw [hc]
  dsimp only
  rw [if_neg (by simp [hl]), ht]
  exact Res.ends_next h

theorem execTrackingLossTimer_next {s : State} {n : Nat} {c : ChannelCfg} (hc : chCfg s n = some c) (hr : enginesRun s = true) :
    execTrackingLossTimer n s = .next (setChBit (trackingLost s n (chSt s n).lastA c) n 3
      (chSt (trackingLost s n (chSt s n).lastA c) n).clamped) := by
  unfold execTrackingLossTimer
  rw [hc]
  exact if_neg (by simp [hr])

/-- Settles O21: what follows the noting of the instant, of a grid or of an analysis, leaves the noted alone. -/
theorem channelAnalysis : Obligations.ChannelAnalysis := by
  refine ⟨fun s hc hm => ?_, fun n a c y g s hc hl ha hi => ?_, fun n a c s hc hr hb => ?_⟩
  · obtain ⟨t, ht, hfresh, hseen⟩ := execGridInstant_ends hc hm
    refine ⟨t, ht, ?_, fun hf => ?_, fun hf => ?_⟩
    · cases hf : s.gridFresh with
      | true => rw [hfresh hf]
      | false => rw [(hseen hf).time]
    · rw [hfresh hf]
    · exact ⟨(hseen hf).time, (hseen hf).evf⟩
  · obtain ⟨t, ht, h⟩ := execAnalysisInstant_ends hc hl ha hi
    exact ⟨t, ht, h.m, h.lastA, h.window, h.taps⟩
  · refine ⟨_, execTrackingLossTimer_next hc hr, ?_, ?_, fun hp => ⟨?_, ?_, ?_⟩, fun hw => ?_⟩
    · exact ((trackingLost_sameSamples ..).trans (setChBit_sameSamples ..)).m
    · exact ((setChBit_frame ..).andThen (ps := [.n0, .n1, .chans]) (by decide)
        ((trackingLost_frame ..).andThen (by decide) (.refl s _))).same .out (by decide)
    · rw [setChBit_fhat, trackingLost_of_past c hb hp]
    · rw [setChBit_clamped, trackingLost_of_past c hb hp]
    · rw [show (chSt (trackingLost s n (chSt s n).lastA c) n).clamped = false by rw [trackingLost_of_past c hb hp]]
      exact setChBit_clears ..
    · rw [setChBit_fhat, trackingLost_of_within c hb hw]

end Sys2Proof.Machine
end

section
/-!
SUPPORT. Frames of the boot protocol on a port H that has no frame broken, and the commands of the boot transfer and of provisioning.
-/

namespace Sys2Proof.Machine

/-! ### Frames on port H -/

theorem getD_lupd_keeps {α β : Type} {f : α → α} {g : α → β} (hf : ∀ x, g (f x) = g x) (l : List α) (n m : Nat) (d : α) :
    g ((lupd l n f).getD m d) = g (l.getD m d) := by
  by_cases hm : m = n
  · subst hm
    by_cases hl : m < l.length
    · rw [getD_lupd_same l m f d hl, hf]
    · rw [List.getD_eq_default _ _ (by simpa [lupd] using hl), List.getD_eq_default _ _ (by simpa using hl)]
  · rw [getD_lupd_other l f d hm]

theorem portOf_modPort_broken {f : PortSt → PortSt} (hf : ∀ x, (f x).broken = x.broken) (s : State) (p q : Port) :
    (portOf (modPort s p f) q).broken = (portOf s q).broken :=
  getD_lupd_keeps (g := PortSt.broken) hf s.net.ports p.num q.num PortSt.reset

/-- A frame of the boot protocol that leaves in state `s`. -/
theorem bootSend_of_whole {s : State} (h : (portOf s .h).broken = false) (d : W48) (ty : Nat) (x : W32) (b : Bytes) :
    bootSend s d ty x b = send (modPort s .h (fun q => { q with tx := q.tx.inc })) (.boot (moduleMac s) d ty x b) := by
  have hs : startOn s .h (moduleMac s) 0 = (true, modPort s .h (fun q => { q with tx := q.tx.inc })) := by
    unfold startOn
    have hl : ¬ (Port.h != .h && !(portOf s .h).link) = true := Bool.false_ne_true
    have hr : ¬ (Port.h.ring && sepHas s (if Port.h == .p1 then s.net.cw else s.net.acw) (moduleMac s) 0) = true := Bool.false_ne_true
    rw [if_neg hl, if_neg hr, if_neg (by rw [h]; decide)]
    rfl
  unfold bootSend
  rw [hs]
  rfl

theorem bootSend_out {s : State} (h : (portOf s .h).broken = false) (d : W48) (ty : Nat) (x : W32) (b : Bytes) :
    (bootSend s d ty x b).out = s.out ++ [.boot (moduleMac s) d ty x b] := by
  rw [bootSend_of_whole h]
  rfl

theorem bootSend_whole {s : State} (h : (portOf s .h).broken = false) (d : W48) (ty : Nat) (x : W32) (b : Bytes) :
    (portOf (bootSend s d ty x b) .h).broken = false := by
  rw [bootSend_of_whole h]
  exact (portOf_modPort_broken (f := fun q => { q with tx := q.tx.inc }) (fun _ => rfl) s .h .h).trans h

theorem bootSend_mac (s : State) (d : W48) (ty : Nat) (x : W32) (b : Bytes) : moduleMac (bootSend s d ty x b) = moduleMac s :=
  congrArg Ident.mac ((bootSend_frame s d ty x b).same .ident (by decide))

/-- The frames of one object leave one after the other. -/
theorem bootSends_out {s : State} (h : (portOf s .h).broken = false) (d : W48) (ty : Nat) (x : W32) (f : Nat → Bytes) (l : List Nat) :
    (l.foldl (fun s i => bootSend s d ty x (f i)) s).out = s.out ++ l.map (fun i => .boot (moduleMac s) d ty x (f i)) := by
  induction l generalizing s with
  | nil => exact (List.append_nil _).symm
  | cons i l ih =>
    rw [List.foldl_cons, ih (bootSend_whole h ..), bootSend_out h, bootSend_mac, List.append_assoc]
    rfl

theorem sendObject_out {s : State} (h : (portOf s .h).broken = false) (d : W48) (x : W32) (o : Nat) (data : Bytes) (off : Nat) :
    (sendObject s d x o data off).out = s.out ++ (List.range (max 1 ((data.length - off + 1023) / 1024))).map (fun i =>
      .boot (moduleMac s) d 0x11 x ([BitVec.ofNat 8 o, 0] ++ beBytes 2 (min 1024 (data.length - (off + 1024 * i))) ++
        beBytes 4 data.length ++ beBytes 4 (off + 1024 * i) ++ (data.drop (off + 1024 * i)).take 1024)) := by
  unfold sendObject
  rw [bootSends_out h]
  simp only [List.length_take, List.length_drop]
  rfl

/-! ### O12, the boot transfer -/

theorem setAgreed_ctl (s : State) (o : TimeState) : (setAgreed s o).ctl = s.ctl := by
  unfold setAgreed
  split_ifs <;> rfl

theorem agreedIrq_ctl (s : State) (b : Bool) (o : TimeState) : (raiseIrq (if b then s else setAgreed s o) 11).ctl = s.ctl := by
  cases b with
  | true => rfl
  | false => exact setAgreed_ctl s o

theorem moveMode_mode (s : State) (m : Mode) (r : Nat) : (moveMode s m r).ctl.mode = m := by
  unfold moveMode
  dsimp only
  rw [agreedIrq_ctl]
  exact iteInduction (motive := fun u : State => u.ctl.mode = m) (fun _ => rfl) (fun _ => rfl)

theorem setMode_mode (s : State) (m : Mode) (r : Nat) : (setMode s m r).ctl.mode = m := by
  have h : (setMode s m r).ctl = (moveMode s m r).ctl := (logEvent_frame ..).same .ctl (by decide)
  rw [h, moveMode_mode]

theorem setMode_boot (s : State) (m : Mode) (r : Nat) : (setMode s m r).boot = s.boot := (setMode_frame ..).same .boot (by decide)


theorem agreedIrq_raw (s : State) (b : Bool) (o : TimeState) : (raiseIrq (if b then s else setAgreed s o) 11).time.raw = s.time.raw := by
  cases b with
  | true => rfl
  | false =>
    change (setAgreed s o).time.raw = s.time.raw
    unfold setAgreed
    split_ifs <;> rfl

theorem moveMode_raw (s : State) (m : Mode) (r : Nat) : (moveMode s m r).time.raw = s.time.raw := by
  have hc : (closeAll s).time = s.time := (closeAll_frame s).same .time (by decide)
  unfold moveMode
  dsimp only
  rw [agreedIrq_raw]
  generalize hu : (if (s.ctl.mode.run && !m.run) = true then closeAll s else s) = u
  have hr : u.time.raw = s.time.raw := by
    rw [← hu]
    split_ifs
    · rw [hc]
    · rfl
  split_ifs <;> exact hr

theorem setMode_raw (s : State) (m : Mode) (r : Nat) : (setMode s m r).time.raw = s.time.raw := by
  have h : (setMode s m r).time = (moveMode s m r).time := (logEvent_frame ..).same .time (by decide)
  rw [h]
  exact moveMode_raw ..

theorem execBootOffer_next {b : BootHdr} {k ml il : Nat} {s : State} (hk : wantedKind s = some k) (hf : fromHost s b = true)
    (hx : (s.boot.xfer.map (·.started)).getD false = false) (hm : ml < 2 ^ 32) (hi : il < 2 ^ 32) :
    execBootOffer b k ml il s = .next { s with boot := { s.boot with xfer := some {
      host := b.src, xid := b.xid, kind := k, manLen := ml, man := [], manOk := false, chunk := 0, blocks := [], img := [], lasts := [],
      started := false, lastAt := s.time.raw } } } := by
  have hx' : (match s.boot.xfer with | none => false | some x => x.started) = false := by
    cases hs : s.boot.xfer with
    | none => rfl
    | some x => rw [hs] at hx; exact hx
  refine if_neg ?_
  rw [not_or, not_or, not_or, not_or]
  exact ⟨by rw [hk]; simp, by rw [hf]; decide, ne_of_eq_of_ne hx' Bool.false_ne_true, Nat.not_le.mpr hm, Nat.not_le.mpr hi⟩

/-- A block of the manifest that fits and does not complete it is stored. -/
theorem takeBlock_of_manifest {s : State} {x : Xfer} {n : Nat} {data : Bytes} (hm : x.manOk = false) (hn : n < blocksIn x.manLen)
    (hd : data.length = min 1024 (x.manLen - 1024 * n)) (hw : Xfer.whole { x with blocks := mset x.blocks n data } 0 = false) :
    takeBlock s x 0 n data = s.modBoot (fun b => { b with xfer := some { x with
      blocks := mset x.blocks n data, lasts := mset x.lasts 0 s.time.raw, lastAt := s.time.raw } }) := by
  have hl : x.len 0 = x.manLen := rfl
  have hw' : Xfer.whole { x with blocks := mset x.blocks (64 * 0 + n) data, lasts := mset x.lasts 0 s.time.raw, lastAt := s.time.raw } 0 =
      false := by
    rw [Nat.mul_zero, Nat.zero_add]
    exact hw
  unfold takeBlock
  dsimp only
  rw [if_neg (by rw [if_pos rfl, hm]; decide), if_neg (by rw [hl]; simp [hd, Nat.not_le.mpr hn]), if_neg (by rw [hw']; decide),
    Nat.mul_zero, Nat.zero_add]

theorem execBootData_next {b : BootHdr} {n : Nat} {data : Bytes} {x : Xfer} {s : State} (hx : s.boot.xfer = some x)
    (hf : fromHost s b = true) (hi : x.xid = b.xid) (hk : wantedKind s = some x.kind) (hn : n < 64) (h0 : 0 < data.length)
    (h1 : data.length ≤ 1024) : execBootData b 0 0 n data s =
      .next (takeBlock (if s.ctl.mode = .bootwait then setMode s .verify 0x0001 else s) { x with started := true } 0 n data) := by
  have h63 : ¬ 63 < n := by omega
  unfold execBootData
  rw [hx]
  simp only [hf, hi, hk, ne_eq, not_true_eq_false, Bool.true_eq_false, or_self, if_false, h63, Nat.not_lt.mpr h1,
    Nat.ne_of_gt h0, and_false, if_true, Nat.not_lt_zero, Nat.not_lt.mpr (Nat.zero_le 1)]

theorem endTransfer_effect (s : State) : (endTransfer s).boot = { s.boot with xfer := none, solicitAt := some s.time.raw } ∧
    (endTransfer s).ctl.mode = if s.ctl.mode = .verify then .bootwait else s.ctl.mode := by
  unfold endTransfer
  dsimp only
  by_cases h : s.ctl.mode = .verify
  · rw [if_pos h, if_pos (show (s.modBoot (fun b => { b with xfer := none, solicitAt := some s.time.raw })).ctl.mode = .verify from h),
      setMode_boot, setMode_mode]
    exact ⟨rfl, rfl⟩
  · rw [if_neg h, if_neg (show ¬ (s.modBoot (fun b => { b with xfer := none, solicitAt := some s.time.raw })).ctl.mode = .verify from h)]
    exact ⟨rfl, rfl⟩

/-- The acknowledgement of the one object that is due. -/
theorem execBootAckTimer_next {x : Xfer} {k : Nat} {w : W64} {s : State} (hm : s.ctl.mode ≠ .silent) (hx : s.boot.xfer = some x)
    (hl : x.lasts = [(k, w)]) (h : 16000000 ≤ (s.time.raw - w).toNat) : execBootAckTimer s =
      .next (sendAck (s.modBoot (fun b => { b with xfer := some { x with lasts := [] } })) x k (x.missing k)) := by
  have hd : decide (rMs 1 ≤ elapsed s w) = true := decide_eq_true h
  unfold execBootAckTimer
  rw [if_neg hm, hx]
  simp only [hl, List.filter_cons, hd, if_true, List.filter_nil, List.map_cons, List.map_nil, List.contains_cons, beq_self_eq_true,
    Bool.true_or, Bool.not_true, Bool.false_eq_true, if_false, List.foldl_cons, List.foldl_nil]

/-- Settles O12: each command of the boot transfer, by what it makes of the exchange. -/
theorem bootTransferSteps : Obligations.BootTransferSteps := by
  refine ⟨fun b k ml il s hk hf hx hm hi => execBootOffer_next hk hf hx hm hi,
    fun b n data x s hx hf hi hk ho hn hb hd h0 hw => ?_, fun x k w s hm hb hx hl h => ?_, fun x s hx h => ?_⟩
  · refine ⟨_, (execBootData_next hx hf hi hk hn h0 (hd ▸ Nat.min_le_left ..)).trans
      (by rw [takeBlock_of_manifest (x := { x with started := true }) ho hb hd hw]), ?_, ?_⟩
    · change (ite _ _ s : State).ctl.mode = _
      split_ifs
      · exact setMode_mode ..
      · rfl
    · have hr : (if s.ctl.mode = .bootwait then setMode s .verify 0x0001 else s).time.raw = s.time.raw := by
        split_ifs
        · exact setMode_raw ..
        · rfl
      rw [hr]
      rfl
  · have hw : (portOf (s.modBoot (fun b => { b with xfer := some { x with lasts := [] } })) .h).broken = false := hb
    refine ⟨_, execBootAckTimer_next hm hx hl h, ?_, bootSend_out hw ..⟩
    exact congrArg BootSt.xfer ((bootSend_frame ..).same .boot (by decide))
  · obtain ⟨hb, hm⟩ := endTransfer_effect s
    have he : execBootTransferTimeout s = .next (endTransfer s) := by
      unfold execBootTransferTimeout
      rw [hx]
      exact if_neg (Nat.not_lt.mpr h)
    exact ⟨_, he, by rw [hb], by rw [hb], hm⟩

/-! ### O13, provisioning, certificates and attestation -/

theorem provResp_out {s : State} (h : (portOf s .h).broken = false) (b : BootHdr) (code : Nat) (c : Bytes) :
    (provResp s b code c).out = s.out ++ [.boot (moduleMac s) b.src 0x21 b.xid (beBytes 2 code ++ [0, 0] ++ padTo 32 c)] := bootSend_out h ..

theorem provResp_keeps (s : State) (b : BootHdr) (code : Nat) (c : Bytes) :
    (provResp s b code c).boot = s.boot ∧ (provResp s b code c).ctl = s.ctl ∧ (provResp s b code c).ident = s.ident :=
  ⟨(bootSend_frame ..).same .boot (by decide), (bootSend_frame ..).same .ctl (by decide), (bootSend_frame ..).same .ident (by decide)⟩

theorem writeLog_uart (s : State) (r : LogReq) : ∃ l : List Bytes, (writeLog s r).out = s.out ++ l.map .uart := by
  have h : ∀ (l : List LogRec) (u : State), (l.foldl (fun t x => send t (.uart (logBytes x))) u).out = u.out ++ (l.map logBytes).map .uart := by
    intro l
    induction l with
    | nil => exact fun u => (List.append_nil _).symm
    | cons x l ih =>
      intro u
      rw [List.foldl_cons, ih]
      exact List.append_assoc ..
  exact ⟨_, h _ _⟩

theorem wipeLife_uart (s : State) (l : Life) : ∃ k : List Bytes, (wipeLife s l).out = s.out ++ k.map .uart := by
  obtain ⟨u, r, hu, hs⟩ : ∃ (u : State) (r : LogReq), (writeLog u r).onlyChanges [.log] (wipeLife s l) ∧ u.out = s.out :=
    ⟨_, _, .foldl (fun _ _ => logEvent_frame ..) (.refl ..), rfl⟩
  obtain ⟨k, hk⟩ := writeLog_uart u r
  exact ⟨k, (hu.same .out (by decide)).trans (hk.trans (by rw [hs]))⟩

theorem resetModule_uart {s : State} {l : Life} (h : s.ctl.lifePending = some l) (cause : Nat) :
    ∃ k : List Bytes, (resetModule s cause).out = s.out ++ k.map .uart := by
  obtain ⟨k, hk⟩ := wipeLife_uart (keepState s) l
  have hs : settleLife (keepState s) = wipeLife (keepState s) l := by
    unfold settleLife
    rw [show (keepState s).ctl.lifePending = some l from h]
  refine ⟨k, ?_⟩
  rw [resetModule_eq, hs]
  exact ((loggedReset_frame ..).same .out (by decide)).trans hk

theorem execProvision_refused {b : BootHdr} {body : Bytes} {s : State} (hm : s.ctl.mode = .bootwait ∨ s.ctl.mode = .stop)
    (hf : fromHost s b = true) (hl : 68 ≤ body.length) (h : s.ctl.life ≠ .blank ∨ s.ctl.lifePending.isSome = true) :
    execProvision b body s = .next (provResp s b 0x0301 []) := by
  have h1 : ¬ (s.ctl.mode = .cold ∨ s.ctl.mode = .silent ∨ fromHost s b = false ∨ body.length < 68) := by
    rcases hm with hm | hm <;> simp [hm, hf, Nat.not_lt.mpr hl]
  unfold execProvision
  rw [if_neg h1, if_pos (h.imp_right .inr)]

/-- A PROVISION of a BLANK module is judged by the length that its key count asks for. -/
theorem execProvision_of_blank {b : BootHdr} {body : Bytes} {s : State} (hm : s.ctl.mode = .bootwait ∨ s.ctl.mode = .stop)
    (hf : fromHost s b = true) (hl : 68 ≤ body.length) (hb : s.ctl.life = .blank) (hp : s.ctl.lifePending = none) :
    execProvision b body s = if ((body.getD 0 0).toNat ≠ 1 ∧ (body.getD 0 0).toNat ≠ 2) ∨ body.length ≠ 68 + 32 * (body.getD 0 0).toNat
      then .next (provResp s b 0x0502 [])
      else .next (resetModule (provResp (pendLife s .provisioned ⟨[⟨3, 0, slice body 36 32⟩], some (slice body 68 32),
        if (body.getD 0 0).toNat = 2 then some (slice body 100 32) else none⟩) b 0
        (provConfirm (pendLife s .provisioned ⟨[⟨3, 0, slice body 36 32⟩], some (slice body 68 32),
          if (body.getD 0 0).toNat = 2 then some (slice body 100 32) else none⟩) (slice body 36 32) (slice body 4 32))) 2) := by
  have h1 : ¬ (s.ctl.mode = .cold ∨ s.ctl.mode = .silent ∨ fromHost s b = false ∨ body.length < 68) := by
    rcases hm with hm | hm <;> simp [hm, hf, Nat.not_lt.mpr hl]
  have h2 : ¬ (s.ctl.life ≠ .blank ∨ (s.ctl.mode ≠ .bootwait ∧ s.ctl.mode ≠ .stop) ∨ s.ctl.lifePending.isSome = true) := by
    rcases hm with hm | hm <;> simp [hm, hb, hp]
  unfold execProvision
  rw [if_neg h1, if_neg h2]

/-- What a provisioned module comes up with. -/
theorem provisioned_effect {s u : State} {k : Nat} {key a0 a1 conf : Bytes} {b : BootHdr} (hb : (portOf s .h).broken = false)
    (hu : u = pendLife s .provisioned ⟨[⟨3, 0, key⟩], some a0, if k = 2 then some a1 else none⟩) :
    let t := resetModule (provResp u b 0 conf) 2
    (∃ l : List Bytes, t.out = s.out ++ .boot (moduleMac s) b.src 0x21 b.xid ([0, 0, 0, 0] ++ padTo 32 conf) :: l.map .uart) ∧
      t.ctl.life = .provisioned ∧ t.ctl.lifePending = none ∧ t.ctl.mode = .cold ∧ t.boot.roles = [⟨3, 0, key⟩] ∧
      t.boot.a0 = some a0 ∧ t.boot.a1 = (if k = 2 then some a1 else none) ∧ t.ident = s.ident ∧ t.boot.identityKey = s.boot.identityKey := by
  obtain ⟨hboot, hctl, hid⟩ := provResp_keeps u b 0 conf
  have hp : (provResp u b 0 conf).ctl.lifePending = some .provisioned := by rw [hctl, hu]; rfl
  have hw := resetModule_wiped 2 hp
  have hk : (keepState (provResp u b 0 conf)).boot.pendKeys = some ⟨[⟨3, 0, key⟩], some a0, if k = 2 then some a1 else none⟩ := by
    have : (keepState (provResp u b 0 conf)).boot.pendKeys = (provResp u b 0 conf).boot.pendKeys := rfl
    rw [this, hboot, hu]
    rfl
  obtain ⟨l, hl⟩ := resetModule_uart hp 2
  obtain ⟨hm, -, -, hi, -⟩ := resetModule_cold (s := provResp u b 0 conf) 2
  refine ⟨⟨l, ?_⟩, hw.life, hw.pending, hm, hw.roles.trans (by rw [hk]; rfl), hw.a0.trans (by rw [hk]; rfl),
    hw.a1.trans (by rw [hk]; rfl), ?_, ?_⟩
  · have hub : (portOf u .h).broken = false := by rw [hu]; exact hb
    rw [hl, provResp_out hub, hu, List.append_assoc]
    rfl
  · rw [hi, hid, hu]
    rfl
  · have : (keepState (provResp u b 0 conf)).boot.identityKey = (provResp u b 0 conf).boot.identityKey := rfl
    rw [hw.identityKey, if_neg (by decide), this, hboot, hu]
    rfl

theorem execBootGet_cert {b : BootHdr} {o : Nat} (off : Nat) {nonce cert : Bytes} {s : State} (hc : s.ctl.mode ≠ .cold)
    (hm : s.ctl.mode ≠ .silent) (hf : fromHost s b = true) (hn : nonce.length = 32)
    (ho : (o = 1 ∧ cert = s.ident.moduleCert) ∨ (o = 2 ∧ cert = s.ident.issuingCert)) :
    execBootGet b o off nonce s = .next (sendObject s b.src b.xid o cert off) := by
  have h : ¬ (s.ctl.mode = .cold ∨ s.ctl.mode = .silent ∨ fromHost s b = false ∨ nonce.length ≠ 32) := by simp [hc, hm, hf, hn]
  unfold execBootGet
  rw [if_neg h]
  rcases ho with ⟨rfl, rfl⟩ | ⟨rfl, rfl⟩ <;> rfl

theorem execBootGet_report {b : BootHdr} {nonce : Bytes} {s : State} (hm : s.ctl.mode = .bootwait ∨ s.ctl.mode = .stop)
    (hf : fromHost s b = true) (hn : nonce.length = 32) (hk : s.boot.identityKey.isSome = true) (ha : s.boot.attState ≠ 1) :
    execBootGet b 3 0 nonce s = .next (s.modBoot (fun t => { t with attState := 1, attNonce := nonce, attHost := some (b.src, b.xid) })) := by
  have h1 : ¬ (s.ctl.mode = .cold ∨ s.ctl.mode = .silent ∨ fromHost s b = false ∨ nonce.length ≠ 32) := by
    rcases hm with hm | hm <;> simp [hm, hf, hn]
  have h2 : ¬ ((3 : Nat) ≠ 3 ∨ (s.ctl.mode ≠ .bootwait ∧ s.ctl.mode ≠ .stop)) := by
    rcases hm with hm | hm <;> simp [hm]
  unfold execBootGet
  rw [if_neg h1, if_neg (by decide), if_neg (by decide), if_neg h2, if_neg (by decide), if_pos hk, startReport, if_neg ha]

/-- The signed report is kept, and sent to the host that asked for it. -/
theorem execAttestationSigned_eq {k : KeyPair} {s : State} (hm : s.ctl.mode ≠ .silent) (ha : s.boot.attState = 1)
    (hk : s.boot.identityKey = some k) :
    let report := reportBody s ++ Config.sign128f k.priv (reportBody s)
    let u := s.modBoot (fun b => { b with attState := 2, attReport := report, attHost := none })
    execAttestationSigned s = match s.boot.attHost with
      | some h => if s.ctl.mode = .cold ∨ s.ctl.mode = .silent then .next u else .next (sendObject u h.1 h.2 3 report 0)
      | none => .next u := by
  unfold execAttestationSigned
  rw [if_neg (by rw [clocksRun_of_ne hm]; decide), if_neg (by rw [ha]; decide), hk]
  rfl

theorem sendObject_boot (s : State) (d : W48) (x : W32) (o : Nat) (data : Bytes) (off : Nat) :
    (sendObject s d x o data off).boot = s.boot := (sendObject_frame ..).same .boot (by decide)

/-- Settles O13: the answers leave through port H, and the reset of a provisioned module takes the keys that were pended. -/
theorem provisionCertifyAttest : Obligations.ProvisionCertifyAttest := by
  refine ⟨fun b body k s hl hp hm hb hf hk hc hn => ?_, fun b body s hm hb hf hl h => ?_, fun b body s hm hb hf hl hb' hp hn => ?_,
    fun b o off nonce cert s hc hm hb hf hn ho => ?_, fun b nonce s hm hf hn hk ha => execBootGet_report hm hf hn hk ha,
    fun k s hm ha hk hb => ?_⟩
  · have h68 : 68 ≤ body.length := by omega
    have hn' : ¬ (((body.getD 0 0).toNat ≠ 1 ∧ (body.getD 0 0).toNat ≠ 2) ∨ body.length ≠ 68 + 32 * (body.getD 0 0).toNat) := by
      omega
    refine ⟨_, (execProvision_of_blank hm hf h68 hl hp).trans (if_neg hn'), ?_⟩
    rw [hc]
    exact provisioned_effect hb rfl
  · obtain ⟨hboot, hctl, -⟩ := provResp_keeps s b 0x0301 []
    exact ⟨_, execProvision_refused hm hf hl h, hboot, hctl, provResp_out hb ..⟩
  · obtain ⟨hboot, hctl, -⟩ := provResp_keeps s b 0x0502 []
    exact ⟨_, (execProvision_of_blank hm hf hl hb' hp).trans (if_pos (.inr hn)), hboot, hctl, provResp_out hb ..⟩
  · exact ⟨_, execBootGet_cert off hc hm hf hn ho, sendObject_boot .., sendObject_out hb ..⟩
  · have he := execAttestationSigned_eq hm ha hk
    have hw : ∀ f, (portOf (s.modBoot f) .h).broken = false := fun _ => hb
    cases hh : s.boot.attHost with
    | none =>
      rw [hh] at he
      exact ⟨_, he, rfl, fun _ => rfl, fun h hc => by cases hc⟩
    | some h =>
      rw [hh] at he
      by_cases hc : s.ctl.mode = .cold
      · exact ⟨_, he.trans (if_pos (.inl hc)), rfl, (fun h => by cases h), (fun _ _ hr => by rw [hc] at hr; simp at hr)⟩
      · refine ⟨_, he.trans (if_neg (not_or.mpr ⟨hc, hm⟩)), sendObject_boot .., (fun h => by cases h), fun h' hh' _ => ?_⟩
        cases hh'
        refine (sendObject_out (hw _) ..).trans ?_
        simp only [Nat.zero_add, Nat.sub_zero]
        rfl

end Sys2Proof.Machine
end

section
/-!
SUPPORT. Statements of the pair, of the catch-up and of the clients that a state in a corner refutes.
-/

namespace Sys2Proof.Machine

open Sys2Proof.Tests

/-! ### O28: a repeat of a request whose outcome was an error -/

/-- A request to force a point. -/
def forceReq : PairReq := ⟨1, 1, 0x2210, 2, 15, []⟩

/-- An owning side that ran a request a moment ago whose outcome was the error 0x0403. -/
def failedOwner : State := (running .alone).modPair (fun p => { p with
  repeats := [⟨⟨0, 0, false, 0, .request forceReq⟩, some (0x0403, 0), 2000000000000, []⟩] })

/-- What that side makes of the header of the FORWARD. -/
def failedOwnerHears : State := (hear failedOwner default).1

theorem failedOwner_hears : hear failedOwner default = (failedOwnerHears, true) := Prod.ext rfl (by decide +kernel)

/-- The first WRITE of the failed request. -/
def failedWrite : Repeat := ⟨⟨0, 0, false, 0, .request forceReq⟩, some (0x0403, 0), 2000000000000, []⟩

theorem failedOwner_repeats : repeatOf failedOwnerHears forceReq = some failedWrite := by decide +kernel

theorem failedOwner_refuses : leaves (fun t => decide (t.out =
    (mjSend failedOwnerHears (.write { failedWrite.msg with originB := !failedOwnerHears.pins.sideB, fwd := 0 })).out))
      (exec (.miojoForward default 0 forceReq) failedOwner) = false := by decide +kernel

/-- Refutes O28: a FORWARD that repeats a request which ended in an error is answered by REFUSE with that error, not by the WRITE. -/
theorem not_sequencedWrites : ¬ Obligations.SequencedWrites := by
  unfold Obligations.SequencedWrites
  rintro ⟨-, h, -⟩
  have ht := h default 0 forceReq failedWrite failedOwner failedOwnerHears failedOwner_hears (by decide +kernel) (by decide +kernel)
    failedOwner_repeats
  have hr := failedOwner_refuses
  rw [ht, leaves] at hr
  exact absurd rfl (of_decide_eq_false hr)

/-! ### O32: the retry that fails at once -/

/-- A side that failed to join long ago and whose partner's HELLO says another pair. -/
def mispaired : State := (joining 0).modPair (fun p => { p with
  cRetryAt := some 0, hello := some { (default : Hello) with pairNo := 1 } })

theorem mispaired_fails : leaves (·.pair.phase == 0) (exec .catchupRetryTimer mispaired) = true := by decide +kernel

/-- Refutes O32: the retry with a partner of another pair begins phase 1 and fails in it at once. -/
theorem not_catchUpJoiningSide : ¬ Obligations.CatchUpJoiningSide := by
  unfold Obligations.CatchUpJoiningSide
  rintro ⟨-, -, -, -, -, h, -⟩
  obtain ⟨t, ht, -, hp, -⟩ := h 0 mispaired (by decide +kernel) (by decide +kernel) (by decide +kernel)
  have hf := mispaired_fails
  rw [ht, leaves] at hf
  rcases hp with hp | hp <;> rw [hp] at hf <;> cases hf

/-! ### O48: the answer that meets a broken frame -/

/-- A debugged module in STOP whose answer leaves on a ring port with a broken frame. -/
def brokenServer : State := ((served .stop 3).modNet (fun n => { n with
  ports := lupd n.ports 0 (fun p => { p with link := true, broken := true }) })).modInteg (fun g => { g with debugged := true })

theorem brokenServer_counts :
    leaves (fun t => decide (t.integ = { brokenServer.integ with debugged := false })) (exec (.clearDebugged (client 3)) brokenServer) =
      false := by decide +kernel

/-- Refutes O48: the answer to the clearing of DEBUGGED meets a frame that is broken, which the integrity part counts. -/
theorem not_stagingAndKeysByAClient : ¬ Obligations.StagingAndKeysByAClient := by
  unfold Obligations.StagingAndKeysByAClient
  rintro ⟨-, -, -, -, -, -, -, -, -, -, h, -⟩
  obtain ⟨t, ht, hi⟩ := h (client 3) brokenServer (by decide +kernel)
  have hb := brokenServer_counts
  rw [ht, leaves] at hb
  exact absurd hi (of_decide_eq_false hb)

/-! ### O51: the forces that are published -/

/-- A module in STOP whose point 0 is forced, and published as forced. -/
def forcedInStop : State := (forcing .stop 2).modImg (fun i => { i with forces := [force0], pubForces := [force0] })

theorem forcedInStop_publishes :
    leaves (fun t => decide (t.img.pubForces = [force0])) (exec (.releaseForce (client 2) [0, 0, 0, 0]) forcedInStop) = false := by
  decide +kernel

/-- Refutes O51: a release in STOP takes the force out of the published forces too, which the statement leaves as they were. -/
theorem not_pairWritesInStop : ¬ Obligations.PairWritesInStop := by
  unfold Obligations.PairWritesInStop
  rintro ⟨-, h, -⟩
  obtain ⟨t, ht, hi⟩ := h (client 2) [0, 0, 0, 0] force0 forcedInStop (by decide +kernel) (by decide +kernel) (by decide +kernel)
    (by decide +kernel) (by decide +kernel) (by decide +kernel)
  have hp := forcedInStop_publishes
  rw [ht, leaves, hi] at hp
  exact absurd rfl (of_decide_eq_false hp)

/-! ### O37: a slot that is listed twice -/

/-- A controller that sends from slot 0, which its list of slots holds twice. -/
def doubledSlot : State := (stateIn .stop).modCan0 (fun c => { c with onBus := some 0, slots := [(0, default), (0, default)] })

theorem doubledSlot_stays :
    leaves (fun t => (mget (canOf t 0).slots 0).isSome) (exec (.canTxComplete 0) doubledSlot) = true := by decide +kernel

/-- Refutes O37: the completion takes one entry of the slot off, and a second one, which the statement does not exclude, stays. -/
theorem not_canTransmission : ¬ Obligations.CanTransmission := by
  unfold Obligations.CanTransmission
  rintro ⟨-, h, -⟩
  obtain ⟨t, ht, -, hs, -⟩ := h 0 0 default doubledSlot (by decide) (by decide +kernel) (by decide +kernel) (by decide +kernel) (by decide)
  have hd := doubledSlot_stays
  rw [ht, leaves, hs] at hd
  cases hd

end Sys2Proof.Machine
end

section
/-!
SUPPORT. The interrupt contexts and the clock contexts of the core pairs.
-/

namespace Sys2Proof.Machine

/-! ### Pending bits -/

theorem edge_of_event {i : Intc} {n : Nat} (hr : reservedSrc n = false) (hl : levelSources.contains n = false) :
    i.edge n = { i with pend := i.pend ||| BitVec.twoPow 128 n } := by
  unfold Intc.edge
  rw [hr, hl]
  rfl

theorem cpOf_raiseIrq_intc (s : State) (n : Nat) (d : Cp) : (cpOf (raiseIrq s n) d).intc = (cpOf s d).intc.edge n := by
  cases d <;> rfl

theorem getLsbD_or_twoPow {w : Nat} (v : BitVec w) {i : Nat} (n : Nat) (h : i < w) :
    (v ||| BitVec.twoPow w n).getLsbD i = (v.getLsbD i || decide (i = n)) := by
  rw [BitVec.getLsbD_or, BitVec.getLsbD_twoPow]
  by_cases hi : i = n
  · subst hi
    simp [h]
  · simp [hi, Ne.symm hi]

theorem swBit_event {k : Nat} (h : k < 8) : reservedSrc (120 + k) = false ∧ levelSources.contains (120 + k) = false := by
  interval_cases k <;> decide

/-- SWSET raises each of its eight sources whose bit is set, in both contexts. -/
theorem swset_pend (l : List Nat) (hl : ∀ k ∈ l, k < 8) (v : W32) (s : State) (d : Cp) {i : Nat} (hi : i < 128) :
    (cpOf (l.foldl (fun s i => if v.getLsbD i then raiseIrq s (120 + i) else s) s) d).intc.pend.getLsbD i =
      ((cpOf s d).intc.pend.getLsbD i || l.any (fun k => v.getLsbD k && decide (i = 120 + k))) := by
  induction l generalizing s with
  | nil => simp
  | cons k l ih =>
    rw [List.foldl_cons, ih (fun j hj => hl j (List.mem_cons_of_mem _ hj)), List.any_cons]
    cases hv : v.getLsbD k with
    | false => simp
    | true =>
      obtain ⟨hr, hn⟩ := swBit_event (hl k List.mem_cons_self)
      rw [if_pos rfl, cpOf_raiseIrq_intc, edge_of_event hr hn, getLsbD_or_twoPow _ _ hi, Bool.true_and, Bool.or_assoc]

theorem swset_any (v : W32) {i : Nat} (hi : i < 128) :
    (List.range 8).any (fun k => v.getLsbD k && decide (i = 120 + k)) = (decide (120 ≤ i) && v.getLsbD (i - 120)) := by
  rw [Bool.eq_iff_iff]
  simp only [List.any_eq_true, List.mem_range, Bool.and_eq_true, decide_eq_true_eq]
  refine ⟨?_, fun ⟨hi', hv⟩ => ⟨i - 120, by omega, hv, by omega⟩⟩
  rintro ⟨k, hk, hv, rfl⟩
  exact ⟨by omega, by rwa [Nat.add_sub_cancel_left]⟩

/-! ### The clock of a core pair -/

theorem takeInterrupt_clk (s : State) (c : Cp) : (cpOf (takeInterrupt s c) c).clk = (cpOf s c).clk := by
  unfold takeInterrupt
  dsimp only
  split_ifs
  · rw [cpOf_modCp_same]
    rfl
  · rfl

/-- What wakes a core pair that sleeps is noted and counted. -/
theorem wakeCore_of_cause {s : State} {c : Cp} (ha : (cpOf s c).clk.asleep = true)
    (h : callPosted s c = true ∨ (firstPresented s c).isSome = true) :
    (cpOf (wakeCore s c) c).clk.asleep = false ∧ (cpOf (wakeCore s c) c).clk.byCall = callPosted s c ∧
      (cpOf (wakeCore s c) c).clk.wakes = (cpOf s c).clk.wakes.inc := by
  unfold wakeCore
  dsimp only
  rw [if_neg (by rw [ha]; decide)]
  cases hc : callPosted s c with
  | true =>
    rw [if_pos rfl, modClk, cpOf_modCp_same]
    exact ⟨rfl, rfl, rfl⟩
  | false =>
    obtain ⟨n, hn⟩ := Option.isSome_iff_exists.mp (h.resolve_left (by rw [hc]; decide))
    rw [if_neg (by decide), hn, Option.orElse_some]
    dsimp only
    rw [takeInterrupt_clk, modClk, cpOf_modCp_same]
    exact ⟨rfl, rfl, rfl⟩

theorem execHoldExpire_ends {c : Cp} {n us : Nat} {w : W64} {s : State} (hc : clocksRun s = true)
    (hh : mget (cpOf s c).intc.heldFrom n = some (w, us)) (he : rUs us ≤ (s.time.raw - w).toNat) :
    Res.ends (fun t => (cpOf t c).intc = { (cpOf s c).intc with heldFrom := mdel (cpOf s c).intc.heldFrom n }) (execHoldExpire c n s) := by
  unfold execHoldExpire
  rw [if_neg (by rw [hc]; decide), hh]
  dsimp only
  rw [if_pos (past_some he)]
  refine iteInduction (fun _ => Res.ends_next ?_) (fun _ => Res.ends_next ?_)
  · rw [modClk, cpOf_modCp_same, modIntc, cpOf_modCp_same]
  · rw [modIntc, cpOf_modCp_same]

theorem execInterruptEvent_of_edge {c : Cp} {n : Nat} {s : State} (hl : levelSources.contains n = false) :
    execInterruptEvent c n s = .next (modIntc s c (fun i => i.edge n)) := by
  unfold execInterruptEvent
  dsimp only
  exact if_neg (by rw [hl]; simp)

/-! ### The register writes -/

theorem execIntcClaim_of_access {c : Cp} {v : W32} {s : State} (ha : mayAccess s c.master 0x40000030 kWrite = true)
    (h0 : v.toNat % 128 ≠ 0) (hr : reservedSrc (v.toNat % 128) = false) (hc : (cpOf s c).intc.claimed.getLsbD (v.toNat % 128) = false) :
    execIntcClaim c v s = .next (modIntc s c (fun i => { i with
      claimed := setBit i.claimed (v.toNat % 128) true, pend := setBit i.pend (v.toNat % 128) false })) := by
  unfold execIntcClaim
  dsimp only
  rw [port_of_access ha, if_neg (by rw [hr, hc]; simp [h0])]

theorem execIntcComplete_of_access {c : Cp} {v : W32} {s : State} (ha : mayAccess s c.master 0x40000034 kWrite = true)
    (h0 : v.toNat % 128 ≠ 0) (hr : reservedSrc (v.toNat % 128) = false) :
    execIntcComplete c v s = if (cpOf s c).intc.claimed.getLsbD (v.toNat % 128) then
      .next (modIntc s c (fun i => { i with
        claimed := setBit i.claimed (v.toNat % 128) false
        heldFrom := if mgetD i.holds (v.toNat % 128) 0 = 0 then mdel i.heldFrom (v.toNat % 128)
          else mset i.heldFrom (v.toNat % 128) (s.time.raw, mgetD i.holds (v.toNat % 128) 0) }))
      else .next (modIntc s c (fun i => { i with stray := i.stray.inc })) := by
  unfold execIntcComplete
  dsimp only
  rw [port_of_access ha, if_neg (by rw [hr]; simp [h0])]

theorem execIntcSwset_of_access {c : Cp} (v : W32) {s : State} (ha : mayAccess s c.master 0x4000003C kWrite = true) :
    execIntcSwset c v s = .next ((List.range 8).foldl (fun s i => if v.getLsbD i then raiseIrq s (120 + i) else s) s) := by
  unfold execIntcSwset
  rw [port_of_access ha]

theorem execIntcStrayClear_of_access {c : Cp} {s : State} (ha : mayAccess s c.master 0x40000038 kWrite = true) :
    execIntcStrayClear c s = .next (modIntc s c (fun i => { i with stray := Ctr16.reset })) := by
  unfold execIntcStrayClear
  rw [port_of_access ha]

theorem execClkWakesClear_of_access {c : Cp} {s : State} (ha : mayAccess s c.master 0x4009000C kWrite = true) :
    execClkWakesClear c s = .next (modClk s c (fun k => { k with wakes := Ctr16.reset })) := by
  unfold execClkWakesClear
  rw [port_of_access ha]

theorem execWfi_of_idle {c : Cp} {s : State} (hr : coreRuns s c = true) (hs : (cpOf s c).clk.sleep = true)
    (hf : firstPresented s c = none) (hc : callOut s c = false) :
    execWfi c s = .next (modClk s c (fun k => { k with asleep := true, holdHit := none, latch := none })) := by
  unfold execWfi
  rw [if_neg (by rw [hr]; decide), if_pos (by rw [hs, hf, hc]; decide)]

/-- Settles O53: a register write meets its branch, and a wake, whatever its cause, notes the same. -/
theorem interruptsAndClocks : Obligations.InterruptsAndClocks := by
  unfold Obligations.InterruptsAndClocks
  refine ⟨fun c n s hr hl => ?_, fun c v s ha h0 hr hc => execIntcClaim_of_access ha h0 hr hc, fun c v s ha h0 hr hc => ?_,
    fun c v s ha h0 hr hc => (execIntcComplete_of_access ha h0 hr).trans (if_neg (by rw [hc]; decide)), fun c v s ha => ?_,
    fun c s ha => execIntcStrayClear_of_access ha, fun c s ha => execClkWakesClear_of_access ha,
    fun c n us w s hc hh he => execHoldExpire_ends hc hh he, fun c s hr hs hf hc => execWfi_of_idle hr hs hf hc, fun c s hp ha h => ?_⟩
  · refine (execInterruptEvent_of_edge hl).trans ?_
    simp only [modIntc, edge_of_event hr hl]
  · refine ⟨_, (execIntcComplete_of_access ha h0 hr).trans (if_pos hc), ?_⟩
    rw [modIntc, cpOf_modCp_same]
    refine ⟨rfl, rfl, fun hu => ?_⟩
    change mget (if _ then _ else _) _ = _
    rw [if_neg (Nat.ne_of_gt hu), mget_mset, if_pos rfl]
  · refine ⟨_, execIntcSwset_of_access v ha, fun d i hi => ?_⟩
    rw [swset_pend _ (fun k hk => List.mem_range.mp hk) v s d hi, swset_any v hi]
  · exact ⟨_, if_neg (by rw [hp]; decide), wakeCore_of_cause ha h⟩

end Sys2Proof.Machine
end

section
/-!
SUPPORT. The reception of the CAN controllers, their errors, and the Bells.
-/

namespace Sys2Proof.Machine

/-! ### What a controller keeps where it settles -/

/-- Two states of a controller that differ in what its bus and its transfers do, in the slots and in the reception counter at most. -/
structure CanSt.sameReception (a b : CanSt) : Prop where
  pails : b.pails = a.pails
  placed : b.placed = a.placed
  lost : b.lost = a.lost
  fid : b.fid = a.fid
  fmask : b.fmask = a.fmask

theorem CanSt.sameReception.refl (a : CanSt) : a.sameReception a := ⟨rfl, rfl, rfl, rfl, rfl⟩

theorem CanSt.sameReception.trans {a b c : CanSt} (h : a.sameReception b) (g : b.sameReception c) : a.sameReception c :=
  ⟨g.pails.trans h.pails, g.placed.trans h.placed, g.lost.trans h.lost, g.fid.trans h.fid, g.fmask.trans h.fmask⟩

theorem CanSt.sameReception.filters {a b : CanSt} (h : a.sameReception b) (f : CanFrame) : filterMatches b f = filterMatches a f := by
  funext k
  unfold filterMatches
  rw [h.fid, h.fmask]

/-- The errors of a controller: its counters and the last error. -/
structure CanSt.sameErrors (a b : CanSt) : Prop where
  errCode : b.errCode = a.errCode
  errData : b.errData = a.errData
  tec : b.tec = a.tec
  rxErr : b.rxErr = a.rxErr

theorem CanSt.sameErrors.trans {a b c : CanSt} (h : a.sameErrors b) (g : b.sameErrors c) : a.sameErrors c :=
  ⟨g.errCode.trans h.errCode, g.errData.trans h.errData, g.tec.trans h.tec, g.rxErr.trans h.rxErr⟩

/-- Two states of a controller that differ in its state, the frame on the bus and the transfers at most. -/
structure CanSt.settled (a b : CanSt) : Prop where
  reception : a.sameReception b
  errors : a.sameErrors b

theorem CanSt.settled.refl (a : CanSt) : a.settled a := ⟨.refl a, ⟨rfl, rfl, rfl, rfl⟩⟩

theorem CanSt.settled.trans {a b c : CanSt} (h : a.settled b) (g : b.settled c) : a.settled c :=
  ⟨h.reception.trans g.reception, h.errors.trans g.errors⟩

theorem modCan_settled {s : State} {n : Nat} {f : CanSt → CanSt} (h : (canOf s n).settled (f (canOf s n))) :
    (canOf s n).settled (canOf (modCan s n f) n) := by
  rwa [canOf_modCan]

theorem setCanState_settled (s : State) (n : Nat) (st : BitVec 3) : (canOf s n).settled (canOf (setCanState s n st) n) := by
  rw [canOf_setCanState]
  exact ⟨⟨rfl, rfl, rfl, rfl, rfl⟩, ⟨rfl, rfl, rfl, rfl⟩⟩

theorem canArb_settled (s : State) (n : Nat) : (canOf s n).settled (canOf (canArb s n) n) := by
  unfold canArb
  split_ifs
  · exact modCan_settled ⟨⟨rfl, rfl, rfl, rfl, rfl⟩, ⟨rfl, rfl, rfl, rfl⟩⟩
  · exact .refl _

theorem abortTp_canOf (s : State) (n : Nat) : canOf (abortTp s n) n = { canOf s n with rx := none, tx := none, tpq := [] } := by
  unfold abortTp
  rw [canOf_modCan]
  split_ifs <;> rfl

theorem abortTp_settled (s : State) (n : Nat) : (canOf s n).settled (canOf (abortTp s n) n) := by
  rw [abortTp_canOf]
  exact ⟨⟨rfl, rfl, rfl, rfl, rfl⟩, ⟨rfl, rfl, rfl, rfl⟩⟩

theorem canSettle_settled (s : State) (n : Nat) : (canOf s n).settled (canOf (canSettle s n) n) := by
  unfold canSettle
  dsimp only
  split_ifs
  · exact (setCanState_settled ..).trans (abortTp_settled ..)
  · exact canArb_settled s n

theorem offBus_settled (s : State) (n : Nat) : (canOf s n).settled (canOf (offBus s n) n) := by
  unfold offBus
  split
  · refine modCan_settled ?_
    dsimp only
    split_ifs <;> exact ⟨⟨rfl, rfl, rfl, rfl, rfl⟩, ⟨rfl, rfl, rfl, rfl⟩⟩
  · exact .refl _

theorem busOff_settled (s : State) (n : Nat) : (canOf s n).settled (canOf (busOff s n) n) := by
  unfold busOff
  dsimp only
  have h : (canOf s n).settled (canOf (abortTp (modCan s n (fun c => { c with busOffs := c.busOffs.inc, onBus := none })) n) n) :=
    (modCan_settled ⟨⟨rfl, rfl, rfl, rfl, rfl⟩, ⟨rfl, rfl, rfl, rfl⟩⟩).trans (abortTp_settled ..)
  split_ifs
  · exact h.trans (canSettle_settled ..)
  · exact h.trans (setCanState_settled ..)
  · exact h

theorem rxGood_reception (s : State) (n : Nat) : (canOf s n).sameReception (canOf (rxGood s n) n) := by
  have hd : ∀ (u : State) (f : DictSt → DictSt), canOf (u.modDict f) n = canOf u n := fun _ _ => rfl
  unfold rxGood
  dsimp only
  split_ifs
  · exact .refl _
  · rw [canOf_modCan]
    exact ⟨rfl, rfl, rfl, rfl, rfl⟩
  · rw [hd, canOf_modCan]
    exact ⟨rfl, rfl, rfl, rfl, rfl⟩

theorem arbLost_eq (s : State) (n : Nat) : arbLost s n = canSettle (offBus s n) n := rfl

/-- What the reception of a frame does before the filters see it. -/
def heardFrame (s : State) (n : Nat) : State := arbLost (setCanState (rxGood s n) n (errState (canOf (rxGood s n) n))) n

theorem heardFrame_reception (s : State) (n : Nat) : (canOf s n).sameReception (canOf (heardFrame s n) n) := by
  unfold heardFrame
  rw [arbLost_eq]
  exact (rxGood_reception s n).trans ((setCanState_settled ..).trans ((offBus_settled ..).trans (canSettle_settled ..))).reception

/-- The pail that a frame enters, or what is lost. -/
def frameTaken (s : State) (n : Nat) (f : CanFrame) : State :=
  match (List.range 32).find? (filterMatches (canOf s n) f) with
  | none => s
  | some k =>
    if 64 ≤ (canOf s n).pails.length then modCan s n (fun c => { c with rxovf := true, lost := c.lost.inc })
    else pulseNow (modCan s n (fun c => { c with pails := c.pails ++ [(f, k)], placed := c.placed.inc })) (44 + n)

theorem execCanFrameReceive_of_live {n : Nat} {f : CanFrame} {s : State} (hn : n < 2) (hl : canLive s n = true)
    (hi : idMatches (canCfg s n).reqId f = false) : execCanFrameReceive n f s = .next (frameTaken (heardFrame s n) n f) := by
  have hc : canCfg (heardFrame s n) n = canCfg s n := by
    have hf : s.onlyChanges [.n0, .n1, .can0, .can1, .dict, .log] (heardFrame s n) :=
      .andThen (arbLost_frame ..) rfl (.andThen (setCanState_frame ..) rfl (.andThen (rxGood_frame ..) rfl (.refl ..)))
    have hb : (heardFrame s n).boot = s.boot := hf.same .boot (by decide)
    simp only [canCfg, pkgD, pkgOf, hb]
  unfold execCanFrameReceive
  rw [if_neg (Nat.not_le.mpr hn), if_neg (by rw [hl]; decide)]
  change (ite (idMatches (canCfg (heardFrame s n) n).reqId f = true) _ _ : Res) = _
  rw [hc, if_neg (by rw [hi]; decide)]
  change (match (List.range 32).find? (filterMatches (canOf (heardFrame s n) n) f) with
    | none => _
    | some k => ite (64 ≤ (canOf (heardFrame s n) n).pails.length) _ _ : Res) = _
  unfold frameTaken
  generalize (List.range 32).find? (filterMatches (canOf (heardFrame s n) n) f) = o
  cases o with
  | none => rfl
  | some k =>
    dsimp only
    split_ifs <;> rfl

theorem frameTaken_effect (s : State) (n : Nat) (f : CanFrame) :
    ((List.range 32).find? (filterMatches (canOf s n) f) = none → frameTaken s n f = s) ∧
    (∀ k, (List.range 32).find? (filterMatches (canOf s n) f) = some k → 64 ≤ (canOf s n).pails.length →
      canOf (frameTaken s n f) n = { canOf s n with rxovf := true, lost := (canOf s n).lost.inc }) ∧
    (∀ k, (List.range 32).find? (filterMatches (canOf s n) f) = some k → (canOf s n).pails.length < 64 →
      canOf (frameTaken s n f) n = { canOf s n with pails := (canOf s n).pails ++ [(f, k)], placed := (canOf s n).placed.inc }) := by
  unfold frameTaken
  refine ⟨fun h => by rw [h], fun k h hp => ?_, fun k h hp => ?_⟩
  · rw [h]
    dsimp only
    rw [if_pos hp, canOf_modCan]
  · rw [h]
    dsimp only
    rw [if_neg (Nat.not_le.mpr hp), pulseNow, (pulse_frame ..).canOf_eq (by decide) (by decide), canOf_modCan]

/-! ### The register accesses of the owner -/

theorem canPort_of_access {n : Nat} {c : Cp} {o kind : Nat} {s : State} (hn : n < 2) (hc : canOwner s n = some c)
    (ha : mayAccess s c.master (0x40040000 + 0x1000 * n + o) kind = true) (f : State → Res) : canPort n o kind f s = f s :=
  (if_neg (Nat.not_le.mpr hn)).trans (ownerPort_of_access hc ha f)

theorem execCanLasterrRead_of_access {n : Nat} {c : Cp} {s : State} (held : W32) (hn : n < 2) (hc : canOwner s n = some c)
    (ha : mayAccess s c.master (0x40040000 + 0x1000 * n + 0x18) kRead = true) :
    execCanLasterrRead n s held = .next (send (modCan s n (fun c => { c with
      errCode := c.errCode &&& held.truncate 3, errData := c.errData && held.getLsbD 3 }))
      (.regRead (BitVec.ofNat 32 ((canOf s n).errCode.toNat + 8 * b2n (canOf s n).errData)))) :=
  canPort_of_access hn hc ha _

theorem canOf_send (s : State) (o : Out) (n : Nat) : canOf (send s o) n = canOf s n := rfl

theorem modCan_out (s : State) (n : Nat) (f : CanSt → CanSt) : (modCan s n f).out = s.out := (modCan_frame ..).same .out (by decide)

/-- A controller that is awake settles into the arbitration, whatever its state. -/
theorem canSettle_of_awake {s : State} {n : Nat} (h : (canOf s n).sleep = false) : canSettle s n = canArb s n := by
  unfold canSettle
  dsimp only
  exact if_neg (by rw [h]; simp)

theorem canArb_canOf (s : State) (n : Nat) : canOf (canArb s n) n = { canOf s n with onBus := (canOf (canArb s n) n).onBus } := by
  unfold canArb
  split_ifs
  · rw [canOf_modCan]
  · rfl

theorem execCanRecoveryDone_ends {n : Nat} {s : State} (hn : n < 2) (hm : s.ctl.mode ≠ .silent) (hs : (canOf s n).state = 3)
    (hl : (canOf s n).sleep = false) :
    Res.ends (fun t => (canOf t n).state = 0 ∧ (canOf t n).tec = 0 ∧ (canOf t n).rxErr = 0) (execCanRecoveryDone n s) := by
  unfold execCanRecoveryDone
  rw [if_neg (by rw [clocksRun_of_ne hm]; decide), if_neg (by simp [hs, hn])]
  refine Res.ends_next ?_
  rw [canSettle_of_awake (by rw [canOf_setCanState, canOf_modCan]; exact hl), canArb_canOf, canOf_setCanState, canOf_modCan]
  exact ⟨rfl, rfl, rfl⟩

theorem errorTaken_settled (s : State) (n : Nat) (e : CanErr) : ((canOf s n).error e).settled (canOf (errorTaken s n e) n) := by
  have h := (setCanState_settled (modCan s n (fun c => c.error e)) n (errState ((canOf s n).error e))).trans (offBus_settled ..)
  rwa [canOf_modCan] at h

theorem CanSt.error_last (c : CanSt) (e : CanErr) :
    (c.error e).errCode = e.code ∧ (c.error e).errData = e.data ∧ (c.error e).pails = c.pails := by
  unfold CanSt.error
  dsimp only
  split_ifs <;> exact ⟨rfl, rfl, rfl⟩

/-- Settles O35: what a controller settles into leaves its pails, its filters and its errors alone. -/
theorem canReceptionAndErrors : Obligations.CanReceptionAndErrors := by
  refine ⟨fun n f s hn hl hi => ?_, fun n c s hn hc ha => canPort_of_access hn hc ha _, fun n e s hn hl => ?_,
    fun n c held s hn hc ha => ?_, fun n s hn hm hs hl => execCanRecoveryDone_ends hn hm hs hl, fun n c s hn hc ha hs => ?_⟩
  · have hr := heardFrame_reception s n
    obtain ⟨hnone, hfull, hroom⟩ := frameTaken_effect (heardFrame s n) n f
    rw [hr.filters] at hnone hfull hroom
    rw [hr.pails] at hfull hroom
    refine ⟨_, execCanFrameReceive_of_live hn hl hi, fun h => ?_, fun k h hp => ?_, fun k h hp => ?_⟩
    · rw [hnone h]
      exact ⟨hr.pails, hr.placed, hr.lost⟩
    · rw [hfull k h hp]
      exact ⟨hr.pails, rfl, by rw [← hr.lost]⟩
    · rw [hroom k h hp]
      exact ⟨by rw [← hr.pails], by rw [← hr.placed], hr.lost⟩
  · have ht : (canOf s n).error e |>.settled (canOf (if errState ((canOf s n).error e) = 2 then busOff (errorTaken s n e) n
        else canSettle (errorTaken s n e) n) n) := by
      split_ifs
      · exact (errorTaken_settled ..).trans (busOff_settled ..)
      · exact (errorTaken_settled ..).trans (canSettle_settled ..)
    obtain ⟨hcode, hdata, hpails⟩ := (canOf s n).error_last e
    exact ⟨_, exec_canBusError_of_live e hn hl, ht.errors.errCode.trans hcode, ht.errors.errData.trans hdata, ht.errors.tec,
      ht.errors.rxErr, ht.reception.pails.trans hpails⟩
  · refine ⟨_, execCanLasterrRead_of_access held hn hc ha, ?_, ?_, ?_⟩
    · change (modCan s n _).out ++ _ = _
      rw [modCan_out]
    · rw [canOf_send, canOf_modCan]
    · rw [canOf_send, canOf_modCan]
  · refine ⟨setCanState s n 3, (canPort_of_access (o := 0) hn hc ha _).trans (if_neg (by rw [hs]; decide)), ?_⟩
    rw [canOf_setCanState]
    exact ⟨rfl, rfl⟩

end Sys2Proof.Machine
end

section
/-!
SUPPORT. The sequence numbers of the module's own frames, and the Bells.
-/

namespace Sys2Proof.Machine

/-! ### What the start of a frame leaves -/

/-- The counters and the records of the network part that no start of a frame touches. -/
structure NetSt.sameNumbers (a b : NetSt) : Prop where
  modSeq : b.modSeq = a.modSeq
  pairSeq : b.pairSeq = a.pairSeq
  pubs : b.pubs = a.pubs
  supAt : b.supAt = a.supAt

theorem NetSt.sameNumbers.refl (a : NetSt) : a.sameNumbers a := ⟨rfl, rfl, rfl, rfl⟩

theorem NetSt.sameNumbers.trans {a b c : NetSt} (h : a.sameNumbers b) (g : b.sameNumbers c) : a.sameNumbers c :=
  ⟨g.modSeq.trans h.modSeq, g.pairSeq.trans h.pairSeq, g.pubs.trans h.pubs, g.supAt.trans h.supAt⟩

theorem sepAdd_numbers (s : State) (cw : Bool) (src : W48) (seq : W16) : s.net.sameNumbers (sepAdd s cw src seq).net := by
  unfold sepAdd
  simp only [State.modNet]
  split_ifs <;> exact ⟨rfl, rfl, rfl, rfl⟩

theorem startOn_numbers (s : State) (p : Port) (src : W48) (seq : W16) : s.net.sameNumbers (startOn s p src seq).2.net := by
  unfold startOn
  refine iteInduction (motive := fun r : Bool × State => s.net.sameNumbers r.2.net) (fun _ => .refl _) (fun _ => ?_)
  refine iteInduction (motive := fun r : Bool × State => s.net.sameNumbers r.2.net) (fun _ => .refl _) (fun _ => ?_)
  refine iteInduction (motive := fun r : Bool × State => s.net.sameNumbers r.2.net) (fun _ => ⟨rfl, rfl, rfl, rfl⟩) (fun _ => ?_)
  have h : s.net.sameNumbers (if p.ring then sepAdd s (p == .p1) src seq else s).net :=
    iteInduction (motive := fun u : State => s.net.sameNumbers u.net) (fun _ => sepAdd_numbers ..) (fun _ => .refl _)
  exact h.trans ⟨rfl, rfl, rfl, rfl⟩

theorem portSend_numbers (s : State) (p : Port) (seq : W16) (f : Frame) : s.net.sameNumbers (portSend s p seq f).net := by
  unfold portSend
  dsimp only
  split_ifs <;> exact startOn_numbers ..

theorem sourceUnder_numbers (s : State) (seq : W16) (ring station : Bool) (f : Frame) :
    s.net.sameNumbers (sourceUnder s seq ring station f).net :=
  foldl_keeps (P := fun u : State => s.net.sameNumbers u.net) (fun _ _ h => h.trans (portSend_numbers ..)) _ (.refl _)

/-- A frame under the module's own address takes the next module number. -/
theorem sourceFrame_modSeq (s : State) (ring station : Bool) (dst : W48) (vlan : Option (Nat × Nat)) (etype : W16) (b : Bytes) :
    (sourceFrame s false ring station dst vlan etype b).net.modSeq = s.net.modSeq + 1 := by
  unfold sourceFrame
  exact (sourceUnder_numbers ..).modSeq

/-! ### O38, the Bells -/

/-- The herd Bell leaves. -/
def bellFrame (s : State) : State := sourceFrame s false true true 0x03ED7240FFFF none (pkgD s 0x88B5 (·.etype)) (bellPayload s)

theorem execBellSendTimer_of_due {s : State} (hm : s.ctl.mode.canOn = true) (hd : (s.bell.lastAt.isNone ||
    past s s.bell.lastAt (rMs 1000)) = true) : execBellSendTimer s = .next ((bellFrame s).modBell (fun b => { b with
      count := b.count + 1, firstAt := b.firstAt.orElse (fun _ => some (bellFrame s).time.raw), lastAt := some (bellFrame s).time.raw,
      flags := bellFlags s, mode := BitVec.ofNat 8 (bellFrame s).ctl.mode.code })) := by
  unfold execBellSendTimer
  rw [if_pos (by rw [hm, hd]; rfl)]
  rfl

theorem bellFrame_frame (s : State) : s.onlyChanges [.out, .net, .integ] (bellFrame s) := sourceFrame_frame ..

theorem canArb_slots (s : State) (n : Nat) : (canOf (canArb s n) n).slots = (canOf s n).slots := by
  rw [canArb_canOf]

/-- The CAN Bell of controller `n` that is due. -/
def canBellFrame (s : State) (n : Nat) : CanFrame :=
  ⟨(canCfg s n).bellId &&& 0x1FFFFFFF, true, false, false, false, false, 8,
    beBytes 2 (herdAddr s).toNat ++ [s.bell.mode, s.bell.flags] ++ beBytes 4 (s.bell.count - 1).toNat⟩

theorem execCanBellSend_of_due {n : Nat} {w : W64} {s : State} (hn : n < 2) (hf : s.bell.firstAt = some w)
    (h : setting s (0x1501 + n) 8 0 = 1 ∧ (canCfg s n).bellId ≠ 0xFFFFFFFF ∧ s.ctl.mode.canOn = true ∧ (canOf s n).state ≠ 4 ∧
      (canOf s n).state ≠ 5 ∧ (canOf s n).bellK * rMs (setting s (0x1501 + n) 0x0A 1000) ≤ elapsed s w) :
    execCanBellSend n s = .next (modCan (putSlot s n 31 (canBellFrame s n)) n (fun c => { c with
      bellK := elapsed (putSlot s n 31 (canBellFrame s n)) w / rMs (setting s (0x1501 + n) 0x0A 1000) + 1 })) := by
  unfold execCanBellSend
  rw [if_neg (Nat.not_le.mpr hn), hf]
  exact if_pos h

theorem execCanBellSend_without {n : Nat} {s : State} (h : (canCfg s n).bellId = 0xFFFFFFFF) : execCanBellSend n s = .next s := by
  unfold execCanBellSend
  split_ifs
  · rfl
  · split
    · rfl
    · exact if_neg (fun hc => hc.2.1 h)

theorem putSlot_slot (s : State) (n k : Nat) (f : CanFrame) : mget (canOf (putSlot s n k f) n).slots k = some ⟨f, (canOf s n).order⟩ := by
  unfold putSlot
  rw [canArb_slots, canOf_modCan]
  exact (mget_mset ..).trans (if_pos rfl)

theorem putSlot_raw (s : State) (n k : Nat) (f : CanFrame) : (putSlot s n k f).time = s.time :=
  (putSlot_frame s n k f).same .time (by decide)

/-- A conflict is logged, and raised in a run mode or noted. -/
theorem execBellReceive_of_conflict {a : W16} {m : W48} {s : State} (hm : s.ctl.mode ≠ .silent) (ha : a = herdAddr s)
    (hk : m ≠ moduleMac s) (hp : (pkgOf s).isSome = true) : execBellReceive a m s =
      if s.ctl.mode.run then .next ((logEvent s ltNet (conflictBody m)).modInteg (fun g => { g with conflict := true }))
      else .next ((logEvent s ltNet (conflictBody m)).modCtl (fun c => { c with conflictSeen := true })) := by
  have hr : (logEvent s ltNet (conflictBody m)).ctl = s.ctl := (logEvent_frame ..).same .ctl (by decide)
  unfold execBellReceive
  rw [if_neg (by rw [clocksRun_of_ne hm]; decide), if_pos ⟨ha, hk, hp⟩]
  dsimp only
  rw [hr]

/-- Settles O38: a Bell is counted, numbered and noted where it leaves, and only a conflict changes anything where one arrives. -/
theorem bells : Obligations.Bells := by
  refine ⟨fun s hm hd => ?_, fun n w s hn hf hs hm h4 h5 hk hi => ?_, fun n s h => execCanBellSend_without h, fun a m s hm ha hk hp => ?_,
    fun a m s h => ?_⟩
  · have hdue : (s.bell.lastAt.isNone || past s s.bell.lastAt (rMs 1000)) = true := by
      rcases hd with hd | ⟨w, hw, hd⟩
      · rw [hd]
        rfl
      · rw [hw, past_some (show rMs 1000 ≤ _ from hd), Bool.or_true]
    have hfr := bellFrame_frame s
    have hbell : (bellFrame s).bell = s.bell := hfr.same .bell (by decide)
    have htime : (bellFrame s).time = s.time := hfr.same .time (by decide)
    have hseq : (bellFrame s).net.modSeq = s.net.modSeq + 1 := sourceFrame_modSeq ..
    refine ⟨_, execBellSendTimer_of_due hm hdue, ?_, ?_, ?_, hseq, ?_⟩
    · change (bellFrame s).bell.count + 1 = _
      rw [hbell]
    · change some (bellFrame s).time.raw = _
      rw [htime]
    · rw [State.modBell_bell]
    · rw [State.modBell_out]
      rfl
  · refine ⟨_, execCanBellSend_of_due hn hf ⟨hs, hi, hm, h4, h5, hk⟩, ?_, ?_⟩
    · rw [canOf_modCan]
      change (mget (canOf (putSlot s n 31 (canBellFrame s n)) n).slots 31).map _ = _
      rw [putSlot_slot]
      rfl
    · rw [canOf_modCan]
      change elapsed _ w / _ + 1 = _
      unfold elapsed
      rw [putSlot_raw]
      rfl
  · refine ⟨_, (execBellReceive_of_conflict hm ha hk hp).trans (apply_ite Host.Outcome.next ..).symm, fun hr => ?_, fun hr => ?_⟩
    · rw [if_pos hr]
      exact ⟨rfl, (logEvent_frame ..).same .ctl (by decide)⟩
    · rw [if_neg (by rw [hr]; decide)]
      exact ⟨congrArg IntegSt.conflict ((logEvent_frame ..).same .integ (by decide)), rfl⟩
  · change execBellReceive a m s = _
    unfold execBellReceive
    split_ifs with hc hx
    · rfl
    · obtain ⟨ha, hm, hp⟩ := hx
      rcases h with h | h | h
      · exact absurd ha h
      · exact absurd h hm
      · exact absurd hp (by rw [h]; decide)
    · rfl

end Sys2Proof.Machine
end

section
/-!
SUPPORT. REF_IN, the pulses, the alarm and the latches of TIME.
-/

namespace Sys2Proof.Machine

/-! ### The qualification of REF_IN -/

/-- What of the time a switch of the reference leaves alone. -/
structure TimeSt.sameReference (a b : TimeSt) : Prop where
  refQ : b.refQ = a.refQ
  refDiff : b.refDiff = a.refDiff
  refLosses : b.refLosses = a.refLosses

theorem refSwitch_reference (s : State) : s.time.sameReference (refSwitch s).time := by
  unfold refSwitch
  dsimp only
  split_ifs <;> exact ⟨rfl, rfl, rfl⟩

theorem refLose_reference (s : State) : (refLose s).time.refQ = false ∧ (refLose s).time.refDiff = s.time.refDiff ∧
    (refLose s).time.refLosses = if s.time.refQ then s.time.refLosses.inc else s.time.refLosses := by
  unfold refLose
  split_ifs with hq
  · have h := refSwitch_reference (logTime (raiseIrq (s.modTime (fun t => { t with refQ := false, refLosses := t.refLosses.inc })) 21) 3
      (s.modTime (fun t => { t with refQ := false, refLosses := t.refLosses.inc })).time.lastOffset.toInt)
    have hl : ∀ (u : State) (c : Nat) (o : Int), (logTime u c o).time = u.time := fun u _ _ => (logEvent_frame u _ _).same .time (by decide)
    rw [hl] at h
    exact ⟨h.refQ, h.refDiff, h.refLosses⟩
  · exact ⟨Bool.eq_false_iff.mpr hq, rfl, rfl⟩

theorem execRefInQualify_ends (d : Int) (s : State) :
    Res.ends (fun t => t.time.refQ = decide (-5497558 ≤ d ∧ d ≤ 5497558) ∧ t.time.refDiff = d) (execRefInQualify d s) := by
  unfold execRefInQualify
  dsimp only
  refine iteInduction (fun h => Res.ends_next ?_) (fun h => Res.ends_next ?_)
  · have hn : ¬ (-5497558 ≤ d ∧ d ≤ 5497558) := by
      unfold ppm5 at h
      omega
    obtain ⟨hq, hd, -⟩ := refLose_reference (s.modTime (fun t => { t with refDiff := d }))
    exact ⟨hq.trans (decide_eq_false hn).symm, hd⟩
  · have hn : -5497558 ≤ d ∧ d ≤ 5497558 := by
      unfold ppm5 at h
      omega
    rw [decide_eq_true hn]
    refine iteInduction (motive := fun u : State => (refSwitch u).time.refQ = true ∧ (refSwitch u).time.refDiff = d) (fun _ => ?_) (fun _ => ?_)
    · have h := refSwitch_reference ((s.modTime (fun t => { t with refDiff := d })).modTime (fun t => { t with refQ := true }))
      exact ⟨h.refQ, h.refDiff⟩
    · have h := refSwitch_reference (raiseIrq ((s.modTime (fun t => { t with refDiff := d })).modTime (fun t => { t with refQ := true })) 21)
      exact ⟨h.refQ, h.refDiff⟩

/-! ### Whole seconds, the alarm, the latches -/

theorem pulse_time (s : State) (p : Nat) (v : W32) : (pulse s p v).time = s.time := (pulse_frame ..).same .time (by decide)

theorem execWholeSecond_ends {s : State} (h : s.time.secDone < timeNow s / 16000000000) :
    Res.ends (fun t => t.time = (if ppsDriven s then { s.time with
      secDone := timeNow s / 16000000000, ppsOut := true, ppsRoseAt := some s.time.raw } else { s.time with
      secDone := timeNow s / 16000000000 })) (execWholeSecond s) := by
  have hd : ppsDriven (s.modTime (fun t => { t with secDone := timeNow s / 16000000000 })) = ppsDriven s := rfl
  unfold execWholeSecond
  dsimp only
  rw [if_neg (Nat.not_le.mpr h)]
  refine Res.ends_next ?_
  rw [pulse_time]
  change (ite _ _ _ : State).time = _
  rw [hd]
  split_ifs <;> rfl

theorem fireAlarm_time (s : State) : (fireAlarm s).time = { s.time with almArm := false, almFired := true } := pulse_time ..

theorem execTimeGroupLatchRead_of_access {m : Master} {reg : Nat} {s : State} (ha : mayAccess s m (0x40030000 + reg) kRead = true) :
    execTimeGroupLatchRead reg s m = .next (send (timeRead s reg).2 (.regRead (timeRead s reg).1)) := by
  unfold execTimeGroupLatchRead
  rw [port_of_access ha]

theorem lowWord_ofNat (n : Nat) : (BitVec.ofNat 80 n).extractLsb' (32 * 0) 32 = BitVec.ofNat 32 n := by
  apply BitVec.eq_of_toNat_eq
  simp [BitVec.extractLsb'_toNat, BitVec.toNat_ofNat]

theorem lowWord_truncate {w : Nat} (v : BitVec w) : v.extractLsb' (32 * 0) 32 = v.truncate 32 := by
  apply BitVec.eq_of_toNat_eq
  simp [BitVec.extractLsb'_toNat]

/-- Settles O42: each command's part of TIME, beside the interrupts, the pulses and the log that go with it. -/
theorem referenceAndPulses : Obligations.ReferenceAndPulses := by
  refine ⟨execRefInQualify_ends, fun s => ?_, fun r s => ⟨_, rfl, rfl⟩, fun s h => execWholeSecond_ends h, fun s h => if_pos h,
    fun w s ho hw h => ?_, fun s h => ⟨_, if_pos h, fireAlarm_time s⟩, fun s hm => ?_, fun m s => ⟨fun ha => ?_, fun ha => ?_, fun ha => ?_, fun ha => ?_⟩,
    fun v s hm => ?_⟩
  · obtain ⟨hq, -, hl⟩ := refLose_reference s
    exact ⟨_, rfl, hq, hl⟩
  · refine if_pos ?_
    rw [ho, hw, past_some (show rMs 100 ≤ _ from h)]
    rfl
  · have hc : ¬ (!clocksRun s) = true := by rw [clocksRun_of_ne hm]; decide
    exact ⟨if_neg hc, if_neg hc⟩
  · refine (execTimeGroupLatchRead_of_access ha).trans ?_
    change Host.Outcome.next (send _ (.regRead ((BitVec.ofNat 80 (timeNow s)).extractLsb' (32 * 0) 32))) = _
    rw [lowWord_ofNat]
    rfl
  · refine (execTimeGroupLatchRead_of_access ha).trans ?_
    change Host.Outcome.next (send _ (.regRead (s.time.raw.extractLsb' (32 * 0) 32))) = _
    rw [lowWord_truncate]
    rfl
  · refine (execTimeGroupLatchRead_of_access ha).trans ?_
    change Host.Outcome.next (send _ (.regRead (s.time.ppsCap.extractLsb' (32 * 0) 32))) = _
    rw [lowWord_truncate]
    rfl
  · refine (execTimeGroupLatchRead_of_access ha).trans ?_
    change Host.Outcome.next (send _ (.regRead (s.time.frCount.extractLsb' (32 * 0) 32))) = _
    rw [lowWord_truncate]
    rfl
  · exact if_neg (by rw [clocksRun_of_ne hm]; decide)

end Sys2Proof.Machine
end

section
/-!
SUPPORT. The synchronisation of TIME by PTP: the Sync messages, the masters, the losses.
-/

namespace Sys2Proof.Machine

/-! ### What the servo, a step and a change of state leave of the synchronisation -/

/-- What the time takes from the grandmaster's messages. -/
structure TimeSt.sameSource (a b : TimeSt) : Prop where
  lastOffset : b.lastOffset = a.lastOffset
  lastSync : b.lastSync = a.lastSync
  twoStep : b.twoStep = a.twoStep
  portSync : b.portSync = a.portSync
  syncInterval : b.syncInterval = a.syncInterval
  masters : b.masters = a.masters
  gm : b.gm = a.gm

theorem TimeSt.sameSource.refl (a : TimeSt) : a.sameSource a := ⟨rfl, rfl, rfl, rfl, rfl, rfl, rfl⟩

theorem TimeSt.sameSource.trans {a b c : TimeSt} (h : a.sameSource b) (g : b.sameSource c) : a.sameSource c :=
  ⟨g.lastOffset.trans h.lastOffset, g.lastSync.trans h.lastSync, g.twoStep.trans h.twoStep, g.portSync.trans h.portSync,
    g.syncInterval.trans h.syncInterval, g.masters.trans h.masters, g.gm.trans h.gm⟩

/-- The same, with the history of the measurements. -/
structure TimeSt.sameSyncs (a b : TimeSt) : Prop where
  source : a.sameSource b
  syncs : b.syncs = a.syncs
  sinceChange : b.sinceChange = a.sinceChange

theorem TimeSt.sameSyncs.refl (a : TimeSt) : a.sameSyncs a := ⟨.refl a, rfl, rfl⟩

theorem TimeSt.sameSyncs.trans {a b c : TimeSt} (h : a.sameSyncs b) (g : b.sameSyncs c) : a.sameSyncs c :=
  ⟨h.source.trans g.source, g.syncs.trans h.syncs, g.sinceChange.trans h.sinceChange⟩

theorem TimeSt.sameSyncs.of_eq {a b : TimeSt} (h : b = a) : a.sameSyncs b := h ▸ .refl a

theorem logTime_time (s : State) (c : Nat) (o : Int) : (logTime s c o).time = s.time := (logEvent_frame ..).same .time (by decide)

theorem mjSend_time (s : State) (m : MjMsg) : (mjSend s m).time = s.time := (mjSend_frame ..).same .time (by decide)

theorem setAgreed_syncs (s : State) (o : TimeState) : s.time.sameSyncs (setAgreed s o).time := by
  unfold setAgreed
  split_ifs
  · exact .refl _
  · exact ⟨⟨rfl, rfl, rfl, rfl, rfl, rfl, rfl⟩, rfl, rfl⟩

theorem setAgreed_own (s : State) (o : TimeState) : (setAgreed s o).time.own = s.time.own := by
  unfold setAgreed
  split_ifs <;> rfl

theorem announce_time (s : State) (a : Announce) : (announce s a).time = { s.time with announced := s.time.announced ++ [a] } := mjSend_time ..

theorem setOwnTime_syncs (s : State) (st : TimeState) : s.time.sameSyncs (setOwnTime s st).time := by
  have hl : ∀ (u : State) (o : Int), s.time.sameSyncs u.time → s.time.sameSyncs (logTime u 1 o).time := fun u o h => logTime_time u 1 o ▸ h
  unfold setOwnTime
  refine iteInduction (motive := fun u : State => s.time.sameSyncs u.time) (fun _ => .refl _) (fun _ => ?_)
  have hm := hl (s.modTime (fun t => { t with
      own := st, lockedAt := if st = .locked then some s.time.raw else t.lockedAt,
      holdAt := if st = .holdover then some s.time.raw else t.holdAt,
      holdovers := if st = .holdover then t.holdovers.inc else t.holdovers })) s.time.lastOffset.toInt
    ⟨⟨rfl, rfl, rfl, rfl, rfl, rfl, rfl⟩, rfl, rfl⟩
  refine iteInduction (motive := fun u : State => s.time.sameSyncs u.time) (fun _ => hm.trans (setAgreed_syncs ..)) (fun _ => ?_)
  refine iteInduction (motive := fun u : State => s.time.sameSyncs u.time) (fun _ => hm.trans ?_) (fun _ => hm)
  rw [announceState, announce_time]
  exact ⟨⟨rfl, rfl, rfl, rfl, rfl, rfl, rfl⟩, rfl, rfl⟩

theorem setOwnTime_own (s : State) (st : TimeState) : (setOwnTime s st).time.own = st := by
  have hl : ∀ (u : State) (o : Int), u.time.own = st → (logTime u 1 o).time.own = st := fun u o h => by rw [logTime_time, h]
  unfold setOwnTime
  refine iteInduction (motive := fun u : State => u.time.own = st) id (fun _ => ?_)
  have hm := hl (s.modTime (fun t => { t with
      own := st, lockedAt := if st = .locked then some s.time.raw else t.lockedAt,
      holdAt := if st = .holdover then some s.time.raw else t.holdAt,
      holdovers := if st = .holdover then t.holdovers.inc else t.holdovers })) s.time.lastOffset.toInt rfl
  refine iteInduction (motive := fun u : State => u.time.own = st) (fun _ => (setAgreed_own ..).trans hm) (fun _ => ?_)
  refine iteInduction (motive := fun u : State => u.time.own = st) (fun _ => ?_) (fun _ => hm)
  rw [announceState, announce_time]
  exact hm

theorem fireAlarm_source (s : State) : s.time.sameSource (fireAlarm s).time := by
  rw [fireAlarm_time]
  exact ⟨rfl, rfl, rfl, rfl, rfl, rfl, rfl⟩

theorem applyStepAt_source (s : State) (r : W64) (o : Int) : s.time.sameSource (applyStepAt s r o).time := by
  have hr : ∀ (u : State) (i : Nat), (raiseIrq u i).time = u.time := fun _ _ => rfl
  unfold applyStepAt
  dsimp only
  generalize hu : raiseIrq _ 18 = u
  have h1 : s.time.sameSource u.time := by
    rw [← hu, hr, logTime_time]
    exact ⟨rfl, rfl, rfl, rfl, rfl, rfl, rfl⟩
  generalize hv : (if u.time.own = .unset then setOwnTime u (if u.time.gm.isNone then .freerun else .slewing) else u) = v
  have h2 : s.time.sameSource v.time := by
    rw [← hv]
    split_ifs
    · exact h1.trans (setOwnTime_syncs ..).source
    · exact h1.trans (setOwnTime_syncs ..).source
    · exact h1
  split_ifs
  · exact h2.trans (fireAlarm_source v)
  · exact h2

theorem decideStep_source (s : State) (o : Int) : s.time.sameSource (decideStep s o).time := by
  unfold decideStep
  refine iteInduction (motive := fun u : State => s.time.sameSource u.time) (fun _ => applyStepAt_source ..) (fun _ => ?_)
  refine iteInduction (motive := fun u : State => s.time.sameSource u.time) (fun _ => ?_) (fun _ => ⟨rfl, rfl, rfl, rfl, rfl, rfl, rfl⟩)
  refine iteInduction (motive := fun u : State => s.time.sameSource u.time) (fun _ => ?_) (fun _ => .refl _)
  rw [announce_time]
  exact ⟨rfl, rfl, rfl, rfl, rfl, rfl, rfl⟩

theorem servoState_source (s : State) (i : Bool) : s.time.sameSource (servoState s i).time := by
  unfold servoState
  split_ifs
  · exact .refl _
  · exact (setOwnTime_syncs ..).source
  · exact (setOwnTime_syncs ..).source
  · exact .refl _

/-- The servo notes the offset and the instant; what it decides leaves them. -/
theorem servo_source (s : State) (o : Int) (r : W64) :
    ({ s.time with lastOffset := sat32 (o / 16), lastSync := some s.time.raw } : TimeSt).sameSource (servo s o r).time := by
  unfold servo
  dsimp only
  generalize hu : s.modTime _ = u
  have h1 : ({ s.time with lastOffset := sat32 (o / 16), lastSync := some s.time.raw } : TimeSt).sameSource u.time := by
    rw [← hu]
    exact ⟨rfl, rfl, rfl, rfl, rfl, rfl, rfl⟩
  refine iteInduction (motive := fun v : State => TimeSt.sameSource _ v.time) (fun _ => h1) (fun _ => ?_)
  generalize hv : (if servoSteps u then (decideStep u (-o)).modTime (fun t => { t with overStep := 0 }) else u) = v
  have h2 : ({ s.time with lastOffset := sat32 (o / 16), lastSync := some s.time.raw } : TimeSt).sameSource v.time := by
    rw [← hv]
    split_ifs
    · exact h1.trans ((decideStep_source u (-o)).trans ⟨rfl, rfl, rfl, rfl, rfl, rfl, rfl⟩)
    · exact h1
  refine h2.trans (.trans ?_ (servoState_source ..))
  split_ifs
  · exact .refl _
  · exact ⟨rfl, rfl, rfl, rfl, rfl, rfl, rfl⟩

/-! ### A change of the master or of its port -/

/-- The masters that are known and the ports that their messages came by. -/
structure TimeSt.sameMasters (a b : TimeSt) : Prop where
  portSync : b.portSync = a.portSync
  syncInterval : b.syncInterval = a.syncInterval
  masters : b.masters = a.masters
  gm : b.gm = a.gm

theorem TimeSt.sameSource.sameMasters {a b : TimeSt} (h : a.sameSource b) : a.sameMasters b := ⟨h.portSync, h.syncInterval, h.masters, h.gm⟩

theorem TimeSt.sameMasters.refl (a : TimeSt) : a.sameMasters a := ⟨rfl, rfl, rfl, rfl⟩

theorem TimeSt.sameMasters.trans {a b c : TimeSt} (h : a.sameMasters b) (g : b.sameMasters c) : a.sameMasters c :=
  ⟨g.portSync.trans h.portSync, g.syncInterval.trans h.syncInterval, g.masters.trans h.masters, g.gm.trans h.gm⟩

theorem masterChange_masters (s : State) : s.time.sameMasters (masterChange s).time := by
  have hl : ∀ (u : State) (o : Int), s.time.sameMasters u.time → s.time.sameMasters (logTime u 2 o).time :=
    fun u o h => logTime_time u 2 o ▸ h
  have hm := hl (s.modTime (fun t => { t with
    syncs := [], sinceChange := 0, inLimit := 0, overStep := 0, twoStep := none, masterChanges := t.masterChanges.inc }))
    s.time.lastOffset.toInt ⟨rfl, rfl, rfl, rfl⟩
  unfold masterChange
  exact iteInduction (motive := fun u : State => s.time.sameMasters u.time) (fun _ => hm.trans (setOwnTime_syncs ..).source.sameMasters)
    (fun _ => hm)

theorem settlePort_masters (s : State) : s.time.sameMasters (settlePort s).time := by
  unfold settlePort
  refine iteInduction (motive := fun u : State => s.time.sameMasters u.time) (fun _ => .refl _) (fun _ => ?_)
  refine iteInduction (motive := fun u : State => s.time.sameMasters u.time) (fun _ => ⟨rfl, rfl, rfl, rfl⟩) (fun _ => ?_)
  have h := masterChange_masters (s.modTime (fun t => { t with portInUse := choosePort s }))
  exact ⟨h.portSync, h.syncInterval, h.masters, h.gm⟩

theorem chooseMaster_masters (s : State) : (chooseMaster s).time.masters = s.time.masters ∧
    (chooseMaster s).time.gm = (bestMaster s.time.masters).map (·.gm) := by
  unfold chooseMaster
  cases hb : bestMaster s.time.masters with
  | none =>
    refine iteInduction (motive := fun u : State => u.time.masters = s.time.masters ∧ u.time.gm = none) (fun h => ⟨rfl, by simpa using h⟩)
      (fun _ => ?_)
    have h := masterChange_masters (s.modTime (fun t => { t with gm := none, portInUse := none, portSync := [], inaccuracy := 0xFFFFFFFF }))
    exact ⟨h.masters, h.gm⟩
  | some a =>
    refine iteInduction (motive := fun u : State => u.time.masters = s.time.masters ∧ u.time.gm = some a.gm) (fun _ => ⟨rfl, rfl⟩) (fun _ => ?_)
    refine iteInduction (motive := fun u : State => u.time.masters = s.time.masters ∧ u.time.gm = some a.gm) (fun _ => ⟨rfl, rfl⟩) (fun _ => ?_)
    exact ⟨(masterChange_masters _).masters, (masterChange_masters _).gm⟩

theorem bestMaster_mem {l : List MasterRec} {a : PtpAnnounce} (h : bestMaster l = some a) : ∃ x ∈ l, x.ann = a := by
  have key : ∀ (l : List MasterRec) (b : Option PtpAnnounce),
      (l.foldl (fun (b : Option PtpAnnounce) m => match b with
        | none => some m.ann
        | some x => if keyLt (masterKey m.ann) (masterKey x) then some m.ann else some x) b) = some a → b = some a ∨ ∃ x ∈ l, x.ann = a := by
    intro l
    induction l with
    | nil => exact fun b h => .inl h
    | cons m l ih =>
      intro b h
      rcases ih _ h with h' | ⟨x, hx, he⟩
      · cases b with
        | none => exact .inr ⟨m, List.mem_cons_self, Option.some.inj h'⟩
        | some x =>
          dsimp only at h'
          split_ifs at h'
          · exact .inr ⟨m, List.mem_cons_self, Option.some.inj h'⟩
          · exact .inl h'
      · exact .inr ⟨x, List.mem_cons_of_mem _ hx, he⟩
  exact (key l none h).resolve_left (by simp)

/-- A grandmaster of which no record is left is not chosen. -/
theorem bestMaster_ne {l : List MasterRec} {g : W64} (h : ∀ x ∈ l, x.ann.gm ≠ g) : (bestMaster l).map (·.gm) ≠ some g := by
  intro hg
  obtain ⟨a, ha, he⟩ := Option.map_eq_some_iff.mp hg
  obtain ⟨x, hx, rfl⟩ := bestMaster_mem ha
  exact h x hx he

/-! ### The messages and the timers -/

theorem takeSync_ports (s : State) (m : PtpSync) : (takeSync s m).time.syncInterval = 16 * m.interval ∧
    mget (takeSync s m).time.portSync m.port = some s.time.raw := by
  obtain ⟨u, hu⟩ : ∃ u, u = settlePort (s.modTime (fun t => { t with
    syncInterval := rNs m.interval, portSync := mset t.portSync m.port s.time.raw })) := ⟨_, rfl⟩
  have h1 := settlePort_masters (s.modTime (fun t => { t with
    syncInterval := rNs m.interval, portSync := mset t.portSync m.port s.time.raw }))
  rw [← hu] at h1
  have h2 : u.time.sameMasters (takeSync s m).time := by
    unfold takeSync
    dsimp only
    rw [← hu]
    refine iteInduction (motive := fun v : State => u.time.sameMasters v.time) (fun _ => .refl _) (fun _ => ?_)
    refine iteInduction (motive := fun v : State => u.time.sameMasters v.time) (fun _ => ⟨rfl, rfl, rfl, rfl⟩) (fun _ => ?_)
    have h := (servo_source u (syncOffset u { m with ingress := quarter m.ingress } m.origin m.correction) (quarter m.ingress)).sameMasters
    exact ⟨h.portSync, h.syncInterval, h.masters, h.gm⟩
  have h := h1.trans h2
  refine ⟨h.syncInterval, ?_⟩
  rw [h.portSync]
  exact (mget_mset ..).trans (if_pos rfl)

theorem execPtpFollowUpReceive_of_pending {m : PtpSync} {a : W80} {q : W16} (o : Nat) (k : Int) {s : State} (ht : s.time.twoStep = some m)
    (ha : m.srcPort = a) (hq : m.seq = q) (hr : ptpRuns s = true) : execPtpFollowUpReceive a q o k s =
      .next (servo (s.modTime (fun t => { t with twoStep := none }))
        (syncOffset (s.modTime (fun t => { t with twoStep := none })) m o (m.correction + k)) m.ingress) := by
  unfold execPtpFollowUpReceive
  rw [ht]
  exact if_pos ⟨ha, hq, hr⟩

theorem execPtpFollowUpReceive_of_other {m : PtpSync} {a : W80} {q : W16} (o : Nat) (k : Int) {s : State} (ht : s.time.twoStep = some m)
    (h : m.srcPort ≠ a ∨ m.seq ≠ q) : execPtpFollowUpReceive a q o k s = .next s := by
  unfold execPtpFollowUpReceive
  rw [ht]
  refine if_neg (fun hc => ?_)
  exact h.elim (fun h => h hc.1) (fun h => h hc.2.1)

theorem execSyncLossTimer_ends {w : W64} {s : State} (hr : ptpRuns s = true) (hw : s.time.lastSync = some w)
    (h : 3 * s.time.syncInterval ≤ (s.time.raw - w).toNat) :
    Res.ends (fun t => t.time.syncs = [] ∧ t.time.sinceChange = 0 ∧ t.time.twoStep = none ∧
      t.time.own = (match s.time.own with | .locked => .holdover | .slewing => .freerun | o => o)) (execSyncLossTimer s) := by
  unfold execSyncLossTimer
  rw [if_pos (by rw [hr, hw, past_some h]; rfl)]
  dsimp only
  generalize hu : s.modTime _ = u
  have hs : u.time.syncs = [] ∧ u.time.sinceChange = 0 ∧ u.time.twoStep = none ∧ u.time.own = s.time.own := by
    rw [← hu]
    exact ⟨rfl, rfl, rfl, rfl⟩
  obtain ⟨h1, h2, h3, h4⟩ := hs
  have hset : ∀ st, (setOwnTime u st).time.syncs = [] ∧ (setOwnTime u st).time.sinceChange = 0 ∧ (setOwnTime u st).time.twoStep = none ∧
      (setOwnTime u st).time.own = st := fun st =>
    ⟨(setOwnTime_syncs ..).syncs.trans h1, (setOwnTime_syncs ..).sinceChange.trans h2, (setOwnTime_syncs ..).source.twoStep.trans h3,
      setOwnTime_own ..⟩
  rw [← h4]
  cases ho : u.time.own with
  | locked => exact Res.ends_next (hset _)
  | slewing => exact Res.ends_next (hset _)
  | unset => exact Res.ends_next ⟨h1, h2, h3, ho⟩
  | holdover => exact Res.ends_next ⟨h1, h2, h3, ho⟩
  | freerun => exact Res.ends_next ⟨h1, h2, h3, ho⟩

theorem execAnnounceReceiptTimeout_of_lost {g : W64} {s : State} (hr : ptpRuns s = true) (hg : s.time.gm = some g)
    (h : (s.time.masters.filter (fun x => decide ((s.time.raw - x.atRaw).toNat < 48 * x.ann.intervalNs))).any (fun x => x.ann.gm == g) =
      false) : execAnnounceReceiptTimeout s = .next (chooseMaster (s.modTime (fun t => { t with
        masters := s.time.masters.filter (fun x => decide ((s.time.raw - x.atRaw).toNat < 48 * x.ann.intervalNs)) }))) := by
  have hl : (fun x : MasterRec => decide (elapsed s x.atRaw < 3 * rNs x.ann.intervalNs)) =
      fun x => decide ((s.time.raw - x.atRaw).toNat < 48 * x.ann.intervalNs) := by
    funext x
    have h3 : 3 * rNs x.ann.intervalNs = 48 * x.ann.intervalNs := by
      unfold rNs
      omega
    rw [h3]
    rfl
  unfold execAnnounceReceiptTimeout
  rw [hl, hg]
  dsimp only
  rw [if_neg (by rw [h, hr]; decide)]

/-- Settles O40: what the servo decides leaves the messages' own notes alone, and a master is chosen among the live records. -/
theorem syncAndFollowUp : Obligations.SyncAndFollowUp := by
  refine ⟨fun m s hd hp hg hr => ⟨_, if_pos ⟨hd, hp, hg, hr⟩, takeSync_ports s m⟩, fun m a q o k s ht ha hq hr => ?_,
    fun m a q o k s ht h => execPtpFollowUpReceive_of_other o k ht h, fun m s hd hp hr => ?_, fun g s hr hg h => ?_,
    fun w s hr hw h => execSyncLossTimer_ends hr hw h, fun w s hr ho hw h => ?_⟩
  · have hs := servo_source (s.modTime (fun t => { t with twoStep := none }))
      (syncOffset (s.modTime (fun t => { t with twoStep := none })) m o (m.correction + k)) m.ingress
    exact ⟨_, execPtpFollowUpReceive_of_pending o k ht ha hq hr, hs.twoStep, hs.lastSync, hs.lastOffset⟩
  · have hn : ¬ (m.domain ≠ pkgD s 0 (·.ptpDomain) ∨ 4 ≤ m.port ∨ ptpRuns s = false) := by
      rw [hr]
      simp [hd, hp]
    exact ⟨_, if_neg hn, (chooseMaster_masters _).1⟩
  · have hf : (s.time.masters.filter (fun x => decide ((s.time.raw - x.atRaw).toNat < 48 * x.ann.intervalNs))).any
        (fun x => x.ann.gm == g) = false := by rwa [List.any_filter]
    obtain ⟨hm, hgm⟩ := chooseMaster_masters (s.modTime (fun t => { t with
      masters := s.time.masters.filter (fun x => decide ((s.time.raw - x.atRaw).toNat < 48 * x.ann.intervalNs)) }))
    refine ⟨_, execAnnounceReceiptTimeout_of_lost hr hg hf, hm, ?_⟩
    rw [hgm]
    exact bestMaster_ne (fun x hx he => by
      have := List.any_eq_false.mp hf x hx
      exact this (by rw [he]; exact beq_self_eq_true g))
  · have hl : rSec (holdLimit s) = 16000000000 * (if s.time.onRef then 1000 else 10) := rfl
    exact ⟨_, if_pos ⟨hr, ho, by rw [hw, hl]; exact past_some h⟩, setOwnTime_own ..⟩

end Sys2Proof.Machine
end

section
/-!
SUPPORT. PTP: the peer delay and the transparent clock.
-/

namespace Sys2Proof.Machine

/-! ### A message of the module's own on one port -/

theorem ptpPort_num {p : Nat} (h : p < 4) : (ptpPort p).num = p := by
  have hp : p = 0 ∨ p = 1 ∨ p = 2 ∨ p = 3 := by omega
  rcases hp with rfl | rfl | rfl | rfl <;> rfl

theorem lt_of_ptpUp {s : State} {p : Nat} (h : ptpUp s p = true) : p < 4 :=
  of_decide_eq_true (Bool.and_eq_true_iff.mp h).1

theorem portOf_ptpPort (s : State) {p : Nat} (h : p < 4) : portOf s (ptpPort p) = s.net.ports.getD p PortSt.reset := by
  unfold portOf
  rw [ptpPort_num h]

theorem ptpSend_of_whole {s : State} {p : Nat} (h : (portOf s (ptpPort p)).broken = false) (k : Nat) (q : W16) (c : Int) :
    ptpSend s p k q c = send (modPort s (ptpPort p) (fun x => { x with tx := x.tx.inc })) (.ptp (moduleMac s) p k q c) :=
  if_neg (by rw [h]; decide)

theorem ptpSend_of_broken {s : State} {p : Nat} (h : (portOf s (ptpPort p)).broken = true) (k : Nat) (q : W16) (c : Int) :
    ptpSend s p k q c = (modPort s (ptpPort p) (fun x => { x with broken := false })).modInteg (fun g => { g with parity := g.parity.inc }) :=
  if_pos h

theorem portOf_modPort_link {f : PortSt → PortSt} (hf : ∀ x, (f x).link = x.link) (s : State) (p : Port) (q : Nat) :
    ((modPort s p f).net.ports.getD q PortSt.reset).link = (s.net.ports.getD q PortSt.reset).link :=
  getD_lupd_keeps (g := PortSt.link) hf s.net.ports p.num q PortSt.reset

theorem ports_broken_of_all {s : State} (h : s.net.ports.all (fun x => !x.broken) = true) (p : Nat) :
    (s.net.ports.getD p PortSt.reset).broken = false := by
  by_cases hp : p < s.net.ports.length
  · have := List.all_eq_true.mp h _ (List.getElem_mem hp)
    rw [List.getD_eq_getElem _ _ hp]
    simpa using this
  · rw [List.getD_eq_default _ _ (Nat.le_of_not_lt hp)]
    rfl

/-! ### The requests of the timer -/

/-- Port `p` is up and has no request of the last second. -/
def pdDue (s : State) (p : Nat) : Bool :=
  ptpUp s p && ((s.time.pdelay.getD p Pdelay.reset).askedAt.isNone || past s (s.time.pdelay.getD p Pdelay.reset).askedAt (rSec 1))

/-- The measurement of port `p` under its next request, which leaves at `e`. -/
def pdAsked (s : State) (e : List W64) (p : Nat) : Pdelay :=
  { s.time.pdelay.getD p Pdelay.reset with
    seq := (s.time.pdelay.getD p Pdelay.reset).seq + 1, askedAt := some s.time.raw, sentAt := some (stampAt s (e.getD p s.time.raw)),
    answered := false }

/-- What the timer does for port `p`. -/
def pdAsk (e : List W64) (s : State) (p : Nat) : State :=
  if pdDue s p then
    ptpSend (modPd s p (fun x => { x with
      seq := x.seq + 1, askedAt := some s.time.raw, sentAt := some (stampAt s (e.getD p s.time.raw)), answered := false }))
      p ptpPdelayReq ((s.time.pdelay.getD p Pdelay.reset).seq + 1) 0
  else s

theorem execPdelayReqTimer_of_runs {s : State} (h : ownTraffic s = true) (e : List W64) :
    execPdelayReqTimer s e = .next ((List.range 4).foldl (pdAsk e) s) := by
  unfold execPdelayReqTimer
  rw [if_neg (by rw [h]; decide)]
  rfl

/-- State `u` after the first `k` ports of state `s` were asked. -/
structure pdAskedUpTo (s : State) (e : List W64) (k : Nat) (u : State) : Prop where
  raw : u.time.raw = s.time.raw
  mac : moduleMac u = moduleMac s
  length : u.time.pdelay.length = 4
  whole : ∀ p, (u.net.ports.getD p PortSt.reset).broken = false
  link : ∀ p, (u.net.ports.getD p PortSt.reset).link = (s.net.ports.getD p PortSt.reset).link
  asked : ∀ p, p < k → pdDue s p = true → u.time.pdelay.getD p Pdelay.reset = pdAsked s e p ∧
    Out.ptp (moduleMac s) p ptpPdelayReq ((s.time.pdelay.getD p Pdelay.reset).seq + 1) 0 ∈ u.out
  kept : ∀ p, k ≤ p ∨ pdDue s p = false → u.time.pdelay.getD p Pdelay.reset = s.time.pdelay.getD p Pdelay.reset

theorem pdAskedUpTo.due {s u : State} {e : List W64} {k : Nat} (h : pdAskedUpTo s e k u) : pdDue u k = pdDue s k := by
  unfold pdDue ptpUp past elapsed
  rw [h.link, h.kept k (.inl (Nat.le_refl k)), h.raw]

theorem pdAskedUpTo.next {s u : State} {e : List W64} {k : Nat} (h : pdAskedUpTo s e k u) (hk : k < 4) :
    pdAskedUpTo s e (k + 1) (pdAsk e u k) := by
  have hkept := h.kept k (.inl (Nat.le_refl k))
  unfold pdAsk
  rw [h.due]
  cases hd : pdDue s k with
  | false =>
    refine ⟨h.raw, h.mac, h.length, h.whole, h.link, fun p hp hq => h.asked p ?_ hq, fun p hp => h.kept p ?_⟩
    · have : p ≠ k := fun he => by rw [he, hd] at hq; cases hq
      omega
    · rcases hp with hp | hp
      · exact .inl (by omega)
      · exact .inr hp
  | true =>
    generalize hv : modPd u k _ = v
    have hnet : v.net = u.net := by rw [← hv]; rfl
    have hout : v.out = u.out := by rw [← hv]; rfl
    have hraw : v.time.raw = u.time.raw := by rw [← hv]; rfl
    have hmac : moduleMac v = moduleMac u := by rw [← hv]; rfl
    have hpd : v.time.pdelay = lupd u.time.pdelay k (fun x => { x with
        seq := x.seq + 1, askedAt := some u.time.raw, sentAt := some (stampAt u (e.getD k u.time.raw)), answered := false }) := by
      rw [← hv]
      rfl
    have hsame : v.time.pdelay.getD k Pdelay.reset = pdAsked s e k := by
      rw [hpd, getD_lupd_same _ _ _ _ (by rw [h.length]; exact hk), hkept]
      unfold pdAsked stampAt
      rw [h.raw]
    have hother : ∀ p, p ≠ k → v.time.pdelay.getD p Pdelay.reset = u.time.pdelay.getD p Pdelay.reset := fun p hp => by
      rw [hpd, getD_lupd_other _ _ _ hp]
    have hb : (portOf v (ptpPort k)).broken = false := by
      rw [portOf_ptpPort v hk, hnet]
      exact h.whole k
    rw [if_pos rfl, ptpSend_of_whole hb]
    refine ⟨hraw.trans h.raw, hmac.trans h.mac, ?_, fun p => ?_, fun p => ?_, fun p hp hq => ?_, fun p hp => ?_⟩
    · change v.time.pdelay.length = 4
      rw [hpd]
      exact (List.length_modify ..).trans h.length
    · exact (getD_lupd_keeps (g := PortSt.broken) (f := fun x : PortSt => { x with tx := x.tx.inc }) (fun _ => rfl) v.net.ports (ptpPort k).num p
        PortSt.reset).trans (by rw [hnet]; exact h.whole p)
    · exact (portOf_modPort_link (f := fun x : PortSt => { x with tx := x.tx.inc }) (fun _ => rfl) v (ptpPort k) p).trans
        (by rw [hnet]; exact h.link p)
    · change v.time.pdelay.getD p Pdelay.reset = _ ∧ _ ∈ v.out ++ [_]
      by_cases he : p = k
      · subst he
        refine ⟨hsame, List.mem_append_right _ ?_⟩
        rw [hmac, h.mac, hkept]
        exact List.mem_singleton_self _
      · obtain ⟨h1, h2⟩ := h.asked p (by omega) hq
        rw [hother p he, hout]
        exact ⟨h1, List.mem_append_left _ h2⟩
    · have he : p ≠ k := by
        rintro rfl
        rcases hp with hp | hp
        · omega
        · rw [hd] at hp
          cases hp
      change v.time.pdelay.getD p Pdelay.reset = _
      rw [hother p he]
      exact h.kept p (hp.imp_left (fun hp => by omega))

theorem pdAsk_all {s : State} (e : List W64) (hl : s.time.pdelay.length = 4) (hw : s.net.ports.all (fun x => !x.broken) = true) :
    pdAskedUpTo s e 4 ((List.range 4).foldl (pdAsk e) s) := by
  have h0 : pdAskedUpTo s e 0 s := ⟨rfl, rfl, hl, ports_broken_of_all hw, fun _ => rfl, fun p hp => absurd hp (Nat.not_lt_zero p), fun _ _ => rfl⟩
  exact (((h0.next (by decide)).next (by decide)).next (by decide)).next (by decide)

/-! ### The transparent clock -/

theorem execPtpTcForward_of_sync {m : PtpFwd} {s : State} (hm : s.ctl.mode ≠ .cold) (hk : m.kind = ptpSync)
    (hs : tcSeen s (!m.fromP1) m.srcPort m.kind m.seq = false) (hl : (portOf s (if m.fromP1 then .p0 else .p1)).link = true) :
    Res.ends (fun t => t.time.forwarded = s.time.forwarded.inc ∧
      t.out = s.out ++ [.ptpForward (moduleMac s) (!m.fromP1) m.kind m.srcPort m.seq (if m.twoStep then m.correction
        else m.correction + 4096 * (((stampTime s (quarter m.egress) : Int) - (stampTime s (quarter m.ingress) : Int)) +
          peerDelay s (if m.fromP1 then 1 else 0)))]) (execPtpTcForward m s) := by
  have hport : (if (!m.fromP1) = true then Port.p1 else Port.p0) = (if m.fromP1 then .p0 else .p1) := by
    cases m.fromP1 <;> rfl
  have hn : ¬ (s.ctl.mode = .cold ∨ tcForwards m.kind = false) := by
    rw [hk]
    simp [hm, tcForwards]
  have hs' : ¬ tcSeen s (!m.fromP1) m.srcPort m.kind m.seq = true := by
    rw [hs]
    decide
  unfold execPtpTcForward
  dsimp only
  rw [if_neg hn, if_neg hs', if_pos hk, hport, if_pos hl]
  exact Res.ends_next ⟨rfl, rfl⟩

theorem execPtpTcForward_of_seen {m : PtpFwd} {s : State} (hm : s.ctl.mode ≠ .cold) (hk : m.kind = ptpSync)
    (hs : tcSeen s (!m.fromP1) m.srcPort m.kind m.seq = true) :
    execPtpTcForward m s = .next (s.modTime (fun t => { t with discarded := t.discarded.inc })) := by
  have hn : ¬ (s.ctl.mode = .cold ∨ tcForwards m.kind = false) := by
    rw [hk]
    simp [hm, tcForwards]
  unfold execPtpTcForward
  dsimp only
  rw [if_neg hn, if_pos hs]

/-! ### O41 -/

theorem execPdelayRespReceive_of_asked {p : Nat} {q : W16} {w : W64} (i : W64) (k : Int) {s : State} (hp : p < 4)
    (hw : (s.time.pdelay.getD p Pdelay.reset).sentAt = some w) (hq : (s.time.pdelay.getD p Pdelay.reset).seq = q)
    (ha : (s.time.pdelay.getD p Pdelay.reset).answered = false) : execPdelayRespReceive p q i k s =
      .next (modPd s p (fun x => { x with
        answered := true, hist := lastN 8 (x.hist ++ [(((quarter i - w).toNat : Int) - k / 4096) / 2]) })) := by
  unfold execPdelayRespReceive
  dsimp only
  rw [hw]
  exact if_pos ⟨hp, hq, ha⟩

/-- Settles O41: each port is asked on its own, so the timer's fold keeps one invariant per port; the other commands are read off. -/
theorem peerDelayAndTransparentClock : Obligations.PeerDelayAndTransparentClock := by
  refine ⟨fun p q k i e s ho hu hb => ?_, fun p q k i e s ho hu hb => ?_, fun p q i w k s hp hl hw hq ha =>
    ⟨_, execPdelayRespReceive_of_asked i k hp hw hq ha, getD_lupd_same _ _ _ _ hl⟩, fun l s ho hl hw => ?_,
    fun m s hm hk hs hl => execPtpTcForward_of_sync hm hk hs hl, fun m s hm hk hs => execPtpTcForward_of_seen hm hk hs, fun s => ?_⟩
  · have hb' : (portOf s (ptpPort p)).broken = false := by rwa [portOf_ptpPort s (lt_of_ptpUp hu)]
    refine ⟨_, if_pos (by rw [ho, hu]; rfl), ?_⟩
    rw [ptpSend_of_whole hb']
    exact ⟨rfl, rfl⟩
  · have hp := lt_of_ptpUp hu
    have hb' : (portOf s (ptpPort p)).broken = true := by rwa [portOf_ptpPort s hp]
    refine ⟨_, if_pos (by rw [ho, hu]; rfl), ?_⟩
    rw [ptpSend_of_broken hb']
    refine ⟨rfl, rfl, ?_⟩
    have hlt : p < s.net.ports.length := lt_length_of_getD (d := PortSt.reset) (·.broken) (by rw [hb]; decide)
    change ((lupd s.net.ports (ptpPort p).num (fun x => { x with broken := false })).getD p PortSt.reset).broken = false
    rw [ptpPort_num hp, getD_lupd_same _ _ _ _ hlt]
  · have h := pdAsk_all l hl hw
    refine ⟨_, execPdelayReqTimer_of_runs ho l, fun p hp => ⟨fun hd => h.asked p hp ?_, fun hu => h.kept p (.inr ?_)⟩⟩
    · obtain ⟨hu, hn | hd⟩ := hd
      · unfold pdDue
        rw [hu, hn]
        rfl
      · have hd' : past s (s.time.pdelay.getD p Pdelay.reset).askedAt (rSec 1) = true := hd
        unfold pdDue
        rw [hu, hd', Bool.or_true]
        rfl
    · unfold pdDue
      rw [hu]
      rfl
  · rfl

end Sys2Proof.Machine
end

section
/-!
SUPPORT. The mailbox of a core pair.
-/

namespace Sys2Proof.Machine

theorem cpOf_countStatus (s : State) (n : Nat) (c : Cp) : cpOf (countStatus s n) c = cpOf s c := by
  cases c
  · exact (countStatus_frame s n).same .n0 (by decide)
  · exact (countStatus_frame s n).same .n1 (by decide)

/-- Whether a mailbox is served depends on the mode alone. -/
theorem dictServed_mailbox {s t : State} (h : t.ctl.mode = s.ctl.mode) (c : Cp) : dictServed t (.mailbox c) = dictServed s (.mailbox c) := by
  unfold dictServed
  rw [h]
  cases s.ctl.mode <;> rfl

theorem cpOf_dmbReady (s : State) (c : Cp) (st : Nat) (data : Bytes) (more : Bool) (k : W64) : cpOf (dmbReady s c st data more k) c =
    { cpOf s c with dmb := { (cpOf s c).dmb with answer := some (st, data, more, k) } } :=
  cpOf_modCp_same ..

/-- The answer of a read is ready, and the mailbox busy until `DONE`. -/
theorem dmbServe_of_read {s : State} {c : Cp} (h : (cpOf s c).dmb.op = 0) :
    (cpOf (dmbServe s c) c).dmb.busy = (cpOf s c).dmb.busy ∧ (cpOf (dmbServe s c) c).dmb.answer.isSome = true := by
  unfold dmbServe
  dsimp only
  refine iteInduction (motive := fun u : State => (cpOf u c).dmb.busy = (cpOf s c).dmb.busy ∧ (cpOf u c).dmb.answer.isSome = true)
    (fun _ => by rw [cpOf_dmbReady]; exact ⟨rfl, rfl⟩) (fun _ => ?_)
  rw [if_pos h, cpOf_dmbReady]
  generalize hu : countStatus s _ = u
  have hn : cpOf u c = cpOf s c := by
    rw [← hu, cpOf_countStatus]
  rw [hn]
  exact ⟨rfl, rfl⟩

theorem execDmbGo_of_access {c : Cp} {s : State} (ha : mayAccess s c.master 0x40080000 kWrite = true) (hc : (cpOf s c).call = none)
    (hb : (cpOf s c).dmb.busy = false) (ho : (cpOf s c).dmb.op = 0) (hd : dictServed s (.mailbox c) = true) :
    Res.ends (fun t => (cpOf t c).dmb.busy = true ∧ (cpOf t c).dmb.answer.isSome = true) (execDmbGo c s) := by
  unfold execDmbGo
  rw [port_of_access ha]
  dsimp only
  rw [hc, hb]
  dsimp only [Option.isSome_none]
  rw [if_neg Bool.false_ne_true, if_neg Bool.false_ne_true]
  generalize hu : modDmb s c _ = u
  have hcp : (cpOf u c).dmb.busy = true ∧ (cpOf u c).dmb.op = 0 := by
    rw [← hu]
    unfold modDmb
    rw [cpOf_modCp_same]
    exact ⟨rfl, ho⟩
  have hs : dictServed u (.mailbox c) = true := by
    refine (dictServed_mailbox ?_ c).trans hd
    rw [← hu]
    cases c <;> rfl
  rw [if_pos hs]
  obtain ⟨h1, h2⟩ := dmbServe_of_read hcp.2
  exact Res.ends_next ⟨h1.trans hcp.1, h2⟩

theorem execDmbGo_of_busy {c : Cp} {s : State} (ha : mayAccess s c.master 0x40080000 kWrite = true) (hc : (cpOf s c).call = none)
    (hb : (cpOf s c).dmb.busy = true) : execDmbGo c s = .next (modDmb s c (fun d => { d with goLost := true })) := by
  unfold execDmbGo
  rw [port_of_access ha]
  dsimp only
  rw [hc, hb]
  rfl

theorem execDmbGo_in_call {c : Cp} {s : State} (ha : mayAccess s c.master 0x40080000 kWrite = true) (hc : (cpOf s c).call.isSome = true) :
    execDmbGo c s = .next (dmbDiscard s) := by
  unfold execDmbGo
  rw [port_of_access ha]
  exact if_pos hc

theorem execDmbAbort_in_call {c : Cp} {s : State} (ha : mayAccess s c.master 0x40080000 kWrite = true)
    (hc : (cpOf s c).call.isSome = true) : execDmbAbort c s = .next (dmbDiscard s) := by
  unfold execDmbAbort
  rw [port_of_access ha]
  exact if_pos hc

theorem execDmbAbort_of_read {c : Cp} {r : PairReq} {n : Nat} {s : State} (ha : mayAccess s c.master 0x40080000 kWrite = true)
    (hc : (cpOf s c).call = none) (hp : (cpOf s c).dmb.pending = some (false, r, n)) : execDmbAbort c s =
      .next (modDmb s c (fun d => { d with busy := false, done := true, pending := none, answer := none })) := by
  unfold execDmbAbort
  rw [port_of_access ha]
  dsimp only
  rw [hc, hp]
  rfl

theorem execDmbDone_of_answer {c : Cp} {st : Nat} {data : Bytes} {more : Bool} {k : W64} {s : State} (hr : clocksRun s = true)
    (h : (cpOf s c).dmb.answer = some (st, data, more, k)) : execDmbDone c s = .next (modDmb s c (fun d => { d with
      busy := false, done := true, err := st != 0, result := BitVec.ofNat 16 st, rlen := data.length, more := more,
      tick := k, data := putBytes d.data 0 data, pending := none, answer := none })) := by
  unfold execDmbDone
  rw [if_neg (by rw [hr]; decide), h]

theorem execDmbNcallDiscard_in_call {c : Cp} {a : Nat} (v : W32) {s : State} (load : Bool) (hc : (cpOf s c).call.isSome = true)
    (ha : mayAccess s c.master (0x40080000 + a % 0x1000) (if load then kRead else kWrite) = true) :
    execDmbNcallDiscard c a v s load = .next (if load then send (dmbDiscard s) (.regRead 0) else dmbDiscard s) := by
  unfold execDmbNcallDiscard
  rw [port_of_access ha]
  exact if_pos hc

/-- Settles O46: each access of a core pair that both checks let pass acts on its own mailbox. -/
theorem mailboxOfACorePair : Obligations.MailboxOfACorePair := by
  refine ⟨fun c s ha hc hb ho hd => execDmbGo_of_access ha hc hb ho hd, fun c s ha hc hb => execDmbGo_of_busy ha hc hb,
    fun c r n s ha hc hp => execDmbAbort_of_read ha hc hp, fun c st data more k s hr h => execDmbDone_of_answer hr h,
    fun c a v s hc => ⟨fun ha => execDmbNcallDiscard_in_call v false hc ha, fun ha => execDmbNcallDiscard_in_call v true hc ha,
      fun ha => ⟨execDmbGo_in_call ha hc, execDmbAbort_in_call ha hc⟩⟩⟩

end Sys2Proof.Machine
end

section
/-!
SUPPORT. The rules of the pair part: what is known of the partner outlives the messages, the stops and the releases of this side.
-/

namespace Sys2Proof.Machine

/-! ### The relation -/

/-- What only the partner's messages and wires tell this side. -/
def PairSt.heardOf (p : PairSt) := (p.dead, p.nDead, p.ownIn, p.pSilent, p.edgeAt, p.offset)

/-- The partner's `HELLO` and the lanes besides. -/
def PairSt.metOf (p : PairSt) := (p.heardOf, p.hello, p.pMode, p.lane0, p.lane1)

/-- This side's ownership and the state of a catch-up besides. -/
def PairSt.ownedOf (p : PairSt) := (p.metOf, p.ownOut, p.ownHighSince, p.serving, p.pass, p.phase)

/-- State `t` shows the same `g` of the pair as `s`; the link is up and the own `HELLO` said where they were. -/
structure State.keepsPair {α : Type} (g : PairSt → α) (s t : State) : Prop where
  same : g t.pair = g s.pair
  link : s.pair.link = true → t.pair.link = true
  said : s.pair.saidHello = true → t.pair.saidHello = true

section
variable {α β : Type} {g : PairSt → α} {s t u : State}

theorem State.keepsPair.refl (g : PairSt → α) (s : State) : s.keepsPair g s := ⟨rfl, id, id⟩

theorem State.keepsPair.andThen (h : t.keepsPair g u) (k : s.keepsPair g t) : s.keepsPair g u :=
  ⟨h.same.trans k.same, h.link ∘ k.link, h.said ∘ k.said⟩

theorem State.keepsPair.of_eq (h : t.pair = s.pair) : s.keepsPair g t := by
  refine ⟨?_, ?_, ?_⟩ <;> rw [h]
  · exact id
  · exact id

theorem State.keepsPair.ctlStep {f : Ctl → Ctl} (k : s.keepsPair g t) : s.keepsPair g (t.modCtl f) :=
  .andThen (t := t) (.of_eq rfl) k

theorem State.keepsPair.cycStep {f : CycSt → CycSt} (k : s.keepsPair g t) : s.keepsPair g (t.modCyc f) :=
  .andThen (t := t) (.of_eq rfl) k

theorem State.keepsPair.bootStep {f : BootSt → BootSt} (k : s.keepsPair g t) : s.keepsPair g (t.modBoot f) :=
  .andThen (t := t) (.of_eq rfl) k

theorem State.keepsPair.imgStep {f : Img → Img} (k : s.keepsPair g t) : s.keepsPair g (t.modImg f) :=
  .andThen (t := t) (.of_eq rfl) k

theorem State.keepsPair.timeStep {f : TimeSt → TimeSt} (k : s.keepsPair g t) : s.keepsPair g (t.modTime f) :=
  .andThen (t := t) (.of_eq rfl) k

/-- A step whose frame leaves the pair alone. -/
theorem State.keepsPair.aside {ps : List Part} (h : t.onlyChanges ps u) (hp : .pair ∉ ps) (k : s.keepsPair g t) : s.keepsPair g u :=
  .andThen (.of_eq (h.same .pair hp)) k

theorem State.keepsPair.ite {c : Prop} [Decidable c] (h : s.keepsPair g t) (k : s.keepsPair g u) : s.keepsPair g (if c then t else u) := by
  split <;> assumption

/-- A step that is taken only under a condition. -/
theorem State.keepsPair.when {c : Prop} [Decidable c] (h : t.keepsPair g u) (k : s.keepsPair g t) : s.keepsPair g (if c then u else t) :=
  .ite (h.andThen k) k

/-- A step that is left out under a condition. -/
theorem State.keepsPair.unless {c : Prop} [Decidable c] (h : t.keepsPair g u) (k : s.keepsPair g t) : s.keepsPair g (if c then t else u) :=
  .ite k (h.andThen k)

theorem State.keepsPair.foldl {f : State → β → State} {l : List β} (h : ∀ (u : State) (x : β), u.keepsPair g (f u x))
    (k : s.keepsPair g t) : s.keepsPair g (l.foldl f t) :=
  foldl_keeps (P := fun u : State => s.keepsPair g u) (fun u x hu => (h u x).andThen hu) l k

/-- A step of the pair part that leaves what `g` shows. -/
theorem State.keepsPair.pairStep {f : PairSt → PairSt} (k : s.keepsPair g t) (hg : ∀ p, g (f p) = g p := by exact fun _ => rfl)
    (hl : ∀ p, (f p).link = p.link := by exact fun _ => rfl)
    (hs : ∀ p, (f p).saidHello = p.saidHello := by exact fun _ => rfl) : s.keepsPair g (t.modPair f) :=
  .andThen (t := t) ⟨hg _, fun h => (hl _).trans h, fun h => (hs _).trans h⟩ k

theorem State.keepsPair.weaken (f : α → β) (h : s.keepsPair g t) : s.keepsPair (f ∘ g) t := ⟨congrArg f h.same, h.link, h.said⟩

theorem State.keepsPair.met (h : s.keepsPair PairSt.ownedOf t) : s.keepsPair PairSt.metOf t := h.weaken Prod.fst

theorem State.keepsPair.heard (h : s.keepsPair PairSt.metOf t) : s.keepsPair PairSt.heardOf t := h.weaken Prod.fst

end

theorem changePair_pair (s : State) (f : PairSt → PairSt) : (changePair s f).pair = f s.pair := by
  unfold changePair
  dsimp only
  split_ifs
  · rfl
  · exact (raiseIrq_frame _ 38).same .pair (by decide)

theorem State.keepsPair.change {α : Type} {g : PairSt → α} {s t : State} {f : PairSt → PairSt} (k : s.keepsPair g t)
    (hg : ∀ p, g (f p) = g p := by exact fun _ => rfl) (hl : ∀ p, (f p).link = p.link := by exact fun _ => rfl)
    (hs : ∀ p, (f p).saidHello = p.saidHello := by exact fun _ => rfl) : s.keepsPair g (changePair t f) := by
  refine .andThen ⟨?_, ?_, ?_⟩ k <;> rw [changePair_pair]
  · exact hg _
  · exact fun h => (hl _).trans h
  · exact fun h => (hs _).trans h

/-! ### Messages -/

theorem mjSendOn_keeps (s : State) (ls : List Bool) (m : MjMsg) : s.keepsPair PairSt.ownedOf (mjSendOn s ls m) := by
  unfold mjSendOn
  exact .ite (.refl ..) ⟨rfl, id, id⟩

theorem mjSend_keeps (s : State) (m : MjMsg) : s.keepsPair PairSt.ownedOf (mjSend s m) :=
  .ite (mjSendOn_keeps ..) (.refl ..)

theorem measureDelay_keeps (s : State) : s.keepsPair PairSt.ownedOf (measureDelay s) :=
  .foldl (fun _ _ => mjSendOn_keeps ..) ⟨rfl, id, id⟩

theorem raiseLink_keeps (s : State) : s.keepsPair PairSt.ownedOf (raiseLink s) := by
  unfold raiseLink
  refine .ite (.refl ..) (.andThen (measureDelay_keeps ..) ⟨?_, ?_, ?_⟩) <;> rw [changePair_pair]
  · rfl
  · exact fun _ => rfl
  · exact id

theorem sayHello_keeps (s : State) : s.keepsPair PairSt.ownedOf (sayHello s) := by
  unfold sayHello
  exact .ite (.andThen (raiseLink_keeps _) (.unless ⟨rfl, id, fun _ => rfl⟩ (mjSend_keeps ..))) (.refl ..)

theorem changeMode_keeps (s : State) (m : Mode) (r : Nat) : s.keepsPair PairSt.ownedOf (changeMode s m r) :=
  .andThen (sayHello_keeps _) (.aside (setMode_frame ..) (by decide) (.refl ..))

theorem mjStripe_keeps (s : State) (m : MjMsg) : s.keepsPair PairSt.ownedOf (mjStripe s m) := by
  unfold mjStripe
  exact .ite (.refl ..) (.pairStep (mjSendOn_keeps ..))

theorem sendState_keeps (s : State) (r o : Nat) (d : Bytes) : s.keepsPair PairSt.ownedOf (sendState s r o d) :=
  .andThen (mjStripe_keeps ..) ⟨rfl, id, id⟩

theorem sendList_keeps (s : State) (r : Nat) (b : Bytes) : s.keepsPair PairSt.ownedOf (sendList s r b) :=
  .foldl (fun _ _ => sendState_keeps ..) (.refl ..)

theorem sendValues_keeps (s : State) : s.keepsPair PairSt.ownedOf (sendValues s) := by
  unfold sendValues
  dsimp only
  exact .pairStep (sendList_keeps ..)

theorem sendPages_keeps (s : State) (r : Bool) : s.keepsPair PairSt.ownedOf (sendPages s r) :=
  .foldl (fun _ _ => .pairStep (sendState_keeps ..)) (.refl ..)

theorem flushLog_keeps (s : State) : s.keepsPair PairSt.ownedOf (flushLog s) := by
  unfold flushLog
  exact .ite (.refl ..) (.foldl (fun _ _ => .foldl (fun _ _ => mjStripe_keeps ..) (.refl ..)) ⟨rfl, id, id⟩)

theorem logItems_keeps (s : State) (k : W64) (xs : List LogItem) : s.keepsPair PairSt.ownedOf (logItems s k xs) := by
  unfold logItems
  exact .ite (.refl ..) ⟨rfl, id, id⟩

/-! ### Sequenced writes and recorded starts -/

theorem sequence_keeps (s : State) (b : SeqBody) (n : Nat) (o : Bool) (f : W32) (w : Bool) (i : W32) (v : Via) (c : W32) :
    s.keepsPair PairSt.ownedOf (sequence s b n o f w i v c) := by
  unfold sequence
  exact .when (mjSend_keeps ..) ⟨rfl, id, id⟩

theorem sequenceOwn_keeps (s : State) (b : SeqBody) : s.keepsPair PairSt.ownedOf (sequenceOwn s b) := sequence_keeps ..

theorem startRecord_keeps (s : State) (d : DRec) : s.keepsPair PairSt.ownedOf (startRecord s d) := by
  unfold startRecord
  exact .when (sequenceOwn_keeps ..) ⟨rfl, id, id⟩

theorem holdTrigger_keeps (s : State) (d : DRec) : s.keepsPair PairSt.ownedOf (holdTrigger s d) :=
  .aside (holdTrigger_frame ..) (by decide) (.refl ..)

theorem placeTrigger_keeps (s : State) (d : DRec) : s.keepsPair PairSt.ownedOf (placeTrigger s d) := by
  unfold placeTrigger
  dsimp only
  split
  · exact .ite (holdTrigger_keeps ..) (startRecord_keeps ..)
  · exact .ite (.of_eq rfl) (.ite (holdTrigger_keeps ..) (startRecord_keeps ..))

theorem placeHeld_keeps (s : State) : s.keepsPair PairSt.ownedOf (placeHeld s) :=
  .foldl (fun _ _ => placeTrigger_keeps ..) (.of_eq rfl)

theorem trigger_keeps (s : State) (x : W16) : s.keepsPair PairSt.ownedOf (trigger s x) := by
  unfold trigger
  exact .ite (.refl ..) (placeTrigger_keeps ..)

theorem detectTriggers_keeps (s : State) (d : BitVec 4) : s.keepsPair PairSt.ownedOf (detectTriggers s d) := by
  unfold detectTriggers
  exact .foldl (fun _ _ => .ite (.refl ..) (.when (trigger_keeps ..) (.of_eq rfl))) (.refl ..)

/-! ### Stop, catch-up and handover -/

theorem dropRequests_keeps (s : State) : s.keepsPair PairSt.ownedOf (dropRequests s) := by
  have hf : ∀ (u : State) (f : FwdReq) (e : Nat), u.keepsPair PairSt.ownedOf (answerFwd u f e 0 noTick) := fun u f e =>
    .aside (answerFwd_frame ..) (by decide) (.refl ..)
  have hr : ∀ (u : State) (r : Reply), u.keepsPair PairSt.ownedOf (sendReply u r) := fun u r =>
    .aside (sendReply_frame ..) (by decide) (.refl ..)
  have hs : ∀ (u : State) (i : SeqItem), u.keepsPair PairSt.ownedOf (answerSeq u i 0x0303) := fun u i =>
    .aside (answerSeq_frame ..) (by decide) (.refl ..)
  unfold dropRequests
  dsimp only
  refine .foldl (fun _ _ => hf ..) (.foldl (fun _ _ => hf ..) (.foldl (fun _ _ => hr ..) (.foldl (fun _ _ => hr ..)
    (.foldl (fun _ _ => hs ..) (.foldl (fun _ _ => hf ..) ?_)))))
  exact .pairStep (.refl ..)

theorem lowerOwn_keeps (s : State) : s.keepsPair PairSt.metOf (lowerOwn s) :=
  .change (.aside (undrive_frame s) (by decide) (.refl ..))

theorem dropAnnounced_keeps (s : State) : s.keepsPair PairSt.ownedOf (dropAnnounced s) := ⟨rfl, id, id⟩

theorem leaveTestOff_keeps (s : State) : s.keepsPair PairSt.ownedOf (leaveTest (fieldOff (dropAnnounced s))) :=
  .aside (leaveTest_frame ..) (by decide) (.aside (fieldOff_frame ..) (by decide) (dropAnnounced_keeps ..))

theorem clearCycle_keeps (s : State) : s.keepsPair PairSt.ownedOf (clearCycle s) :=
  .aside (clearCycle_frame s) (by decide) (.refl ..)

theorem enterStopAs_keeps (s : State) (r : Nat) (k : Bool) : s.keepsPair PairSt.metOf (enterStopAs s r k) := by
  have h0 : s.keepsPair PairSt.metOf (if k then clearCycle (dropRequests s) else lowerOwn (clearCycle (dropRequests s))) :=
    .unless (lowerOwn_keeps ..) (.andThen (clearCycle_keeps ..).met (dropRequests_keeps ..).met)
  unfold enterStopAs
  refine .andThen (leaveTestOff_keeps ..).met ?_
  refine .ctlStep (.aside (setMode_frame ..) (by decide) ?_)
  exact .change h0

theorem enterStop_keeps (s : State) (r : Nat) : s.keepsPair PairSt.metOf (enterStop s r) := enterStopAs_keeps ..

theorem logPair_keeps (s : State) (c : Nat) (d : W32) : s.keepsPair PairSt.ownedOf (logPair s c d) :=
  .aside (logPair_frame ..) (by decide) (.refl ..)

theorem catchFail_keeps (s : State) (r : Nat) : s.keepsPair PairSt.metOf (catchFail s r) := by
  unfold catchFail
  exact .ite (.andThen (mjSend_keeps ..).met (.pairStep (.pairStep (logPair_keeps ..).met)))
    (.andThen (mjSend_keeps ..).met (.pairStep (.pairStep (logPair_keeps ..).met)))

theorem beginPhase1_keeps (s : State) : s.keepsPair PairSt.metOf (beginPhase1 s) :=
  .andThen (mjSend_keeps ..).met ⟨rfl, id, id⟩

theorem enterCatchup_keeps (s : State) (r : Nat) (m : Bool) : s.keepsPair PairSt.metOf (enterCatchup s r m) := by
  unfold enterCatchup
  dsimp only
  have hstop : ∀ u : State, s.keepsPair PairSt.metOf u → s.keepsPair PairSt.metOf
      (match s.ctl.stopPending with
      | some x => enterStop u x
      | none => u) := fun u hu => by
    split
    · exact .andThen (enterStop_keeps ..) hu
    · exact hu
  refine hstop _ ?_
  have h0 : s.keepsPair PairSt.metOf (lowerOwn (clearCycle (dropRequests s))) :=
    .andThen (lowerOwn_keeps ..) (.andThen (clearCycle_keeps ..).met (dropRequests_keeps ..).met)
  generalize lowerOwn (clearCycle (dropRequests s)) = a at h0
  have h2 : ∀ b : State, s.keepsPair PairSt.metOf b → s.keepsPair PairSt.metOf (canJoin (canJoin (leaveTest (fieldOff (dropAnnounced
      (b.modCtl (fun c => { c with startsAt := none, stopPending := none }))))) 0) 1) := fun b hb =>
    .aside (canJoin_frame ..) (by decide) (.aside (canJoin_frame ..) (by decide)
      (.andThen (leaveTestOff_keeps ..).met (.ctlStep hb)))
  exact .ite (.andThen (catchFail_keeps ..) (.pairStep (h2 _ (.andThen (changeMode_keeps ..).met (.change h0)))))
    (.andThen (beginPhase1_keeps ..) (h2 _ (.andThen (changeMode_keeps ..).met (.change h0))))

theorem leaveForCatchup_keeps (s : State) (r : Nat) (m : Bool) : s.keepsPair PairSt.metOf (leaveForCatchup s r m) :=
  .ite (enterCatchup_keeps ..) (.refl ..)

theorem stopServing_keeps (s : State) : s.keepsPair PairSt.metOf (stopServing s) := ⟨rfl, id, id⟩

theorem requestOwn_keeps (s : State) : s.keepsPair PairSt.ownedOf (requestOwn s) := by
  unfold requestOwn
  exact .ite (.refl ..) ⟨rfl, id, id⟩

theorem handOver_keeps (s : State) : s.keepsPair PairSt.metOf (handOver s) := by
  unfold handOver
  refine .ite (.refl ..) (.ite ⟨rfl, id, id⟩ (.when (changeMode_keeps ..).met (.andThen (logPair_keeps ..).met (.change ?_))))
  exact .andThen (lowerOwn_keeps ..) (.andThen (mjSend_keeps ..).met ⟨rfl, id, id⟩)

theorem joinOwner_keeps (s : State) : s.keepsPair PairSt.metOf (joinOwner s) :=
  .ite (enterCatchup_keeps ..) (.refl ..)

theorem trackWait_keeps (s : State) : s.keepsPair PairSt.ownedOf (trackWait s) := by
  unfold trackWait
  exact .ite ⟨rfl, id, id⟩ ⟨rfl, id, id⟩

theorem trackWiring_keeps (s : State) : s.keepsPair PairSt.ownedOf (trackWiring s) := by
  unfold trackWiring
  exact .ite ⟨rfl, id, id⟩ (.ite (.refl ..) ⟨rfl, id, id⟩)

theorem tryPhase2_keeps (s : State) : s.keepsPair PairSt.metOf (tryPhase2 s) := by
  unfold tryPhase2
  refine .ite (.refl ..) (.ite (.andThen (catchFail_keeps ..) (logPair_keeps ..).met) (.ite (.refl ..) (.ite (catchFail_keeps ..) ?_)))
  exact .ite (.andThen (mjSend_keeps ..).met ⟨rfl, id, id⟩) (.refl ..)

/-! ### The release of a tick -/

theorem flushReplies_keeps (s : State) : s.keepsPair PairSt.ownedOf (flushReplies s) := by
  unfold flushReplies
  exact .foldl (fun _ _ => .aside (sendReply_frame ..) (by decide) (.refl ..)) ⟨rfl, id, id⟩

theorem snapshot_keeps (s : State) : s.keepsPair PairSt.ownedOf (snapshot s) := by
  unfold snapshot
  refine .ite (.refl ..) (.andThen (logItems_keeps ..) (.foldl (fun _ _ => sendList_keeps ..) ?_))
  exact .andThen (sendValues_keeps ..) (.andThen (sendPages_keeps ..) (.pairStep (.aside (gooseRepeats_frame ..) (by decide) (.refl ..))))

theorem takePrepared_keeps (s : State) (i : Installed) (o : Bool) (k : W64) : s.keepsPair PairSt.metOf (takePrepared s i o k) := by
  unfold takePrepared
  refine .aside (canReprogram_frame ..) (by decide) (.aside (checkProgram_frame ..) (by decide)
    (.aside (loadProgram_frame ..) (by decide) ?_))
  refine .ctlStep (.bootStep ?_)
  refine .aside (refSwitch_frame ..) (by decide) (.aside (fieldOff_frame ..) (by decide)
    (.aside (installPackage_frame ..) (by decide) (.imgStep ?_)))
  exact .aside (clearForces_frame ..) (by decide) (enterStopAs_keeps ..)

theorem switchWithout_keeps (s : State) (k : W64) : s.keepsPair PairSt.heardOf (switchWithout s k) := by
  unfold switchWithout
  dsimp only
  exact .bootStep (.andThen (enterStop_keeps ..).heard (.change (.refl ..)))

theorem switchOver_keeps (s : State) : s.keepsPair PairSt.heardOf (switchOver s) := by
  unfold switchOver
  split
  · exact .refl ..
  · dsimp only
    have h0 : s.keepsPair PairSt.heardOf (if (owns s || !isPaired s) = true then s else (freeValue s).2) := .unless (.of_eq rfl) (.refl ..)
    generalize (if (owns s || !isPaired s) = true then s else (freeValue s).2) = u at h0
    split
    · exact .ite (.andThen (takePrepared_keeps ..).heard h0) (.bootStep (.andThen (switchWithout_keeps ..)
        (.aside (refuseImage_frame ..) (by decide) h0)))
    · exact .andThen (switchWithout_keeps ..) h0

theorem stopNow_keeps (s : State) : s.keepsPair PairSt.metOf (stopNow s) := by
  unfold stopNow
  split
  · exact enterStop_keeps ..
  · exact .refl ..

theorem release_keeps (s : State) : s.keepsPair PairSt.heardOf (release s) := by
  unfold release
  refine .andThen (stopNow_keeps _).heard (.andThen (switchOver_keeps _) (.andThen (snapshot_keeps _).met.heard
    (.andThen (handOver_keeps _).heard (.andThen (flushLog_keeps _).met.heard (.andThen (flushReplies_keeps _).met.heard
    (.cycStep (.when (.aside (dueEvents_frame ..) (by decide) (.refl ..)) ?_)))))))
  refine .when (.aside (recordPoints_frame ..) (by decide) (.andThen (detectTriggers_keeps ..).met.heard
    (.aside (commit_frame ..) (by decide) (.refl ..)))) ?_
  refine .unless (.aside (publishWords_frame ..) (by decide) (.refl ..)) ?_
  exact .ite (.aside (applyOutputs_frame ..) (by decide) (.aside (sendPublications_frame ..) (by decide) (.refl ..)))
    (.when (.aside (followPubs_frame ..) (by decide) (.refl ..)) (.refl ..))

/-! ### The partner's death -/

/-- A partner that is not known dead is now, and is counted once. -/
theorem partnerDied_heard {s : State} (h : isPaired s = true) : (partnerDied s).pair.heardOf =
    ((true, (if s.pair.dead then s.pair.nDead else s.pair.nDead.inc), s.pair.heardOf.2.2)) := by
  unfold partnerDied
  cases hd : s.pair.dead with
  | true =>
    rw [if_pos (by rfl), if_pos rfl]
    unfold PairSt.heardOf
    rw [hd]
  | false =>
    rw [if_neg (by rw [h]; decide), if_neg Bool.false_ne_true]
    dsimp only
    generalize hu : logPair (changePair s _) 0 0 = u
    have hl : ∀ (v : State) (c : Nat) (d : W32), (logPair v c d).pair = v.pair := fun v c d =>
      (logPair_frame v c d).same .pair (by decide)
    have h0 : u.pair.heardOf = (true, s.pair.nDead.inc, s.pair.heardOf.2.2) := by
      rw [← hu, hl, changePair_pair]
      rfl
    have hk : ∀ v : State, u.keepsPair PairSt.heardOf v → v.pair.heardOf = (true, s.pair.nDead.inc, s.pair.heardOf.2.2) :=
      fun v hv => hv.same.trans h0
    refine hk _ (.ite (enterStop_keeps ..).heard (.ite ?_ (.refl ..)))
    exact .when (release_keeps _) (.unless (.andThen (requestOwn_keeps ..).met.heard (.change (.refl ..)))
      (stopServing_keeps ..).heard)

end Sys2Proof.Machine
end

section
/-!
SUPPORT. The partner's announcements, and the wires OWN and ALIVE.
-/

namespace Sys2Proof.Machine

/-! ### What a relation of the pair part says of one field -/

section
variable {s t : State}

theorem State.keepsPair.ownIn (h : s.keepsPair PairSt.heardOf t) : t.pair.ownIn = s.pair.ownIn := congrArg (·.2.2.1) h.same

theorem State.keepsPair.edgeAt (h : s.keepsPair PairSt.heardOf t) : t.pair.edgeAt = s.pair.edgeAt := congrArg (·.2.2.2.2.1) h.same

theorem State.keepsPair.dead (h : s.keepsPair PairSt.heardOf t) : t.pair.dead = s.pair.dead := congrArg Prod.fst h.same

theorem State.keepsPair.offset (h : s.keepsPair PairSt.heardOf t) : t.pair.offset = s.pair.offset := congrArg (·.2.2.2.2.2) h.same

theorem State.keepsPair.ownOut (h : s.keepsPair PairSt.ownedOf t) : t.pair.ownOut = s.pair.ownOut := congrArg (·.2.1) h.same

theorem State.keepsPair.ownHighSince (h : s.keepsPair PairSt.ownedOf t) : t.pair.ownHighSince = s.pair.ownHighSince :=
  congrArg (·.2.2.1) h.same

theorem State.keepsPair.serving (h : s.keepsPair PairSt.ownedOf t) : t.pair.serving = s.pair.serving := congrArg (·.2.2.2.1) h.same

theorem State.keepsPair.pass (h : s.keepsPair PairSt.ownedOf t) : t.pair.pass = s.pair.pass := congrArg (·.2.2.2.2.1) h.same

end

theorem partnerDied_dead {s : State} (h : isPaired s = true) : (partnerDied s).pair.dead = true ∧
    (partnerDied s).pair.nDead = (if s.pair.dead then s.pair.nDead else s.pair.nDead.inc) ∧
    (partnerDied s).pair.pSilent = s.pair.pSilent :=
  have hd := partnerDied_heard h
  ⟨congrArg Prod.fst hd, congrArg (·.2.1) hd, congrArg (·.2.2.2.1) hd⟩

/-! ### Accepted messages -/

theorem onMessage_of_heard {s r : State} {h : MjHdr} (hr : hear s h = (r, true)) (f : State → State) : onMessage s h f = .next (f r) := by
  unfold onMessage
  rw [hr]
  rfl

/-- The state in which a message was heard on its lane. -/
def laneHeard (s : State) (h : MjHdr) : State :=
  laneUp (s.modPair (fun p => if h.lane then { p with last1 := some s.time.raw } else { p with last0 := some s.time.raw })) h.lane

/-- The state in which a message is accepted. -/
def heardAt (s : State) (h : MjHdr) : State := noteFlags ((laneHeard s h).modPair (fun p => acceptSeq p h.seq)) h

theorem hear_of_on {s : State} (hm : miojoOn s = true) (h : MjHdr) : hear s h =
    if !clocksRun (laneHeard s h) || !seqFresh (laneHeard s h) h.seq then (laneHeard s h, false)
    else (heardAt s h, isPaired (heardAt s h)) := by
  unfold hear
  rw [if_neg (by rw [hm]; decide)]
  rfl

/-- Only a module of a pair that uses the link accepts a message. -/
theorem heard_iff {s r : State} {h : MjHdr} (hr : hear s h = (r, true)) : r = heardAt s h ∧ isPaired r = true ∧ miojoOn s = true := by
  cases hm : miojoOn s with
  | false =>
    have hoff : hear s h = (s, false) := if_pos (by rw [hm]; rfl)
    exact absurd (congrArg Prod.snd (hoff.symm.trans hr)) Bool.false_ne_true
  | true =>
    rw [hear_of_on hm] at hr
    generalize heardAt s h = v at hr ⊢
    split_ifs at hr
    · exact absurd (congrArg Prod.snd hr) Bool.false_ne_true
    · obtain ⟨rfl, hp⟩ := Prod.mk.inj hr
      exact ⟨rfl, hp, rfl⟩

theorem isPaired_of_heard {s r : State} {h : MjHdr} (hr : hear s h = (r, true)) : isPaired r = true := (heard_iff hr).2.1

theorem logPair_pair (s : State) (c : Nat) (d : W32) : (logPair s c d).pair = s.pair := (logPair_frame ..).same .pair (by decide)

theorem logPair_ctl (s : State) (c : Nat) (d : W32) : (logPair s c d).ctl = s.ctl := (logPair_frame ..).same .ctl (by decide)

theorem changePair_ctl (s : State) (f : PairSt → PairSt) : (changePair s f).ctl = s.ctl := (changePair_frame ..).same .ctl (by decide)

/-- Ownership is requested unless the partner still reports it. -/
theorem requestOwn_pair {s : State} (h : s.ctl.mode.run = true) :
    (requestOwn s).pair = { s.pair with ownReq := s.pair.ownReq || !(s.pair.pOwn && !s.pair.dead) } := by
  unfold requestOwn
  rw [h, Bool.or_true, Bool.not_true, Bool.or_false]
  split_ifs with hp
  · rw [hp, Bool.not_true, Bool.or_false]
  · rw [Bool.eq_false_iff.mpr hp, Bool.not_false, Bool.or_true]
    rfl

theorem execMiojoHandover_of_heard {h : MjHdr} {k : W64} {s r : State} (hr : hear s h = (r, true)) (ho : owns r = false)
    (hm : r.ctl.mode.run = true) : Res.ends (fun t => t.pair = { r.pair with
      handover := some true, nHandover := r.pair.nHandover.inc, ownReq := r.pair.ownReq || !(r.pair.pOwn && !r.pair.dead) })
      (execMiojoHandover h k s) := by
  unfold execMiojoHandover
  rw [onMessage_of_heard hr, if_neg (by rw [ho, hm]; decide)]
  dsimp only
  generalize hu : changePair r _ = u
  have hp : u.pair = { r.pair with handover := some true, nHandover := r.pair.nHandover.inc } := by
    rw [← hu, changePair_pair]
  have hc : u.ctl = r.ctl := by
    rw [← hu, changePair_ctl]
  refine Res.ends_next ?_
  rw [requestOwn_pair (by rw [logPair_ctl, hc, hm]), logPair_pair, hp]

theorem mjSend_nextWsn (s : State) (m : MjMsg) : (mjSend s m).pair.nextWsn = s.pair.nextWsn := by
  unfold mjSend mjSendOn
  split_ifs <;> rfl

/-- An announcement that is new takes the next write number. -/
def noteAnnounce (s : State) (a : Announce) : State :=
  s.modPair (fun p => { p with nextWsn := s.pair.nextWsn + 1, annSeen := lastN 16 (p.annSeen ++ [(s.pair.nextWsn, a)]) })

/-- The numbers of the announcements are not in a message's header. -/
theorem mjSend_out_noteAnnounce (s : State) (a : Announce) (m : MjMsg) : (mjSend (noteAnnounce s a) m).out = (mjSend s m).out := by
  have hc : clocksRun (noteAnnounce s a) = clocksRun s := rfl
  have hl : lanesUp (noteAnnounce s a) = lanesUp s := rfl
  unfold mjSend mjSendOn
  rw [hc, hl]
  split_ifs <;> rfl

theorem takeAnnounce_takes {a : Announce} {r : State} (h : r.cyc.cutTick.toNat < a.tick.toNat) :
    (takeAnnounce r a).time = { r.time with announced := r.time.announced ++ [a] } ∧
    (takeAnnounce r a).pair.nextWsn = r.pair.nextWsn + 1 ∧ (takeAnnounce r a).out = (mjSend r (.wack r.pair.nextWsn)).out ∧
    (takeAnnounce r a).ctl = r.ctl := by
  have hf := mjSend_frame (noteAnnounce r a) (.wack r.pair.nextWsn)
  have ht : (mjSend (noteAnnounce r a) (.wack r.pair.nextWsn)).time = r.time := hf.same .time (by decide)
  have hc : (mjSend (noteAnnounce r a) (.wack r.pair.nextWsn)).ctl = r.ctl := hf.same .ctl (by decide)
  have hy : (mjSend (noteAnnounce r a) (.wack r.pair.nextWsn)).cyc = r.cyc := hf.same .cyc (by decide)
  have hn : ¬ a.tick.toNat ≤ (mjSend (noteAnnounce r a) (.wack r.pair.nextWsn)).cyc.cutTick.toNat := by
    rw [hy]
    omega
  have htake : takeAnnounce r a = (mjSend (noteAnnounce r a) (.wack r.pair.nextWsn)).modTime (fun t => { t with
      announced := t.announced ++ [a] }) := if_neg hn
  rw [htake, State.modTime_time, ht]
  exact ⟨rfl, mjSend_nextWsn .., mjSend_out_noteAnnounce .., hc⟩

theorem execMiojoSilent_of_heard {h : MjHdr} {x : Nat} {s r : State} (hr : hear s h = (r, true)) :
    Res.ends (fun t => t.pair.pSilent = true ∧ t.pair.dead = true ∧
      t.pair.nDead = (if r.pair.dead then r.pair.nDead else r.pair.nDead.inc)) (execMiojoSilent h x s) := by
  have hr' : isPaired r = true := isPaired_of_heard hr
  have hp : isPaired (r.modPair (fun p => { p with pSilent := true })) = true := hr'
  obtain ⟨hd, hn, hs⟩ := partnerDied_dead hp
  unfold execMiojoSilent
  rw [onMessage_of_heard hr]
  exact Res.ends_next ⟨hs, hd, hn⟩

/-- Settles O29: a message that is accepted acts on the state it was heard in, and the partner's death outlives the release it may bring. -/
theorem announcementsOfThePartner : Obligations.AnnouncementsOfThePartner := by
  refine ⟨fun h k s r hr ho hm => ?_, fun h a s r hr ho hm hk hn => ?_, fun h a x s r hr ho hm hx => ?_,
    fun h k o d s r hr hm hc => ?_, fun h x s r hr => execMiojoSilent_of_heard (x := x) hr⟩
  · obtain ⟨t, ht, hp⟩ := execMiojoHandover_of_heard (k := k) hr ho hm
    refine ⟨t, ht, ?_⟩
    rw [hp]
    exact ⟨rfl, rfl, rfl, rfl, rfl⟩
  · refine ⟨takeAnnounce r a, ?_, takeAnnounce_takes hk⟩
    change execMiojoAnnounce h a s = _
    unfold execMiojoAnnounce
    rw [onMessage_of_heard hr, if_neg (by rw [ho, hm]; decide), hn]
  · change execMiojoAnnounce h a s = _
    unfold execMiojoAnnounce
    rw [onMessage_of_heard hr, if_neg (by rw [ho, hm]; decide), hx]
  · change execMiojoCheck h k o d s = _
    unfold execMiojoCheck
    rw [onMessage_of_heard hr, if_neg (by rw [hm]; decide)]
    exact congrArg Host.Outcome.next (if_neg (by change ¬ r.cyc.change.active = true; rw [hc]; decide))

/-! ### O30, OWN and ALIVE -/

theorem ownerChanged_keeps (s : State) : s.keepsPair PairSt.ownedOf (ownerChanged s) :=
  .andThen (logPair_keeps ..) ⟨rfl, id, id⟩

theorem tellCheck_keeps (s : State) : s.keepsPair PairSt.ownedOf (tellCheck s) := by
  unfold tellCheck
  split
  · exact .ite (mjSend_keeps ..) (.refl ..)
  · exact .refl ..

theorem forwardReq_keeps (s : State) (f : FwdReq) : s.keepsPair PairSt.ownedOf (forwardReq s f) :=
  .andThen (mjSend_keeps ..) ⟨rfl, id, id⟩

theorem partnerTakes_keeps (s : State) : s.keepsPair PairSt.metOf (partnerTakes s) := by
  have h0 : s.keepsPair PairSt.metOf
      (ownerChanged (changePair s (fun p => { p with noOwner := false, handover := none, ownReq := false }))) :=
    .andThen (ownerChanged_keeps ..).met (.change (.refl ..))
  unfold partnerTakes
  dsimp only
  refine .ite (.andThen (leaveForCatchup_keeps ..) h0) (.andThen (tellCheck_keeps ..).met
    (.foldl (fun _ _ => (forwardReq_keeps ..).met) ?_))
  exact .andThen (placeHeld_keeps ..).met (.pairStep h0)

theorem withdraw_keeps (s : State) : s.keepsPair PairSt.metOf (withdraw s) := by
  unfold withdraw
  exact .ite (.when (joinOwner_keeps ..) (.pairStep (lowerOwn_keeps ..))) (.refl ..)

theorem announce_keeps (s : State) (a : Announce) : s.keepsPair PairSt.ownedOf (announce s a) :=
  .andThen (mjSend_keeps ..) (.timeStep ⟨rfl, id, id⟩)

theorem gainOwner_keeps (s : State) (r : Nat) : s.keepsPair PairSt.ownedOf (gainOwner s r) := by
  unfold gainOwner
  exact .andThen (placeHeld_keeps _) (.when (announce_keeps ..) (.andThen (ownerChanged_keeps ..)
    (.change (.when (changeMode_keeps ..) (.refl ..)))))

theorem answerRepeat_keeps (s : State) (x : Repeat) (f : FwdReq) : s.keepsPair PairSt.ownedOf (answerRepeat s x f) := by
  unfold answerRepeat
  split
  · exact .aside (answerFwd_frame ..) (by decide) (.refl ..)
  · exact ⟨rfl, id, id⟩

theorem ownerTake_keeps (s : State) (f : FwdReq) : s.keepsPair PairSt.ownedOf (ownerTake s f) := by
  unfold ownerTake
  split
  · exact answerRepeat_keeps ..
  · exact .ite (.aside (answerFwd_frame ..) (by decide) (.refl ..)) (.andThen (sequence_keeps ..) ⟨rfl, id, id⟩)

theorem takeOwnership_keeps (s : State) (r : Nat) : s.keepsPair PairSt.ownedOf (takeOwnership s r) := by
  unfold takeOwnership
  exact .foldl (fun _ _ => ownerTake_keeps ..) (.pairStep (gainOwner_keeps ..))

theorem execAliveTimeout_of_silence {w : W64} {s : State} (hm : s.ctl.mode ≠ .silent)
    (he : s.pair.edgeAt = some w) (hw : 48000000 ≤ (s.time.raw - w).toNat)
    (hq : (within s s.pair.last0 800000 = false ∧ within s s.pair.last1 800000 = false) ∨ s.pair.pAlive = false) :
    execAliveTimeout s = .next (partnerDied s) := by
  have hquiet : (!(within s s.pair.last0 (rUs 50) || within s s.pair.last1 (rUs 50)) || !s.pair.pAlive) = true := by
    rcases hq with ⟨h0, h1⟩ | ha
    · rw [show within s s.pair.last0 (rUs 50) = false from h0, show within s s.pair.last1 (rUs 50) = false from h1]
      rfl
    · rw [ha, Bool.not_false, Bool.or_true]
  have hedge : within s s.pair.edgeAt (rMs 3) = false := by
    rw [he]
    exact decide_eq_false (Nat.not_lt.mpr hw)
  have hseen : (s.pair.edgeAt.isSome || s.pair.seen) = true := by
    rw [he]
    rfl
  unfold execAliveTimeout
  dsimp only
  rw [if_neg (by rw [clocksRun_of_ne hm]; decide), if_neg (by rw [hedge, hseen, hquiet]; decide)]

theorem execOwnInChange_ends (b : Bool) (s : State) : Res.ends (fun t => t.pair.ownIn = b) (execOwnInChange b s) := by
  unfold execOwnInChange
  by_cases hb : s.pair.ownIn = b
  · rw [if_pos hb]
    exact Res.ends_next hb
  · rw [if_neg hb]
    dsimp only
    generalize hu : changePair s _ = u
    have hown : u.pair.ownIn = b := by
      rw [← hu, changePair_pair]
    have h0 : u.keepsPair PairSt.metOf (trackWait (trackWiring u)) := .andThen (trackWait_keeps ..).met (trackWiring_keeps ..).met
    have key : ∀ v : State, u.keepsPair PairSt.metOf v → Res.ends (fun t => t.pair.ownIn = b) (.next v) := fun v hv =>
      Res.ends_next (hv.heard.ownIn.trans hown)
    split_ifs
    · exact key _ (.andThen (joinOwner_keeps ..) (.andThen (partnerTakes_keeps ..) (.andThen (withdraw_keeps ..) h0)))
    · exact key _ (.andThen (joinOwner_keeps ..) (.andThen (withdraw_keeps ..) h0))
    · exact key _ (.change h0)
    · exact key _ h0

theorem execOwnPermitExpire_of_low {w : W64} {s : State} (hm : s.ctl.mode = .stop ∨ s.ctl.mode.run = true) (hr : s.pair.ownReq = true)
    (ho : s.pair.ownOut = false) (hi : s.pair.ownIn = false) (hl : s.pair.ownInLowSince = some w)
    (hw : 32000000 ≤ (s.time.raw - w).toNat) :
    Res.ends (fun t => t.pair.ownOut = true ∧ t.pair.ownHighSince = some s.time.raw) (execOwnPermitExpire s) := by
  have hmode : (s.ctl.mode == .stop || s.ctl.mode.run) = true := by
    rcases hm with hm | hm <;> rw [hm]
    · rfl
    · exact Bool.or_true _
  have hsil : s.ctl.mode ≠ .silent := by
    intro hs
    rw [hs] at hmode
    exact absurd hmode (by decide)
  have hpast : past s s.pair.ownInLowSince (rMs 2) = true := by
    rw [hl]
    exact past_some hw
  unfold execOwnPermitExpire
  rw [if_neg (by rw [clocksRun_of_ne hsil]; decide), if_neg (by rw [hr, ho, hi, hpast, hmode]; decide)]
  dsimp only
  generalize hu : changePair s _ = u
  have h0 : u.pair.ownOut = true ∧ u.pair.ownHighSince = some s.time.raw := by
    rw [← hu, changePair_pair]
    exact ⟨rfl, rfl⟩
  have hk : u.keepsPair PairSt.ownedOf (if u.ctl.mode.run = true then takeOwnership u
      (if s.pair.dead = true then 0x0007 else if s.pair.handover = some true then 0x0008 else 0x000A) else u) :=
    .when (takeOwnership_keeps ..) (.refl ..)
  exact Res.ends_next ⟨hk.ownOut.trans h0.1, hk.ownHighSince.trans h0.2⟩

theorem execInterlockWiringFault_of_stood {w : W64} {s : State} (hm : s.ctl.mode ≠ .silent) (hs : s.pair.wiringSince = some w)
    (hw : 160000000 ≤ (s.time.raw - w).toNat) (hd : wiresDiffer s ≠ s.pair.wiring) :
    Res.ends (fun t => t.pair.wiring = !s.pair.wiring ∧ t.pair.nWiring = (if s.pair.wiring then s.pair.nWiring else s.pair.nWiring.inc))
      (execInterlockWiringFault s) := by
  have hpast : past s s.pair.wiringSince (rMs 10) = true := by
    rw [hs]
    exact past_some hw
  have hrun : ¬ (!clocksRun s) = true := by
    rw [clocksRun_of_ne hm]
    decide
  have hstood : ¬ (!past s s.pair.wiringSince (rMs 10) || wiresDiffer s == s.pair.wiring) = true := by
    rw [hpast, beq_eq_false_iff_ne.mpr hd]
    decide
  unfold execInterlockWiringFault
  rw [if_neg hrun, if_neg hstood]
  cases s.pair.wiring with
  | true =>
    rw [if_pos rfl]
    refine Res.ends_next ?_
    rw [changePair_pair]
    exact ⟨rfl, rfl⟩
  | false =>
    rw [if_neg Bool.false_ne_true]
    refine Res.ends_next ?_
    rw [logPair_pair, changePair_pair]
    exact ⟨rfl, rfl⟩

/-- Settles O30: the wires are set by their own commands, and what follows a change of them leaves them standing. -/
theorem ownAndAlive : Obligations.OwnAndAlive := by
  refine ⟨fun s hm hp hs => ?_, fun s h => ?_, fun s => ?_, fun s => ?_, fun s => ?_, fun w s hm hpair he hw hq hd => ?_,
    fun b s => execOwnInChange_ends b s, fun w s hm hr ho hi hl hw => execOwnPermitExpire_of_low hm hr ho hi hl hw,
    fun w s hm hs hw hd => execInterlockWiringFault_of_stood hm hs hw hd⟩
  · change execAliveToggle s = _
    unfold execAliveToggle
    rw [if_pos (by rw [hm, show within s s.pair.permitAt (rMs 2) = true from hp, hs]; rfl)]
    exact (apply_ite Host.Outcome.next _ _ _).symm
  · refine if_neg (fun hc => ?_)
    rw [Bool.and_eq_true, Bool.and_eq_true] at hc
    obtain ⟨⟨hm, hp⟩, hs⟩ := hc
    rcases h with h | h | h
    · exact absurd (h.symm.trans hm) Bool.false_ne_true
    · exact absurd (h.symm.trans hp) Bool.false_ne_true
    · exact h (Option.isNone_iff_eq_none.mp hs)
  · exact (apply_ite Host.Outcome.next _ _ _).symm
  · exact (apply_ite Host.Outcome.next _ _ _).symm
  · have hk : (changePair s (fun p => { p with edgeAt := some s.time.raw })).keepsPair PairSt.heardOf (trackWait (trackWiring
        (changePair s (fun p => { p with edgeAt := some s.time.raw })))) :=
      State.keepsPair.heard (.andThen (trackWait_keeps ..).met (trackWiring_keeps ..).met)
    refine ⟨_, rfl, hk.edgeAt.trans ?_, hk.dead.trans ?_, ?_⟩
    · rw [changePair_pair]
    · rw [changePair_pair]
    · exact ((trackWait_frame _).same .ctl (by decide)).trans (((trackWiring_frame _).same .ctl (by decide)).trans (changePair_ctl ..))
  · obtain ⟨h1, h2, -⟩ := partnerDied_dead hpair
    refine ⟨_, execAliveTimeout_of_silence hm he hw hq, h1, h2.trans ?_⟩
    rw [hd]
    rfl

end Sys2Proof.Machine
end

section
/-!
SUPPORT. The catch-up on the side that serves it.
-/

namespace Sys2Proof.Machine

theorem execMiojoCatch_serves {h : MjHdr} {k : W64} {x : Option Nat} {s r : State} (hr : hear s h = (r, true)) (ho : owns r = true)
    (hm : r.ctl.mode = .alone ∨ r.ctl.mode = .lead) :
    Res.ends (fun t => t.pair.serving = 1 ∧ t.ctl = r.ctl) (execMiojoCatch h 1 k x s) := by
  have hmode : r.ctl.mode ≠ .catchup ∧ r.ctl.mode.run = true ∧ (r.ctl.mode == .alone || r.ctl.mode == .lead) = true := by
    rcases hm with hm | hm <;> rw [hm] <;> decide
  obtain ⟨hc, hrun, hlead⟩ := hmode
  have hserve : serveCatch r 1 x = sayHello (r.modPair (fun p => { p with serving := 1 })) := by
    unfold serveCatch
    rw [ho, hlead]
    rfl
  unfold execMiojoCatch
  rw [onMessage_of_heard hr, if_neg hc, if_pos hrun, hserve]
  exact Res.ends_next ⟨(sayHello_keeps _).serving, (sayHello_frame _).same .ctl (by decide)⟩

theorem mjSend_failures (s : State) (m : MjMsg) : (mjSend s m).pair.nFailed = s.pair.nFailed ∧
    (mjSend s m).pair.cReason = s.pair.cReason := by
  unfold mjSend mjSendOn
  split_ifs <;> exact ⟨rfl, rfl⟩

/-- A service that fails ends, is counted and keeps its reason. -/
theorem serveFail_fails (s : State) (r : Nat) : (serveFail s r).pair.serving = 0 ∧ (serveFail s r).pair.nFailed = s.pair.nFailed.inc ∧
    (serveFail s r).pair.cReason = r := by
  have hl := logPair_pair s 5 (BitVec.ofNat 32 r)
  unfold serveFail
  dsimp only
  generalize logPair s 5 (BitVec.ofNat 32 r) = u at hl ⊢
  refine ⟨(mjSend_keeps ..).serving.trans rfl, (mjSend_failures ..).1.trans ?_, (mjSend_failures ..).2.trans rfl⟩
  exact congrArg (fun p : PairSt => p.nFailed.inc) hl

theorem execCatchupBulkPassDone_of_bulk {s : State} (hm : s.ctl.mode ≠ .silent) (hs : s.pair.serving = 2) (d : Nat) :
    execCatchupBulkPassDone d s =
      if d ≤ 4 * 1048576 then .next (mjSend (s.modPair (fun p => { p with serving := 3 })) (.catchMsg 3 noTick none))
      else if 16 ≤ s.pair.pass then .next (serveFail s 3)
      else .next (sendValues (sendPages (s.modPair (fun p => { p with pass := p.pass + 1 })) true)) := by
  unfold execCatchupBulkPassDone
  rw [if_neg (by rw [clocksRun_of_ne hm]; decide), if_neg (fun h => h hs)]

theorem execCatchupBulkPassDone_ends {s : State} (hm : s.ctl.mode ≠ .silent) (hs : s.pair.serving = 2) (d : Nat) :
    Res.ends (fun t => (d ≤ 4194304 → t.pair.serving = 3) ∧
      (4194304 < d → 16 ≤ s.pair.pass → t.pair.serving = 0 ∧ t.pair.nFailed = s.pair.nFailed.inc ∧ t.pair.cReason = 3) ∧
      (4194304 < d → s.pair.pass < 16 → t.pair.serving = 2 ∧ t.pair.pass = s.pair.pass + 1)) (execCatchupBulkPassDone d s) := by
  rw [execCatchupBulkPassDone_of_bulk hm hs]
  split_ifs with hd hp
  · exact Res.ends_next ⟨fun _ => (mjSend_keeps ..).serving, fun h => by omega, fun h => by omega⟩
  · exact Res.ends_next ⟨fun h => by omega, fun _ _ => serveFail_fails s 3, fun _ h => by omega⟩
  · have hk : (s.modPair (fun p => { p with pass := p.pass + 1 })).keepsPair PairSt.ownedOf
        (sendValues (sendPages (s.modPair (fun p => { p with pass := p.pass + 1 })) true)) :=
      .andThen (sendValues_keeps ..) (sendPages_keeps ..)
    exact Res.ends_next ⟨fun h => by omega, fun _ h => by omega, fun _ _ => ⟨hk.serving.trans hs, hk.pass⟩⟩

/-- The messages that a `STATEACK` does not cover still wait. -/
def ackedTo (s : State) (q : W32) : State := s.modPair (fun p => { p with unacked := p.unacked.filter (fun x => newer x.seq q) })

theorem takeStateAck_acks (s : State) (q : W32) :
    if s.pair.serving = 3 ∧ s.pair.snapTick ≠ noTick ∧ stateOut (ackedTo s q) = false
    then (takeStateAck s q).pair.serving = 4 ∧ (takeStateAck s q).ctl = s.ctl else takeStateAck s q = ackedTo s q := by
  have hdef : takeStateAck s q = if s.pair.serving = 3 ∧ s.pair.snapTick ≠ noTick ∧ stateOut (ackedTo s q) = false then
      flushLog (mjSend ((ackedTo s q).modPair (fun p => { p with serving := 4 })) (.catchMsg 4 s.pair.snapTick none))
      else ackedTo s q := rfl
  rw [hdef]
  split_ifs
  · exact ⟨(flushLog_keeps _).serving.trans (mjSend_keeps ..).serving,
      ((flushLog_frame _).same .ctl (by decide)).trans ((mjSend_frame ..).same .ctl (by decide))⟩
  · rfl

theorem execStateResendTimer_of_due {x : StateTx} {s : State} (hm : s.ctl.mode ≠ .silent) (hu : s.pair.unacked = [x])
    (hx : 1600000 ≤ (s.time.raw - x.atRaw).toNat) (hl : lanesUp s ≠ []) :
    Res.ends (fun t => t.pair.unacked = [{ x with atRaw := s.time.raw }] ∧ t.out.length = s.out.length + 1 ∧
      t.pair.txSeq = s.pair.txSeq) (execStateResendTimer s) := by
  have hdue : [x].filter (fun x => decide (rUs 100 ≤ elapsed s x.atRaw)) = [x] :=
    List.filter_eq_self.mpr (fun y hy => by
      rw [List.mem_singleton.mp hy]
      exact decide_eq_true hx)
  have hne : ¬ ((lanesUp s).isEmpty || [x].isEmpty) = true := by
    rw [List.isEmpty_eq_false_iff.mpr hl]
    exact Bool.false_ne_true
  unfold execStateResendTimer
  dsimp only
  rw [if_neg (by rw [clocksRun_of_ne hm]; decide), hu, hdue, if_neg hne]
  refine Res.ends_next ⟨?_, ?_, rfl⟩
  · change s.pair.unacked.map _ = _
    rw [hu]
    exact congrArg (fun y => [y]) (if_pos rfl)
  · exact List.length_append

/-- Settles O31: what the service sends leaves its own state, so each step sets it alone. -/
theorem catchUpOwningSide : Obligations.CatchUpOwningSide := by
  refine ⟨fun h k x s r hr ho hm => execMiojoCatch_serves hr ho hm, fun d s hm hs => execCatchupBulkPassDone_ends hm hs d,
    fun h q s r hr => ⟨_, onMessage_of_heard hr (fun s => takeStateAck s q), takeStateAck_acks r q⟩,
    fun x s hm hu hx hl => execStateResendTimer_of_due hm hu hx hl⟩

end Sys2Proof.Machine
end

section
/-!
SUPPORT. The partner's `HELLO`, its `TICK`, and the samples it shares.
-/

namespace Sys2Proof.Machine

/-! ### The lane of an accepted message -/

/-- One of the lanes is up. -/
def PairSt.laneOf (p : PairSt) : Bool := p.lane0 || p.lane1

theorem State.keepsPair.lane {s t : State} (h : s.keepsPair PairSt.metOf t) : s.keepsPair PairSt.laneOf t :=
  have e : (t.pair.lane0, t.pair.lane1) = (s.pair.lane0, s.pair.lane1) := congrArg (·.2.2.2) h.same
  ⟨congrArg (fun x : Bool × Bool => x.1 || x.2) e, h.link, h.said⟩

theorem laneUp_up {s : State} (hm : miojoOn s = true) (l : Bool) : (laneUp s l).pair.laneOf = true := by
  have hup : (changePair s (fun p => if l then { p with lane1 := true } else { p with lane0 := true })).pair.laneOf = true := by
    rw [changePair_pair]
    cases l
    · exact Bool.true_or _
    · exact Bool.or_true _
  unfold laneUp
  refine iteInduction (motive := fun u : State => u.pair.laneOf = true) (fun h => ?_) (fun _ => ?_)
  · rw [hm] at h
    unfold PairSt.laneOf
    cases l with
    | false => rw [show s.pair.lane0 = true from h, Bool.true_or]
    | true => rw [show s.pair.lane1 = true from h, Bool.or_true]
  · have hk : (changePair s (fun p => if l then { p with lane1 := true } else { p with lane0 := true })).keepsPair PairSt.laneOf
        (if (changePair s (fun p => if l then { p with lane1 := true } else { p with lane0 := true })).pair.link
          then changePair s (fun p => if l then { p with lane1 := true } else { p with lane0 := true })
          else sayHello (changePair s (fun p => if l then { p with lane1 := true } else { p with lane0 := true }))) :=
      .unless (sayHello_keeps _).met.lane (.refl ..)
    exact hk.same.trans hup

theorem noteFlags_lane (s : State) (h : MjHdr) : s.keepsPair PairSt.laneOf (noteFlags s h) := by
  unfold noteFlags
  refine .andThen (tryPhase2_keeps _).lane (.andThen (joinOwner_keeps _).lane ?_)
  refine .when (.andThen (catchFail_keeps ..).lane (clearCycle_keeps _).met.lane) (.when (requestOwn_keeps _).met.lane ?_)
  exact .andThen (trackWait_keeps _).met.lane (.andThen (trackWiring_keeps _).met.lane (.change (.refl ..)))

theorem acceptSeq_eq (p : PairSt) (q : W32) : ∃ l a, acceptSeq p q = { p with rxSeqs := l, ackSeq := a } := ⟨_, _, rfl⟩

theorem acceptSeq_keeps (s : State) (q : W32) : s.keepsPair PairSt.laneOf (s.modPair (fun p => acceptSeq p q)) := by
  have key : ∀ p, (acceptSeq p q).laneOf = p.laneOf ∧ (acceptSeq p q).link = p.link ∧
      (acceptSeq p q).saidHello = p.saidHello := fun p => by
    obtain ⟨l, a, h⟩ := acceptSeq_eq p q
    rw [h]
    exact ⟨rfl, rfl, rfl⟩
  exact .pairStep (.refl ..) (fun p => (key p).1) (fun p => (key p).2.1) (fun p => (key p).2.2)

/-- The lane that an accepted message came by is up. -/
theorem lane_of_heard {s r : State} {h : MjHdr} (hr : hear s h = (r, true)) : r.pair.laneOf = true := by
  obtain ⟨rfl, -, hm⟩ := heard_iff hr
  have hl : (laneHeard s h).pair.laneOf = true := laneUp_up (by unfold miojoOn at hm ⊢; exact hm) h.lane
  exact (State.keepsPair.andThen (noteFlags_lane ..) (acceptSeq_keeps ..)).same.trans hl

/-! ### `HELLO` -/

/-- The partner's `HELLO` is kept. -/
def noteHello (s : State) (x : Hello) : State :=
  changePair s (fun p => { p with
    hello := some x, pMode := x.mode, dead := false, pTwinAt := if x.mode == 7 && s.pair.pMode != 7 then some s.time.raw else p.pTwinAt })

/-- What an accepted `HELLO` brings once the link was tried. -/
def afterHello (s : State) (x : Hello) (bad twin : Bool) : State :=
  let s := if (wrongPartner s || unlikePartner s) && !bad then logPair s 8 (BitVec.ofNat 32 (pairStatus s / 256 % 16)) else s
  let s := if twin && s.ctl.mode == .alone && owns s && s.pair.serving == 0 then changeMode s .lead 0x0005 else s
  let s := if x.mode == 9 && s.ctl.mode == .catchup && decide (2 ≤ s.pair.phase ∧ s.pair.phase ≤ 5) then beginPhase1 (clearCycle s)
    else s
  tryPhase2 (joinOwner (trackWait s))

theorem execMiojoHello_of_heard {h : MjHdr} {s r : State} (hr : hear s h = (r, true)) (x : Hello) : execMiojoHello h x s =
    .next (afterHello (if (noteHello r x).pair.link then noteHello r x else raiseLink (sayHello (noteHello r x))) x
      (wrongPartner r || unlikePartner r) (x.mode == 7 && r.pair.pMode != 7)) :=
  onMessage_of_heard hr _

theorem afterHello_keeps (s : State) (x : Hello) (b w : Bool) : s.keepsPair PairSt.metOf (afterHello s x b w) := by
  unfold afterHello
  refine .andThen (tryPhase2_keeps _) (.andThen (joinOwner_keeps _) (.andThen (trackWait_keeps _).met ?_))
  exact .when (.andThen (beginPhase1_keeps _) (clearCycle_keeps _).met) (.when (changeMode_keeps ..).met
    (.when (logPair_keeps ..).met (.refl ..)))

/-- The link comes up once both have said `HELLO` and a lane is up. -/
theorem raiseLink_up {s : State} (hh : s.pair.hello.isSome = true) (hs : s.pair.saidHello = true) (hl : s.pair.laneOf = true) :
    (raiseLink s).pair.link = true := by
  unfold raiseLink
  refine iteInduction (motive := fun u : State => u.pair.link = true) (fun h => ?_) (fun _ => ?_)
  · have hn : s.pair.hello.isNone = false := by rw [← Option.not_isSome, hh, Bool.not_true]
    rw [hn, hs, show (s.pair.lane0 || s.pair.lane1) = true from hl] at h
    simpa using h
  · refine (measureDelay_keeps _).link ?_
    rw [changePair_pair]

/-- Neither side has said `HELLO` to raise the link, and this one may not yet. -/
structure State.quiet (s : State) : Prop where
  link : s.pair.link = false
  said : s.pair.saidHello = false
  settled : s.boot.settled = false

theorem State.quiet.of_eq {s t : State} (h : s.quiet) (hl : t.pair.link = s.pair.link) (hs : t.pair.saidHello = s.pair.saidHello)
    (hb : t.boot = s.boot) : t.quiet :=
  ⟨hl.trans h.link, hs.trans h.said, (congrArg BootSt.settled hb).trans h.settled⟩

theorem sayHello_of_quiet {s : State} (h : s.quiet) : sayHello s = s := by
  unfold sayHello
  exact if_neg (by rw [h.settled, Bool.and_false]; exact Bool.false_ne_true)

theorem raiseLink_of_quiet {s : State} (h : s.quiet) : raiseLink s = s := by
  unfold raiseLink
  exact if_pos (by rw [h.said, Bool.not_false, Bool.or_true]; exact Bool.true_or _)

theorem joinOwner_of_quiet {s : State} (h : s.quiet) : joinOwner s = s := by
  unfold joinOwner mayStart
  exact if_neg (by rw [h.settled, Bool.and_false]; exact Bool.false_ne_true)

theorem tryPhase2_of_quiet {s : State} (h : s.quiet) : tryPhase2 s = s := by
  unfold tryPhase2
  exact if_pos (.inr (.inr (.inl h.link)))

theorem mjSend_quiet {s : State} (h : s.quiet) (m : MjMsg) : (mjSend s m).quiet := by
  refine h.of_eq ?_ ?_ ((mjSend_frame ..).same .boot (by decide)) <;> unfold mjSend mjSendOn <;> split_ifs <;> rfl

theorem setMode_quiet {s : State} (h : s.quiet) (m : Mode) (r : Nat) : (setMode s m r).quiet := by
  have hp : (setMode s m r).pair = s.pair := (setMode_frame ..).same .pair (by decide)
  exact h.of_eq (congrArg PairSt.link hp) (congrArg PairSt.saidHello hp) (setMode_boot ..)

theorem trackWait_quiet {s : State} (h : s.quiet) : (trackWait s).quiet := by
  unfold trackWait
  split_ifs
  · exact h.of_eq rfl rfl rfl
  · exact h.of_eq rfl rfl rfl

theorem noteHello_quiet {s : State} (h : s.quiet) (x : Hello) : (noteHello s x).quiet :=
  h.of_eq ((congrArg PairSt.link (changePair_pair ..)).trans rfl) ((congrArg PairSt.saidHello (changePair_pair ..)).trans rfl)
    ((changePair_frame ..).same .boot (by decide))

theorem beginPhase1_quiet {s : State} (h : s.quiet) : (beginPhase1 (clearCycle s)).quiet := by
  have hp : (clearCycle s).pair = s.pair := (clearCycle_frame s).same .pair (by decide)
  have hc : (clearCycle s).quiet := h.of_eq (congrArg PairSt.link hp) (congrArg PairSt.saidHello hp)
    ((clearCycle_frame s).same .boot (by decide))
  unfold beginPhase1
  refine mjSend_quiet (State.quiet.of_eq hc ?_ ?_ ?_) _ <;> rfl

theorem afterHello_quiet {s : State} (h : s.quiet) (x : Hello) (b w : Bool) : (afterHello s x b w).quiet := by
  unfold afterHello
  dsimp only
  have h1 : State.quiet (if (wrongPartner s || unlikePartner s) && !b
      then logPair s 8 (BitVec.ofNat 32 (pairStatus s / 256 % 16)) else s) :=
    iteInduction (motive := State.quiet) (fun _ => h.of_eq (by rw [logPair_pair]) (by rw [logPair_pair])
      ((logPair_frame ..).same .boot (by decide))) (fun _ => h)
  generalize (if (wrongPartner s || unlikePartner s) && !b then logPair s 8 (BitVec.ofNat 32 (pairStatus s / 256 % 16)) else s) = u at h1
  have h2 : State.quiet (if w && u.ctl.mode == .alone && owns u && u.pair.serving == 0 then changeMode u .lead 0x0005 else u) :=
    iteInduction (motive := State.quiet) (fun _ => by
      unfold changeMode
      rw [sayHello_of_quiet (setMode_quiet h1 ..)]
      exact setMode_quiet h1 ..) (fun _ => h1)
  generalize (if w && u.ctl.mode == .alone && owns u && u.pair.serving == 0 then changeMode u .lead 0x0005 else u) = v at h2
  have h3 := trackWait_quiet (iteInduction (motive := State.quiet) (c := (x.mode == 9 && v.ctl.mode == .catchup &&
    decide (2 ≤ v.pair.phase ∧ v.pair.phase ≤ 5)) = true) (fun _ => beginPhase1_quiet h2) (fun _ => h2))
  rw [joinOwner_of_quiet h3, tryPhase2_of_quiet h3]
  exact h3

theorem execMiojoHello_ends {h : MjHdr} {s r : State} (hr : hear s h = (r, true)) (x : Hello) :
    Res.ends (fun t => t.pair.hello = some x ∧ t.pair.pMode = x.mode ∧ t.pair.dead = false ∧
      (r.pair.link = true ∨ r.pair.saidHello = true → t.pair.link = true) ∧
      (r.pair.link = false → r.pair.saidHello = false → r.boot.settled = false → t.pair.link = false)) (execMiojoHello h x s) := by
  have hp : (noteHello r x).pair = { r.pair with
      hello := some x, pMode := x.mode, dead := false,
      pTwinAt := if x.mode == 7 && r.pair.pMode != 7 then some r.time.raw else r.pair.pTwinAt } := changePair_pair ..
  have hq : r.quiet → (noteHello r x).quiet := fun hq => noteHello_quiet hq x
  have hlane : (noteHello r x).pair.laneOf = true := by
    rw [hp]
    exact lane_of_heard hr
  rw [execMiojoHello_of_heard hr]
  generalize noteHello r x = u at hp hq hlane
  have hu : u.pair.hello = some x ∧ u.pair.pMode = x.mode ∧ u.pair.dead = false ∧ u.pair.link = r.pair.link ∧
      u.pair.saidHello = r.pair.saidHello := by
    rw [hp]
    exact ⟨rfl, rfl, rfl, rfl, rfl⟩
  obtain ⟨hhello, hmode, hdead, hlink, hsaid⟩ := hu
  have hraise : u.keepsPair PairSt.metOf (if u.pair.link then u else raiseLink (sayHello u)) :=
    .unless (.andThen (raiseLink_keeps _).met (sayHello_keeps _).met) (.refl ..)
  have hup : r.pair.link = true ∨ r.pair.saidHello = true → (if u.pair.link then u else raiseLink (sayHello u)).pair.link = true := by
    intro hor
    split_ifs with hl
    · exact hl
    · have hs : u.pair.saidHello = true := hsaid.trans (hor.resolve_left (fun h => hl (hlink.trans h)))
      have hh : (sayHello u).pair.hello = u.pair.hello := congrArg (·.2.1) (sayHello_keeps u).met.same
      refine raiseLink_up ?_ ((sayHello_keeps u).said hs) ((sayHello_keeps u).met.lane.same.trans hlane)
      rw [hh, hhello]
      rfl
  have hstay : u.quiet → (if u.pair.link then u else raiseLink (sayHello u)) = u := fun hq => by
    rw [sayHello_of_quiet hq, raiseLink_of_quiet hq, ite_self]
  generalize (if u.pair.link then u else raiseLink (sayHello u)) = v at hraise hup hstay
  have hk := (afterHello_keeps v x (wrongPartner r || unlikePartner r) (x.mode == 7 && r.pair.pMode != 7)).andThen hraise
  refine Res.ends_next ⟨(congrArg (·.2.1) hk.same).trans hhello, (congrArg (·.2.2.1) hk.same).trans hmode, hk.heard.dead.trans hdead,
    fun hor => (afterHello_keeps ..).link (hup hor), fun hl hs hb => ?_⟩
  have hqu := hq ⟨hl, hs, hb⟩
  rw [hstay hqu]
  exact (afterHello_quiet hqu ..).link

end Sys2Proof.Machine
end

section
/-!
SUPPORT. The partner's `TICK` and the samples it shares.
-/

namespace Sys2Proof.Machine

/-! ### What a tick keeps of the pair -/

/-- Who owns, and how far the partner is. -/
def PairSt.roleOf (p : PairSt) := (p.ownOut, p.noOwner, p.delayNs)

theorem mjSend_role (s : State) (m : MjMsg) : s.keepsPair PairSt.roleOf (mjSend s m) := by
  unfold mjSend mjSendOn
  exact .ite (.ite (.refl ..) ⟨rfl, id, id⟩) (.refl ..)

theorem logItems_role (s : State) (k : W64) (xs : List LogItem) : s.keepsPair PairSt.roleOf (logItems s k xs) := by
  unfold logItems
  exact .ite (.refl ..) ⟨rfl, id, id⟩

theorem announce_role (s : State) (a : Announce) : s.keepsPair PairSt.roleOf (announce s a) :=
  .andThen (mjSend_role ..) (.timeStep ⟨rfl, id, id⟩)

theorem setOwnTime_role (s : State) (o : TimeState) : s.keepsPair PairSt.roleOf (setOwnTime s o) := by
  unfold setOwnTime
  refine .ite (.refl ..) (.ite (.aside (setAgreed_frame ..) (by decide) ?_) (.when (announce_role ..) ?_))
  · exact .aside (logTime_frame ..) (by decide) (.timeStep (.refl ..))
  · exact .aside (logTime_frame ..) (by decide) (.timeStep (.refl ..))

theorem applyStepAt_role (s : State) (r : W64) (o : Int) : s.keepsPair PairSt.roleOf (applyStepAt s r o) := by
  unfold applyStepAt
  refine .when (.aside (fireAlarm_frame ..) (by decide) (.refl ..)) (.when (setOwnTime_role ..) ?_)
  exact .aside (raiseIrq_frame ..) (by decide) (.aside (logTime_frame ..) (by decide) (.cycStep (.timeStep (.refl ..))))

theorem applyAnnounce_role (s : State) (a : Announce) : s.keepsPair PairSt.roleOf (applyAnnounce s a) := by
  unfold applyAnnounce
  exact .when (.aside (setAgreed_frame ..) (by decide) (.timeStep (.refl ..))) (.when (applyStepAt_role ..) (.refl ..))

theorem applyAnnounced_role (s : State) : s.keepsPair PairSt.roleOf (applyAnnounced s) := by
  unfold applyAnnounced
  exact .foldl (fun _ _ => applyAnnounce_role ..) (.timeStep (.refl ..))

theorem tickTime_role (s : State) : s.keepsPair PairSt.roleOf (tickTime s) := by
  have h0 : s.keepsPair PairSt.roleOf (logItems (applyAnnounced s) (applyAnnounced s).cyc.cutTick
      ((s.time.announced.filter (fun a => decide (a.tick.toNat ≤ s.cyc.cutTick.toNat))).map LogItem.announce)) :=
    .andThen (logItems_role ..) (applyAnnounced_role s)
  have h1 : ∀ u v : State, s.keepsPair PairSt.roleOf v → s.keepsPair PairSt.roleOf (logTimeChange u v) := fun u v hv => by
    unfold logTimeChange
    exact .ite hv (.andThen (logItems_role ..) hv)
  exact h1 _ _ (.aside (agreedAtTick_frame ..) (by decide) h0)

theorem confirmTick_role (s : State) : s.keepsPair PairSt.roleOf (confirmTick s) := by
  unfold confirmTick
  refine .ite (.refl ..) (.aside (planSeqs_frame _) (by decide) (.aside (reachEngines_frame _) (by decide)
    (.aside (fieldCutoff_frame ..) (by decide) (.aside (judgeField_frame ..) (by decide) (.aside (dueEvents_frame ..) (by decide) ?_)))))
  exact .cycStep (.andThen (tickTime_role _) (.aside (leavePaced_frame ..) (by decide) (.refl ..)))

theorem supplyOne_role (s : State) (n : Nat) (f : SlotFrame) : s.keepsPair PairSt.roleOf (supplyOne s n f) := by
  unfold supplyOne
  split
  · exact .andThen (mjSend_role ..) ⟨rfl, id, id⟩
  · exact .andThen (mjSend_role ..) ⟨rfl, id, id⟩

theorem supplyPartner_role (s : State) (k : TickMsg) : s.keepsPair PairSt.roleOf (supplyPartner s k) := by
  unfold supplyPartner
  refine .foldl (fun u x => ?_) (.refl ..)
  split
  · exact supplyOne_role ..
  · exact .ite (supplyOne_role ..) (.refl ..)
  · exact .refl ..

/-! ### What a tick keeps of the cycle -/

/-- The partner's tick, and that the cutoff stands. -/
def CycSt.tickOf (c : CycSt) := (c.partnerTick, c.confirmed)

theorem pubSeq_tick (s : State) (n : Nat) (a : Bool) : (pubSeq s n a).2.cyc.tickOf = s.cyc.tickOf := by
  unfold pubSeq
  split
  · rfl
  · rfl

theorem sendPubWords_tick (s : State) (n : Nat) (c : PubCfg) (paced : Bool) (k : W32) (cut : Nat) (ws : List TWord) :
    (sendPubWords s n c paced k cut ws).cyc.tickOf = s.cyc.tickOf := by
  have hr : (if paced then takeSeq s true else pubSeq s n false).2.cyc.tickOf = s.cyc.tickOf := by
    split
    · rfl
    · exact pubSeq_tick ..
  unfold sendPubWords
  dsimp only
  generalize (if paced then takeSeq s true else pubSeq s n false) = r at hr
  exact (congrArg CycSt.tickOf ((sourceUnder_frame ..).same .cyc (by decide))).trans hr

theorem sendPaced_tick (s : State) (x : PacedOut) : (sendPaced s x).cyc.tickOf = s.cyc.tickOf := by
  unfold sendPaced
  split
  · rfl
  · split_ifs
    · exact sendPubWords_tick ..
    · rfl
    · rfl

theorem leavePaced_tick (s : State) (k : Nat) : (leavePaced s k).cyc.tickOf = s.cyc.tickOf :=
  foldl_keeps (P := fun u : State => u.cyc.tickOf = s.cyc.tickOf) (fun _ _ h => (sendPaced_tick ..).trans h) _ rfl

theorem gooseOut_tick (s : State) (n : Nat) (c : PubCfg) (a : Bool) (st sq : W32) (d : W64) (i : Nat) :
    (gooseOut s n c a st sq d i).cyc.tickOf = s.cyc.tickOf := by
  unfold gooseOut
  dsimp only
  exact (congrArg CycSt.tickOf ((sourceOn_frame ..).same .cyc (by decide))).trans (pubSeq_tick s n a)

theorem gooseRepeats_tick (s : State) (k : W64) (l : Nat) : (gooseRepeats s k l).cyc.tickOf = s.cyc.tickOf := by
  have hone : ∀ (u : State) (n : Nat) (c : PubCfg), (gooseRepeat u n c k).cyc.tickOf = u.cyc.tickOf := fun u n c => by
    unfold gooseRepeat
    dsimp only
    split
    · rfl
    · split_ifs
      · exact gooseOut_tick ..
      · rfl
  refine foldl_keeps (P := fun u : State => u.cyc.tickOf = s.cyc.tickOf) (fun u x h => ?_) _ rfl
  split_ifs
  · exact (hone ..).trans h
  · exact h

theorem planSeqs_tick (s : State) : (planSeqs s).cyc.tickOf = s.cyc.tickOf := by
  unfold planSeqs
  split_ifs
  · rfl
  · exact gooseRepeats_tick ..

theorem reachEngines_tick (s : State) : (reachEngines s).cyc.tickOf = s.cyc.tickOf := by
  unfold reachEngines
  refine foldl_keeps (P := fun u : State => u.cyc.tickOf = s.cyc.tickOf) (fun u x h => ?_) _ rfl
  split
  · dsimp only
    split_ifs
    · exact h
    · exact h
    · exact h
  · exact h
  · exact h
  · exact h

theorem applyStepAt_tick (s : State) (r : W64) (o : Int) : (applyStepAt s r o).cyc.tickOf = s.cyc.tickOf := by
  have hset : ∀ (u : State) (x : TimeState), (setOwnTime u x).cyc = u.cyc := fun u x => (setOwnTime_frame u x).same .cyc (by decide)
  have halarm : ∀ u : State, (fireAlarm u).cyc = u.cyc := fun u => (fireAlarm_frame u).same .cyc (by decide)
  have hlog : ∀ (u : State) (c : Nat) (o : Int), (raiseIrq (logTime u c o) 18).cyc = u.cyc := fun u c o =>
    ((raiseIrq_frame _ 18).same .cyc (by decide)).trans ((logTime_frame u c o).same .cyc (by decide))
  unfold applyStepAt
  dsimp only
  split_ifs <;> simp only [hset, halarm, hlog] <;> rfl

theorem applyAnnounced_tick (s : State) : (applyAnnounced s).cyc.tickOf = s.cyc.tickOf := by
  refine foldl_keeps (P := fun u : State => u.cyc.tickOf = s.cyc.tickOf) (fun u a h => ?_) _ rfl
  have hset : ∀ (v : State) (x : TimeState), (setAgreed v x).cyc = v.cyc := fun v x => (setAgreed_frame v x).same .cyc (by decide)
  have hstep : (if a.step then applyStepAt u (stepRaw u) a.offset else u).cyc.tickOf = s.cyc.tickOf := by
    split_ifs
    · exact (applyStepAt_tick ..).trans h
    · exact h
  unfold applyAnnounce
  dsimp only
  generalize (if a.step then applyStepAt u (stepRaw u) a.offset else u) = v at hstep
  split_ifs
  · rw [hset]
    exact hstep
  · exact hstep

theorem logItems_cyc (s : State) (k : W64) (xs : List LogItem) : (logItems s k xs).cyc = s.cyc :=
  (logItems_frame ..).same .cyc (by decide)

theorem logTimeChange_cyc (s t : State) : (logTimeChange s t).cyc = t.cyc := by
  unfold logTimeChange
  split_ifs
  · rfl
  · exact logItems_cyc ..

theorem tickTime_tick (s : State) : (tickTime s).cyc.tickOf = s.cyc.tickOf := by
  unfold tickTime
  dsimp only
  have hagreed : ∀ (u : State) (d : BitVec 4), (agreedAtTick u d).cyc = u.cyc := fun u d => (agreedAtTick_frame u d).same .cyc (by decide)
  rw [logTimeChange_cyc, hagreed, logItems_cyc]
  exact applyAnnounced_tick s

/-- What the fields, the engines and the plan of numbers make of a cutoff leaves it standing. -/
theorem cutoff_tick (s : State) (d : BitVec 4) (v : W32) :
    (planSeqs (reachEngines (fieldCutoff (judgeField (dueEvents s d 1 32 v) d) d))).cyc.tickOf = s.cyc.tickOf :=
  (planSeqs_tick _).trans ((reachEngines_tick _).trans (congrArg CycSt.tickOf (((fieldCutoff_frame ..).same .cyc (by decide)).trans
    (((judgeField_frame ..).same .cyc (by decide)).trans ((dueEvents_frame ..).same .cyc (by decide))))))

/-- The cutoff stands once the partner's tick confirmed it. -/
theorem confirmTick_tick (s : State) : (confirmTick s).cyc.partnerTick = s.cyc.partnerTick ∧ (confirmTick s).cyc.confirmed = true := by
  cases hc : s.cyc.confirmed with
  | true =>
    have : confirmTick s = s := if_pos hc
    rw [this]
    exact ⟨rfl, hc⟩
  | false =>
    have hp : (tickTime (leavePaced s s.cyc.cutTime.toNat)).cyc.tickOf = s.cyc.tickOf := (tickTime_tick _).trans (leavePaced_tick ..)
    unfold confirmTick
    rw [if_neg (by rw [hc]; decide)]
    dsimp only
    generalize tickTime (leavePaced s s.cyc.cutTime.toNat) = u at hp
    have hu : u.cyc.partnerTick = s.cyc.partnerTick := congrArg Prod.fst hp
    exact ⟨(congrArg Prod.fst (cutoff_tick ..)).trans hu, congrArg Prod.snd (cutoff_tick ..)⟩

/-! ### The clock under a tick with nothing announced -/

/-- What TIME is read from. -/
def TimeSt.clockOf (t : TimeSt) := (t.raw, t.base, t.anchor, t.rate)

theorem setAgreed_clock (s : State) (o : TimeState) : (setAgreed s o).time.clockOf = s.time.clockOf := by
  have hirq : ∀ u : State, (raiseIrq u 17).time = u.time := fun u => (raiseIrq_frame u 17).same .time (by decide)
  unfold setAgreed
  split_ifs
  · rfl
  · rw [hirq]
    rfl

theorem agreedAtTick_clock (s : State) (d : BitVec 4) : (agreedAtTick s d).time.clockOf = s.time.clockOf := by
  unfold agreedAtTick
  split_ifs
  · exact setAgreed_clock ..
  · rfl
  · rfl
  · rfl
  · exact setAgreed_clock ..

theorem tickTime_clock {s : State} (h : s.time.announced = []) : (tickTime s).time.clockOf = s.time.clockOf := by
  have hitems : ∀ (u : State) (k : W64) (xs : List LogItem), (logItems u k xs).time = u.time := fun u k xs =>
    (logItems_frame u k xs).same .time (by decide)
  have hchange : ∀ u v : State, (logTimeChange u v).time = v.time := fun u v => by
    unfold logTimeChange
    split_ifs
    · rfl
    · exact hitems ..
  have hnone : (applyAnnounced s).time.clockOf = s.time.clockOf := by
    unfold applyAnnounced
    rw [h]
    rfl
  unfold tickTime
  dsimp only
  rw [hchange, agreedAtTick_clock, hitems]
  exact hnone

theorem confirmTick_clock {s : State} (h : s.time.announced = []) : (confirmTick s).time.clockOf = s.time.clockOf := by
  have hleave : (leavePaced s s.cyc.cutTime.toNat).time = s.time := (leavePaced_frame ..).same .time (by decide)
  have htick : (tickTime (leavePaced s s.cyc.cutTime.toNat)).time.clockOf = s.time.clockOf := by
    rw [tickTime_clock (by rw [hleave]; exact h), hleave]
  have hcut : ∀ (u : State) (d : BitVec 4) (v : W32),
      (planSeqs (reachEngines (fieldCutoff (judgeField (dueEvents u d 1 32 v) d) d))).time = u.time := fun u d v =>
    ((planSeqs_frame _).same .time (by decide)).trans (((reachEngines_frame _).same .time (by decide)).trans
      (((fieldCutoff_frame ..).same .time (by decide)).trans (((judgeField_frame ..).same .time (by decide)).trans
        ((dueEvents_frame ..).same .time (by decide)))))
  unfold confirmTick
  split_ifs
  · rfl
  · dsimp only
    rw [hcut]
    exact htick

/-! ### The offset of the partner's tick -/

theorem tickOffset_of_same {s t : State} (hc : t.time.clockOf = s.time.clockOf) (hd : t.pair.delayNs = s.pair.delayNs) :
    tickOffset t = tickOffset s := by
  obtain ⟨h1, h2⟩ := Prod.mk.inj hc
  obtain ⟨h2, h3⟩ := Prod.mk.inj h2
  obtain ⟨h3, h4⟩ := Prod.mk.inj h3
  unfold tickOffset timeNow timeAt
  rw [h1, h2, h3, h4, hd]

theorem writeRate_keeps (s : State) (r : W32) : s.keepsPair PairSt.heardOf (writeRate s r) := .of_eq rfl

theorem takeOffset_offset (s : State) : (takeOffset s).pair.offset = sat32 (tickOffset s / 16) := by
  have hs : (showOffset s).pair.offset = sat32 (tickOffset s / 16) := rfl
  have hk : (showOffset s).keepsPair PairSt.heardOf (takeOffset s) := by
    unfold takeOffset
    refine .ite (.refl ..) (.ite (.change (.refl ..)) (.ite (.andThen (leaveForCatchup_keeps ..).heard (.pairStep (.refl ..))) ?_))
    refine .ite (.change (.pairStep (.refl ..))) (.andThen (writeRate_keeps ..) (.change (.pairStep (.refl ..))))
  exact hk.offset.trans hs

/-- The owning side shows the offset and follows nothing. -/
theorem takeOffset_of_owner {s : State} (h : ownerPart s = true) : (takeOffset s).cyc = s.cyc := by
  have ho : ownerPart (showOffset s) = true := h
  have hc : ∀ f, (changePair (showOffset s) f).cyc = (showOffset s).cyc := fun f => (changePair_frame _ f).same .cyc (by decide)
  unfold takeOffset
  dsimp only
  split_ifs
  · rfl
  · exact hc _

theorem ownerPart_of_same {s t : State} (hp : s.keepsPair PairSt.roleOf t) (hpins : t.pins = s.pins) (hb : t.boot = s.boot) :
    ownerPart t = ownerPart s := by
  obtain ⟨h1, h2⟩ := Prod.mk.inj hp.same
  obtain ⟨h2, -⟩ := Prod.mk.inj h2
  unfold ownerPart owns isPaired pkgD pkgOf
  rw [h1, h2, hpins, hb]

/-! ### O27 -/

/-- The partner's tick is kept. -/
def noteTick (s : State) (k : TickMsg) : State := s.modCyc (fun c => { c with partnerTick := some k })

/-- The cutoff that a tick in agreement lets stand. -/
def agreedCutoff (s : State) (k : TickMsg) : State :=
  if s.cyc.phase = .agreeing ∧ k.tick = s.cyc.cutTick ∧ k.prevReleased = true then supplyPartner (confirmTick s) k else s

theorem execMiojoTick_of_run {h : MjHdr} {s r : State} (hr : hear s h = (r, true)) (hm : r.ctl.mode.run = true) (k : TickMsg) :
    execMiojoTick h k s = .next (takeOffset (agreedCutoff (noteTick r k) k)) := by
  have hc : ¬ (r.ctl.mode = .catchup ∧ r.pair.phase < 5) := by
    rintro ⟨hc, -⟩
    rw [hc] at hm
    exact absurd hm (by decide)
  have ht : ¬ (!countsTicks r) = true := by
    unfold countsTicks Mode.executes
    rw [hm]
    exact Bool.false_ne_true
  unfold execMiojoTick
  rw [onMessage_of_heard hr, if_neg hc, if_neg ht]
  rfl

theorem agreedCutoff_frame (s : State) (k : TickMsg) : s.onlyChanges [.out, .time, .cyc, .n0, .n1, .evf, .loops, .pair, .net, .log,
    .field, .integ] (agreedCutoff s k) :=
  .ite (.andThen (supplyPartner_frame ..) rfl (confirmTick_frame s)) (.refl ..)

theorem agreedCutoff_role (s : State) (k : TickMsg) : s.keepsPair PairSt.roleOf (agreedCutoff s k) :=
  .ite (.andThen (supplyPartner_role ..) (confirmTick_role s)) (.refl ..)

theorem agreedCutoff_offset {s : State} (k : TickMsg) (h : s.cyc.phase ≠ .agreeing ∨ s.time.announced = []) :
    tickOffset (agreedCutoff s k) = tickOffset s := by
  refine tickOffset_of_same ?_ (congrArg (·.2.2) (agreedCutoff_role s k).same)
  unfold agreedCutoff
  split_ifs with hc
  · rw [show (supplyPartner (confirmTick s) k).time = (confirmTick s).time from (supplyPartner_frame ..).same .time (by decide)]
    exact confirmTick_clock (h.resolve_left (fun hn => hn hc.1))
  · rfl

theorem agreedCutoff_tick (s : State) (k : TickMsg) : (agreedCutoff s k).cyc.partnerTick = s.cyc.partnerTick ∧
    (s.cyc.phase = .agreeing → k.tick = s.cyc.cutTick → k.prevReleased = true → (agreedCutoff s k).cyc.confirmed = true) := by
  unfold agreedCutoff
  split_ifs with hc
  · rw [show (supplyPartner (confirmTick s) k).cyc = (confirmTick s).cyc from (supplyPartner_frame ..).same .cyc (by decide)]
    exact ⟨(confirmTick_tick s).1, fun _ _ _ => (confirmTick_tick s).2⟩
  · exact ⟨rfl, fun h1 h2 h3 => absurd ⟨h1, h2, h3⟩ hc⟩

theorem execMiojoTick_ends {h : MjHdr} {s r : State} (hr : hear s h = (r, true)) (hm : r.ctl.mode.run = true) (k : TickMsg) :
    Res.ends (fun t => (r.cyc.phase ≠ .agreeing ∨ r.time.announced = [] → t.pair.offset = sat32 (tickOffset r / 16)) ∧
      (ownerPart r = true → t.cyc.partnerTick = some k ∧
        (r.cyc.phase ≠ .agreeing → t.cyc = { r.cyc with partnerTick := some k }) ∧
        (r.cyc.phase = .agreeing → k.tick = r.cyc.cutTick → k.prevReleased = true → t.cyc.confirmed = true)))
      (execMiojoTick h k s) := by
  rw [execMiojoTick_of_run hr hm]
  refine Res.ends_next ⟨fun ho => ?_, fun ho => ?_⟩
  · rw [takeOffset_offset, agreedCutoff_offset k (s := noteTick r k) ho]
    rfl
  · have hown : ownerPart (agreedCutoff (noteTick r k) k) = true :=
      (ownerPart_of_same (agreedCutoff_role ..) ((agreedCutoff_frame ..).same .pins (by decide))
        ((agreedCutoff_frame ..).same .boot (by decide))).trans ho
    obtain ⟨ht, hc⟩ := agreedCutoff_tick (noteTick r k) k
    rw [takeOffset_of_owner hown]
    refine ⟨ht, fun hn => ?_, hc⟩
    have hsame : agreedCutoff (noteTick r k) k = noteTick r k := if_neg (fun hc => hn hc.1)
    rw [hsame]
    rfl

theorem stSt_modStream_same (s : State) (k : Nat) (f : StreamSt → StreamSt) : stSt (modStream s k f) k = f (stSt s k) :=
  (mgetD_mupd ..).trans (if_pos rfl)

theorem takePeerSample_of_idle {s : State} {m : SampleMsg} (h : (stSt s m.stream).pendT = none) :
    takePeerSample s m = modStream s m.stream (fun x => { x with peers := lastN 64 (x.peers ++ [m]) }) := by
  unfold takePeerSample
  dsimp only
  rw [stSt_modStream_same, h]

theorem stSt_countStream (s : State) (k : Nat) (f : ChSt → ChSt) (j : Nat) : stSt (countStream s k f) j = stSt s j := by
  unfold stSt
  rw [show (countStream s k f).streams = s.streams from (countStream_frame ..).same .streams (by decide)]

theorem takeSvSupply_of_new {s : State} {k : Nat} {f : SvFrame} (h : (stSt s k).pendT = none)
    (hn : (stSt s k).held.find? (fun x => sameAsdus x.frame f) = none) : (stSt (takeSvSupply s k f) k).held =
      lastN 64 ((stSt s k).held ++ [⟨f, (((stSt s k).peers.find? (fun m => m.holds && f.asdus.any (fun a => a.smpCnt == m.smpCnt))).map
        (fun m => nearTime (timeNow s) m.arrival)).getD (timeNow s), true⟩]) := by
  unfold takeSvSupply
  rw [hn]
  dsimp only
  rw [stSt_countStream, stSt_modStream_same, h]
  dsimp only
  rw [stSt_countStream, stSt_modStream_same]

theorem execMiojoSample_of_live {h : MjHdr} {m : SampleMsg} {s r : State} (hr : hear s h = (r, true)) (he : enginesLive r = true) :
    execMiojoSample h m s = .next (takePeerSample r m) := by
  unfold execMiojoSample
  rw [onMessage_of_heard hr, if_pos he]

theorem execMiojoSvsupply_of_live {h : MjHdr} {k : Nat} {f : SvFrame} {s r : State} (hr : hear s h = (r, true))
    (he : enginesLive r = true) : execMiojoSvsupply h k f s = .next (takeSvSupply r k f) := by
  unfold execMiojoSvsupply
  rw [onMessage_of_heard hr, if_pos he]

theorem execMiojoSidein_of_live {h : MjHdr} {x : SideItem} {s r : State} (hr : hear s h = (r, true)) (he : enginesLive r = true) :
    execMiojoSidein h [x] s = .next (replaySide r (timeNow r) x) := by
  unfold execMiojoSidein
  rw [onMessage_of_heard hr, if_pos he]
  rfl

theorem execMiojoSupply_net {h : MjHdr} {n : Nat} {f : Frame} {s r : State} (hr : hear s h = (r, true)) (hp : r.cyc.phase = .agreeing) :
    execMiojoSupply h n (.net f) s = .next ((r.modPair (fun p => { p with nSuppBy := p.nSuppBy.inc })).modCyc
      (fun c => { c with supplies := mset c.supplies n f })) := by
  unfold execMiojoSupply
  rw [onMessage_of_heard hr, if_neg (fun hn => hn hp)]

theorem execMiojoSupply_goose {h : MjHdr} {n : Nat} {f : GooseMsg} {s r : State} (hr : hear s h = (r, true))
    (hp : r.cyc.phase = .agreeing) : execMiojoSupply h n (.goose f) s = .next
      ((r.modPair (fun p => { p with nSuppBy := p.nSuppBy.inc })).modCyc (fun c => { c with suppliesG := mset c.suppliesG n f })) := by
  unfold execMiojoSupply
  rw [onMessage_of_heard hr, if_neg (fun hn => hn hp)]

theorem execMiojoTick_of_joining {h : MjHdr} {s r : State} (hr : hear s h = (r, true)) (hm : r.ctl.mode = .catchup)
    (hp : r.pair.phase < 5) (k : TickMsg) : execMiojoTick h k s = .next (showOffset (r.modCyc (fun c => { c with tick := k.tick }))) := by
  unfold execMiojoTick
  rw [onMessage_of_heard hr, if_pos ⟨hm, hp⟩]

theorem replaySide_pulse {x : SideItem} (h : x.kind = 2) (s : State) (w : Nat) :
    replaySide s w x = putPulse s x.target (nearTime w x.stamp) x.value := by
  unfold replaySide
  rw [h]
  rfl

/-- Settles O27: what follows an accepted `HELLO` or `TICK` keeps what it told; the shared samples are stored as they come. -/
theorem helloAndTicks : Obligations.HelloAndTicks := by
  refine ⟨fun h x s r hr => execMiojoHello_ends hr x, fun h k s r hr hm => execMiojoTick_ends hr hm k,
    fun h k s r hr hm hp => execMiojoTick_of_joining hr hm hp k, fun h n f s r hr hp => execMiojoSupply_net hr hp,
    fun h n f s r hr hp => execMiojoSupply_goose hr hp, fun h m s r hr he hn => ⟨_, execMiojoSample_of_live hr he, ?_⟩,
    fun h k f s r hr he hp hn => ⟨_, execMiojoSvsupply_of_live hr he, takeSvSupply_of_new hp hn⟩, fun h n x s r hr he hk hx => ?_⟩
  · rw [takePeerSample_of_idle hn, stSt_modStream_same]
    exact ⟨rfl, rfl⟩
  · subst hx
    exact (execMiojoSidein_of_live hr he).trans (congrArg Host.Outcome.next (replaySide_pulse hk r _))

end Sys2Proof.Machine
end

section
/-!
SUPPORT. Publications and GOOSE messages received: each slot on its own.
-/

namespace Sys2Proof.Machine

/-! ### The slots of a package -/

/-- State `s` with the slots `l`. -/
def withSubs (s : State) (l : List (Nat × SubSt)) : State := { s with net := { s.net with subs := l } }

theorem subSt_modSub (s : State) (k n : Nat) (f : SubSt → SubSt) : subSt (modSub s k f) n = if n = k then f (subSt s k) else subSt s n :=
  mgetD_mupd ..

theorem subSt_modSub_same (s : State) (n : Nat) (f : SubSt → SubSt) : subSt (modSub s n f) n = f (subSt s n) :=
  (subSt_modSub ..).trans (if_pos rfl)

/-- A step for one slot's configuration touches that slot alone. -/
structure SlotStep (f : State → Nat × SubCfg → State) : Prop where
  subs : ∀ (s : State) (x : Nat × SubCfg), ∃ l, f s x = withSubs s l
  other : ∀ (s : State) (x : Nat × SubCfg) (n : Nat), n ≠ x.1 → subSt (f s x) n = subSt s n

theorem SlotStep.foldl_other {f : State → Nat × SubCfg → State} (hf : SlotStep f) {n : Nat} (l : List (Nat × SubCfg))
    (hl : ∀ x ∈ l, x.1 ≠ n) (s : State) : subSt (l.foldl f s) n = subSt s n := by
  induction l generalizing s with
  | nil => rfl
  | cons x l ih =>
    exact (ih (fun y hy => hl y (List.mem_cons_of_mem _ hy)) (f s x)).trans (hf.other s x n (Ne.symm (hl x List.mem_cons_self)))

/-- A slot meets its own configuration once, in a state that differs in the other slots only. -/
theorem SlotStep.foldl_slot {f : State → Nat × SubCfg → State} (hf : SlotStep f) {n : Nat} {c : SubCfg} (l : List (Nat × SubCfg))
    (hl : l.Pairwise (fun a b => a.1 ≠ b.1)) (hn : mget l n = some c) (s : State) :
    ∃ m, subSt (withSubs s m) n = subSt s n ∧ subSt (l.foldl f s) n = subSt (f (withSubs s m) (n, c)) n := by
  induction l generalizing s with
  | nil => exact absurd hn (Option.some_ne_none c).symm
  | cons x l ih =>
    obtain ⟨k, v⟩ := x
    obtain ⟨hk, hl⟩ := List.pairwise_cons.mp hl
    change (if k = n then some v else mget l n) = some c at hn
    split_ifs at hn with he
    · subst he
      obtain rfl := Option.some.inj hn
      exact ⟨s.net.subs, rfl, hf.foldl_other l (fun y hy => Ne.symm (hk y hy)) _⟩
    · obtain ⟨m, hm, hfold⟩ := ih hl hn (f s (k, v))
      obtain ⟨m', hm'⟩ := hf.subs s (k, v)
      refine ⟨m, ?_, ?_⟩
      · rw [hm'] at hm
        exact hm.trans ((congrArg (subSt · n) hm'.symm).trans (hf.other s (k, v) n (Ne.symm he)))
      · refine hfold.trans ?_
        rw [hm']
        rfl

/-- A step that changes one slot only. -/
structure State.slotOnly (n : Nat) (s t : State) : Prop where
  subs : ∃ l, t = withSubs s l
  other : ∀ k, k ≠ n → subSt t k = subSt s k

theorem modSub_slotOnly (s : State) (n : Nat) (f : SubSt → SubSt) : s.slotOnly n (modSub s n f) :=
  ⟨⟨_, rfl⟩, fun _ h => (subSt_modSub ..).trans (if_neg h)⟩

theorem State.slotOnly.trans {n : Nat} {s t u : State} (h : s.slotOnly n t) (g : t.slotOnly n u) : s.slotOnly n u := by
  obtain ⟨l, rfl⟩ := h.subs
  obtain ⟨m, rfl⟩ := g.subs
  exact ⟨⟨m, rfl⟩, fun k hk => (g.other k hk).trans (h.other k hk)⟩

/-- A step taken for the slots that a message is meant for. -/
theorem SlotStep.of_slotOnly {c : SubCfg → Prop} [DecidablePred c] {f : State → Nat → SubCfg → State}
    (hf : ∀ (s : State) (n : Nat) (x : SubCfg), s.slotOnly n (f s n x)) : SlotStep (fun s x => if c x.2 then f s x.1 x.2 else s) := by
  refine ⟨fun s x => ?_, fun s x k hk => ?_⟩
  · split_ifs
    · exact (hf s x.1 x.2).subs
    · exact ⟨s.net.subs, rfl⟩
  · split_ifs
    · exact (hf s x.1 x.2).other k hk
    · rfl

/-! ### Publications of the herd -/

theorem holdPub_slotOnly (s : State) (f : Frame) (n : Nat) (c : SubCfg) : s.slotOnly n (holdPub s f n c) := by
  unfold holdPub
  dsimp only
  split_ifs
  · exact modSub_slotOnly ..
  · exact modSub_slotOnly ..
  · exact modSub_slotOnly ..

theorem holdPub_unfit {s : State} {f : Frame} {c : SubCfg} (n : Nat) (h : pubFits s f c = false) :
    holdPub s f n c = modSub s n (fun x => { x with nDisc := x.nDisc.inc }) := by
  unfold holdPub
  rw [h]
  rfl

theorem holdPub_newer {s : State} {f : Frame} {c : SubCfg} {n : Nat} (h : pubFits s f c = true)
    (hl : ∀ l, (subSt s n).last = some l → newer (pfCycle f.payload) l = true) :
    holdPub s f n c = modSub s n (fun x => { x with
      held := some f, last := some (pfCycle f.payload), shown := pfCycle f.payload, lastAt := some s.time.raw, nHeld := x.nHeld.inc }) := by
  unfold holdPub
  dsimp only
  rw [h]
  cases hy : (subSt s n).last with
  | none => rfl
  | some l => exact (if_neg (by decide)).trans (if_pos (hl l hy))

theorem holdPub_older {s : State} {f : Frame} {c : SubCfg} {n : Nat} {l : W32} (h : pubFits s f c = true) (hl : (subSt s n).last = some l)
    (ho : newer (pfCycle f.payload) l = false) : holdPub s f n c = modSub s n (fun x => { x with nOld := x.nOld.inc }) := by
  unfold holdPub
  dsimp only
  rw [h, hl]
  exact (if_neg (by decide)).trans (if_neg (fun hn => Bool.false_ne_true (ho.symm.trans hn)))

/-! ### GOOSE messages -/

theorem holdGoose_slotOnly (s : State) (g : GooseMsg) (n : Nat) (c : SubCfg) : s.slotOnly n (holdGoose s g n c) := by
  unfold holdGoose
  refine iteInduction (motive := fun u : State => s.slotOnly n u) (fun _ => modSub_slotOnly ..) (fun _ => ?_)
  exact iteInduction (motive := fun u : State => s.slotOnly n u) (fun _ => (modSub_slotOnly ..).trans (modSub_slotOnly ..))
    (fun _ => (modSub_slotOnly ..).trans (modSub_slotOnly ..))

/-- A message fits the slot by its identity and its simulation mark. -/
def gooseFitsSlot (s : State) (g : GooseMsg) (c : SubCfg) (x : SubSt) : Bool :=
  g.dst == c.dst && g.appid == c.appid && g.datSet == c.datSet && g.confRev == c.confRev &&
    (if g.sim then inTest s else !(inTest s && x.simulated))

theorem holdGoose_unfit {s : State} {g : GooseMsg} {c : SubCfg} {n : Nat} (h : gooseFitsSlot s g c (subSt s n) = false) :
    holdGoose s g n c = modSub s n (fun x => { x with nDisc := x.nDisc.inc }) := by
  unfold holdGoose
  dsimp only
  rw [← Bool.not_and]
  rw [show (g.dst == c.dst && g.appid == c.appid && g.datSet == c.datSet && g.confRev == c.confRev &&
    (if g.sim then inTest s else !(inTest s && (subSt s n).simulated))) = false from h]
  rfl

theorem holdGoose_newer {s : State} {g : GooseMsg} {c : SubCfg} {n : Nat} (h : gooseFitsSlot s g c (subSt s n) = true)
    (hl : ∀ l, (subSt s n).last = some l → gooseNewer g.stNum g.sqNum l (subSt s n).lastSq = true) :
    subSt (holdGoose s g n c) n = { subSt s n with
      simulated := (subSt s n).simulated || g.sim, heldG := some g, last := some g.stNum, shown := g.stNum, lastSq := g.sqNum,
      lastAt := some s.time.raw, nHeld := (subSt s n).nHeld.inc } := by
  unfold holdGoose
  dsimp only
  rw [← Bool.not_and]
  rw [show (g.dst == c.dst && g.appid == c.appid && g.datSet == c.datSet && g.confRev == c.confRev &&
    (if g.sim then inTest s else !(inTest s && (subSt s n).simulated))) = true from h]
  cases hy : (subSt s n).last with
  | none =>
    exact (subSt_modSub_same ..).trans (by rw [subSt_modSub_same]; rfl)
  | some l =>
    dsimp only
    rw [if_neg (by decide : ¬ (!true) = true), if_pos (hl l hy)]
    exact (subSt_modSub_same ..).trans (by rw [subSt_modSub_same]; rfl)

theorem holdGoose_older {s : State} {g : GooseMsg} {c : SubCfg} {n : Nat} {l : W32} (h : gooseFitsSlot s g c (subSt s n) = true)
    (hl : (subSt s n).last = some l) (ho : gooseNewer g.stNum g.sqNum l (subSt s n).lastSq = false) :
    subSt (holdGoose s g n c) n = { subSt s n with
      simulated := (subSt s n).simulated || g.sim, nOld := (subSt s n).nOld.inc } := by
  unfold holdGoose
  dsimp only
  rw [← Bool.not_and]
  rw [show (g.dst == c.dst && g.appid == c.appid && g.datSet == c.datSet && g.confRev == c.confRev &&
    (if g.sim then inTest s else !(inTest s && (subSt s n).simulated))) = true from h, hl]
  dsimp only
  rw [if_neg (by decide : ¬ (!true) = true), if_neg (fun hn => Bool.false_ne_true (ho.symm.trans hn))]
  exact (subSt_modSub_same ..).trans (by rw [subSt_modSub_same, ← hl])

/-! ### O33 -/

theorem execPublicationReceive_of_up {s : State} (h : s.ctl.mode ≠ .cold) (f : Frame) : execPublicationReceive f s =
    .next ((pkgD s [] (·.subs)).foldl (fun s x =>
      if x.2.kind = 1 ∧ x.2.pair.toNat = pfPair f.payload ∧ x.2.pub = pfPub f.payload then holdPub s f x.1 x.2 else s) s) :=
  if_neg (by rw [beq_eq_false_iff_ne.mpr h]; decide)

theorem execGooseReceive_of_runs {s : State} (h : s.ctl.mode ≠ .silent) (g : GooseMsg) : execGooseReceive g s =
    .next ((pkgD s [] (·.subs)).foldl (fun s x =>
      if x.2.kind = 2 ∧ x.2.gocbRef = g.gocbRef then holdGoose s g x.1 x.2 else s) s) :=
  if_neg (by rw [clocksRun_of_ne h]; decide)

/-- Settles O33: the slots' numbers are distinct, so each slot meets a message once. -/
theorem publicationsReceived : Obligations.PublicationsReceived := by
  refine ⟨fun f n c s hm hd hn => ⟨_, execPublicationReceive_of_up hm f, ?_⟩,
    fun g n c s hm hd hn => ⟨_, execGooseReceive_of_runs hm g, ?_⟩,
    fun n w s hm hl hw => ?_⟩
  · obtain ⟨m, hy, hf⟩ := (SlotStep.of_slotOnly
      (c := fun x => x.kind = 1 ∧ x.pair.toNat = pfPair f.payload ∧ x.pub = pfPub f.payload)
      (fun s n x => holdPub_slotOnly s f n x)).foldl_slot (pkgD s [] (·.subs)) hd hn s
    dsimp only at hf ⊢
    rw [hf]
    refine ⟨fun hc => ?_, fun hc hx => ?_, fun hc hx hl => ?_, fun hc hx hl => ?_⟩
    · rw [if_neg hc, hy]
    · rw [if_pos hc, holdPub_unfit (s := withSubs s m) n hx, subSt_modSub_same, hy]
    · rw [if_pos hc, holdPub_newer (s := withSubs s m) hx, subSt_modSub_same, hy]
      · rfl
      · intro l hs
        rw [hy] at hs
        rw [hs] at hl
        exact hl
    · obtain ⟨l, hs, ho⟩ : ∃ l, (subSt s n).last = some l ∧ newer (pfCycle f.payload) l = false := by
        cases hs : (subSt s n).last with
        | none =>
          rw [hs] at hl
          exact absurd hl.symm Bool.false_ne_true
        | some l =>
          rw [hs] at hl
          exact ⟨l, rfl, hl⟩
      rw [if_pos hc, holdPub_older (s := withSubs s m) hx (by rw [hy, hs]) ho, subSt_modSub_same, hy]
  · obtain ⟨m, hy, hf⟩ := (SlotStep.of_slotOnly (c := fun x => x.kind = 2 ∧ x.gocbRef = g.gocbRef)
      (fun s n x => holdGoose_slotOnly s g n x)).foldl_slot (pkgD s [] (·.subs)) hd hn s
    dsimp only at hf ⊢
    rw [hf]
    have hfit : ∀ b, gooseFitsSlot s g c (subSt s n) = b →
        gooseFitsSlot (withSubs s m) g c (subSt (withSubs s m) n) = b := fun b hb => by
      rw [hy]
      exact hb
    refine ⟨fun hc => ?_, fun hc hx => ?_, fun hc hx hl => ?_, fun hc hx hl => ?_⟩
    · rw [if_neg hc, hy]
    · rw [if_pos hc, holdGoose_unfit (hfit false hx), subSt_modSub_same, hy]
    · rw [if_pos hc, holdGoose_newer (hfit true hx), hy]
      · rfl
      · intro l hs
        rw [hy] at hs ⊢
        rw [hs] at hl
        exact hl
    · obtain ⟨l, hs, ho⟩ : ∃ l, (subSt s n).last = some l ∧ gooseNewer g.stNum g.sqNum l (subSt s n).lastSq = false := by
        cases hs : (subSt s n).last with
        | none =>
          rw [hs] at hl
          exact absurd hl.symm Bool.false_ne_true
        | some l =>
          rw [hs] at hl
          exact ⟨l, rfl, hl⟩
      rw [if_pos hc, holdGoose_older (hfit true hx) (by rw [hy, hs]) (by rw [hy]; exact ho), hy]
  · have hp : past s (subSt s n).lastAt (rSec 1) = true := by
      rw [hl]
      exact past_some hw
    change execSlotForgetTimer n s = _
    unfold execSlotForgetTimer
    rw [if_neg (by rw [beq_eq_false_iff_ne.mpr hm]; decide), if_pos hp]

end Sys2Proof.Machine
end

section
/-!
SUPPORT. Frames of the ring and of the stations, the ports and the addresses.
-/

namespace Sys2Proof.Machine

/-! ### The ports -/

theorem Port.num_lt (p : Port) : p.num < 5 := by cases p <;> decide

theorem Port.num_inj {p q : Port} (h : p.num = q.num) : p = q := by cases p <;> cases q <;> simp [Port.num] at h ⊢

theorem portOf_modPort_same {s : State} (h : s.net.ports.length = 5) (p : Port) (f : PortSt → PortSt) :
    portOf (modPort s p f) p = f (portOf s p) :=
  getD_lupd_same _ _ _ _ (by rw [h]; exact p.num_lt)

theorem portOf_modPort_other (s : State) {p q : Port} (h : q ≠ p) (f : PortSt → PortSt) : portOf (modPort s p f) q = portOf s q :=
  getD_lupd_other _ _ _ (fun he => h (Port.num_inj he))

theorem portOf_modPort_keeps {β : Type} {f : PortSt → PortSt} (g : PortSt → β) (hf : ∀ x, g (f x) = g x) (s : State) (p q : Port) :
    g (portOf (modPort s p f) q) = g (portOf s q) :=
  getD_lupd_keeps hf s.net.ports p.num q.num PortSt.reset

theorem modPort_length (s : State) (p : Port) (f : PortSt → PortSt) : (modPort s p f).net.ports.length = s.net.ports.length :=
  List.length_modify ..

/-! ### Records of a ring direction -/

/-- The records of one direction. -/
def NetSt.sepOf (n : NetSt) (cw : Bool) : List SepEntry := if cw then n.cw else n.acw

theorem sepHas_of_head (s : State) (src : W48) (q : W16) (l : List SepEntry) : sepHas s (⟨src, q, s.time.raw⟩ :: l) src q = true := by
  have hlive : elapsed s s.time.raw < sepForget := by
    unfold elapsed
    rw [BitVec.sub_self]
    decide
  unfold sepHas sepLive
  rw [List.filter_cons, if_pos (decide_eq_true hlive), List.any_cons]
  simp

theorem sepAdd_has (s : State) (cw : Bool) (src : W48) (q : W16) :
    sepHas (sepAdd s cw src q) ((sepAdd s cw src q).net.sepOf cw) src q = true := by
  have hl : ∃ l, (sepAdd s cw src q).net.sepOf cw = ⟨src, q, s.time.raw⟩ :: l := by
    unfold sepAdd NetSt.sepOf
    simp only [State.modNet_net]
    cases cw <;> split_ifs <;> exact ⟨_, rfl⟩
  have ht : (sepAdd s cw src q).time = s.time := rfl
  obtain ⟨l, hl⟩ := hl
  rw [hl, ← ht]
  exact sepHas_of_head ..

/-- What a frame that is passed up leaves of the records of both directions. -/
theorem passUp_seps (s : State) (f : Frame) (q : Option W16) : (passUp s f q).net.cw = s.net.cw ∧ (passUp s f q).net.acw = s.net.acw := by
  unfold passUp
  split_ifs
  · exact ⟨rfl, rfl⟩
  · exact ⟨rfl, rfl⟩
  · split
    · exact ⟨rfl, rfl⟩
    · split_ifs
      · exact ⟨rfl, rfl⟩
      · exact ⟨rfl, rfl⟩

/-! ### Frames of the ring -/

/-- The ring port that a frame came in by, and the one that it may leave by. -/
def ringIn (b : Bool) : Port := if b then .p1 else .p0

def ringOut (b : Bool) : Port := if b then .p0 else .p1

/-- A tagged frame at the separator. -/
def ringPassed (s : State) (b : Bool) (f : Frame) (q : W16) : State :=
  if f.src == moduleMac s || sepHas s (s.net.sepOf (!b)) f.src q then
    (if f.src == moduleMac s || f.src == pairMac s then s.modNet (fun n => { n with returning := n.returning.inc }) else s)
  else if f.dst == moduleMac s then s
  else if (portOf s (ringOut b)).link then
    send (modPort (sepAdd s (!b) f.src q) (ringOut b) (fun q => { q with fwd := q.fwd.inc })) (.forwarded (ringOut b) f)
  else s

/-- The frame is counted on the port that it came by. -/
def ringCounted (s : State) (b : Bool) : State := modPort s (ringIn b) (fun q => { q with rx := q.rx.inc })

theorem execRingFrameArrival_of_whole {b : Bool} {f : Frame} {q : W16} {s : State} (hm : s.ctl.mode ≠ .cold) (hf : f.fcsOk = true)
    (hq : f.hsr = some q) : execRingFrameArrival b f s false = .next (passUp (ringPassed (ringCounted s b) b f q) f (some q)) := by
  unfold execRingFrameArrival
  dsimp only
  rw [if_neg (by rw [beq_eq_false_iff_ne.mpr hm]; decide), if_neg (by rw [hf]; decide), if_neg Bool.false_ne_true, hq]
  rfl

theorem execRingFrameArrival_of_bad {b x : Bool} {f : Frame} {s : State} (hm : s.ctl.mode ≠ .cold) (hf : f.fcsOk = false) :
    execRingFrameArrival b f s x = .next (modPort (ringCounted s b) (ringIn b) (fun q => { q with fcs := q.fcs.inc })) := by
  unfold execRingFrameArrival
  dsimp only
  rw [if_neg (by rw [beq_eq_false_iff_ne.mpr hm]; decide), if_pos (by rw [hf]; rfl)]
  rfl

theorem execRingFrameArrival_of_broken {b : Bool} {f : Frame} {s : State} (hm : s.ctl.mode ≠ .cold) (hf : f.fcsOk = true) :
    execRingFrameArrival b f s true = .next ((ringCounted s b).modInteg (fun g => { g with parity := g.parity.inc })) := by
  unfold execRingFrameArrival
  dsimp only
  rw [if_neg (by rw [beq_eq_false_iff_ne.mpr hm]; decide), if_neg (by rw [hf]; decide), if_pos rfl]
  rfl

/-- A frame that its direction does not know leaves on the other port, and is noted. -/
theorem ringPassed_of_new {s : State} {b : Bool} {f : Frame} {q : W16} (hs : f.src ≠ moduleMac s) (hd : f.dst ≠ moduleMac s)
    (hn : sepHas s (s.net.sepOf (!b)) f.src q = false) (hl : (portOf s (ringOut b)).link = true) : ringPassed s b f q =
      send (modPort (sepAdd s (!b) f.src q) (ringOut b) (fun q => { q with fwd := q.fwd.inc })) (.forwarded (ringOut b) f) := by
  unfold ringPassed
  rw [beq_eq_false_iff_ne.mpr hs, hn, if_neg (by decide), if_neg (by rw [beq_eq_false_iff_ne.mpr hd]; decide), if_pos hl]

/-- A frame that its direction knows does not leave. -/
theorem ringPassed_of_known {s : State} {b : Bool} {f : Frame} {q : W16} (hn : sepHas s (s.net.sepOf (!b)) f.src q = true) :
    (ringPassed s b f q).out = s.out := by
  unfold ringPassed
  rw [hn, if_pos (Bool.or_true _)]
  split_ifs
  · rfl
  · rfl

theorem execRingFrameArrival_forwards {b : Bool} {f : Frame} {q : W16} {s : State} (hm : s.ctl.mode ≠ .cold) (hf : f.fcsOk = true)
    (hq : f.hsr = some q) (hs : f.src ≠ moduleMac s) (hd : f.dst ≠ moduleMac s) :
    Res.ends (fun t => (sepHas s (s.net.sepOf (!b)) f.src q = false → (portOf s (ringOut b)).link = true →
        t.out = s.out ++ [.forwarded (ringOut b) f] ∧ sepHas t (t.net.sepOf (!b)) f.src q = true) ∧
      (sepHas s (s.net.sepOf (!b)) f.src q = true → t.out = s.out)) (execRingFrameArrival b f s false) := by
  rw [execRingFrameArrival_of_whole hm hf hq]
  have hup : ∀ u : State, (passUp u f (some q)).out = u.out := fun u => (passUp_frame u f (some q)).same .out (by decide)
  have htime : ∀ u : State, (passUp u f (some q)).time = u.time := fun u => (passUp_frame u f (some q)).same .time (by decide)
  refine Res.ends_next ⟨fun hn hl => ?_, fun hn => (hup _).trans (ringPassed_of_known hn)⟩
  have hlink : (portOf (ringCounted s b) (ringOut b)).link = true :=
    (portOf_modPort_keeps (f := fun q => { q with rx := q.rx.inc }) PortSt.link (fun _ => rfl) s (ringIn b) (ringOut b)).trans hl
  rw [hup, ringPassed_of_new (s := ringCounted s b) hs hd hn hlink]
  refine ⟨rfl, ?_⟩
  have hadd := sepAdd_has (ringCounted s b) (!b) f.src q
  generalize hu : send _ _ = u
  have hnet : u.net.sepOf (!b) = (sepAdd (ringCounted s b) (!b) f.src q).net.sepOf (!b) := by
    rw [← hu]
    cases b <;> rfl
  have htu : u.time = (sepAdd (ringCounted s b) (!b) f.src q).time := by
    rw [← hu]
    rfl
  have hseps : (passUp u f (some q)).net.sepOf (!b) = u.net.sepOf (!b) := by
    obtain ⟨h1, h2⟩ := passUp_seps u f (some q)
    unfold NetSt.sepOf
    rw [h1, h2]
  unfold sepHas sepLive elapsed at hadd ⊢
  rw [hseps, htime, hnet, htu]
  exact hadd

end Sys2Proof.Machine
end

section
/-!
SUPPORT. Station frames, link changes, the detection of a medium, and the frames of the module's own.
-/

namespace Sys2Proof.Machine

/-! ### Station frames -/

/-- The frame is counted on the port that it came by. -/
def stationCounted (s : State) (p : Port) : State := modPort s p (fun q => { q with rx := q.rx.inc })

theorem station_of_not_ring {p : Port} (h : p.ring = false) (s : State) (hm : s.ctl.mode ≠ .cold) :
    ¬ (s.ctl.mode == .cold || p == .p0 || p == .p1) = true := by
  rw [beq_eq_false_iff_ne.mpr hm]
  cases p with
  | p0 => exact absurd h (by decide)
  | p1 => exact absurd h (by decide)
  | s0 => decide
  | s1 => decide
  | h => decide

theorem execStationFrameArrival_of_broken {p : Port} {f : Frame} {s : State} (hm : s.ctl.mode ≠ .cold) (hp : p.ring = false)
    (hf : f.fcsOk = true) :
    execStationFrameArrival p f s true = .next ((stationCounted s p).modInteg (fun g => { g with parity := g.parity.inc })) := by
  unfold execStationFrameArrival
  rw [if_neg (station_of_not_ring hp s hm)]
  dsimp only
  rw [if_neg (by rw [hf]; decide), if_pos rfl]
  rfl

theorem execStationFrameArrival_of_host {f : Frame} {s : State} (hm : s.ctl.mode ≠ .cold) (hb : s.ctl.mode ≠ .bootwait)
    (hf : f.fcsOk = true) (he : f.etype ≠ 0x88B6) : execStationFrameArrival .h f s false =
      .next (modPort (stationCounted s .h) .h (fun q => { q with disc := q.disc.inc })) := by
  have hhost : hostFrame (stationCounted s .h) f = modPort (stationCounted s .h) .h (fun q => { q with disc := q.disc.inc }) := by
    refine if_neg ?_
    rw [beq_eq_false_iff_ne.mpr he, show ((stationCounted s .h).ctl.mode == .bootwait) = false from beq_eq_false_iff_ne.mpr hb]
    exact Bool.false_ne_true
  unfold execStationFrameArrival
  rw [if_neg (station_of_not_ring rfl s hm)]
  dsimp only
  rw [if_neg (by rw [hf]; decide), if_neg Bool.false_ne_true, if_pos (by decide)]
  exact congrArg Host.Outcome.next hhost

/-- The LAN that a frame names is counted where it is not that of its port. -/
def lanCounted (s : State) (p : Port) (l : Nat) : State :=
  if l = (if p = .s1 then 0xB else 0xA) then stationCounted s p
  else (stationCounted s p).modNet (fun n => { n with wrongLan := n.wrongLan.inc })

theorem execStationFrameArrival_of_tagged {p : Port} {f : Frame} {q : W16} {l : Nat} {s : State} (hm : s.ctl.mode ≠ .cold)
    (hp : p = .s0 ∨ p = .s1) (hf : f.fcsOk = true) (hr : f.rct = some (q, l)) :
    execStationFrameArrival p f s false = .next (passUp (lanCounted s p l) f (some q)) := by
  have hring : p.ring = false := by rcases hp with rfl | rfl <;> rfl
  have hh : ¬ (p == .h) = true := by rcases hp with rfl | rfl <;> decide
  have hptp : ¬ stationPtp f = true := by
    unfold stationPtp
    rw [hr, Option.isNone_some, Bool.and_false, Bool.false_and]
    exact Bool.false_ne_true
  unfold execStationFrameArrival
  rw [if_neg (station_of_not_ring hring s hm)]
  dsimp only
  rw [if_neg (by rw [hf]; decide), if_neg Bool.false_ne_true, if_neg hh, if_neg hptp, hr]
  rfl

theorem passUp_of_other {s : State} {f : Frame} (h1 : f.src ≠ moduleMac s) (h2 : f.src ≠ pairMac s) (h3 : isPairMac f.dst = false)
    (q : W16) : passUp s f (some q) = if sepHas s s.net.rxRec f.src q then s.modNet (fun n => { n with dups := n.dups.inc })
      else s.modNet (fun n => { n with rxRec := ⟨f.src, q, s.time.raw⟩ :: sepLive s n.rxRec }) := by
  unfold passUp
  rw [beq_eq_false_iff_ne.mpr h1, beq_eq_false_iff_ne.mpr h2, h3, if_neg (by decide), if_neg Bool.false_ne_true]

/-- What the count of its LAN leaves of the state. -/
structure State.lanOnly (s t : State) (wrong : Ctr) : Prop where
  frame : s.onlyChanges [.net] t
  rxRec : t.net.rxRec = s.net.rxRec
  dups : t.net.dups = s.net.dups
  wrongLan : t.net.wrongLan = wrong

theorem lanCounted_only (s : State) (p : Port) (l : Nat) : s.lanOnly (lanCounted s p l)
    (if l = (if p = .s1 then 0xB else 0xA) then s.net.wrongLan else s.net.wrongLan.inc) := by
  have hf : s.onlyChanges [.net] (stationCounted s p) := modPort_frame ..
  unfold lanCounted
  by_cases hl : l = (if p = .s1 then 0xB else 0xA)
  · rw [if_pos hl, if_pos hl]
    exact ⟨hf, rfl, rfl, rfl⟩
  · rw [if_neg hl, if_neg hl]
    exact ⟨.andThen (State.modNet_frame _ _) rfl hf, rfl, rfl, rfl⟩

theorem execStationFrameArrival_records {p : Port} {f : Frame} {q : W16} {l : Nat} {s : State} (hm : s.ctl.mode ≠ .cold)
    (hp : p = .s0 ∨ p = .s1) (hf : f.fcsOk = true) (hr : f.rct = some (q, l)) (h1 : f.src ≠ moduleMac s) (h2 : f.src ≠ pairMac s)
    (h3 : isPairMac f.dst = false) :
    Res.ends (fun t => t.out = s.out ∧
      (sepHas s s.net.rxRec f.src q = true → t.net.dups = s.net.dups.inc ∧ t.net.rxRec = s.net.rxRec) ∧
      (sepHas s s.net.rxRec f.src q = false →
        t.net.rxRec = ⟨f.src, q, s.time.raw⟩ :: sepLive s s.net.rxRec ∧ t.net.dups = s.net.dups) ∧
      t.net.wrongLan = (if l = (if p = .s1 then 0xB else 0xA) then s.net.wrongLan else s.net.wrongLan.inc))
      (execStationFrameArrival p f s false) := by
  rw [execStationFrameArrival_of_tagged hm hp hf hr]
  obtain ⟨hfr, hrec, hdups, hwrong⟩ := lanCounted_only s p l
  generalize lanCounted s p l = u at hfr hrec hdups hwrong
  have hmac : moduleMac u = moduleMac s := congrArg Ident.mac (hfr.same .ident (by decide))
  have hboot : u.boot = s.boot := hfr.same .boot (by decide)
  have hpair : pairMac u = pairMac s := by
    unfold pairMac pairAddr pkgD pkgOf
    rw [hboot]
  have htime : u.time = s.time := hfr.same .time (by decide)
  have hout : u.out = s.out := hfr.same .out (by decide)
  have hlive : sepLive u = sepLive s := by
    unfold sepLive elapsed
    rw [htime]
  have hhas : sepHas u = sepHas s := by
    unfold sepHas
    rw [hlive]
  rw [passUp_of_other (by rw [hmac]; exact h1) (by rw [hpair]; exact h2) h3, hhas, hrec, hlive, htime]
  cases hk : sepHas s s.net.rxRec f.src q with
  | true => exact Res.ends_next ⟨hout, fun _ => ⟨congrArg Ctr.inc hdups, hrec⟩, fun hn => absurd hn (by decide), hwrong⟩
  | false => exact Res.ends_next ⟨hout, fun hn => absurd hn (by decide), fun _ => ⟨by rw [← hrec]; rfl, hdups⟩, hwrong⟩

/-! ### The links -/

/-- A change of a link leaves what is locked, the media and the ports' number, and the links of the other ports. -/
structure State.linkSet (p : Port) (up : Bool) (s t : State) : Prop where
  link : s.net.ports.length = 5 → (portOf t p).link = up
  other : ∀ q, q ≠ p → (portOf t q).link = (portOf s q).link
  locked : ∀ q, (portOf t q).locked = (portOf s q).locked
  medium : ∀ q, (portOf t q).medium = (portOf s q).medium
  length : t.net.ports.length = s.net.ports.length
  held : t.net.heldMedium = s.net.heldMedium
  mismatch : t.net.mismatchAt = s.net.mismatchAt

theorem State.linkSet.of_net {p : Port} {up : Bool} {s t u : State} (h : s.linkSet p up t) (hn : u.net = t.net) : s.linkSet p up u := by
  have hp : ∀ q, portOf u q = portOf t q := fun q => by
    unfold portOf
    rw [hn]
  exact ⟨fun hl => by rw [hp]; exact h.link hl, fun q hq => by rw [hp]; exact h.other q hq, fun q => by rw [hp]; exact h.locked q,
    fun q => by rw [hp]; exact h.medium q, by rw [hn]; exact h.length, by rw [hn]; exact h.held, by rw [hn]; exact h.mismatch⟩

theorem modPort_linkSet (s : State) (p : Port) (up : Bool) : s.linkSet p up (modPort s p (fun q => { q with link := up })) :=
  ⟨fun hl => by rw [portOf_modPort_same hl], fun q hq => by rw [portOf_modPort_other s hq],
    fun q => portOf_modPort_keeps (f := fun q => { q with link := up }) PortSt.locked (fun _ => rfl) s p q,
    fun q => portOf_modPort_keeps (f := fun q => { q with link := up }) PortSt.medium (fun _ => rfl) s p q, modPort_length .., rfl, rfl⟩

/-- The loss that is counted leaves what was set. -/
theorem State.linkSet.lossCounted {p : Port} {up : Bool} {s t : State} (h : s.linkSet p up t) :
    s.linkSet p up (modPort t p (fun q => { q with losses := q.losses.inc })) := by
  have hk : ∀ {β : Type} (g : PortSt → β) (_ : ∀ x : PortSt, g { x with losses := x.losses.inc } = g x) (q : Port),
      g (portOf (modPort t p (fun q => { q with losses := q.losses.inc })) q) = g (portOf t q) := fun g hg q =>
    portOf_modPort_keeps g hg t p q
  exact ⟨fun hl => (hk PortSt.link (fun _ => rfl) p).trans (h.link hl),
    fun q hq => (hk PortSt.link (fun _ => rfl) q).trans (h.other q hq),
    fun q => (hk PortSt.locked (fun _ => rfl) q).trans (h.locked q), fun q => (hk PortSt.medium (fun _ => rfl) q).trans (h.medium q),
    (modPort_length ..).trans h.length, h.held, h.mismatch⟩

theorem setLink_linkSet (s : State) (p : Port) (up : Bool) : s.linkSet p up (setLink s p up) := by
  have hirq : ∀ (u : State) (n : Nat), (raiseIrq u n).net = u.net := fun u n => (raiseIrq_frame u n).same .net (by decide)
  have hlog : ∀ (u : State) (b : Bytes), (logEvent u ltNet b).net = u.net := fun u b => (logEvent_frame u ltNet b).same .net (by decide)
  have hset : s.linkSet p up (raiseIrq (modPort s p (fun q => { q with link := up })) (33 + p.num)) :=
    (modPort_linkSet s p up).of_net (hirq ..)
  unfold setLink
  dsimp only
  split_ifs with hw hu
  · exact ⟨fun _ => hw, fun _ _ => rfl, fun _ => rfl, fun _ => rfl, rfl, rfl, rfl⟩
  · exact hset
  · exact hset.lossCounted.of_net (hlog ..)

/-- A ring port locks at the medium it runs or tries. -/
def ringLocked (s : State) (p : Port) (m : Nat) : State := modPort s p (fun q => { q with locked := some m })

theorem execRingLinkChange_of_ring {p : Port} {m : Nat} {s : State} (hm : s.ctl.mode ≠ .cold) (hp : p.ring = true)
    (hr : m = ringMedium s p) : execRingLinkChange p true m s = (match (portOf (ringLocked s p m) (otherRing p)).locked with
      | none =>
        if (ringLocked s p m).net.heldMedium.isNone then .next (ringLocked s p m)
        else .next (setLink (modPort (ringLocked s p m) p (fun q => { q with medium := m })) p true)
      | some k =>
        if k = m then .next (setLink (setLink ((modPort (ringLocked s p m) p (fun q => { q with medium := m })).modNet (fun n => { n with
          heldMedium := some m })) p true) (otherRing p) true)
        else .next (logEvent ((setLink (setLink (ringLocked s p m) p false) (otherRing p) false).modNet (fun n => { n with
          mismatchAt := some (setLink (setLink (ringLocked s p m) p false) (otherRing p) false).time.raw }))
          ltNet (netBody 1 p.num 0))) := by
  have hc : ¬ (s.ctl.mode == .cold) = true := by
    rw [beq_eq_false_iff_ne.mpr hm]
    decide
  have hne : ¬ (true && m != ringMedium s p) = true := by
    rw [hr, bne_self_eq_false]
    decide
  unfold execRingLinkChange
  rw [if_neg hc, if_neg (by rw [hp]; decide), if_neg hne]
  rfl

theorem otherRing_ne (p : Port) : otherRing p ≠ p := by cases p <;> decide

theorem portOf_ringLocked_other (s : State) (p : Port) (m : Nat) : portOf (ringLocked s p m) (otherRing p) = portOf s (otherRing p) :=
  portOf_modPort_other s (otherRing_ne p) _

theorem portOf_ringLocked_link (s : State) (p q : Port) (m : Nat) : (portOf (ringLocked s p m) q).link = (portOf s q).link :=
  portOf_modPort_keeps (f := fun q => { q with locked := some m }) PortSt.link (fun _ => rfl) s p q

/-- A medium at which port `p` runs. -/
def ringRuns (s : State) (p : Port) (m : Nat) : State := modPort (ringLocked s p m) p (fun q => { q with medium := m })

theorem portOf_ringRuns {s : State} (hl : s.net.ports.length = 5) (p : Port) (m : Nat) :
    portOf (ringRuns s p m) p = { portOf s p with locked := some m, medium := m } := by
  have hlen : (ringLocked s p m).net.ports.length = 5 := (modPort_length ..).trans hl
  unfold ringRuns
  rw [portOf_modPort_same hlen]
  unfold ringLocked
  rw [portOf_modPort_same hl]

/-- With no lock on the other port the link follows the medium that is held, if one is. -/
theorem execRingLinkChange_alone {p : Port} {m : Nat} {s : State} (hm : s.ctl.mode ≠ .cold) (hl : s.net.ports.length = 5)
    (hp : p.ring = true) (hr : m = ringMedium s p) (ho : (portOf s (otherRing p)).locked = none) :
    Res.ends (fun t => (portOf t p).locked = some m ∧ (s.net.heldMedium = none → (portOf t p).link = (portOf s p).link) ∧
      (s.net.heldMedium ≠ none → (portOf t p).link = true ∧ (portOf t p).medium = m)) (execRingLinkChange p true m s) := by
  have hlocked : (portOf (ringLocked s p m) p).locked = some m := by
    unfold ringLocked
    rw [portOf_modPort_same hl]
  have hlen : (ringRuns s p m).net.ports.length = 5 := (modPort_length ..).trans ((modPort_length ..).trans hl)
  have hheld : (ringLocked s p m).net.heldMedium = s.net.heldMedium := rfl
  have hset := setLink_linkSet (ringRuns s p m) p true
  rw [execRingLinkChange_of_ring hm hp hr, portOf_ringLocked_other, ho]
  dsimp only
  rw [hheld]
  cases hh : s.net.heldMedium with
  | none => exact Res.ends_next ⟨hlocked, fun _ => portOf_ringLocked_link .., fun h => absurd rfl h⟩
  | some k =>
    refine Res.ends_next ⟨(hset.locked p).trans ?_, fun h => absurd h (by simp),
      fun _ => ⟨hset.link hlen, (hset.medium p).trans ?_⟩⟩
    · rw [portOf_ringRuns hl]
    · rw [portOf_ringRuns hl]

/-- Two ports that lock at the same medium are both up, and hold it. -/
theorem execRingLinkChange_agrees {p : Port} {m : Nat} {s : State} (hm : s.ctl.mode ≠ .cold) (hl : s.net.ports.length = 5)
    (hp : p.ring = true) (hr : m = ringMedium s p) (ho : (portOf s (otherRing p)).locked = some m) :
    Res.ends (fun t => (portOf t p).link = true ∧ (portOf t (otherRing p)).link = true ∧ (portOf t p).medium = m ∧
      t.net.heldMedium = some m) (execRingLinkChange p true m s) := by
  rw [execRingLinkChange_of_ring hm hp hr, portOf_ringLocked_other, ho]
  dsimp only
  rw [if_pos rfl]
  have h1 := setLink_linkSet ((ringRuns s p m).modNet (fun n => { n with heldMedium := some m })) p true
  have h2 := setLink_linkSet (setLink ((ringRuns s p m).modNet (fun n => { n with heldMedium := some m })) p true) (otherRing p) true
  have hlen : ((ringRuns s p m).modNet (fun n => { n with heldMedium := some m })).net.ports.length = 5 :=
    (modPort_length ..).trans ((modPort_length ..).trans hl)
  refine Res.ends_next ⟨(h2.other p (otherRing_ne p).symm).trans (h1.link hlen), h2.link (h1.length.trans hlen), ?_,
    h2.held.trans h1.held⟩
  refine (h2.medium p).trans ((h1.medium p).trans ?_)
  exact congrArg PortSt.medium (portOf_ringRuns hl p m)

/-- Two ports that lock at different media are both down. -/
theorem execRingLinkChange_differs {p : Port} {m k : Nat} {s : State} (hm : s.ctl.mode ≠ .cold) (hl : s.net.ports.length = 5)
    (hp : p.ring = true) (hr : m = ringMedium s p) (ho : (portOf s (otherRing p)).locked = some k) (hk : k ≠ m) :
    Res.ends (fun t => (portOf t p).link = false ∧ (portOf t (otherRing p)).link = false ∧ t.net.mismatchAt = some s.time.raw)
      (execRingLinkChange p true m s) := by
  have hlog : ∀ (u : State) (b : Bytes), (logEvent u ltNet b).net = u.net := fun u b => (logEvent_frame u ltNet b).same .net (by decide)
  have hlen : (ringLocked s p m).net.ports.length = 5 := (modPort_length ..).trans hl
  have h1 := setLink_linkSet (ringLocked s p m) p false
  have h2 := setLink_linkSet (setLink (ringLocked s p m) p false) (otherRing p) false
  have ht : (setLink (setLink (ringLocked s p m) p false) (otherRing p) false).time = s.time :=
    ((setLink_frame ..).same .time (by decide)).trans ((setLink_frame ..).same .time (by decide))
  rw [execRingLinkChange_of_ring hm hp hr, portOf_ringLocked_other, ho]
  dsimp only
  rw [if_neg hk]
  generalize setLink (setLink (ringLocked s p m) p false) (otherRing p) false = u at h2 ht
  refine Res.ends_next ?_
  unfold portOf
  rw [hlog, State.modNet_net]
  exact ⟨(h2.other p (otherRing_ne p).symm).trans (h1.link hlen), h2.link (h1.length.trans hlen),
    congrArg (fun x : TimeSt => some x.raw) ht⟩

/-- The links of both ring ports, told from one of them. -/
theorem both_of_ring {P : Port → Prop} {p : Port} (hp : p.ring = true) (h : P p) (ho : P (otherRing p)) : P .p0 ∧ P .p1 := by
  cases p with
  | p0 => exact ⟨h, ho⟩
  | p1 => exact ⟨ho, h⟩
  | s0 => exact absurd hp (by decide)
  | s1 => exact absurd hp (by decide)
  | h => exact absurd hp (by decide)

theorem execRingLinkChange_of_station {p : Port} {s : State} (hm : s.ctl.mode ≠ .cold) (hp : p.ring = false) (up : Bool) (m : Nat) :
    execRingLinkChange p up m s =
      .next (setLink (modPort s p (fun q => { q with locked := if up then some m else none })) p up) := by
  have hc : ¬ (s.ctl.mode == .cold) = true := by
    rw [beq_eq_false_iff_ne.mpr hm]
    decide
  unfold execRingLinkChange
  rw [if_neg hc, if_pos (by rw [hp]; rfl)]

theorem execRingLinkChange_of_loss {p : Port} {s : State} (hm : s.ctl.mode ≠ .cold) (m : Nat) :
    execRingLinkChange p false m s = .next (setLink (modPort s p (fun q => { q with locked := none })) p false) := by
  cases hp : p.ring with
  | false => exact execRingLinkChange_of_station hm hp false m
  | true =>
    have hc : ¬ (s.ctl.mode == .cold) = true := by
      rw [beq_eq_false_iff_ne.mpr hm]
      decide
    unfold execRingLinkChange
    rw [if_neg hc, if_neg (by rw [hp]; decide), if_neg (by rw [Bool.false_and]; decide)]
    rfl

theorem execRingLinkChange_at_other_medium {p : Port} {m : Nat} {s : State} (hm : s.ctl.mode ≠ .cold) (hp : p.ring = true)
    (hr : m ≠ ringMedium s p) : execRingLinkChange p true m s = .next s := by
  have hc : ¬ (s.ctl.mode == .cold) = true := by
    rw [beq_eq_false_iff_ne.mpr hm]
    decide
  unfold execRingLinkChange
  rw [if_neg hc, if_neg (by rw [hp]; decide), if_pos (by rw [bne_iff_ne.mpr hr]; rfl)]

/-- A lock that is set or lost on a port, and the link with it. -/
theorem setLink_locked {s : State} (hl : s.net.ports.length = 5) (p : Port) (up : Bool) (l : Option Nat) :
    (portOf (setLink (modPort s p (fun q => { q with locked := l })) p up) p).link = up ∧
    (portOf (setLink (modPort s p (fun q => { q with locked := l })) p up) p).locked = l := by
  have h := setLink_linkSet (modPort s p (fun q => { q with locked := l })) p up
  refine ⟨h.link ((modPort_length ..).trans hl), (h.locked p).trans ?_⟩
  rw [portOf_modPort_same hl]

/-! ### The detection of a medium -/

theorem execRingMediumDetectTimer_of_mismatch {w : W64} {s : State} (hm : s.ctl.mode ≠ .cold) (hl : s.net.ports.length = 5)
    (hw : s.net.mismatchAt = some w) (h : 16000000000 ≤ (s.time.raw - w).toNat) :
    Res.ends (fun t => t.net.mismatchAt = none ∧ t.net.trying = 3 ∧ t.net.detectAt = some s.time.raw ∧
      (portOf t .p0).locked = none ∧ (portOf t .p1).locked = none) (execRingMediumDetectTimer s) := by
  have hpast : past s s.net.mismatchAt (rSec 1) = true := by
    rw [hw]
    exact past_some h
  unfold execRingMediumDetectTimer
  rw [if_neg (by rw [beq_eq_false_iff_ne.mpr hm]; decide), if_pos hpast]
  have hlen : (modPort s .p0 (fun q => { q with locked := none })).net.ports.length = 5 := (modPort_length ..).trans hl
  refine Res.ends_next ⟨rfl, rfl, rfl, ?_, ?_⟩
  · change (portOf (modPort (modPort s .p0 _) .p1 _) .p0).locked = none
    rw [portOf_modPort_other _ (by decide), portOf_modPort_same hl]
  · change (portOf (modPort (modPort s .p0 _) .p1 _) .p1).locked = none
    rw [portOf_modPort_same hlen]

theorem execRingMediumDetectTimer_of_unlocked {w : W64} {s : State} (hm : s.ctl.mode ≠ .cold) (hn : s.net.mismatchAt = none)
    (hh : s.net.heldMedium = none) (hu : (portOf s .p0).locked = none ∨ (portOf s .p1).locked = none) (hw : s.net.detectAt = some w)
    (h : 3200000000 ≤ (s.time.raw - w).toNat) : execRingMediumDetectTimer s =
      .next (s.modNet (fun n => { n with trying := nextMedium n.trying, detectAt := some s.time.raw })) := by
  have hpast : past s s.net.detectAt (rMs 200) = true := by
    rw [hw]
    exact past_some h
  have hlock : ((portOf s .p0).locked.isNone || (portOf s .p1).locked.isNone) = true := by
    rcases hu with hu | hu <;> rw [hu]
    · rfl
    · exact Bool.or_true _
  unfold execRingMediumDetectTimer
  rw [if_neg (by rw [beq_eq_false_iff_ne.mpr hm]; decide), if_neg (by rw [hn]; exact Bool.false_ne_true),
    if_pos (by rw [hn, hh, hlock, hpast]; rfl)]

end Sys2Proof.Machine
end

section
/-!
SUPPORT. Retransmissions, supervision and answers of the module's own.
-/

namespace Sys2Proof.Machine

/-! ### Retransmissions of GOOSE messages -/

theorem sourceOn_pubs (s : State) (ps : List Port) (m : W48) (q : W16) (n : Nat) : (sourceOn s ps m q n).2.net.pubs = s.net.pubs := by
  have key : ∀ (l : List Port) (a : List (Port × PortTag) × State), (l.foldl (fun (a : List (Port × PortTag) × State) p =>
      let r := startOn a.2 p m q
      (if r.1 then a.1 ++ [(p, portTag q n p)] else a.1, r.2)) a).2.net.pubs = a.2.net.pubs := by
    intro l
    induction l with
    | nil => exact fun _ => rfl
    | cons p l ih => exact fun a => (ih _).trans (startOn_numbers a.2 p m q).pubs
  exact key ps ([], s)

theorem pubSeq_pubs (s : State) (n : Nat) (a : Bool) : (pubSeq s n a).2.net.pubs = s.net.pubs := by
  unfold pubSeq
  split
  · rfl
  · rfl

/-- The state in which a message was started on its ports. -/
def gooseStarted (s : State) (n : Nat) (c : PubCfg) (again : Bool) (st sq : W32) (interval : Nat) : Source × State :=
  sourceOn (pubSeq s n again).2 (sourcePorts c.ring c.station) (pairMac s) (pubSeq s n again).1
    (lsduSize (if (pubVlan c).isSome then 4 else 0)
      (gooseLen c st sq (2 * interval / 4) (gooseMembers s c.first c.memberTypes (pubSt s n).words)))

theorem gooseStarted_pubs (s : State) (n : Nat) (c : PubCfg) (a : Bool) (st sq : W32) (i : Nat) :
    (gooseStarted s n c a st sq i).2.net.pubs = s.net.pubs := (sourceOn_pubs ..).trans (pubSeq_pubs ..)

theorem gooseStarted_out (s : State) (n : Nat) (c : PubCfg) (a : Bool) (st sq : W32) (i : Nat) :
    (gooseStarted s n c a st sq i).2.out = s.out :=
  ((sourceOn_frame ..).same .out (by decide)).trans ((pubSeq_frame s n a).same .out (by decide))

theorem pubSt_modPub (s : State) (n k : Nat) (f : PubSt → PubSt) : pubSt (modPub s n f) k = if k = n then f (pubSt s n) else pubSt s k :=
  mgetD_mupd ..

/-- A message of publication `n` leaves once, under the numbers that it was given, and keeps the words. -/
theorem gooseOut_pub (s : State) (n : Nat) (c : PubCfg) (a : Bool) (st sq : W32) (d : W64) (i : Nat) :
    (∀ k, pubSt (gooseOut s n c a st sq d i) k = if k = n then { pubSt s n with
      sent := (pubSt s n).sent.inc, last := st, stNum := st, sqNum := sq, interval := i, nextAt := some (d + BitVec.ofNat 64 i) }
      else pubSt s k) ∧ (gooseOut s n c a st sq d i).out.length = s.out.length + 1 := by
  have hp := gooseStarted_pubs s n c a st sq i
  have ho := gooseStarted_out s n c a st sq i
  unfold gooseOut
  dsimp only
  change (∀ k, pubSt (modPub (send (gooseStarted s n c a st sq i).2 _) n _) k = _) ∧
    ((gooseStarted s n c a st sq i).2.out ++ _).length = _
  generalize (gooseStarted s n c a st sq i) = u at hp ho
  refine ⟨fun k => ?_, ?_⟩
  · have hsame : ∀ j, pubSt u.2 j = pubSt s j := fun j => by
      unfold pubSt
      rw [hp]
    rw [← hsame n, ← hsame k]
    exact pubSt_modPub ..
  · rw [ho]
    exact List.length_append

/-- A publication whose retransmission is due at `k`. -/
theorem gooseRepeat_of_due {s : State} {n : Nat} {c : PubCfg} {k tick : W64} (hc : c.kind = 2) (hk : (pubSt s n).nextAt = some k)
    (ht : k.toNat ≤ tick.toNat) : gooseRepeat s n c tick =
      gooseOut s n c true (pubSt s n).stNum ((pubSt s n).sqNum + 1) k
        (min (2 * (pubSt s n).interval) (max (gooseTicks c.tmaxMs (periodOf s c.task)) 1)) := by
  unfold gooseRepeat
  dsimp only
  rw [hk]
  dsimp only
  rw [if_pos (by rw [hc, decide_eq_true ht]; rfl)]

/-- A retransmission touches its own publication only, and takes nothing back of what left. -/
theorem gooseRepeat_keeps (s : State) (n : Nat) (c : PubCfg) (tick : W64) :
    (∀ k, k ≠ n → pubSt (gooseRepeat s n c tick) k = pubSt s k) ∧ s.out.length ≤ (gooseRepeat s n c tick).out.length := by
  unfold gooseRepeat
  dsimp only
  split
  · exact ⟨fun _ _ => rfl, Nat.le_refl _⟩
  · split_ifs
    · obtain ⟨h1, h2⟩ := gooseOut_pub s n c true (pubSt s n).stNum ((pubSt s n).sqNum + 1) _ _
      exact ⟨fun k hk => (h1 k).trans (if_neg hk), by rw [h2]; omega⟩
    · exact ⟨fun _ _ => rfl, Nat.le_refl _⟩

/-- The retransmissions of the publications up to `last`, one after the other. -/
def gooseRepeatTo (tick : W64) (last : Nat) (s : State) (x : Nat × PubCfg) : State :=
  if x.1 ≤ last then gooseRepeat s x.1 x.2 tick else s

theorem gooseRepeatTo_keeps (tick : W64) (last : Nat) (s : State) (x : Nat × PubCfg) :
    (∀ k, k ≠ x.1 → pubSt (gooseRepeatTo tick last s x) k = pubSt s k) ∧
      s.out.length ≤ (gooseRepeatTo tick last s x).out.length := by
  unfold gooseRepeatTo
  split_ifs
  · exact gooseRepeat_keeps ..
  · exact ⟨fun _ _ => rfl, Nat.le_refl _⟩

theorem gooseRepeats_other {n : Nat} (tick : W64) (last : Nat) (l : List (Nat × PubCfg)) (hl : ∀ x ∈ l, n ≠ x.1) (s : State) :
    pubSt (l.foldl (gooseRepeatTo tick last) s) n = pubSt s n ∧ s.out.length ≤ (l.foldl (gooseRepeatTo tick last) s).out.length := by
  induction l generalizing s with
  | nil => exact ⟨rfl, Nat.le_refl _⟩
  | cons x l ih =>
    obtain ⟨h1, h2⟩ := gooseRepeatTo_keeps tick last s x
    obtain ⟨h3, h4⟩ := ih (fun y hy => hl y (List.mem_cons_of_mem _ hy)) (gooseRepeatTo tick last s x)
    exact ⟨h3.trans (h1 n (hl x List.mem_cons_self)), h2.trans h4⟩

/-- Each publication meets its own retransmission once. -/
theorem gooseRepeats_pub {n : Nat} {c : PubCfg} (tick : W64) (last : Nat) (l : List (Nat × PubCfg))
    (hl : l.Pairwise (fun a b => a.1 ≠ b.1)) (hn : mget l n = some c) (s : State) :
    ∃ u, pubSt u n = pubSt s n ∧ s.out.length ≤ u.out.length ∧
      pubSt (l.foldl (gooseRepeatTo tick last) s) n = pubSt (gooseRepeatTo tick last u (n, c)) n ∧
      (gooseRepeatTo tick last u (n, c)).out.length ≤ (l.foldl (gooseRepeatTo tick last) s).out.length := by
  induction l generalizing s with
  | nil => exact absurd hn (Option.some_ne_none c).symm
  | cons x l ih =>
    obtain ⟨k, v⟩ := x
    obtain ⟨hk, hl⟩ := List.pairwise_cons.mp hl
    change (if k = n then some v else mget l n) = some c at hn
    split_ifs at hn with he
    · subst he
      obtain rfl := Option.some.inj hn
      obtain ⟨h1, h2⟩ := gooseRepeats_other tick last l (fun y hy => hk y hy) (gooseRepeatTo tick last s (k, v))
      exact ⟨s, rfl, Nat.le_refl _, h1, h2⟩
    · obtain ⟨h1, h2⟩ := gooseRepeatTo_keeps tick last s (k, v)
      obtain ⟨u, hu, ho, hp, hq⟩ := ih hl hn (gooseRepeatTo tick last s (k, v))
      exact ⟨u, hu.trans (h1 n (Ne.symm he)), h2.trans ho, hp, hq⟩

theorem execGooseRetransmit_of_released {n : Nat} {c : PubCfg} {s : State} (hn : mget (pkgD s [] (·.pubs)) n = some c)
    (hm : s.ctl.mode.run = true) (hr : s.cyc.released = true) : execGooseRetransmit n s =
      .next ((pkgD s [] (·.pubs)).foldl (gooseRepeatTo s.cyc.lastRelease n) s) := by
  unfold execGooseRetransmit
  rw [if_pos (by rw [hm, hn, hr]; rfl)]
  rfl

theorem execGooseRetransmit_ends {n : Nat} {c : PubCfg} {k : W64} {s : State} (hd : (pkgD s [] (·.pubs)).Pairwise (fun a b => a.1 ≠ b.1))
    (hn : mget (pkgD s [] (·.pubs)) n = some c) (hc : c.kind = 2) (hm : s.ctl.mode.run = true) (hr : s.cyc.released = true)
    (hk : (pubSt s n).nextAt = some k) (ht : k.toNat ≤ s.cyc.lastRelease.toNat) :
    Res.ends (fun t => (pubSt t n).stNum = (pubSt s n).stNum ∧ (pubSt t n).sqNum = (pubSt s n).sqNum + 1 ∧
      (pubSt t n).sent = (pubSt s n).sent.inc ∧ (pubSt t n).words = (pubSt s n).words ∧ s.out.length < t.out.length)
      (execGooseRetransmit n s) := by
  obtain ⟨u, hu, ho, hp, hq⟩ := gooseRepeats_pub s.cyc.lastRelease n _ hd hn s
  have hrep : gooseRepeatTo s.cyc.lastRelease n u (n, c) = gooseRepeat u n c s.cyc.lastRelease := if_pos (Nat.le_refl n)
  rw [hrep, gooseRepeat_of_due hc (by rw [hu]; exact hk) ht] at hp hq
  obtain ⟨h1, h2⟩ := gooseOut_pub u n c true (pubSt u n).stNum ((pubSt u n).sqNum + 1) k
    (min (2 * (pubSt u n).interval) (max (gooseTicks c.tmaxMs (periodOf u c.task)) 1))
  rw [h1 n, if_pos rfl, hu] at hp
  rw [h2] at hq
  rw [execGooseRetransmit_of_released hn hm hr]
  refine Res.ends_next ?_
  rw [hp]
  exact ⟨rfl, rfl, rfl, rfl, by omega⟩

/-! ### O34 -/

theorem execSupervisionSendTimer_of_due {s : State} (ho : ownTraffic s = true)
    (h : s.net.supAt = none ∨ ∃ w, s.net.supAt = some w ∧ 32000000000 ≤ (s.time.raw - w).toNat) :
    execSupervisionSendTimer s = .next ((sourceFrame s false true false 0x01154E000100 none 0x88FB (supervisionPayload s)).modNet (fun n =>
      { n with supAt := some (sourceFrame s false true false 0x01154E000100 none 0x88FB (supervisionPayload s)).time.raw })) := by
  have hdue : (s.net.supAt.isNone || past s s.net.supAt (rMs 2000)) = true := by
    rcases h with h | ⟨w, h, hw⟩
    · rw [h]
      rfl
    · rw [h, past_some (show rMs 2000 ≤ _ from hw), Bool.or_true]
  unfold execSupervisionSendTimer
  rw [if_pos (by rw [ho, hdue]; rfl)]

/-- Settles O34: each clause follows its frame, its link or its timer through the model's own branches. -/
theorem framesPortsAndAddresses : Obligations.FramesPortsAndAddresses := by
  refine ⟨fun b f q s hm hf hq hs hd => ?_, fun b x f s hm hf hl => ⟨_, execRingFrameArrival_of_bad hm hf, ?_, rfl, rfl, rfl, rfl⟩,
    fun b f s hm hf => ⟨_, execRingFrameArrival_of_broken hm hf, rfl, rfl, rfl, rfl, rfl⟩,
    fun p f s hm hp hf => ⟨_, execStationFrameArrival_of_broken hm hp hf, rfl, rfl, rfl, rfl, rfl⟩,
    fun f s hm hb hf he hl => ⟨_, execStationFrameArrival_of_host hm hb hf he, rfl, ?_⟩,
    fun p f q l s hm hp hf hr h1 h2 h3 => execStationFrameArrival_records hm hp hf hr h1 h2 h3, fun s => rfl,
    fun s ho h => ⟨_, execSupervisionSendTimer_of_due ho h, ?_, sourceFrame_modSeq .., rfl⟩,
    fun n c k s hd hn hc hm hr hk ht => execGooseRetransmit_ends hd hn hc hm hr hk ht,
    fun p m s hm hl => ⟨?_, fun hp => ?_, fun hp hr => execRingLinkChange_at_other_medium hm hp hr, fun hp hr ho =>
      execRingLinkChange_alone hm hl hp hr ho, fun hp hr ho => ?_, fun k hp hr ho hk => ?_⟩,
    fun w s hm hl hw h => execRingMediumDetectTimer_of_mismatch hm hl hw h,
    fun w s hm hn hh hu hw h => execRingMediumDetectTimer_of_unlocked hm hn hh hu hw h, fun p m i a s => ?_, fun p a i q d s => ?_⟩
  · obtain ⟨t, ht, h1, h2⟩ := execRingFrameArrival_forwards hm hf hq hs hd (b := b)
    refine ⟨t, ht, ?_⟩
    cases b <;> exact ⟨h1, h2⟩
  · have hlen : (ringCounted s b).net.ports.length = 5 := (modPort_length ..).trans hl
    change (portOf (modPort (ringCounted s b) (ringIn b) _) (ringIn b)).fcs = (portOf s (ringIn b)).fcs.inc
    rw [portOf_modPort_same hlen]
    unfold ringCounted
    rw [portOf_modPort_same hl]
  · have hlen : (stationCounted s .h).net.ports.length = 5 := (modPort_length ..).trans hl
    rw [portOf_modPort_same hlen]
    unfold stationCounted
    rw [portOf_modPort_same hl]
  · have ht : (sourceFrame s false true false 0x01154E000100 none 0x88FB (supervisionPayload s)).time = s.time :=
      (sourceFrame_frame ..).same .time (by decide)
    exact congrArg (fun x : TimeSt => some x.raw) ht
  · exact ⟨_, execRingLinkChange_of_loss hm m, setLink_locked hl p false none⟩
  · exact ⟨_, execRingLinkChange_of_station hm hp true m, setLink_locked hl p true (some m)⟩
  · obtain ⟨t, ht, h1, h2, h3, h4⟩ := execRingLinkChange_agrees hm hl hp hr ho
    obtain ⟨h5, h6⟩ := both_of_ring (P := fun p => (portOf t p).link = true) hp h1 h2
    exact ⟨t, ht, h5, h6, h3, h4⟩
  · obtain ⟨t, ht, h1, h2, h3⟩ := execRingLinkChange_differs hm hl hp hr ho hk
    obtain ⟨h5, h6⟩ := both_of_ring (P := fun p => (portOf t p).link = false) hp h1 h2
    exact ⟨t, ht, h5, h6, h3⟩
  · by_cases ha : ipOn s p = some a
    · refine ⟨_, if_pos ha, fun _ => ?_, fun h => absurd ha h⟩
      exact congrArg (· ++ _) ((ownFrame_frame s p 28).same .out (by decide))
    · exact ⟨s, if_neg ha, fun h => absurd h ha, fun _ => rfl⟩
  · by_cases ha : ipOn s p = some a
    · refine ⟨_, if_pos ha, fun _ => ?_, fun h => absurd ha h⟩
      exact congrArg (· ++ _) ((ownFrame_frame s p (28 + d.length)).same .out (by decide))
    · exact ⟨s, if_neg ha, fun h => absurd h ha, fun _ => rfl⟩

end Sys2Proof.Machine
end

section
/-!
SUPPORT. Sessions open and end.
-/

namespace Sys2Proof.Machine

/-! ### Draws, answers and the sessions -/

/-- A draw of a session identifier advances the source of random octets and nothing else. -/
theorem drawSid_state (k : Nat) (s : State) : ∃ n, (drawSid k s).2 = s.modDict (fun d => { d with fresh := n }) := by
  induction k generalizing s with
  | zero => exact ⟨s.dict.fresh, rfl⟩
  | succ k ih =>
    unfold drawSid
    dsimp only
    split_ifs
    · obtain ⟨n, h⟩ := ih (draw s 4).2
      exact ⟨n, h⟩
    · exact ⟨_, rfl⟩

theorem logSec_dict (s : State) (c r : Nat) (d : W32) : (logSec s c r d).dict = s.dict := (logSec_frame ..).same .dict (by decide)

theorem dictOut_dict (s : State) (v : Via) (m : Bytes) : (dictOut s v m).dict = s.dict := (dictOut_frame ..).same .dict (by decide)

/-- A client without a session is answered without a session's state. -/
theorem strangerError_dict (s : State) (h : MsgHdr) (e : Nat) : (strangerError s h e).dict = s.dict := by
  have hs : h.stranger.sid = 0 := rfl
  unfold strangerError answerError answerClient
  rw [if_pos hs]
  exact dictOut_dict ..

/-- The session that an `OPEN` begins. -/
def newSession (s : State) (h : MsgHdr) (body k : Bytes) (sid : W32) : Session :=
  ⟨sid, (body.getD 0 0).toNat, (body.getD 1 0).toNat, k, h.via, false, s.time.raw, s.time.raw, 0, 0, 0, none, false, [], none⟩

theorem serveOpen_of_key {s : State} {h : MsgHdr} {body key : Bytes} (hl : body.length = 20) (hr : (body.getD 0 0).toNat < 4)
    (hn : (body.getD 1 0).toNat < 4) (hk : roleKey s.boot.roles (body.getD 0 0).toNat (body.getD 1 0).toNat = some key)
    (hf : sessionsFull s h.via = false) :
    ((drawSid 8 s).1 = none → (serveOpen s h body).dict.sessions = s.dict.sessions) ∧
    (∀ sid, (drawSid 8 s).1 = some sid →
      ∃ k, (serveOpen s h body).dict.sessions = s.dict.sessions ++ [newSession s h body k sid]) := by
  obtain ⟨n, hd⟩ := drawSid_state 8 s
  have hrole : (if (body.getD 0 0).toNat < 4 ∧ (body.getD 1 0).toNat < 4
      then roleKey s.boot.roles (body.getD 0 0).toNat (body.getD 1 0).toNat else none) = some key := by
    rw [if_pos ⟨hr, hn⟩, hk]
  unfold serveOpen
  dsimp only
  rw [if_neg (fun h => h hl), hrole]
  dsimp only
  rw [if_neg (by rw [hf]; exact Bool.false_ne_true), hd]
  refine ⟨fun hs => ?_, fun sid hs => ?_⟩
  · rw [hs]
    rfl
  · rw [hs]
    dsimp only
    rw [dictOut_dict, logSec_dict]
    exact ⟨_, rfl⟩

theorem serveOpen_without_key {s : State} {h : MsgHdr} {body : Bytes} (hl : body.length = 20)
    (hk : roleKey s.boot.roles (body.getD 0 0).toNat (body.getD 1 0).toNat = none) :
    (serveOpen s h body).dict.sessions = s.dict.sessions := by
  have hrole : (if (body.getD 0 0).toNat < 4 ∧ (body.getD 1 0).toNat < 4
      then roleKey s.boot.roles (body.getD 0 0).toNat (body.getD 1 0).toNat else none) = none := by
    rw [hk, ite_self]
  unfold serveOpen
  dsimp only
  rw [if_neg (fun h => h hl), hrole]
  exact congrArg DictSt.sessions (strangerError_dict ..)

/-! ### The end of a session -/

theorem closeSession_dict {s : State} {sid : W32} {x : Session} (h : findSession s sid = some x) :
    (closeSession s sid).dict = { s.dict with sessions := s.dict.sessions.filter (fun y => y.sid != sid) } := by
  unfold closeSession
  rw [h]
  exact logSec_dict ..

theorem findSession_modSession {s : State} {sid : W32} {x : Session} {f : Session → Session} (hf : ∀ y, (f y).sid = y.sid)
    (h : findSession s sid = some x) : ∃ y, findSession (modSession s sid f) sid = some y := by
  have hp : ((fun y : Session => y.sid == sid) ∘ fun y => if y.sid = sid then f y else y) = fun y => y.sid == sid := by
    funext y
    dsimp only [Function.comp]
    split_ifs
    · rw [hf]
    · rfl
  unfold findSession at h ⊢
  change ∃ y, (s.dict.sessions.map (fun y => if y.sid = sid then f y else y)).find? _ = some y
  rw [List.find?_map, hp, h]
  exact ⟨_, rfl⟩

/-- The sessions that are left do not tell what the ended one held. -/
theorem filter_map_session (l : List Session) (sid : W32) {f : Session → Session} (hf : ∀ y, (f y).sid = y.sid) :
    (l.map (fun y => if y.sid = sid then f y else y)).filter (fun y => y.sid != sid) = l.filter (fun y => y.sid != sid) := by
  induction l with
  | nil => rfl
  | cons y l ih =>
    by_cases hy : y.sid = sid
    · have h1 : ((f y).sid != sid) = false := by rw [hf, hy, bne_self_eq_false]
      have h2 : (y.sid != sid) = false := by rw [hy, bne_self_eq_false]
      rw [List.map_cons, if_pos hy, List.filter_cons, List.filter_cons, h1, h2]
      exact ih
    · have h2 : (y.sid != sid) = true := bne_iff_ne.mpr hy
      rw [List.map_cons, if_neg hy, List.filter_cons, List.filter_cons, h2, if_pos rfl, if_pos rfl, ih]

/-- The session as a message that it accepts leaves it. -/
def sessionTook (s : State) (h : MsgHdr) (y : Session) : Session :=
  { y with established := true, lastAt := s.time.raw, rxCtr := h.ctr, reqid := h.reqid, stored := none, pending := true }

/-- A message inside a session whose tag is good and whose counter is new is accepted. -/
theorem receive_accepted {s : State} {h : MsgHdr} {x : Session} {ty : Nat} {body : Bytes} (hx : findSession s h.sid = some x)
    (ht : h.tag = dictTag x.key (dictHead ty body.length h.sid h.ctr h.reqid ++ body)) (hc : x.rxCtr.toNat < h.ctr.toNat) :
    receive s h ty body = .accepted ⟨h.via, h.sid, h.ctr, h.reqid, x.role⟩ (modSession s h.sid (sessionTook s h)) := by
  unfold receive
  rw [hx]
  dsimp only
  rw [if_neg (fun hn => hn ht), if_pos hc]
  rfl

theorem receive_mistagged {s : State} {h : MsgHdr} {x : Session} {ty : Nat} {body : Bytes} (hx : findSession s h.sid = some x)
    (ht : h.tag ≠ dictTag x.key (dictHead ty body.length h.sid h.ctr h.reqid ++ body)) :
    receive s h ty body = .ended (s.modDict (fun d => { d with badTag := d.badTag.inc })) := by
  unfold receive
  rw [hx]
  exact if_pos ht

theorem serveClose_dict {s : State} {h : MsgHdr} {x : Session} (hs : h.sid ≠ 0) (hx : findSession s h.sid = some x)
    (hc : x.rxCtr.toNat < h.ctr.toNat) : (serveClose s h).dict = if h.tag = dictTag x.key (dictHead mtClose 0 h.sid h.ctr h.reqid) then
      { s.dict with sessions := s.dict.sessions.filter (fun y => y.sid != h.sid) }
    else { s.dict with badTag := s.dict.badTag.inc } := by
  have hhead : dictHead mtClose ([] : Bytes).length h.sid h.ctr h.reqid ++ [] = dictHead mtClose 0 h.sid h.ctr h.reqid := List.append_nil _
  unfold serveClose inSession
  rw [if_neg hs]
  by_cases ht : h.tag = dictTag x.key (dictHead mtClose 0 h.sid h.ctr h.reqid)
  · obtain ⟨y, hy⟩ := findSession_modSession (f := sessionTook s h) (fun _ => rfl) hx
    rw [receive_accepted hx (by rw [hhead]; exact ht) hc, if_pos ht]
    dsimp only
    rw [closeSession_dict hy]
    exact congrArg (fun l => { s.dict with sessions := l }) (filter_map_session s.dict.sessions h.sid (f := sessionTook s h) (fun _ => rfl))
  · rw [receive_mistagged hx (by rw [hhead]; exact ht), if_neg ht]
    rfl

/-- Settles O43: an identifier is drawn apart from the sessions, and a session that ends is filtered out of them. -/
theorem sessionsOpenAndEnd : Obligations.SessionsOpenAndEnd := by
  refine ⟨fun h body key s hd hs hl hr hn hk hf => ?_, fun h body s hd hs hl hk => ?_, fun sid x s hx he ht => ?_,
    fun sid x s hx he ht => ?_, fun h x s hd hs hx hc => ⟨_, if_pos hd, serveClose_dict hs hx hc⟩⟩
  · obtain ⟨h1, h2⟩ := serveOpen_of_key hl hr hn hk hf
    refine ⟨_, (if_neg (by rw [hd]; decide)).trans (if_pos hs), ?_⟩
    cases hsid : (drawSid 8 s).1 with
    | none => exact h1 hsid
    | some sid => exact h2 sid hsid
  · exact ⟨_, (if_neg (by rw [hd]; decide)).trans (if_pos hs), serveOpen_without_key hl hk⟩
  · change execSessionSetupTimeout sid s = _
    unfold execSessionSetupTimeout
    rw [hx]
    dsimp only
    rw [he, past_some (show rSec 5 ≤ _ from ht)]
    rfl
  · refine ⟨closeSession s sid, ?_, closeSession_dict hx⟩
    change execSessionIdleTimeout sid s = _
    unfold execSessionIdleTimeout
    rw [hx]
    dsimp only
    rw [he, past_some (show rSec 60 ≤ _ from ht)]
    rfl

end Sys2Proof.Machine
end

section
/-!
SUPPORT. Malformed messages, the service unlock, and transfers over CAN.
-/

namespace Sys2Proof.Machine

theorem beBytes_length (n v : Nat) : (beBytes n v).length = n := by
  have hl : ∀ n v : Nat, (leBytes n v).length = n := by
    intro n
    induction n with
    | zero => exact fun _ => rfl
    | succ n ih => exact fun v => congrArg (· + 1) (ih (v / 256))
  exact List.length_reverse.trans (hl n v)

theorem dictHead_length (ty n : Nat) (sid ctr : W32) (r : W64) : (dictHead ty n sid ctr r).length = 20 := by
  unfold dictHead
  simp only [List.length_append, beBytes_length, List.length_cons, List.length_nil]

/-- A client without a session, on a port, is told what was wrong. -/
theorem strangerError_out {h : MsgHdr} {p : Port} {e : Nat} (s : State) (hv : h.via = .port p) : (strangerError s h e).out =
    s.out ++ [.dict h.via (some (ownFrame s p 52).1) (dictHead 0x30 4 0 0 h.reqid ++ (beBytes 2 e ++ [0, 0]))] := by
  have hb : (beBytes 2 e ++ [0, 0]).length = 4 := by rw [List.length_append, beBytes_length]; rfl
  have hm : dictMsg none mtError 0 0 h.stranger.reqid (beBytes 2 e ++ [0, 0]) = dictHead 0x30 4 0 0 h.reqid ++ (beBytes 2 e ++ [0, 0]) := by
    unfold dictMsg
    rw [hb]
    rfl
  have hlen : 28 + (dictHead 0x30 4 0 0 h.reqid ++ (beBytes 2 e ++ [0, 0])).length = 52 := by
    rw [List.length_append, dictHead_length, hb]
  have hs : h.stranger.sid = 0 := rfl
  unfold strangerError answerError answerClient
  rw [if_pos hs, hm]
  unfold dictOut
  rw [show h.stranger.via = h.via from rfl, hv]
  dsimp only
  rw [hlen]
  exact congrArg (· ++ _) ((ownFrame_frame s p 52).same .out (by decide))

theorem serveMalformed_of_stranger {h : MsgHdr} {ty : Nat} {body : Bytes} {s : State} {p : Port} (hv : h.via = .port p) (hs : h.sid = 0)
    (ht : ty = 1 ∨ ty = 0x10) : serveMalformed s h ty body = strangerError s h (if 1400 < body.length then 0x0501 else 0x0502) := by
  unfold serveMalformed
  dsimp only
  rw [if_pos hs, if_pos (show ty = mtOpen ∨ ty = mtRead from ht), hv]
  rfl

/-! ### The service unlock -/

theorem countStatus_unlocked (s : State) (e : Nat) : (countStatus s e).dict.unlocked = s.dict.unlocked := by
  unfold countStatus
  split_ifs
  · rfl
  · rfl
  · rfl

/-- What is answered to a client without a session on a port leaves the unlock. -/
theorem answerWrite_unlocked {c : Client} {p : Port} (hv : c.via = .port p) (hs : c.sid = 0) (s : State) (i u e : Nat) (w : W32) (k : W64) :
    (answerWrite s c i u e w k).dict.unlocked = s.dict.unlocked := by
  unfold answerWrite
  dsimp only
  rw [hv]
  dsimp only
  unfold answerClient
  rw [if_pos hs, dictOut_dict, countStatus_unlocked]

/-- The unlock of a decommissioned module is writable over a port. -/
theorem writeCheck_unlock {c : Client} {p : Port} {s : State} (hv : c.via = .port p) (hb : s.ctl.mode ≠ .bootwait)
    (hl : s.ctl.life = .decommissioned) : writeCheck s c 0xF000 2 15 7856 = (0, some ⟨2, 15, .wo, 0, 0, .none⟩) := by
  have hopen : vendorOpen s = true := by
    unfold vendorOpen
    rw [hl]
    decide
  have href : vendorRefused s 0xF000 2 true = false := by
    unfold vendorRefused
    simp
  have hrow : findEntry s 0xF000 2 = some ⟨2, 15, .wo, 0, 0, .none⟩ := by
    unfold findEntry
    simp [hopen]
  unfold writeCheck
  rw [href, hrow, hv]
  simp [hb, typLen, octetsFit]

theorem execServiceUnlock_ends {c : Client} {data : Bytes} {p : Port} {s : State} (hd : dictServed s c.via = true) (hv : c.via = .port p)
    (hb : s.ctl.mode ≠ .bootwait) (hl : s.ctl.life = .decommissioned) (hn : data.length = 7856) :
    Res.ends (fun t => t.dict.unlocked = (s.dict.unlocked || (List.range 4).any (fun k => !s.boot.revoked.getLsbD k &&
      Config.verify128s (Config.imageKey k) (ascii "GB7240 service" ++ s.ident.serial ++ s.dict.nonce) data)))
      (execServiceUnlock c data s) := by
  have hopen : vendorOpen s = true := by
    unfold vendorOpen
    rw [hl]
    decide
  have hserve : serveWrite s { c with sid := 0 } 0xF000 2 15 data =
      answerWrite (unlockService s data).2 { c with sid := 0 } 0xF000 2 (unlockService s data).1 0 noTick := by
    unfold serveWrite
    rw [hn, writeCheck_unlock (c := { c with sid := 0 }) hv hb hl]
    rfl
  unfold execServiceUnlock
  rw [if_neg (by rw [hd]; decide), if_pos hopen, hserve]
  exact Res.ends_next (answerWrite_unlocked (c := { c with sid := 0 }) hv rfl ..)

/-! ### Transfers over CAN -/

theorem canArb_rx (s : State) (n : Nat) : (canOf (canArb s n) n).rx = (canOf s n).rx := by
  rw [canArb_canOf]

theorem putSlot_rx (s : State) (n k : Nat) (f : CanFrame) : (canOf (putSlot s n k f) n).rx = (canOf s n).rx := by
  unfold putSlot
  rw [canArb_rx, canOf_modCan]

theorem sendFlow_rx (s : State) (n : Nat) : (canOf (sendFlow s n) n).rx = (canOf s n).rx := by
  unfold sendFlow
  split_ifs
  · rfl
  · exact putSlot_rx ..

theorem abortRx_of_running {s : State} {n : Nat} {r : TpRx} (h : (canOf s n).rx = some r) :
    canOf (abortRx s n) n = { canOf s n with rx := none } ∧ (abortRx s n).dict = { s.dict with canAborts := s.dict.canAborts.inc } := by
  unfold abortRx
  rw [if_neg (by rw [h]; exact Bool.false_ne_true)]
  refine ⟨canOf_modCan .., ?_⟩
  rw [State.modDict_dict, modCan_dict]

/-- A first frame that says more than a single frame could begins a reception. -/
theorem tpFirst_rx {s : State} {n : Nat} {d : Bytes} (hl : 8 ≤ d.length)
    (ht : tpLeast d.length ≤ (d.getD 0 0).toNat % 16 * 256 + (d.getD 1 0).toNat) :
    (canOf (tpFirst s n d) n).rx = some ⟨(d.getD 0 0).toNat % 16 * 256 + (d.getD 1 0).toNat, d.drop 2, 1, 0, s.time.raw⟩ := by
  unfold tpFirst
  dsimp only
  rw [if_neg (by omega), sendFlow_rx, canOf_modCan]

theorem execCanTpFrame_of_first {n : Nat} {f : CanFrame} {s : State} (hn : n < 2) (hi : idMatches (canCfg s n).reqId f = true)
    (hd : dictServed s (.can n) = true) (h1 : (f.data.getD 0 0).toNat / 16 = 1) : execCanTpFrame n f s = .next (tpFirst s n f.data) := by
  have hc : ¬ (2 ≤ n ∨ (!idMatches (canCfg s n).reqId f) = true ∨ (!dictServed s (.can n)) = true) := by
    rw [hi, hd]
    simp [hn]
  unfold execCanTpFrame
  rw [if_neg hc, h1]
  rfl

theorem execCanTpTimeout_of_silence {n : Nat} {r : TpRx} {s : State} (hn : n < 2) (hr : (canOf s n).rx = some r)
    (ht : (canOf s n).tx = none) (h : 16000000000 ≤ (s.time.raw - r.atRaw).toNat) : execCanTpTimeout n s = .next (abortRx s n) := by
  have htx : (canOf (abortRx s n) n).tx = none := by
    rw [(abortRx_of_running hr).1]
    exact ht
  have hpast : past s (some r.atRaw) (rMs 1000) = true := past_some h
  unfold execCanTpTimeout
  rw [if_neg (Nat.not_le.mpr hn)]
  simp only [hr, ht, hpast, htx, ↓reduceIte]

/-- Settles O45: a stranger's answer names the error alone, the unlock's row is writable, and a transfer's state is its controller's own. -/
theorem malformedUnlockAndTransfers : Obligations.MalformedUnlockAndTransfers := by
  refine ⟨fun h ty body p s hd hv hs ht => ⟨_, if_pos hd, ?_⟩, fun c data p s hd hv hb hl hn => execServiceUnlock_ends hd hv hb hl hn,
    fun n f s hn hi hd h1 hl ht => ⟨_, execCanTpFrame_of_first hn hi hd h1, tpFirst_rx hl ht⟩, fun n r s hn hr ht h => ?_⟩
  · rw [serveMalformed_of_stranger hv hs ht, strangerError_out s hv]
    refine ⟨?_, strangerError_dict ..⟩
    split_ifs
    · rfl
    · rfl
  · obtain ⟨h1, h2⟩ := abortRx_of_running hr
    refine ⟨_, execCanTpTimeout_of_silence hn hr ht h, ?_, h2⟩
    rw [h1]

end Sys2Proof.Machine
end

section
/-!
SUPPORT. What a client that may write an entry reaches: the command or the PAIR write behind it.
-/

namespace Sys2Proof.Machine

/-- The length of a write fits the type of its entry (R273). -/
def valueFits (i u typ len : Nat) : Bool :=
  match typLen typ with
  | some n => len == n
  | none => octetsFit i u len

/-- A client that may write an entry, and whose value has its length, passes every check of a write. -/
theorem writeCheck_of_mayWrite {s : State} {c : Client} {i u need len : Nat} {r : EntryRow} (hm : mayWrite s c i u need = true)
    (hi : i < 0xF000) (hr : findEntry s i u = some r) (hn : r.role = need) (ha : r.access = .wo ∨ r.access = .pair)
    (hl : valueFits i u r.typ len = true) : writeCheck s c i u r.typ len = (0, some r) := by
  unfold mayWrite at hm
  simp only [Bool.and_eq_true, Bool.or_eq_true, bne_iff_ne, ne_eq] at hm
  obtain ⟨⟨⟨-, hboot⟩, hrole⟩, hcan⟩ := hm
  have hopen : vendorRefused s i u true = false := by
    unfold vendorRefused
    rw [decide_eq_false (Nat.not_le.mpr hi)]
    simp
  have hb : ¬ (s.ctl.mode = .bootwait ∧ bootEntry s i u = false) := fun h =>
    hboot.elim (fun hne => hne h.1) (fun he => Bool.false_ne_true (h.2.symm.trans he))
  have hro : ¬ (r.access = .ro ∨ r.access = .const) := by
    rcases ha with h | h <;> rw [h] <;> decide
  have hno : ¬ (roleAllows c.role r.role true = false ∧ i < 0xF000) := by
    rw [hn, hrole]
    exact fun h => Bool.false_ne_true h.1.symm
  unfold valueFits at hl
  unfold writeCheck
  rw [hopen, hr]
  dsimp only
  rw [if_neg Bool.false_ne_true, if_neg hb, if_neg hno, if_neg hro, if_neg, if_neg]
  · rintro (h | h)
    · exact h rfl
    · exact Bool.false_ne_true (h.symm.trans hl)
  · cases hv : c.via with
    | can n =>
      rw [hv] at hcan
      simpa using hcan
    | port p => exact Bool.false_ne_true
    | mailbox k => exact Bool.false_ne_true

theorem clientWrites_of_mayWrite {s : State} {c : Client} {i u need : Nat} {d : Bytes} {r : EntryRow} (hm : mayWrite s c i u need = true)
    (hr : findEntry s i u = some r) : clientWrites s c i u d = .next (serveWrite s c i u r.typ d) := by
  unfold mayWrite at hm
  simp only [Bool.and_eq_true] at hm
  obtain ⟨⟨⟨⟨hd, hk⟩, -⟩, -⟩, -⟩ := hm
  have ht : entryTyp s i u = r.typ := by
    unfold entryTyp
    rw [hr]
  unfold clientWrites rowWrite
  rw [ht, hd, hk]
  rfl

/-- A write of a command entry runs the command. -/
theorem clientWrites_command {s : State} {c : Client} {i u need : Nat} {d : Bytes} {r : EntryRow} (hm : mayWrite s c i u need = true)
    (hr : findEntry s i u = some r) (hn : r.role = need) (ha : r.access = .wo) (hi : i < 0xF000)
    (hl : valueFits i u r.typ d.length = true) : clientWrites s c i u d = .next (serveCommand s c i u r.typ d) := by
  rw [clientWrites_of_mayWrite hm hr]
  unfold serveWrite
  rw [writeCheck_of_mayWrite hm hi hr hn (.inl ha) hl]
  dsimp only
  rw [ha]

/-- A write of a PAIR entry is a request to the pair. -/
theorem clientWrites_pair {s : State} {c : Client} {i u need : Nat} {d : Bytes} {r : EntryRow} (hm : mayWrite s c i u need = true)
    (hr : findEntry s i u = some r) (hn : r.role = need) (ha : r.access = .pair) (hi : i < 0xF000)
    (hl : valueFits i u r.typ d.length = true) :
    clientWrites s c i u d = .next (servePair s c ⟨c.role, c.reqid, i, u, r.typ, d⟩) := by
  rw [clientWrites_of_mayWrite hm hr]
  unfold serveWrite
  rw [writeCheck_of_mayWrite hm hi hr hn (.inr ha) hl]
  dsimp only
  rw [ha]

/-! ### O50, the side that sequences -/

theorem mjSend_seqs (s : State) (m : MjMsg) : (mjSend s m).pair.seqs = s.pair.seqs := by
  unfold mjSend mjSendOn
  split_ifs <;> rfl

/-- `sequence` before the link is told. -/
def waiting (s : State) (m : WriteMsg) (sid : W32) (via : Via) (ctr : W32) (both : Bool) : State :=
  s.modPair (fun p => { p with
    nextWsn := p.nextWsn + 1, seqs := p.seqs ++ [⟨m, true, sid, via, ctr⟩],
    resend := if both then p.resend ++ [(m, s.time.raw)] else p.resend })

theorem sequence_sequenced {s : State} {r : PairReq} {o : Bool} {f i c : W32} {v : Via} :
    s.sequenced r (sequence (remember s ⟨s.pair.nextWsn, targetTick s 150 (reqTask s r), o, f, .request r⟩) (.request r) (reqTask s r)
      o f true i v c) := by
  generalize hm : (⟨s.pair.nextWsn, targetTick s 150 (reqTask s r), o, f, .request r⟩ : WriteMsg) = m
  have hw : ∀ b, s.sequenced r (waiting (remember s m) m i v c b) := fun b =>
    ⟨rfl, _, rfl, rfl, by rw [← hm], by rw [← hm], by rw [← hm]⟩
  have hu : ∀ b : Bool, s.sequenced r
      (if b then mjSend (waiting (remember s m) m i v c b) (.write m) else waiting (remember s m) m i v c b) := by
    rintro (_ | _)
    · exact hw false
    · obtain ⟨hn, x, hx, hrest⟩ := hw true
      exact ⟨(mjSend_nextWsn ..).trans hn, x, (mjSend_seqs ..).trans hx, hrest⟩
  have hs : sequence (remember s m) (.request r) (reqTask s r) o f true i v c =
      (let b := isPaired (remember s m) && (remember s m).pair.link && !(remember s m).pair.dead
       if b then mjSend (waiting (remember s m) m i v c b) (.write m) else waiting (remember s m) m i v c b) := by
    rw [← hm]
    rfl
  rw [hs]
  exact hu _

/-- A request that the side sequences waits for its boundary, and nothing but the link and the answers has moved. -/
theorem servePair_sequenced {s : State} {c : Client} {r : PairReq} (h : sequences s r = true) :
    s.sequenced r (servePair s c r) ∧ s.onlyChanges [.out, .pair] (servePair s c r) := by
  unfold sequences at h
  simp only [Bool.and_eq_true, beq_iff_eq, Option.isNone_iff_eq_none] at h
  obtain ⟨⟨⟨hrun, howns⟩, hrep⟩, href⟩ := h
  have hstop : s.ctl.mode ≠ .stop := by
    intro hs
    rw [hs] at hrun
    exact absurd hrun (by decide)
  have ht : servePair s c r = ownerTake s ⟨0, r, c.sid, c.via, c.ctr⟩ := by
    unfold servePair
    dsimp only
    rw [if_neg hstop, hrun, howns]
    rfl
  have hs : ownerTake s ⟨0, r, c.sid, c.via, c.ctr⟩ = sequence
      (remember s ⟨s.pair.nextWsn, targetTick s 150 (reqTask s r), s.pins.sideB, 0, .request r⟩) (.request r)
      (reqTask s r) s.pins.sideB 0 true c.sid c.via c.ctr := by
    unfold ownerTake
    rw [hrep]
    dsimp only
    rw [if_neg (by rw [href]; exact fun h => h rfl)]
  rw [ht, hs]
  exact ⟨sequence_sequenced, .andThen (sequence_frame ..) rfl (.andThen (remember_frame ..) rfl (.refl ..))⟩

/-- `t` is `s` with a PAIR write waiting for its boundary, and nothing of the program, the loops or the keys has moved. -/
structure State.tookWrite (s : State) (r : PairReq) (t : State) : Prop where
  waits : s.sequenced r t
  img : t.img = s.img
  loops : t.loops = s.loops
  dist : t.dist = s.dist
  boot : t.boot = s.boot
  ctl : t.ctl = s.ctl

/-- A write of a PAIR entry that the side sequences. -/
theorem clientWrites_sequenced {s : State} {c : Client} {i u need : Nat} {d : Bytes} (r : EntryRow) (hm : mayWrite s c i u need = true)
    (hr : findEntry s i u = some r) (hn : r.role = need) (ha : r.access = .pair) (hi : i < 0xF000)
    (hl : valueFits i u r.typ d.length = true) (hs : sequences s ⟨c.role, c.reqid, i, u, r.typ, d⟩ = true) :
    ∃ t, clientWrites s c i u d = .next t ∧ s.tookWrite ⟨c.role, c.reqid, i, u, r.typ, d⟩ t := by
  obtain ⟨hq, hf⟩ := servePair_sequenced (c := c) hs
  exact ⟨_, clientWrites_pair hm hr hn ha hi hl, hq, hf.same .img (by decide), hf.same .loops (by decide), hf.same .dist (by decide),
    hf.same .boot (by decide), hf.same .ctl (by decide)⟩

theorem valueFits_of_length {i u n len : Nat} {typ : Nat} (ht : typLen typ = some n) (h : len = n) : valueFits i u typ len = true := by
  unfold valueFits
  rw [ht, h]
  exact beq_self_eq_true n

/-- The rows of the loop entries that the pair writes. -/
theorem findEntry_loop (s : State) {n : Nat} (h : n < 32) : findEntry s (0x2100 + n) 1 = some ⟨1, 6, .pair, 1, 0, .mram⟩ ∧
    findEntry s (0x2100 + n) 0x1A = some ⟨0x1A, 6, .pair, 1, 0, .mram⟩ ∧
    findEntry s (0x2100 + n) 0x2F = some ⟨0x2F, 6, .pair, 2, 0, .none⟩ := by
  have hrow : ∀ m < 32, (tableOf (0x2100 + m)).bind (fun t => rowOf t.rows 1) = some ⟨1, 6, .pair, 1, 0, .mram⟩ ∧
      (tableOf (0x2100 + m)).bind (fun t => rowOf t.rows 0x1A) = some ⟨0x1A, 6, .pair, 1, 0, .mram⟩ ∧
      (tableOf (0x2100 + m)).bind (fun t => rowOf t.rows 0x2F) = some ⟨0x2F, 6, .pair, 2, 0, .none⟩ := by
    decide
  have hfind : ∀ u, findEntry s (0x2100 + n) u = (tableOf (0x2100 + n)).bind (fun t => rowOf t.rows u) := by
    intro u
    unfold findEntry
    rw [if_neg (by omega), if_neg (by omega), if_neg (by omega), if_neg (by omega)]
  rw [hfind, hfind, hfind]
  exact hrow n h

end Sys2Proof.Machine
end

section
/-!
SUPPORT. PAIR writes of a side that sequences.
-/

namespace Sys2Proof.Machine

theorem valueFits_key {d : Bytes} (h : d.length = 0 ∨ d.length = 32) : valueFits 0x1600 9 15 d.length = true := by
  unfold valueFits
  rcases h with h | h <;> rw [h] <;> rfl

/-- Settles O50: a write of a PAIR entry passes the checks, and the owner's turn takes it. -/
theorem pairWritesAreSequenced : Obligations.PairWritesAreSequenced := by
  unfold Obligations.PairWritesAreSequenced
  refine ⟨?_, ?_, ?_, ?_, ?_, ?_, ?_, ?_, ?_, ?_, ?_, ?_, ?_, ?_, ?_, ?_⟩
  · intro c d s hm hd hs
    obtain ⟨t, h, hw⟩ := clientWrites_sequenced ⟨2, 15, .pair, 2, 0, .mram⟩ hm rfl rfl rfl (by decide)
      (show valueFits 0x2210 2 15 d.length = true by rw [hd]; rfl) hs
    exact ⟨t, h, hw.waits, hw.img⟩
  · intro c d s hm hd hs
    obtain ⟨t, h, hw⟩ := clientWrites_sequenced ⟨3, 8, .pair, 1, 0, .mram⟩ hm rfl rfl rfl (by decide)
      (valueFits_of_length rfl hd) hs
    exact ⟨t, h, hw.waits, hw.img⟩
  · intro c s hm hs
    obtain ⟨t, h, hw⟩ := clientWrites_sequenced ⟨4, 6, .pair, 1, 0, .none⟩ hm rfl rfl rfl (by decide) rfl hs
    exact ⟨t, h, hw.waits, hw.img⟩
  · intro c s hm hs
    obtain ⟨t, h, hw⟩ := clientWrites_sequenced ⟨4, 6, .pair, 2, 0, .none⟩ hm rfl rfl rfl (by decide) rfl hs
    exact ⟨t, h, hw.waits, hw.img⟩
  · intro c n m s hn hm hs
    obtain ⟨hr, -, -⟩ := findEntry_loop s hn
    obtain ⟨t, h, hw⟩ := clientWrites_sequenced _ hm hr rfl rfl (by omega) rfl hs
    exact ⟨t, (if_pos hn).trans h, hw.waits, hw.loops⟩
  · intro c n m s hn hm hs
    obtain ⟨-, hr, -⟩ := findEntry_loop s hn
    obtain ⟨t, h, hw⟩ := clientWrites_sequenced _ hm hr rfl rfl (by omega) rfl hs
    exact ⟨t, (if_pos hn).trans h, hw.waits, hw.loops⟩
  · intro c n s hn hm hs
    obtain ⟨-, -, hr⟩ := findEntry_loop s hn
    obtain ⟨t, h, hw⟩ := clientWrites_sequenced _ hm hr rfl rfl (by omega) rfl hs
    exact ⟨t, (if_pos hn).trans h, hw.waits, hw.loops⟩
  · intro c s hm hs
    obtain ⟨t, h, hw⟩ := clientWrites_sequenced ⟨0x11, 6, .pair, 1, 0, .none⟩ hm rfl rfl rfl (by decide) rfl hs
    exact ⟨t, h, hw.waits⟩
  · intro c s hm hs
    obtain ⟨t, h, hw⟩ := clientWrites_sequenced ⟨9, 6, .pair, 1, 0, .none⟩ hm rfl rfl rfl (by decide) rfl hs
    exact ⟨t, h, hw.waits, hw.dist⟩
  · intro c s hm hs
    obtain ⟨t, h, hw⟩ := clientWrites_sequenced ⟨0x10, 6, .pair, 2, 0, .none⟩ hm rfl rfl rfl (by decide) rfl hs
    exact ⟨t, h, hw.waits, hw.boot⟩
  · intro c s hm hs
    obtain ⟨t, h, hw⟩ := clientWrites_sequenced ⟨0x0E, 6, .pair, 2, 0, .none⟩ hm rfl rfl rfl (by decide) rfl hs
    exact ⟨t, h, hw.waits, hw.boot⟩
  · intro c s hm
    refine ⟨fun hs => ?_, fun hs => ?_⟩
    · obtain ⟨t, h, hw⟩ := clientWrites_sequenced ⟨5, 6, .pair, 2, 0, .none⟩ hm rfl rfl rfl (by decide) rfl hs
      exact ⟨t, h, hw.waits, hw.ctl⟩
    · obtain ⟨t, h, hw⟩ := clientWrites_sequenced ⟨5, 6, .pair, 2, 0, .none⟩ hm rfl rfl rfl (by decide) rfl hs
      exact ⟨t, h, hw.waits, hw.ctl⟩
  · intro c d s hm hd hs
    obtain ⟨t, h, hw⟩ := clientWrites_sequenced ⟨9, 15, .pair, 3, 0, .mram⟩ hm rfl rfl rfl (by decide) (valueFits_key hd) hs
    exact ⟨t, h, hw.waits, hw.boot⟩
  · intro c d s hm hd hs
    obtain ⟨t, h, hw⟩ := clientWrites_sequenced ⟨0x0C, 15, .pair, 3, 0, .mram⟩ hm rfl rfl rfl (by decide)
      (show valueFits 0x1600 0x0C 15 d.length = true by rw [hd]; rfl) hs
    exact ⟨t, h, hw.waits, hw.boot⟩
  · intro c v s hm hs
    obtain ⟨t, h, hw⟩ := clientWrites_sequenced ⟨0x0D, 6, .pair, 3, 0, .mram⟩ hm rfl rfl rfl (by decide) rfl hs
    exact ⟨t, h, hw.waits, hw.boot⟩
  · intro c s hm hs
    obtain ⟨t, h, hw⟩ := clientWrites_sequenced ⟨5, 6, .pair, 2, 0, .none⟩ hm rfl rfl rfl (by decide) rfl hs
    exact ⟨t, h, hw.waits, hw.boot⟩

end Sys2Proof.Machine
end

section
/-!
SUPPORT. What a client commands: the module's stop, its reset and its life cycle.
-/

namespace Sys2Proof.Machine

theorem leNat_leBytes (k n : Nat) : leNat (leBytes k n) = n % 256 ^ k := by
  induction k generalizing n with
  | zero => simp [leBytes, leNat, Nat.mod_one]
  | succ k ih =>
    have h8 : (BitVec.ofNat 8 n).toNat = n % 256 := BitVec.toNat_ofNat ..
    calc leNat (leBytes (k + 1) n) = n % 256 + 256 * (n / 256 % 256 ^ k) := by rw [leBytes, leNat, h8, ih]
      _ = n % 256 ^ (k + 1) := by rw [pow_succ', Nat.mod_mul]

theorem beNat_beBytes {k n : Nat} (h : n < 256 ^ k) : beNat (beBytes k n) = n := by
  unfold beNat beBytes
  rw [List.reverse_reverse, leNat_leBytes, Nat.mod_eq_of_lt h]

/-! ### Answers leave what is commanded -/

theorem answerWrite_ctl (s : State) (c : Client) (i u e : Nat) (w : W32) (k : W64) : (answerWrite s c i u e w k).ctl = s.ctl :=
  (answerWrite_frame ..).same .ctl (by decide)

theorem answerWrite_pair (s : State) (c : Client) (i u e : Nat) (w : W32) (k : W64) : (answerWrite s c i u e w k).pair = s.pair :=
  (answerWrite_frame ..).same .pair (by decide)

theorem answerWrite_boot (s : State) (c : Client) (i u e : Nat) (w : W32) (k : W64) : (answerWrite s c i u e w k).boot = s.boot :=
  (answerWrite_frame ..).same .boot (by decide)

/-- A command within its range, neither a reset nor of the life cycle, runs and is answered. -/
theorem serveCommand_runs {s : State} {c : Client} {i u typ : Nat} {d : Bytes} (hl : ¬ (i = 0x1100 ∧ u = 7))
    (hr : rangeOk s i u typ (beNat d) = true) (h3 : ¬ (i = 0x1100 ∧ u = 4 ∧ beNat d = 3)) : serveCommand s c i u typ d =
    answerWrite (runCommand s i u (beNat d) d).2 c i u (runCommand s i u (beNat d) d).1 0 noTick := by
  unfold serveCommand
  dsimp only
  rw [if_neg hl, if_neg (by rw [hr]; exact fun h => Bool.false_ne_true h.2.symm), if_neg h3]

/-- A command of a client that may give it, in terms of what the command does to the state. -/
theorem clientWrites_commands {s : State} {c : Client} {i u need : Nat} {d : Bytes} {u' : State} {e : Nat} (r : EntryRow)
    (hm : mayWrite s c i u need = true) (hr : findEntry s i u = some r) (hn : r.role = need) (ha : r.access = .wo) (hi : i < 0xF000)
    (hf : valueFits i u r.typ d.length = true) (hl : ¬ (i = 0x1100 ∧ u = 7)) (hg : rangeOk s i u r.typ (beNat d) = true)
    (h3 : ¬ (i = 0x1100 ∧ u = 4 ∧ beNat d = 3)) (hu : runCommand s i u (beNat d) d = (e, u')) :
    ∃ t, clientWrites s c i u d = .next t ∧ t.ctl = u'.ctl ∧ t.pair = u'.pair ∧ t.boot = u'.boot := by
  refine ⟨_, (clientWrites_command hm hr hn ha hi hf).trans (congrArg Host.Outcome.next (serveCommand_runs hl hg h3)), ?_⟩
  rw [hu]
  exact ⟨answerWrite_ctl .., answerWrite_pair .., answerWrite_boot ..⟩

/-! ### The commanded stop and its end -/

theorem stopAtRelease_running {s : State} (hr : s.ctl.mode.run = true) (hp : s.cyc.phase ≠ .slack) :
    (stopAtRelease s).ctl = { s.ctl with stopPending := some 0x000B } := by
  unfold stopAtRelease
  rw [if_pos hr, if_neg hp]
  rfl

theorem commandStop_running {s : State} (hr : s.ctl.mode.run = true) (hp : s.cyc.phase ≠ .slack) :
    (commandStop s).ctl = { s.ctl with commandedStop := true, stopPending := some 0x000B } := by
  have hm : s.ctl.mode ≠ .stop := by
    intro h
    rw [h] at hr
    exact absurd hr (by decide)
  have h : commandStop s = stopAtRelease (s.modCtl (fun c => { c with commandedStop := true })) := if_neg hm
  rw [h]
  exact stopAtRelease_running (s := s.modCtl (fun c => { c with commandedStop := true })) hr hp

/-- A commanded stop of a module in STOP takes its lines down. -/
theorem commandStop_stopped {s : State} (h : s.ctl.mode = .stop) : (commandStop s).ctl.commandedStop = true ∧
    (commandStop s).ctl.mode = .stop ∧ (commandStop s).pair.ownOut = false ∧ (commandStop s).pair.aliveOut = false := by
  generalize hv : s.modCtl (fun c => { c with commandedStop := true }) = v
  have hc : (lowerOwn v).ctl = { s.ctl with commandedStop := true } :=
    ((lowerOwn_frame v).same .ctl (by decide)).trans (congrArg State.ctl hv.symm)
  have hd : commandStop s = ((lowerOwn v).modCtl (fun c => { c with stoppedAt := some v.time.raw })).modPair
      (fun p => { p with aliveOut := false }) := by
    rw [← hv]
    exact if_pos h
  have hp : (lowerOwn v).pair.ownOut = false := congrArg PairSt.ownOut (changePair_pair ..)
  have hctl : (commandStop s).ctl = { (lowerOwn v).ctl with stoppedAt := some v.time.raw } := congrArg State.ctl hd
  have hpair : (commandStop s).pair = { (lowerOwn v).pair with aliveOut := false } := congrArg State.pair hd
  rw [hctl, hpair, hc]
  exact ⟨rfl, h, hp, rfl⟩

/-- A retry of the catch-up begins at phase 1 with nothing failed. -/
theorem retryCatchup_begins {s : State} (h : s.ctl.mode = .catchup) :
    (retryCatchup s).pair.phase = 1 ∧ (retryCatchup s).pair.cFails = 0 ∧
    (retryCatchup s).pair.log = [] := by
  have hm : ∀ (u : State) (m : MjMsg), (mjSend u m).pair.phase = u.pair.phase ∧ (mjSend u m).pair.cFails = u.pair.cFails ∧
      (mjSend u m).pair.log = u.pair.log := by
    intro u m
    unfold mjSend mjSendOn
    split_ifs <;> exact ⟨rfl, rfl, rfl⟩
  unfold retryCatchup
  rw [if_pos h]
  exact hm _ _

/-! ### The commanded reset and the life cycle -/

theorem resetModule_sessions (s : State) (cause : Nat) : (resetModule s cause).dict.sessions = [] := by
  rw [resetModule_eq]
  exact (congrArg DictSt.sessions ((loggedReset_frame ..).same .dict (by decide))).trans (settleLife_sessions rfl)

theorem settleLife_pair (s : State) : (settleLife s).pair = s.pair :=
  (settleLife_frame s).same .pair (by decide)

theorem resetModule_ownOut (s : State) (cause : Nat) : (resetModule s cause).pair.ownOut = false := by
  rw [resetModule_eq]
  exact congrArg PairSt.ownOut (((loggedReset_frame ..).same .pair (by decide)).trans (settleLife_pair _))

theorem serveCommand_reset (s : State) (c : Client) : serveCommand s c 0x1100 4 6 [3] =
    resetModule (answerWrite s c 0x1100 4 0 0 noTick) 2 := by
  have hr : rangeOk s 0x1100 4 6 3 = true := rfl
  have hb : beNat [3] = 3 := rfl
  unfold serveCommand
  dsimp only
  rw [if_neg (by decide), hb, hr, if_neg (fun h => Bool.false_ne_true h.2.symm), if_pos ⟨rfl, rfl, rfl⟩]

/-- A command of the life cycle is refused, or it is carried out in a reset. -/
theorem serveCommand_life (s : State) (c : Client) (typ : Nat) (d : Bytes) : serveCommand s c 0x1100 7 typ d =
    if lifeCheck s (beNat d) ≠ 0 then answerWrite s c 0x1100 7 (lifeCheck s (beNat d)) 0 noTick
    else resetModule (answerWrite (lifeCommand s (beNat d)) c 0x1100 7 0 0 noTick) 2 := rfl

theorem beNat_lifeWord (s : State) {k : Nat} (h : k < 256) : beNat (lifeWord s k) = (moduleMac s).toNat % 16777216 * 256 + k :=
  beNat_beBytes (by have := Nat.mod_lt (moduleMac s).toNat (show 0 < 16777216 by decide); omega)

theorem lifeCheck_leaves {s : State} {k : Nat} (hk : k = 2 ∨ k = 3) (hm : s.ctl.mode = .stop) (hn : s.ctl.lifePending = none)
    (hl : s.ctl.life = .provisioned ∨ s.ctl.life = .commissioned) : lifeCheck s ((moduleMac s).toNat % 16777216 * 256 + k) = 0 := by
  have hdiv : ((moduleMac s).toNat % 16777216 * 256 + k) / 256 = (moduleMac s).toNat % 16777216 := by omega
  have hmod : ((moduleMac s).toNat % 16777216 * 256 + k) % 256 = k := by omega
  unfold lifeCheck
  dsimp only
  rw [hdiv, hmod, hm, hn]
  rcases hk with rfl | rfl
  · simp [hl]
  · simp [hl]

/-- A life-cycle command that is refused moves nothing that it commands. -/
theorem clientWrites_life {s : State} {c : Client} {k : Nat} (hm : mayWrite s c 0x1100 7 3 = true) (hk : k < 256) :
    clientWrites s c 0x1100 7 (lifeWord s k) = .next (
      if lifeCheck s ((moduleMac s).toNat % 16777216 * 256 + k) ≠ 0 then
        answerWrite s c 0x1100 7 (lifeCheck s ((moduleMac s).toNat % 16777216 * 256 + k)) 0 noTick
      else resetModule (answerWrite (lifeCommand s ((moduleMac s).toNat % 16777216 * 256 + k)) c 0x1100 7 0 0 noTick) 2) := by
  rw [clientWrites_command (r := ⟨7, 8, .wo, 3, 0, .none⟩) hm rfl rfl rfl (by decide) (d := lifeWord s k)
    (valueFits_of_length rfl (beBytes_length ..)), serveCommand_life, beNat_lifeWord s hk]

/-- A life-cycle command that is accepted ends in COLD, in the life it asks for, and with its keys. -/
theorem resetModule_pended (s : State) (c : Client) (l : Life) (k : PendKeys) :
    (keepState (answerWrite (pendLife s l k) c 0x1100 7 0 0 noTick)).wiped
        (resetModule (answerWrite (pendLife s l k) c 0x1100 7 0 0 noTick) 2) l ∧
      (keepState (answerWrite (pendLife s l k) c 0x1100 7 0 0 noTick)).boot.pendKeys = some k := by
  refine ⟨resetModule_wiped 2 ?_, ?_⟩
  · rw [answerWrite_ctl]
    rfl
  · exact (congrArg BootSt.pendKeys (congrArg BootSt.afterReset (answerWrite_boot ..))).trans rfl

/-- What a client's life-cycle command does that its check lets pass. -/
theorem clientWrites_pended {s : State} {c : Client} {k : Nat} {l : Life} {keys : PendKeys} (hm : mayWrite s c 0x1100 7 3 = true)
    (hk : k < 256) (hz : lifeCheck s ((moduleMac s).toNat % 16777216 * 256 + k) = 0)
    (hp : lifeCommand s ((moduleMac s).toNat % 16777216 * 256 + k) = pendLife s l keys) :
    ∃ t, clientWrites s c 0x1100 7 (lifeWord s k) = .next t ∧ t.ctl.life = l ∧ t.ctl.mode = .cold ∧ t.ctl.lifePending = none ∧
      t.boot.roles = keys.roles ∧ (l = .decommissioned → t.boot.identityKey = none) := by
  obtain ⟨hw, hkeys⟩ := resetModule_pended s c l keys
  refine ⟨_, (clientWrites_life hm hk).trans (congrArg Host.Outcome.next (if_neg (fun h => h hz))), ?_⟩
  rw [hp]
  refine ⟨hw.life, (resetModule_cold 2).1, hw.pending, hw.roles.trans (by rw [hkeys]; rfl), fun hl => ?_⟩
  rw [hw.identityKey, if_pos hl]

theorem lifeCommand_pends (s : State) (n : Nat) : (∃ keys, lifeCommand s (n * 256 + 1) = pendLife s .commissioned keys) ∧
    lifeCommand s (n * 256 + 2) = pendLife s .blank ⟨[], none, none⟩ ∧
    lifeCommand s (n * 256 + 3) = pendLife s .decommissioned ⟨[], none, none⟩ := by
  unfold lifeCommand
  rw [Nat.mul_add_mod', Nat.mul_add_mod', Nat.mul_add_mod']
  exact ⟨⟨_, rfl⟩, rfl, rfl⟩

/-- A restart of a running module waits for its release; a cold one is marked. -/
theorem execRestart_running {s : State} {c : Client} {b : Byte} (cold : Bool) (hb : (beNat [b] == 2) = cold)
    (hg : rangeOk s 0x2200 6 6 (beNat [b]) = true) (hm : mayWrite s c 0x2200 6 2 = true) (hr : s.ctl.mode.run = true)
    (hp : s.cyc.phase ≠ .slack) : ∃ t, clientWrites s c 0x2200 6 [b] = .next t ∧
      t.ctl = { s.ctl with coldNext := s.ctl.coldNext || cold, stopPending := some 0x000B } := by
  have hd : s.ctl.mode ≠ .dbg := by
    intro h
    rw [h] at hr
    exact absurd hr (by decide)
  have hrun : runCommand s 0x2200 6 (beNat [b]) [b] = (0, commandRestart s cold) := (if_neg hd).trans (by rw [hb])
  obtain ⟨t, h, hc, -⟩ := clientWrites_commands (d := [b]) ⟨6, 6, .wo, 2, 0, .none⟩ hm rfl rfl rfl (by decide) rfl (by decide) hg
    (by rintro ⟨h, -⟩; exact absurd h (by decide)) hrun
  exact ⟨t, h, hc.trans (stopAtRelease_running (s := s.modCtl (fun c => { c with coldNext := c.coldNext || cold })) hr hp)⟩

/-- Settles O47: each command by its entry's row and its own rule; the answer leaves what it commands. -/
theorem stopStartAndLifeCycleCommands : Obligations.StopStartAndLifeCycleCommands := by
  unfold Obligations.StopStartAndLifeCycleCommands
  refine ⟨fun c s hm hr hp => ⟨?_, ?_⟩, fun c s hm hr hp => ?_, fun c s hm hs => ?_, fun c s hm => ?_, fun c s hm => ?_,
    fun c s hm hs => ?_, fun c s hm hs hn hl => ?_, fun c s hm hs hn hl => ⟨?_, ?_⟩⟩
  · obtain ⟨t, h, hc⟩ := execRestart_running (b := 1) false rfl rfl hm hr hp
    exact ⟨t, h, by rw [hc, Bool.or_false]⟩
  · obtain ⟨t, h, hc⟩ := execRestart_running (b := 2) true rfl rfl hm hr hp
    exact ⟨t, h, by rw [hc, Bool.or_true]⟩
  · obtain ⟨t, h, hc, -⟩ := clientWrites_commands (d := [1]) ⟨4, 6, .wo, 2, 0, .none⟩ hm rfl rfl rfl (by decide) rfl
      (by decide) rfl (by decide) rfl
    exact ⟨t, h, hc.trans (commandStop_running hr hp)⟩
  · obtain ⟨t, h, hc, hp, -⟩ := clientWrites_commands (d := [1]) ⟨4, 6, .wo, 2, 0, .none⟩ hm rfl rfl rfl (by decide) rfl
      (by decide) rfl (by decide) rfl
    obtain ⟨h1, h2, h3, h4⟩ := commandStop_stopped hs
    exact ⟨t, h, by rw [hc]; exact h1, by rw [hc]; exact h2, by rw [hp]; exact h3, by rw [hp]; exact h4⟩
  · obtain ⟨t, h, hc, -⟩ := clientWrites_commands (d := [2]) ⟨4, 6, .wo, 2, 0, .none⟩ hm rfl rfl rfl (by decide) rfl
      (by decide) rfl (by decide) rfl
    exact ⟨t, h, by rw [hc]; rfl, by rw [hc]; rfl⟩
  · exact ⟨_, (clientWrites_command (d := [3]) (r := ⟨4, 6, .wo, 2, 0, .none⟩) hm rfl rfl rfl (by decide) rfl).trans
      (congrArg Host.Outcome.next (serveCommand_reset s c)), (resetModule_cold 2).1, resetModule_sessions .., resetModule_ownOut ..⟩
  · obtain ⟨t, h, -, hp, -⟩ := clientWrites_commands (d := [1]) ⟨0x16, 6, .wo, 2, 0, .none⟩ hm rfl rfl rfl (by decide) rfl
      (by decide) rfl (by decide) rfl
    exact ⟨t, h, by rw [hp]; exact retryCatchup_begins hs⟩
  · by_cases he : lifeCheck s ((moduleMac s).toNat % 16777216 * 256 + 1) = 0
    · obtain ⟨⟨keys, hk⟩, -⟩ := lifeCommand_pends s ((moduleMac s).toNat % 16777216)
      obtain ⟨t, h, hlife, hmode, hpend, -⟩ := clientWrites_pended hm (by decide) he hk
      exact ⟨t, h, by rw [if_pos he]; exact ⟨hlife, hmode, hpend⟩⟩
    · exact ⟨_, (clientWrites_life hm (by decide)).trans (congrArg Host.Outcome.next (if_pos he)),
        by rw [if_neg he]; exact answerWrite_ctl ..⟩
  · obtain ⟨-, hk, -⟩ := lifeCommand_pends s ((moduleMac s).toNat % 16777216)
    obtain ⟨t, h, hlife, hmode, -, hroles, -⟩ := clientWrites_pended hm (by decide) (lifeCheck_leaves (.inl rfl) hs hn hl) hk
    exact ⟨t, h, hlife, hmode, hroles⟩
  · obtain ⟨-, -, hk⟩ := lifeCommand_pends s ((moduleMac s).toNat % 16777216)
    obtain ⟨t, h, hlife, hmode, -, -, hid⟩ := clientWrites_pended hm (by decide) (lifeCheck_leaves (.inr rfl) hs hn hl) hk
    exact ⟨t, h, hlife, hmode, hid rfl⟩

end Sys2Proof.Machine
end

section
/-!
SUPPORT. Rules, violations, faults and the stores of native masters.
-/

namespace Sys2Proof.Machine

/-! ### Rule writes -/

theorem mpuCtx_modCtx_same (s : State) (c : Cp) (f : MpuCtx → MpuCtx) :
    mpuCtx (modCtx s c.master f) c.master = f (mpuCtx s c.master) := by
  cases c <;> rfl

/-- The rule writes of a core pair's own context take effect one by one. -/
theorem ruleEffective_own {s : State} {c : Cp} {w : RuleWrite} {rest : List RuleWrite} (h : (mpuCtx s c.master).waiting = w :: rest) :
    mpuCtx (ruleEffective s c.master) c.master = { (mpuCtx s c.master).apply w with
      waiting := rest, gen := ((mpuCtx s c.master).apply w).gen + 1 } := by
  unfold ruleEffective
  rw [h]
  cases c <;> rfl

/-- What `allEffective` does to the context of a core pair. -/
def MpuCtx.applyAll (x : MpuCtx) : List RuleWrite → MpuCtx
  | [] => { x with waiting := [] }
  | w :: rest => applyAll { x.apply w with waiting := rest, gen := (x.apply w).gen + 1 } rest

theorem MpuCtx.applyAll_waiting (x : MpuCtx) (l : List RuleWrite) : (x.applyAll l).waiting = [] := by
  induction l generalizing x with
  | nil => rfl
  | cons w l ih => exact ih _

theorem MpuCtx.apply_regions (x : MpuCtx) (w : RuleWrite) : (x.apply w).regions.length = x.regions.length := by
  cases w with
  | start r v => exact List.length_modify ..
  | last r v => exact List.length_modify ..
  | attrs r v => exact List.length_modify ..
  | enable v => rfl

theorem MpuCtx.applyAll_regions (x : MpuCtx) (l : List RuleWrite) : (x.applyAll l).regions.length = x.regions.length := by
  induction l generalizing x with
  | nil => rfl
  | cons w l ih => exact (ih _).trans (x.apply_regions w)

theorem MpuCtx.applyAll_nil {x : MpuCtx} (h : x.waiting = []) : x.applyAll [] = x := by
  obtain ⟨⟩ := x
  cases h
  rfl

/-- As many turns as rule writes wait leave none. -/
theorem foldl_ruleEffective (c : Cp) (l : List RuleWrite) {α : Type} (k : List α) (s : State) (h : (mpuCtx s c.master).waiting = l)
    (hk : k.length = l.length) :
    mpuCtx (k.foldl (fun s _ => ruleEffective s c.master) s) c.master = (mpuCtx s c.master).applyAll l := by
  induction l generalizing k s with
  | nil =>
    rw [List.length_eq_zero_iff.mp hk, MpuCtx.applyAll_nil h]
    rfl
  | cons w l ih =>
    cases k with
    | nil => exact absurd hk (Nat.succ_ne_zero _).symm
    | cons b k =>
      have hs := ruleEffective_own h
      rw [List.foldl_cons, ih k _ (congrArg MpuCtx.waiting hs) (Nat.succ.inj hk), hs]
      rfl

theorem allEffective_own (s : State) (c : Cp) : mpuCtx (allEffective s c.master) c.master =
    (mpuCtx s c.master).applyAll (mpuCtx s c.master).waiting :=
  foldl_ruleEffective c _ (List.range _) s rfl List.length_range

theorem allEffective_waiting (s : State) (c : Cp) : (mpuCtx (allEffective s c.master) c.master).waiting = [] := by
  rw [allEffective_own]
  exact MpuCtx.applyAll_waiting ..

theorem allEffective_out (s : State) (m : Master) : (allEffective s m).out = s.out :=
  (allEffective_frame ..).same .out (by decide)

theorem allEffective_dmaOwner (s : State) (m : Master) : dmaOwner (allEffective s m) = dmaOwner s := by
  have hb : (allEffective s m).boot = s.boot := (allEffective_frame ..).same .boot (by decide)
  unfold dmaOwner pkgD pkgOf
  rw [hb]

theorem execMpuSyncRead_ends {c : Cp} {s : State} (h : mayAccess s c.master 0x40020008 kRead = true) (hd : dmaOwner s ≠ some c) :
    Res.ends (fun t => (mpuCtx t c.master).waiting = [] ∧
      t.out = s.out ++ [.regRead ((mpuCtx t c.master).gen.zeroExtend 32)]) (execMpuSyncRead c s) := by
  have hsend : ∀ (u : State) (o : Out), mpuCtx (send u o) c.master = mpuCtx u c.master := fun u o => by cases c <;> rfl
  unfold execMpuSyncRead
  rw [port_of_access h]
  dsimp only
  rw [if_neg (by rw [allEffective_dmaOwner]; simpa using hd)]
  refine Res.ends_next ⟨?_, ?_⟩
  · rw [hsend, allEffective_waiting]
  · rw [hsend]
    exact congrArg (· ++ _) (allEffective_out ..)

/-- A lock that is written holds, at once or because it held. -/
theorem waitRule_locks {s : State} {c : Cp} {n : Nat} {v : Byte} (hw : (mpuCtx s c.master).waiting = [])
    (hn : n < (mpuCtx s c.master).regions.length) (hv : v.getLsbD 7 = true) :
    ((mpuCtx (allEffective (waitRule s c.master (.attrs n v)) c.master) c.master).regions.getD n Region.reset).lock = true := by
  rw [allEffective_own]
  unfold waitRule
  dsimp only
  refine iteInduction (motive := fun u =>
    (((mpuCtx u c.master).applyAll (mpuCtx u c.master).waiting).regions.getD n Region.reset).lock = true)
    (fun h => ?_) (fun _ => ?_)
  · rw [mpuCtx_modCtx_same]
    dsimp only
    rw [hw]
    exact h
  · rw [mpuCtx_modCtx_same]
    dsimp only
    rw [hw]
    change ((lupd (mpuCtx s c.master).regions n _).getD n Region.reset).lock = true
    rw [getD_lupd_same _ _ _ _ hn]
    dsimp only
    rw [hv, Bool.or_true]

theorem execMpuRegionLock_ends {c : Cp} {n : Nat} {s : State} (h : mayAccess s c.master (0x40020108 + 16 * n) kWrite = true)
    (hs : selectedCtx s c = c.master) (hn : n < (mpuCtx s c.master).regions.length) :
    Res.ends (fun t => ((mpuCtx t c.master).regions.getD n Region.reset).lock = true ∧ (mpuCtx t c.master).waiting = [])
      (execMpuRegionLock c n s) := by
  have hbit : ∀ x : Byte, (0x80 ||| x).getLsbD 7 = true := fun x => by
    rw [BitVec.getLsbD_or]
    exact Bool.true_or _
  have hlen : n < (mpuCtx (allEffective s c.master) c.master).regions.length := by
    rwa [allEffective_own, MpuCtx.applyAll_regions]
  unfold execMpuRegionLock
  rw [port_of_access h]
  dsimp only
  rw [hs]
  exact Res.ends_next ⟨waitRule_locks (allEffective_waiting s c) hlen (hbit _), allEffective_waiting ..⟩

/-! ### Violations -/

theorem masterOf_num (c : Cp) : masterOf c.num = c.master := by cases c <;> rfl

theorem masterRuns_core (s : State) (c : Cp) : masterRuns s c.master = coreRuns s c := by cases c <;> rfl

theorem masterPriv_core (s : State) (c : Cp) : masterPriv s c.master = (cpOf s c).machine := by cases c <;> rfl

theorem mapOf_core (s : State) (c : Cp) : mapOf s c.master = c := by cases c <;> rfl

theorem isFrozen_core (s : State) (c : Cp) : isFrozen s c.master = (cpOf s c).frozen := by cases c <;> rfl

theorem frozen_of_runs {s : State} {c : Cp} (h : coreRuns s c = true) : (cpOf s c).frozen = false := by
  unfold coreRuns coreReady at h
  simp only [Bool.and_eq_true, Bool.not_eq_true'] at h
  obtain ⟨⟨⟨-, hf⟩, -⟩, -⟩ := h
  exact hf

/-- A denied access names its master and its address. -/
theorem checkAccess_some {s : State} {m : Master} {a kind : Nat} {p : Bool} {x : Violation} (h : checkAccess s m a kind p = some x) :
    x.master = m.num ∧ x.addr = BitVec.ofNat 32 a := by
  unfold checkAccess at h
  split at h
  · exact absurd h nofun
  · split at h
    · cases h
      exact ⟨rfl, rfl⟩
    · split at h
      · cases h
        exact ⟨rfl, rfl⟩
      · exact absurd h nofun

/-- The first violation of an instant is the one that is recorded. -/
theorem recordViolation_mpu {s : State} (v : Violation) (h : s.mpu.lastAt = none) : (recordViolation s v).mpu.faddr = v.addr ∧
    (recordViolation s v).mpu.fmaster = BitVec.ofNat 2 v.master ∧ (recordViolation s v).mpu.any = true ∧
    (recordViolation s v).mpu.fmulti = s.mpu.any := by
  unfold recordViolation
  rw [h]
  exact ⟨rfl, rfl, rfl, rfl⟩

/-- The core pairs of `t` are frozen as those of `s`. -/
def State.sameFrozen (s t : State) : Prop := ∀ d, (cpOf t d).frozen = (cpOf s d).frozen

theorem State.sameContexts.frozen {s t : State} (h : s.sameContexts t) : s.sameFrozen t := fun d => by rw [h.core d]

theorem modCp_sameFrozen (s : State) (c : Cp) (f : CpSt → CpSt) (hf : ∀ p, (f p).frozen = p.frozen) : s.sameFrozen (modCp s c f) := by
  intro d
  rw [cpOf_modCp]
  split_ifs
  · exact hf _
  · rfl

theorem abandonCall_sameFrozen (s : State) (c : Cp) : s.sameFrozen (abandonCall s c) := by
  unfold abandonCall
  cases (cpOf s c).call with
  | none => exact fun _ => rfl
  | some k => exact fun d => ((endCall_sameContexts ..).frozen d).trans (modCp_sameFrozen s c CpSt.resume (fun _ => rfl) d)

theorem abandonPosted_sameFrozen (s : State) (c : Cp) : s.sameFrozen (abandonPosted s c) :=
  fun d => ((foldl_sameContexts (fun _ _ => endCall_sameContexts ..) _ _).frozen d).trans
    (modCp_sameFrozen s c (fun p => { p with posted := [] }) (fun _ => rfl) d)

/-- A violation of a core pair freezes it, and nothing but the record of it changes in the protection unit. -/
theorem violate_core {s : State} {v : Violation} {c : Cp} (hv : v.master = c.num) (hf : (cpOf s c).frozen = false) :
    (∀ d, (cpOf (violate s v) d).frozen = if d = c then true else (cpOf s d).frozen) ∧
      (violate s v).mpu = (recordViolation s v).mpu := by
  obtain ⟨unit, hu⟩ : ∃ unit, violate s v = logEvent (modCp (recordViolation s v) c (fun p => { p with frozen := true })) ltInteg
      (integBody unit Config.violationReason.toNat v.addr) := by
    unfold violate
    rw [hv, masterOf_num]
    dsimp only
    rw [if_neg (by rw [isFrozen_core, hf]; exact Bool.false_ne_true)]
    cases c
    · exact ⟨0x10, rfl⟩
    · exact ⟨0x11, rfl⟩
  have hlog : ∀ (u : State) (b : Bytes) (d : Cp), cpOf (logEvent u ltInteg b) d = cpOf u d := fun u b d => by
    have h0 : (logEvent u ltInteg b).n0 = u.n0 := (logEvent_frame ..).same .n0 (by decide)
    have h1 : (logEvent u ltInteg b).n1 = u.n1 := (logEvent_frame ..).same .n1 (by decide)
    cases d
    · exact h0
    · exact h1
  have hrec : ∀ d, cpOf (recordViolation s v) d = cpOf s d := fun d => by cases d <;> rfl
  rw [hu]
  refine ⟨fun d => ?_, ?_⟩
  · rw [hlog, cpOf_modCp, hrec]
    by_cases hd : d = c
    · rw [if_pos hd.symm, if_pos hd]
    · rw [if_neg (Ne.symm hd), if_neg hd]
  · exact ((logEvent_frame ..).same .mpu (by decide)).trans (by cases c <;> rfl)

theorem breach_core {s : State} {v : Violation} {c : Cp} (hv : v.master = c.num) (hf : (cpOf s c).frozen = false) :
    breach s v = abandonPosted (abandonCall (violate s v) c) c := by
  unfold breach
  rw [hv, masterOf_num, if_neg (by rw [isFrozen_core, hf]; exact Bool.false_ne_true)]
  cases c <;> rfl

theorem execProtectionViolation_denied {c : Cp} {v x : Violation} {s : State} (hr : coreRuns s c = true) (hm : v.master = c.num)
    (hx : checkAccess s c.master v.addr.toNat v.kind (cpOf s c).machine = some x) (hl : s.mpu.lastAt = none) :
    Res.ends (fun t => (∀ d, (cpOf t d).frozen = (if d = c then true else (cpOf s d).frozen)) ∧ t.mpu.faddr = v.addr ∧
      t.mpu.fmaster = BitVec.ofNat 2 c.num ∧ t.mpu.any = true ∧ t.mpu.fmulti = s.mpu.any) (execProtectionViolation v s) := by
  obtain ⟨hxm, hxa⟩ := checkAccess_some hx
  have hmaster : x.master = c.num := hxm.trans (by cases c <;> rfl)
  have haddr : x.addr = v.addr := hxa.trans ((BitVec.ofNat_toNat ..).trans (BitVec.setWidth_eq _))
  obtain ⟨hfz, hmpu⟩ := violate_core hmaster (frozen_of_runs hr)
  have hrun : masterRuns s c.master = true := (masterRuns_core s c).trans hr
  have hmgmt : (c.master == .mgmt) = false := by cases c <;> rfl
  have ht : (abandonPosted (abandonCall (violate s x) c) c).mpu = (recordViolation s x).mpu :=
    ((abandonPosted_frame ..).same .mpu (by decide)).trans (((abandonCall_frame ..).same .mpu (by decide)).trans hmpu)
  unfold execProtectionViolation
  dsimp only
  rw [hm, masterOf_num, hrun, hmgmt, masterPriv_core, hx]
  simp only [Bool.not_true, Bool.false_eq_true, if_false]
  rw [breach_core hmaster (frozen_of_runs hr)]
  obtain ⟨h1, h2, h3, h4⟩ := recordViolation_mpu x hl
  refine Res.ends_next ⟨fun d => ?_, ?_, ?_, ?_, ?_⟩
  · rw [abandonPosted_sameFrozen, abandonCall_sameFrozen, hfz]
  · rw [ht, h1, haddr]
  · rw [ht, h2, hmaster]
  · rw [ht, h3]
  · rw [ht, h4]

theorem execProtectionViolation_allowed {c : Cp} {v : Violation} {s : State} (hm : v.master = c.num)
    (hx : checkAccess s c.master v.addr.toNat v.kind (cpOf s c).machine = none) : execProtectionViolation v s = .next s := by
  have hmgmt : (c.master == .mgmt) = false := by cases c <;> rfl
  unfold execProtectionViolation
  dsimp only
  rw [hm, masterOf_num, hmgmt, masterPriv_core, hx]
  rw [if_neg Bool.false_ne_true]
  exact ite_self _

/-! ### Faults and stores -/

theorem cpOf_takeException (s : State) (c : Cp) (k : Nat) (a : W32) : cpOf (takeException s c k a) c = { cpOf s c with
    mepc := (cpOf s c).pc, mcause := BitVec.ofNat 32 k, mtval := a, mstatus := (cpOf s c).trapped, machine := true,
    pc := (cpOf s c).mtvec &&& 0xFFFFFFFC } := cpOf_modCp_same ..

theorem execAccessFault_unmapped {c : Cp} {a : W32} {k n : Nat} {s : State} (hr : coreRuns s c = true)
    (ht : targetOf s c a.toNat = none) : execAccessFault c.master a k n s =
      .next (takeException s c (if k = 0 then 5 else if k = 1 then 7 else 1) a) := by
  unfold execAccessFault
  rw [mapOf_core, ht]
  cases c
  · exact if_pos hr
  · exact if_pos hr

theorem execMisalignedAccess_misaligned {c : Cp} {a : W32} {st : Bool} {s : State} (hr : coreRuns s c = true) (ha : a.toNat % 4 ≠ 0) :
    execMisalignedAccess c a st s = .next (takeException s c (if st then 6 else 4) a) :=
  if_pos (by rw [hr, Bool.true_and]; exact bne_iff_ne.mpr ha)

/-- Bytes within the TCM enter the TCM. -/
theorem cpPutAll_tcm (s : State) (c : Cp) {a : Nat} (l : Bytes) (h : a + l.length ≤ 0x200000) :
    cpPutAll s c a l = modCp s c (fun p => { p with tcm := putBytes p.tcm a l }) := by
  induction l generalizing s a with
  | nil => cases c <;> rfl
  | cons b l ih =>
    have hlen : a + 1 + l.length ≤ 0x200000 := by
      rw [List.length_cons] at h
      omega
    have ha : a < 0x200000 := by
      rw [List.length_cons] at h
      omega
    have hput : cpPut s c a b = modCp s c (fun p => { p with tcm := putByte p.tcm a b }) := by
      unfold cpPut
      simp only [ha, if_true]
    unfold cpPutAll
    rw [ih _ hlen, hput]
    cases c <;> rfl

theorem execRegisterWrite_passed {c : Cp} {a v held : W32} {k t : Nat} {s : State} (hr : coreRuns s c = true)
    (hk : k = 1 ∨ k = 2 ∨ k = 4) (ha : a.toNat % k = 0) (ht : targetOf s c a.toNat = some t)
    (hc : checkAccess s c.master a.toNat kWrite (cpOf s c).machine = none) :
    execRegisterWrite c.master a v s k held = .next (storeWord s c.master t a.toNat k v held) := by
  have hsize : (k == 1 || k == 2 || k == 4) = true := by
    rcases hk with rfl | rfl | rfl <;> rfl
  unfold execRegisterWrite
  dsimp only
  rw [masterRuns_core, hr, hsize, ha, mapOf_core, ht, masterPriv_core, hc]
  rfl

theorem leBytes_length (n v : Nat) : (leBytes n v).length = n := (List.length_reverse).symm.trans (beBytes_length n v)

theorem execRegisterWrite_tcm {c : Cp} {a v held : W32} {k : Nat} {s : State} (hr : coreRuns s c = true) (hk : k = 1 ∨ k = 2 ∨ k = 4)
    (ha : a.toNat % k = 0) (hlt : a.toNat < 0x200000) (hc : checkAccess s c.master a.toNat kWrite (cpOf s c).machine = none) :
    execRegisterWrite c.master a v s k held =
      .next (modCp s c (fun p => { p with tcm := putBytes p.tcm a.toNat (leBytes k v.toNat) })) := by
  have hend : a.toNat + (leBytes k v.toNat).length ≤ 0x200000 := by
    rw [leBytes_length]
    rcases hk with rfl | rfl | rfl <;> omega
  rw [execRegisterWrite_passed hr hk ha (if_pos hlt) hc]
  unfold storeWord
  rw [mapOf_core, if_pos (Or.inl rfl), cpPutAll_tcm s c _ hend]

/-- The targets of the register space are the register blocks. -/
theorem targetOf_block {s : State} {c : Cp} {a t : Nat} (h1 : 0x40000000 ≤ a) (h2 : a < 0x50000000) (h : targetOf s c a = some t) :
    t ≠ 0 ∧ t ≠ 3 ∧ t ≠ 18 := by
  unfold targetOf at h
  rw [if_neg (by omega), if_neg (by omega), if_neg (by omega), if_neg (by omega), if_neg (by omega)] at h
  obtain ⟨i, hi, hf⟩ := List.exists_of_findSome?_eq_some h
  rw [List.mem_range] at hi
  dsimp only at hf
  split_ifs at hf
  cases hf
  omega

theorem execRegisterWrite_narrow {c : Cp} {a v held : W32} {k : Nat} {s : State} (hr : coreRuns s c = true) (hk : k = 1 ∨ k = 2)
    (h1 : 0x40000000 ≤ a.toNat) (h2 : a.toNat < 0x50000000)
    (hc : checkAccess s c.master a.toNat kWrite (cpOf s c).machine = none) (hn : (cpOf s c).call = none) :
    execRegisterWrite c.master a v s k held = .next s := by
  have hk4 : k ≠ 4 := by omega
  by_cases ha : a.toNat % k = 0
  · cases ht : targetOf s c a.toNat with
    | none =>
      unfold execRegisterWrite
      dsimp only
      rw [mapOf_core, ht]
      exact ite_self _
    | some t =>
      obtain ⟨t0, t3, t18⟩ := targetOf_block h1 h2 ht
      rw [execRegisterWrite_passed hr (hk.imp_right .inl) ha ht hc]
      unfold storeWord
      dsimp only
      rw [mapOf_core, hn, if_neg (by omega), if_neg (by simp), if_pos hk4]
  · have hne : (a.toNat % k != 0) = true := bne_iff_ne.mpr ha
    unfold execRegisterWrite
    dsimp only
    rw [hne, Bool.or_true]
    rfl

/-- Settles O55: the rule writes one by one, the breach that freezes, the exception, and the store by its target. -/
theorem protectionAndAccesses : Obligations.ProtectionAndAccesses := by
  unfold Obligations.ProtectionAndAccesses
  refine ⟨fun w rest s hc hw => ?_, fun c s h hd => execMpuSyncRead_ends h hd, fun c n s h hs hn => execMpuRegionLock_ends h hs hn,
    fun c v s _ hm hx => execProtectionViolation_allowed hm hx, fun c v x s hr hm hx hl => execProtectionViolation_denied hr hm hx hl,
    fun c a k n s hr ht => ?_, fun c a st s ha => ?_, fun c a st s hr ha => ?_,
    fun c a v held k s hr hk ha hlt hx => execRegisterWrite_tcm hr hk ha hlt hx,
    fun c a v held k s hr hk h1 h2 hx hn => execRegisterWrite_narrow hr hk h1 h2 hx hn⟩
  · have he : ruleEffective s .n0 = { s with mpu := { s.mpu with
        ctx0 := { s.mpu.ctx0.apply w with waiting := rest, gen := (s.mpu.ctx0.apply w).gen + 1 } } } := by
      unfold ruleEffective
      rw [show (mpuCtx s .n0).waiting = w :: rest from hw]
      rfl
    exact (if_neg (by rw [hc]; decide)).trans (congrArg Host.Outcome.next he)
  · refine ⟨_, execAccessFault_unmapped hr ht, ?_⟩
    rw [cpOf_takeException]
    refine ⟨?_, rfl, rfl, rfl, rfl⟩
    dsimp only
    split_ifs <;> rfl
  · exact if_neg (by rw [ha]; simp)
  · refine ⟨_, execMisalignedAccess_misaligned hr ha, ?_⟩
    rw [cpOf_takeException]
    refine ⟨?_, rfl, rfl, rfl, rfl⟩
    cases st <;> rfl

end Sys2Proof.Machine
end

section
/-!
SUPPORT. SILENT, the errors that lead there, and the tests.
-/

namespace Sys2Proof.Machine

/-! ### What entering SILENT leaves -/

/-- The latch of `enterSilent`, up to the move of the mode. -/
def latchSilent (s : State) (reason unit : Nat) (detail : W32) : State :=
  let s := send s .cutFrame
  let s := s.modInteg (fun g => { g with
    reason := reason, unit := unit, detail := detail, powerAt := s.log.power, latchedAt := some s.time.raw })
  let s := if s.pair.ownOut then raiseIrq s 38 else s
  let s := s.modPair (fun p => { p with ownOut := false, ownReq := false, ownHighSince := none, aliveOut := false })
  moveMode s .silent 0x000E

/-- What a module that goes SILENT forgets. -/
def forgetAll (s : State) : State :=
  let s := s.modDict (fun d => { d with sessions := [] })
  let s := s.modPair (fun p => { p with replies := [], forwarded := [], queue := [] })
  let s := s.modTime (fun t => { t with ppsOut := false })
  let s := s.modBoot (fun b => { b with xfer := none, solicitAt := none })
  s.modCtl (fun c => { c with ledRun := false, ledPair := false })

/-- The last message and the outputs that go off. -/
def outputsOff (s : State) (reason : Nat) : State :=
  canOff (canOff (send (fieldOff (mjSendOn s [false, true] (.silent reason))) .barrierOff) 0) 1

theorem enterSilent_eq {s : State} (hc : s.ctl.mode ≠ .cold) (hs : s.ctl.mode ≠ .silent) (reason unit : Nat) (detail : W32) :
    ∃ a b, enterSilent s reason unit detail =
      writeLog (writeLog (forgetAll (outputsOff (latchSilent s reason unit detail) reason)) a) b := by
  unfold enterSilent
  split
  case h_1 h => exact absurd h hc
  case h_2 h => exact absurd h hs
  case h_3 => exact ⟨_, _, rfl⟩

theorem canOff_pair (s : State) (n : Nat) : (canOff s n).pair = s.pair := (canOff_frame s n).same .pair (by decide)

theorem canOff_integ (s : State) (n : Nat) : (canOff s n).integ = s.integ := (canOff_frame s n).same .integ (by decide)

theorem canOff_ctl (s : State) (n : Nat) : (canOff s n).ctl = s.ctl := (canOff_frame s n).same .ctl (by decide)

theorem moveMode_pair (s : State) (m : Mode) (r : Nat) : (moveMode s m r).pair = s.pair := (moveMode_frame s m r).same .pair (by decide)

theorem moveMode_integ (s : State) (m : Mode) (r : Nat) : (moveMode s m r).integ = s.integ := (moveMode_frame s m r).same .integ (by decide)

theorem mjSendOn_lines (s : State) (l : List Bool) (m : MjMsg) : (mjSendOn s l m).pair.ownOut = s.pair.ownOut ∧
    (mjSendOn s l m).pair.aliveOut = s.pair.aliveOut ∧ (mjSendOn s l m).integ = s.integ ∧ (mjSendOn s l m).ctl = s.ctl := by
  unfold mjSendOn
  split_ifs <;> exact ⟨rfl, rfl, rfl, rfl⟩

/-- `t` is `s` after the latch of SILENT: its reason is kept, its lines are low and its sessions gone (R442, R443). -/
structure State.silenced (s : State) (reason unit : Nat) (detail : W32) (t : State) : Prop where
  mode : t.ctl.mode = .silent
  integ : t.integ = { s.integ with
    reason := reason, unit := unit, detail := detail, powerAt := s.log.power, latchedAt := some s.time.raw }
  ownOut : t.pair.ownOut = false
  aliveOut : t.pair.aliveOut = false
  sessions : t.dict.sessions = []

theorem forgetAll_keeps (s : State) : (forgetAll s).ctl.mode = s.ctl.mode ∧ (forgetAll s).integ = s.integ ∧
    (forgetAll s).pair.ownOut = s.pair.ownOut ∧ (forgetAll s).pair.aliveOut = s.pair.aliveOut ∧ (forgetAll s).dict.sessions = [] :=
  ⟨rfl, rfl, rfl, rfl, rfl⟩

theorem outputsOff_keeps (s : State) (reason : Nat) : (outputsOff s reason).ctl = s.ctl ∧ (outputsOff s reason).integ = s.integ ∧
    (outputsOff s reason).pair.ownOut = s.pair.ownOut ∧ (outputsOff s reason).pair.aliveOut = s.pair.aliveOut := by
  obtain ⟨h1, h2, h3, h4⟩ := mjSendOn_lines s [false, true] (.silent reason)
  have hp : ∀ u : State, (send (fieldOff u) .barrierOff).pair = u.pair := fun _ => rfl
  have hc : ∀ u : State, (send (fieldOff u) .barrierOff).ctl = u.ctl := fun _ => rfl
  have hi : ∀ u : State, (send (fieldOff u) .barrierOff).integ = u.integ := fun _ => rfl
  unfold outputsOff
  rw [canOff_pair, canOff_pair, canOff_ctl, canOff_ctl, canOff_integ, canOff_integ, hp, hc, hi]
  exact ⟨h4, h3, h1, h2⟩

theorem latchSilent_latches (s : State) (reason unit : Nat) (detail : W32) : (latchSilent s reason unit detail).ctl.mode = .silent ∧
    (latchSilent s reason unit detail).integ = { s.integ with
      reason := reason, unit := unit, detail := detail, powerAt := s.log.power, latchedAt := some s.time.raw } ∧
    (latchSilent s reason unit detail).pair.ownOut = false ∧ (latchSilent s reason unit detail).pair.aliveOut = false := by
  unfold latchSilent
  dsimp only
  rw [moveMode_pair, moveMode_integ]
  refine ⟨moveMode_mode .., ?_, rfl, rfl⟩
  split_ifs <;> rfl

theorem enterSilent_silenced {s : State} (hc : s.ctl.mode ≠ .cold) (hs : s.ctl.mode ≠ .silent) (reason unit : Nat) (detail : W32) :
    s.silenced reason unit detail (enterSilent s reason unit detail) := by
  obtain ⟨a, b, he⟩ := enterSilent_eq hc hs reason unit detail
  obtain ⟨h1, h2, h3, h4⟩ := latchSilent_latches s reason unit detail
  obtain ⟨k1, k2, k3, k4⟩ := outputsOff_keeps (latchSilent s reason unit detail) reason
  obtain ⟨m1, m2, m3, m4, m5⟩ := forgetAll_keeps (outputsOff (latchSilent s reason unit detail) reason)
  have hw : ∀ v : State, v.onlyChanges [.out, .log] (writeLog (writeLog v a) b) := fun v =>
    .andThen (writeLog_frame ..) rfl (writeLog_frame ..)
  rw [he]
  generalize forgetAll (outputsOff (latchSilent s reason unit detail) reason) = v at m1 m2 m3 m4 m5
  have hc : (writeLog (writeLog v a) b).ctl = v.ctl := (hw v).same .ctl (by decide)
  have hi : (writeLog (writeLog v a) b).integ = v.integ := (hw v).same .integ (by decide)
  have hp : (writeLog (writeLog v a) b).pair = v.pair := (hw v).same .pair (by decide)
  have hd : (writeLog (writeLog v a) b).dict = v.dict := (hw v).same .dict (by decide)
  refine ⟨?_, ?_, ?_, ?_, ?_⟩
  · rw [hc, m1, k1, h1]
  · rw [hi, m2, k2, h2]
  · rw [hp, m3, k3, h3]
  · rw [hp, m4, k4, h4]
  · rw [hd, m5]

theorem State.silenced.record {s t : State} {reason unit : Nat} {detail : W32} (h : s.silenced reason unit detail t) :
    t.integ.reason = reason ∧ t.integ.unit = unit ∧ t.integ.detail = detail := by
  rw [h.integ]
  exact ⟨rfl, rfl, rfl⟩

/-! ### Errors and tests that stay where they are -/

theorem latentFault_integ (s : State) (u : Nat) :
    (latentFault s u).integ = { s.integ with latent := true, latentUnit := u, testFails := s.integ.testFails.inc } := by
  unfold latentFault
  dsimp only
  exact ((logEvent_frame ..).same .integ (by decide)).trans (congrArg (fun g : IntegSt => { g with
    latent := true, latentUnit := u, testFails := g.testFails.inc }) ((freeValue_frame s).same .integ (by decide)))

theorem execRuntimeComparatorTest_passed {u : Nat} {s : State} (ha : testAllowed s u = true) (hu : 0x20 ≤ u)
    (hn : s.integ.tested.contains u = false) (hl : s.integ.tested.length < 39) :
    execRuntimeComparatorTest u true s = .next { s with integ := { s.integ with tested := s.integ.tested ++ [u] } } := by
  have h8 : ¬ u ≤ 8 := by omega
  have h40 : ¬ (s.integ.tested ++ [u]).length = 40 := by
    rw [List.length_append, List.length_singleton]
    omega
  unfold execRuntimeComparatorTest
  rw [ha]
  simp only [State.modInteg, hn, h8, h40, Bool.not_true, Bool.false_eq_true, if_false, if_true]

theorem execEccDecoderTest_failed {u : Nat} {s : State} (hr : s.ctl.mode.run = true)
    (hp : mget s.integ.eccAt u = none ∨ past s (mget s.integ.eccAt u) 16000000000 = true) : execEccDecoderTest u false s =
      .next (latentFault (s.modInteg (fun g => { g with eccAt := mset g.eccAt u s.time.raw })) u) := by
  refine if_pos ?_
  rw [hr, Bool.true_and, Bool.or_eq_true, Option.isNone_iff_eq_none]
  exact hp

theorem execEccDecoderTest_early {u : Nat} {p : Bool} {w : W64} {s : State} (hw : mget s.integ.eccAt u = some w)
    (hp : (s.time.raw - w).toNat < 16000000000) : execEccDecoderTest u p s = .next s := by
  have hpast : past s (some w) (rSec 1) = false := decide_eq_false (Nat.not_le.mpr hp)
  unfold execEccDecoderTest
  dsimp only
  rw [hw, hpast]
  exact if_neg (by simp)

theorem execAutomaticRestart_cold {w : W64} {s : State} (hm : s.ctl.mode = .silent) (hset : setting s 0x1700 6 0 = 1)
    (hr : s.integ.reason = 1) (hw : s.integ.latchedAt = some w) (hp : 160000000000 ≤ (s.time.raw - w).toNat)
    (hn : s.integ.restarts = []) :
    Res.ends (fun t => t.ctl.mode = .cold) (execAutomaticRestart s) := by
  have hpast : past s (some w) (rSec 10) = true := past_some hp
  have hrec : recentRestarts s = [] := by
    unfold recentRestarts
    rw [hn]
    rfl
  unfold execAutomaticRestart
  dsimp only
  rw [hm, hset, hr, hw, hpast, hrec]
  exact Res.ends_next (resetModule_mode ..)

/-- Settles O56: the errors by the latch of SILENT, the tests by what they count. -/
theorem errorsAndTests : Obligations.ErrorsAndTests := by
  unfold Obligations.ErrorsAndTests
  refine ⟨fun u d s ha hm => ?_, fun p d s hl => ?_, fun u d s ha hc ht hs => ?_, fun d s hc hs => ?_, fun d s hd => ?_, fun s => ?_,
    fun s => ?_, fun w s hm hw hp => ?_, fun s hc hs => ?_, fun s hc hp => ?_,
    fun u s ha hu hn hl => execRuntimeComparatorTest_passed ha hu hn hl, fun u s hr hp => ?_,
    fun u p w s hw hp => execEccDecoderTest_early hw hp, fun w s hm hset hr hw hp hn => execAutomaticRestart_cold hm hset hr hw hp hn⟩
  · generalize hv : s.modInteg (fun g => { g with stPassed := false, stResult := 2, stUnit := u }) = v
    have he : execLockstepMismatch u d s = .next (enterSilent v 4 u d) := by
      rw [← hv]
      exact (if_neg (by rw [ha]; decide)).trans (if_pos hm)
    have hvm : v.ctl.mode = .selftest := by
      rw [← hv]
      exact hm
    have h := enterSilent_silenced (by rw [hvm]; decide) (by rw [hvm]; decide) 4 u d
    obtain ⟨hr, hu, -⟩ := h.record
    refine ⟨_, he, h.mode, hr, hu, ?_⟩
    rw [h.integ, ← hv]
    exact ⟨rfl, rfl⟩
  · exact ⟨_, rfl, congrArg PortSt.broken (portOf_modPort_same hl ..), fun q hq => portOf_modPort_other s hq _, rfl⟩
  · have he : execLockstepMismatch u d s = .next (enterSilent s 1 u d) := (if_neg (by rw [ha]; decide)).trans (if_neg ht)
    have h := enterSilent_silenced hc hs 1 u d
    obtain ⟨hr, hu, hd⟩ := h.record
    exact ⟨_, he, h.mode, hr, hu, hd, h.ownOut, h.aliveOut, h.sessions⟩
  · have h := enterSilent_silenced hc hs 2 0x40 d
    exact ⟨_, rfl, h.mode, h.record⟩
  · exact congrArg Host.Outcome.next (if_pos hd)
  · exact ⟨_, rfl, rfl, rfl⟩
  · exact ⟨_, rfl, rfl⟩
  · have hne : s.ctl.mode ≠ .cold ∧ s.ctl.mode ≠ .silent := by
      constructor <;> (intro h; rw [h] at hm; exact absurd hm (by decide))
    have h := enterSilent_silenced hne.1 hne.2 5 0x51 0
    obtain ⟨hr, hu, -⟩ := h.record
    have hpast : past s s.pair.permitAt (rMs 5) = true := by
      rw [hw]
      exact past_some hp
    exact ⟨_, if_pos (by rw [hm, hpast]; rfl), h.mode, hr, hu⟩
  · have h := enterSilent_silenced hc hs 6 0x50 2
    obtain ⟨hr, -, hd⟩ := h.record
    exact ⟨_, (rfl : execSupplyClockFault 2 s = .next (enterSilent s 6 0x50 2)), h.mode, hr, hd⟩
  · have hslack : (s.cyc.phase == .slack && (0 : Nat) == 0) = true := by rw [hp]; rfl
    exact (if_neg (by rw [hc]; decide)).trans (if_pos hslack)
  · exact ⟨_, execEccDecoderTest_failed hr hp, latentFault_integ ..⟩

end Sys2Proof.Machine
end

section
/-!
SUPPORT. Debug: what entering DEBUG leaves of the lockstep and of the mark DEBUGGED.
-/

namespace Sys2Proof.Machine

/-- `t` has the DEBUGGED mark of `s` and the lockstep of its core pairs. -/
structure State.sameDebug (s t : State) : Prop where
  debugged : t.integ.debugged = s.integ.debugged
  core0 : t.n0.lockstep = s.n0.lockstep
  core1 : t.n1.lockstep = s.n1.lockstep

section
variable {β : Type} {s t u : State}

theorem State.sameDebug.refl (s : State) : s.sameDebug s := ⟨rfl, rfl, rfl⟩

theorem State.sameDebug.andThen (h : t.sameDebug u) (k : s.sameDebug t) : s.sameDebug u :=
  ⟨h.debugged.trans k.debugged, h.core0.trans k.core0, h.core1.trans k.core1⟩

/-- A step whose frame leaves the core pairs and the integrity part alone. -/
theorem State.sameDebug.aside {ps : List Part} (h : t.onlyChanges ps u) (hi : .integ ∉ ps ∧ .n0 ∉ ps ∧ .n1 ∉ ps)
    (k : s.sameDebug t) : s.sameDebug u := by
  have h0 : u.n0 = t.n0 := h.same .n0 hi.2.1
  have h1 : u.n1 = t.n1 := h.same .n1 hi.2.2
  have hg : u.integ = t.integ := h.same .integ hi.1
  refine .andThen ⟨?_, ?_, ?_⟩ k
  · rw [hg]
  · rw [h0]
  · rw [h1]

theorem State.sameDebug.ite {c : Prop} [Decidable c] (h : s.sameDebug t) (k : s.sameDebug u) : s.sameDebug (if c then t else u) := by
  split <;> assumption

/-- A step that is taken only under a condition. -/
theorem State.sameDebug.when {c : Prop} [Decidable c] (h : t.sameDebug u) (k : s.sameDebug t) : s.sameDebug (if c then u else t) :=
  .ite (h.andThen k) k

theorem State.sameDebug.foldl {f : State → β → State} {l : List β} (h : ∀ (u : State) (x : β), u.sameDebug (f u x))
    (k : s.sameDebug t) : s.sameDebug (l.foldl f t) :=
  foldl_keeps (P := fun u : State => s.sameDebug u) (fun u x hu => (h u x).andThen hu) l k

end

theorem modCp_sameDebug (s : State) (c : Cp) {f : CpSt → CpSt} (hf : ∀ p, (f p).lockstep = p.lockstep) : s.sameDebug (modCp s c f) := by
  cases c
  · exact ⟨rfl, hf _, rfl⟩
  · exact ⟨rfl, rfl, hf _⟩

theorem raiseIrq_sameDebug (s : State) (n : Nat) : s.sameDebug (raiseIrq s n) := ⟨rfl, rfl, rfl⟩

/-! ### Answers to the requests that are dropped -/

theorem startOn_sameDebug (s : State) (p : Port) (m : W48) (n : W16) : s.sameDebug (startOn s p m n).2 := by
  unfold startOn
  refine iteInduction (motive := fun r : Bool × State => s.sameDebug r.2) (fun _ => .refl s) (fun _ => ?_)
  refine iteInduction (motive := fun r : Bool × State => s.sameDebug r.2) (fun _ => .refl s) (fun _ => ?_)
  refine iteInduction (motive := fun r : Bool × State => s.sameDebug r.2) (fun _ => ⟨rfl, rfl, rfl⟩) (fun _ => ?_)
  exact .aside (modPort_frame ..) (by decide) (.when (.aside (sepAdd_frame ..) (by decide) (.refl s)) (.refl s))

theorem sourceOn_sameDebug (s : State) (l : List Port) (m : W48) (q : W16) (n : Nat) : s.sameDebug (sourceOn s l m q n).2 :=
  List.foldlRecOn (motive := fun a : List (Port × PortTag) × State => s.sameDebug a.2) l _ (.refl s)
    (fun _ ha _ _ => (startOn_sameDebug ..).andThen ha)

theorem ownFrame_sameDebug (s : State) (p : Port) (n : Nat) : s.sameDebug (ownFrame s p n).2 := by
  unfold ownFrame
  split_ifs
  · exact sourceOn_sameDebug ..
  · exact .andThen (sourceOn_sameDebug ..) (.aside (takeSeq_frame ..) (by decide) (.refl s))

theorem dictOut_sameDebug (s : State) (v : Via) (m : Bytes) : s.sameDebug (dictOut s v m) := by
  unfold dictOut
  cases v with
  | port p => exact .aside (State.modOut_frame ..) (by decide) (ownFrame_sameDebug ..)
  | can n => exact .aside (tpSend_frame ..) (by decide) (.refl s)
  | mailbox c => exact .refl s

theorem answerClient_sameDebug (s : State) (c : Client) (n : Nat) (b : Bytes) : s.sameDebug (answerClient s c n b) := by
  unfold answerClient
  refine .ite (dictOut_sameDebug ..) ?_
  unfold answerSession
  cases findSession s c.sid with
  | none => exact .refl s
  | some x =>
    exact .aside (closeFull_frame ..) (by decide) (.andThen (dictOut_sameDebug ..) (.aside (modSession_frame ..) (by decide) (.refl s)))

theorem answerWrite_sameDebug (s : State) (c : Client) (i u e : Nat) (w : W32) (k : W64) : s.sameDebug (answerWrite s c i u e w k) := by
  have hs : s.sameDebug (countStatus s e) := .aside (countStatus_frame ..) (by decide) (.refl s)
  unfold answerWrite
  dsimp only
  cases c.via with
  | mailbox p => exact .andThen (modCp_sameDebug _ _ (fun _ => rfl)) hs
  | port p => exact .andThen (answerClient_sameDebug ..) hs
  | can n => exact .andThen (answerClient_sameDebug ..) hs

theorem answerSeq_sameDebug (s : State) (i : SeqItem) (e : Nat) : s.sameDebug (answerSeq s i e) := by
  unfold answerSeq
  split
  · exact answerWrite_sameDebug ..
  · exact .refl s

theorem dropRequests_sameDebug (s : State) : s.sameDebug (dropRequests s) :=
  .foldl (fun _ _ => answerWrite_sameDebug ..) (.foldl (fun _ _ => answerWrite_sameDebug ..) (.foldl (fun _ _ => answerWrite_sameDebug ..)
    (.foldl (fun _ _ => answerWrite_sameDebug ..) (.foldl (fun _ _ => answerSeq_sameDebug ..)
      (.foldl (fun _ _ => answerWrite_sameDebug ..) (.aside (State.modPair_frame ..) (by decide) (.refl s)))))))

/-! ### Ownership, the mode and the program -/

theorem changePair_sameDebug (s : State) (f : PairSt → PairSt) : s.sameDebug (changePair s f) := by
  unfold changePair
  dsimp only
  split_ifs
  · exact ⟨rfl, rfl, rfl⟩
  · exact ⟨rfl, rfl, rfl⟩

theorem lowerOwn_sameDebug (s : State) : s.sameDebug (lowerOwn s) :=
  .andThen (changePair_sameDebug ..) (.aside (undrive_frame s) (by decide) (.refl s))

theorem setAgreed_sameDebug (s : State) (a : TimeState) : s.sameDebug (setAgreed s a) := by
  unfold setAgreed
  split_ifs
  · exact .refl s
  · exact ⟨rfl, rfl, rfl⟩

theorem moveMode_sameDebug (s : State) (m : Mode) (r : Nat) : s.sameDebug (moveMode s m r) := by
  have hclose : s.sameDebug (if s.ctl.mode.run && !m.run then closeAll s else s) :=
    .when (.aside (closeAll_frame s) (by decide) (.refl s)) (.refl s)
  generalize hv : (if s.ctl.mode.run && !m.run then closeAll s else s) = v at hclose
  have hstage : ∀ (f : DistSt → DistSt) (g : Ctl → Ctl) (a b : Bool), s.sameDebug
      (if b then retagForces ((if a then v.modDist f else v).modCtl g) else (if a then v.modDist f else v).modCtl g) := fun f g a b => by
    have hd : s.sameDebug (if a then v.modDist f else v) := .when (.aside (State.modDist_frame ..) (by decide) (.refl v)) hclose
    have hc : s.sameDebug ((if a then v.modDist f else v).modCtl g) :=
      .andThen (t := if a then v.modDist f else v) ⟨rfl, rfl, rfl⟩ hd
    exact .when (.aside (retagForces_frame _) (by decide) (.refl _)) hc
  unfold moveMode
  dsimp only
  rw [hv]
  exact .andThen (raiseIrq_sameDebug ..) (.ite (hstage ..) (.andThen (setAgreed_sameDebug ..) (hstage ..)))

theorem setMode_sameDebug (s : State) (m : Mode) (r : Nat) : s.sameDebug (setMode s m r) :=
  .aside (logEvent_frame ..) (by decide) (moveMode_sameDebug ..)

theorem setChBit_sameDebug (s : State) (n b : Nat) (v : Bool) : s.sameDebug (setChBit s n b v) := by
  unfold setChBit
  split_ifs
  · exact .refl s
  · exact .andThen (raiseIrq_sameDebug ..) (.aside (modChan_frame ..) (by decide) (.refl s))

theorem leaveTest_sameDebug (s : State) : s.sameDebug (leaveTest s) :=
  .foldl (fun _ _ => setChBit_sameDebug ..) ⟨rfl, rfl, rfl⟩

/-! ### The restart and the release of the core pairs -/

theorem clearCycle_sameDebug (s : State) : s.sameDebug (clearCycle s) := by
  have hdrop : ∀ p : CpSt, (if p.call.isSome then { p.resume with posted := [] } else { p with posted := [] }).lockstep = p.lockstep :=
    fun p => iteInduction (motive := fun q : CpSt => q.lockstep = p.lockstep) (fun _ => rfl) (fun _ => rfl)
  exact ⟨rfl, hdrop _, hdrop _⟩

theorem setLink_sameDebug (s : State) (p : Port) (b : Bool) : s.sameDebug (setLink s p b) := by
  have hp : s.sameDebug (raiseIrq (modPort s p (fun q => { q with link := b })) (33 + p.num)) :=
    .andThen (raiseIrq_sameDebug ..) (.aside (modPort_frame ..) (by decide) (.refl s))
  unfold setLink
  exact .ite (.refl s) (.ite hp (.aside (logEvent_frame ..) (by decide) (.aside (modPort_frame ..) (by decide) hp)))

theorem takeMedia_sameDebug (s : State) (p : Package) : s.sameDebug (takeMedia s p) := by
  have hone : ∀ (u : State) (x : Port × Nat), u.sameDebug (match p.media[x.2]? with
      | none => u
      | some m => if (portOf u x.1).medium = m then u
        else modPort (setLink u x.1 false) x.1 (fun q => { q with medium := m, locked := none })) := by
    intro u x
    cases p.media[x.2]? with
    | none => exact .refl u
    | some m => exact .ite (.refl u) (.aside (modPort_frame ..) (by decide) (setLink_sameDebug ..))
  have hall : s.sameDebug ([(Port.p0, 0), (Port.p1, 1), (Port.s0, 2), (Port.s1, 3)].foldl _ s) := .foldl hone (.refl s)
  unfold takeMedia
  dsimp only
  cases p.media.head? with
  | none => exact hall
  | some m => exact .aside (State.modNet_frame ..) (by decide) hall

theorem loadProgram_sameDebug (s : State) : s.sameDebug (loadProgram s) := by
  unfold loadProgram
  cases pkgOf s with
  | none => exact ⟨rfl, rfl, rfl⟩
  | some p => exact .aside (State.modImg_frame ..) (by decide) (takeMedia_sameDebug s p)

theorem channelsStart_sameDebug (s : State) : s.sameDebug (channelsStart s) := by
  unfold channelsStart
  dsimp only
  refine .foldl (fun u x => ?_) (.foldl (fun u k => .aside (modStream_frame ..) (by decide) (.refl u))
    (.aside (State.modChans_frame ..) (by decide) (.refl s)))
  exact .ite (.refl u) (.andThen (setChBit_sameDebug ..) (.aside (modChan_frame ..) (by decide) (.refl u)))

theorem restart_sameDebug (s : State) : s.sameDebug (restart s) := by
  have hload : s.sameDebug (clearCycle (loadProgram s)) := .andThen (clearCycle_sameDebug _) (loadProgram_sameDebug s)
  have himg : ∀ (w : Bool) (f g : Img → Img), s.sameDebug
      ((restartForces ((restartCounts (clearCycle (loadProgram s))).modImg f) w).modImg g) := fun w f g =>
    .aside (State.modImg_frame ..) (by decide) (.aside (restartForces_frame ..) (by decide) (.aside (State.modImg_frame ..) (by decide)
      (.aside (restartCounts_frame _) (by decide) hload)))
  have hmram : ∀ (w : Bool) (u : State), s.sameDebug u →
      s.sameDebug (if w then u else (u.modN0 (fun c => { c with mram := [] })).modN1 (fun c => { c with mram := [] })) := fun w u hu =>
    .ite hu (.andThen (t := u) ⟨rfl, rfl, rfl⟩ hu)
  have hend : ∀ (u : State) (f : CycSt → CycSt) (g : Ctl → Ctl), s.sameDebug u →
      s.sameDebug ((loopsStart (channelsStart (u.modCyc f))).modCtl g) := fun u f g hu =>
    .andThen (t := loopsStart (channelsStart (u.modCyc f))) ⟨rfl, rfl, rfl⟩
      (.aside (loopsStart_frame _) (by decide) (.andThen (channelsStart_sameDebug _) (.andThen (t := u) ⟨rfl, rfl, rfl⟩ hu)))
  unfold restart
  exact hend _ _ _ (hmram _ _ (himg ..))

theorem nativeRelease_sameDebug (s : State) : s.sameDebug (nativeRelease s) := by
  unfold nativeRelease
  cases pkgOf s with
  | none => exact .refl s
  | some p =>
    exact .aside (mpuOff_frame _) (by decide) (.aside (State.modMpu_frame ..) (by decide)
      (.andThen (modCp_sameDebug _ .n1 (fun _ => rfl)) (modCp_sameDebug s .n0 (fun _ => rfl))))

theorem debugRestart_sameDebug (s : State) : s.sameDebug (debugRestart s) := by
  unfold debugRestart
  exact .ite (.andThen (nativeRelease_sameDebug _) (.andThen (t := restart s) ⟨rfl, rfl, rfl⟩ (restart_sameDebug s))) (.refl s)

theorem enterDebug_sameDebug (s : State) : s.sameDebug (enterDebug s) := by
  have hlines : ∀ f : PairSt → PairSt, s.sameDebug (changePair (stopServing (lowerOwn (dropRequests s))) f) := fun f =>
    .andThen (changePair_sameDebug ..) (.aside (stopServing_frame _) (by decide)
      (.andThen (lowerOwn_sameDebug _) (dropRequests_sameDebug s)))
  have hmode : ∀ (u : State) (f : Ctl → Ctl) (g : BootSt → BootSt), s.sameDebug u →
      s.sameDebug (leaveTest (fieldOff (dropAnnounced (((setMode u .dbg 0x000D).modCtl f).modBoot g)))) := fun u f g hu =>
    .andThen (leaveTest_sameDebug _) (.aside (fieldOff_frame _) (by decide) (.aside (dropAnnounced_frame _) (by decide)
      (.andThen (t := setMode u .dbg 0x000D) ⟨rfl, rfl, rfl⟩ (.andThen (setMode_sameDebug ..) hu))))
  unfold enterDebug
  exact .ite (.refl s) (.when (debugRestart_sameDebug _) (hmode _ _ _ (hlines _)))

end Sys2Proof.Machine
end

section
/-!
SUPPORT. Debug, JTAG, I2C and the lamps.
-/

namespace Sys2Proof.Machine

/-- What `breakLockstep` does before the mode may change. -/
def lockstepBroken (s : State) (c : Cp) : State :=
  logEvent ((modCp (freeValue s).2 c (fun p => { p with lockstep := false })).modInteg (fun g => { g with
    debugged := true, dapSession := true })) ltInteg (integBody c.unit 0x11 ((freeValue s).1.truncate 32))

theorem breakLockstep_eq (s : State) (c : Cp) : breakLockstep s c = enterDebug (lockstepBroken s c) := rfl

theorem cpOf_logEvent (s : State) (n : Nat) (b : Bytes) (c : Cp) : cpOf (logEvent s n b) c = cpOf s c := by
  have h0 : (logEvent s n b).n0 = s.n0 := (logEvent_frame ..).same .n0 (by decide)
  have h1 : (logEvent s n b).n1 = s.n1 := (logEvent_frame ..).same .n1 (by decide)
  cases c
  · exact h0
  · exact h1

theorem lockstepBroken_frame (s : State) (c : Cp) : s.onlyChanges [.n0, .n1, .dict, .log, .integ] (lockstepBroken s c) :=
  .andThen (logEvent_frame ..) rfl (.andThen (State.modInteg_frame ..) rfl (.andThen (modCp_plain (fun _ => by rfl) ..) rfl
    (.andThen (freeValue_frame s) rfl (.refl ..))))

theorem lockstepBroken_ctl (s : State) (c : Cp) : (lockstepBroken s c).ctl = s.ctl := (lockstepBroken_frame s c).same .ctl (by decide)

theorem cpOf_lockstepBroken (s : State) (c : Cp) : cpOf (lockstepBroken s c) c = { cpOf s c with lockstep := false } := by
  unfold lockstepBroken
  rw [cpOf_logEvent]
  cases c <;> rfl

theorem lockstepBroken_debugged (s : State) (c : Cp) : (lockstepBroken s c).integ.debugged = true :=
  congrArg IntegSt.debugged ((logEvent_frame ..).same .integ (by decide))

theorem enterDebug_stays {s : State} (h : debugFrom s.ctl.mode = false) : enterDebug s = s := by
  unfold enterDebug
  rw [h]
  rfl

/-- The lines and the requests of a module that enters DEBUG. -/
def debugLines (s : State) : State :=
  changePair (stopServing (lowerOwn (dropRequests s))) (fun p => { p with
    aliveOut := false, toggledAt := none, phase := 0, cRetryAt := none, noOwner := false, handover := none, handReq := false,
    startWaitFrom := none, twinSince := none, snapTick := noTick })

/-- Its mode and its field side. -/
def debugMode (s : State) : State :=
  leaveTest (fieldOff (dropAnnounced (((setMode s .dbg 0x000D).modCtl (fun c => { c with stopPending := none, startsAt := none })).modBoot
    (fun b => { b with switchAt := none }))))

theorem enterDebug_eq {s : State} (h : debugFrom s.ctl.mode = true) : enterDebug s =
    if s.ctl.mode == .stop || s.ctl.mode == .catchup then debugRestart (debugMode (debugLines s)) else debugMode (debugLines s) := by
  unfold enterDebug
  rw [h]
  rfl

theorem debugLines_low (s : State) : (debugLines s).pair.ownOut = false ∧ (debugLines s).pair.aliveOut = false := by
  have hown : (lowerOwn (dropRequests s)).pair.ownOut = false := congrArg PairSt.ownOut (changePair_pair ..)
  unfold debugLines
  rw [changePair_pair]
  exact ⟨hown, rfl⟩

theorem debugMode_mode (s : State) : (debugMode s).ctl.mode = .dbg := by
  have hset : (setMode s .dbg 0x000D).ctl.mode = .dbg :=
    (congrArg Ctl.mode ((logEvent_frame ..).same .ctl (by decide))).trans (moveMode_mode ..)
  have hstep : ∀ (u : State) (f : Ctl → Ctl) (g : BootSt → BootSt),
      (leaveTest (fieldOff (dropAnnounced ((u.modCtl f).modBoot g)))).ctl =
      f u.ctl := fun u f g =>
    ((leaveTest_frame _).same .ctl (by decide)).trans (((fieldOff_frame _).same .ctl (by decide)).trans
      (((dropAnnounced_frame _).same .ctl (by decide)).trans rfl))
  exact (congrArg Ctl.mode (hstep ..)).trans hset

theorem debugMode_lines (s : State) : (debugMode s).pair.ownOut = s.pair.ownOut ∧ (debugMode s).pair.aliveOut = s.pair.aliveOut := by
  have hset : (setMode s .dbg 0x000D).pair = s.pair := (setMode_frame ..).same .pair (by decide)
  have hstep : ∀ (u : State) (f : Ctl → Ctl) (g : BootSt → BootSt),
      (leaveTest (fieldOff (dropAnnounced ((u.modCtl f).modBoot g)))).pair =
      { u.pair with annResend := [] } := fun u f g =>
    ((leaveTest_frame _).same .pair (by decide)).trans (((fieldOff_frame _).same .pair (by decide)).trans rfl)
  unfold debugMode
  rw [hstep, hset]
  exact ⟨rfl, rfl⟩

/-- DEBUG is entered without ownership and without ALIVE. -/
theorem enterDebug_enters {s : State} (h : debugFrom s.ctl.mode = true) : (enterDebug s).ctl.mode = .dbg ∧
    (enterDebug s).pair.ownOut = false ∧ (enterDebug s).pair.aliveOut = false := by
  obtain ⟨ho, ha⟩ := debugLines_low s
  obtain ⟨ko, ka⟩ := debugMode_lines (debugLines s)
  have hmode : (debugRestart (debugMode (debugLines s))).ctl.mode = (debugMode (debugLines s)).ctl.mode :=
    (debugRestart_frame _).same .mode (by decide)
  have hpair : (debugRestart (debugMode (debugLines s))).pair = (debugMode (debugLines s)).pair :=
    (debugRestart_frame _).same .pair (by decide)
  rw [enterDebug_eq h]
  split_ifs
  · rw [hmode, hpair]
    exact ⟨debugMode_mode _, ko.trans ho, ka.trans ha⟩
  · exact ⟨debugMode_mode _, ko.trans ho, ka.trans ha⟩

theorem State.sameDebug.core {s t : State} (h : s.sameDebug t) (c : Cp) : (cpOf t c).lockstep = (cpOf s c).lockstep := by
  cases c
  · exact h.core0
  · exact h.core1

theorem breakLockstep_breaks (s : State) (c : Cp) : (breakLockstep s c).integ.debugged = true ∧
    (cpOf (breakLockstep s c) c).lockstep = false := by
  have h := enterDebug_sameDebug (lockstepBroken s c)
  rw [breakLockstep_eq, h.debugged, h.core, cpOf_lockstepBroken]
  exact ⟨lockstepBroken_debugged s c, rfl⟩

/-- Where the mode does not lead to DEBUG, the lockstep is all that breaks. -/
theorem breakLockstep_stays {s : State} (c : Cp) (h : debugFrom s.ctl.mode = false) : breakLockstep s c = lockstepBroken s c := by
  rw [breakLockstep_eq]
  exact enterDebug_stays (by rw [lockstepBroken_ctl]; exact h)

theorem breakLockstep_enters {s : State} (c : Cp) (h : debugFrom s.ctl.mode = true) : (breakLockstep s c).ctl.mode = .dbg ∧
    (breakLockstep s c).pair.ownOut = false ∧ (breakLockstep s c).pair.aliveOut = false := by
  rw [breakLockstep_eq]
  exact enterDebug_enters (by rw [lockstepBroken_ctl]; exact h)

/-- A core pair that is halted is halted, and nothing else of the module moves. -/
theorem applyDbg_halt (s : State) (c : Cp) : (cpOf (applyDbg s c .halt) c).halted = true ∧
    (cpOf (applyDbg s c .halt) c).lockstep = (cpOf s c).lockstep ∧ (applyDbg s c .halt).ctl = s.ctl ∧
    (applyDbg s c .halt).integ = s.integ ∧ (applyDbg s c .halt).pair = s.pair := by
  cases c <;> exact ⟨rfl, rfl, rfl, rfl, rfl⟩

theorem execDebugHalt_open {s : State} (c : Cp) (op : DbgOp) (hd : dapOpen s = true) (hc : s.ctl.mode ≠ .cold)
    (hs : s.ctl.mode ≠ .silent) :
    execDebugHalt c s op = .next (applyDbg (breakLockstep s c) c op) := by
  refine if_pos ?_
  rw [hd, clocksRun_of_ne hs]
  exact bne_iff_ne.mpr hc

theorem recordViolation_rules (s : State) (v : Violation) : (recordViolation s v).mpu.ctx0 = s.mpu.ctx0 ∧
    (recordViolation s v).mpu.ctx1 = s.mpu.ctx1 ∧ (recordViolation s v).mpu.ctxD = s.mpu.ctxD := by
  have hkeep : ∀ (k : Bool) (x y : Mpu), y.ctx0 = x.ctx0 → y.ctx1 = x.ctx1 → y.ctxD = x.ctxD →
      (if k then x else y).ctx0 = x.ctx0 ∧
      (if k then x else y).ctx1 = x.ctx1 ∧ (if k then x else y).ctxD = x.ctxD := by
    rintro (_ | _) x y h0 h1 hd
    · exact ⟨h0, h1, hd⟩
    · exact ⟨rfl, rfl, rfl⟩
  exact hkeep _ s.mpu _ rfl rfl rfl

theorem lockedAt_recordViolation (s : State) (v : Violation) (a : Nat) :
    lockedAt (((recordViolation s v).modMpu (fun x => { x with frDap := true })).modInteg (fun g => { g with dapSession := false })) a =
      lockedAt s a := by
  obtain ⟨h0, h1, hd⟩ := recordViolation_rules s v
  change ([(recordViolation s v).mpu.ctx0, (recordViolation s v).mpu.ctx1, (recordViolation s v).mpu.ctxD].any _) = _
  rw [h0, h1, hd]
  rfl

theorem violate_locked {s : State} {a : W32} (hd : s.mpu.frDap = false) (hl : lockedAt s a.toNat = true) :
    (violate s ⟨3, a, kRead, true, 31, false⟩).mpu.frDap = true ∧
    (violate s ⟨3, a, kRead, true, 31, false⟩).integ.dapSession = false ∧
    (violate s ⟨3, a, kRead, true, 31, false⟩).integ.lockedHits = s.integ.lockedHits.inc := by
  generalize hu : ((recordViolation s ⟨3, a, kRead, true, 31, false⟩).modMpu (fun x => { x with frDap := true })).modInteg
    (fun g => { g with dapSession := false }) = u
  have hm : u.mpu.frDap = true := by rw [← hu]; rfl
  have hg : u.integ = { s.integ with dapSession := false } := by rw [← hu]; rfl
  have hul : lockedAt u a.toNat = true := by
    rw [← hu]
    exact (lockedAt_recordViolation ..).trans hl
  have he : violate s ⟨3, a, kRead, true, 31, false⟩ =
      logEvent (u.modInteg (fun g => { g with lockedHits := g.lockedHits.inc })) ltInteg (integBody 0 0x12 a) := by
    refine (if_neg (by rw [show isFrozen s (masterOf 3) = s.mpu.frDap from rfl, hd]; exact Bool.false_ne_true)).trans ?_
    rw [← hu] at hul ⊢
    exact if_pos hul
  have hlm : ∀ v : State, (logEvent v ltInteg (integBody 0 0x12 a)).mpu = v.mpu := fun v => (logEvent_frame ..).same .mpu (by decide)
  have hli : ∀ v : State, (logEvent v ltInteg (integBody 0 0x12 a)).integ = v.integ := fun v =>
    (logEvent_frame ..).same .integ (by decide)
  rw [he, hlm, hli]
  exact ⟨hm, congrArg IntegSt.dapSession hg, (congrArg (fun g : IntegSt => g.lockedHits.inc) hg).trans rfl⟩

/-- Settles O57: the lockstep breaks, DEBUG is entered where the mode leads to it, and the operation is applied. -/
theorem debugAndServicePins : Obligations.DebugAndServicePins := by
  unfold Obligations.DebugAndServicePins
  refine ⟨fun c s hd hf => ?_, fun c s hd hm => ?_, fun c v s hd hm => ?_, fun c s hr hd hf ha => ?_, fun c s hr ha => ?_,
    fun a n s hd hc hl => ?_, fun s => rfl, fun s hl hf => ?_, fun b s hp hb => ?_, fun n s hp => ?_, fun v s hp => ?_,
    fun s => ⟨fun hm => ?_, fun hm => ?_⟩⟩
  · have hne : s.ctl.mode ≠ .cold ∧ s.ctl.mode ≠ .silent := by
      constructor <;> (intro h; rw [h] at hf; exact absurd hf (by decide))
    obtain ⟨h1, h2, h3⟩ := breakLockstep_enters c hf
    obtain ⟨k1, k2⟩ := breakLockstep_breaks s c
    obtain ⟨a1, a2, a3, a4, a5⟩ := applyDbg_halt (breakLockstep s c) c
    refine ⟨_, execDebugHalt_open c .halt hd hne.1 hne.2, ?_⟩
    rw [a1, a2, a3, a4, a5]
    exact ⟨h1, k1, rfl, k2, h2, h3⟩
  · have hne : s.ctl.mode ≠ .cold ∧ s.ctl.mode ≠ .silent ∧ debugFrom s.ctl.mode = false := by
      rcases hm with h | h | h <;> rw [h] <;> decide
    obtain ⟨hc, hs, hf⟩ := hne
    obtain ⟨k1, k2⟩ := breakLockstep_breaks s c
    obtain ⟨a1, a2, a3, a4, -⟩ := applyDbg_halt (breakLockstep s c) c
    refine ⟨_, execDebugHalt_open c .halt hd hc hs, ?_⟩
    rw [a1, a2, a3, a4, k1, k2, breakLockstep_stays c hf]
    exact ⟨lockstepBroken_ctl s c, rfl, rfl, rfl⟩
  · have hne : s.ctl.mode ≠ .cold ∧ s.ctl.mode ≠ .silent ∧ debugFrom s.ctl.mode = false := by
      rw [hm]
      decide
    obtain ⟨hc, hs, hf⟩ := hne
    have hcp := cpOf_lockstepBroken s c
    have hout : (lockstepBroken s c).out = s.out := (lockstepBroken_frame s c).same .out (by decide)
    have hexec : ∀ op, execDebugHalt c s op = .next (applyDbg (lockstepBroken s c) c op) := fun op => by
      rw [execDebugHalt_open c op hd hc hs, breakLockstep_stays c hf]
    generalize lockstepBroken s c = u at hcp hout hexec
    have hmod : ∀ f : CpSt → CpSt, (modCp u c f).out = s.out := fun f => (by cases c <;> rfl : (modCp u c f).out = u.out).trans hout
    refine ⟨⟨_, hexec .step, ?_⟩, ⟨_, hexec (.arm true), ?_, hmod _⟩, ⟨_, hexec (.writeReg 0x7B1 v), ?_, hmod _⟩,
      ⟨send u (.jtag true (cpOf s c).pc), ?_, ?_, congrArg (· ++ _) hout⟩⟩
    · rw [show applyDbg u c .step = modCp u c (fun p => { p with halted := true, instretCsr := p.instretCsr + 1 }) from rfl,
        cpOf_modCp_same, hcp]
      exact ⟨rfl, rfl⟩
    · exact congrArg CpSt.dbgArmed (cpOf_modCp_same u c (fun p => { p with dbgArmed := true }))
    · exact congrArg CpSt.pc (cpOf_modCp_same u c (fun p => p.dbgWrite 0x7B1 v))
    · refine (hexec _).trans (congrArg Host.Outcome.next ?_)
      have hread : (cpOf u c).dbgRead 0x7B1 = some (cpOf s c).pc := by
        rw [hcp]
        rfl
      unfold applyDbg
      dsimp only
      rw [hread]
    · have hsend : cpOf (send u (.jtag true (cpOf s c).pc)) c = cpOf u c := by cases c <;> rfl
      rw [hsend, hcp]
  · obtain ⟨h1, -, -⟩ := breakLockstep_enters c hf
    obtain ⟨k1, -⟩ := breakLockstep_breaks s c
    obtain ⟨a1, -, a3, a4, -⟩ := applyDbg_halt (breakLockstep s c) c
    refine ⟨_, (if_neg (by rw [hr]; decide)).trans (if_pos (by rw [ha, hd]; rfl)), ?_⟩
    rw [a1, a3, a4]
    exact ⟨h1, k1, rfl⟩
  · refine ⟨_, (if_neg (by rw [hr]; decide)).trans (if_neg (by rw [ha]; exact Bool.false_ne_true)), ?_⟩
    rw [cpOf_takeException]
    exact ⟨rfl, rfl, rfl, by cases c <;> rfl⟩
  · have hd' : s.mpu.frDap = false := by
      unfold dapOpen at hd
      simpa using (Bool.and_eq_true_iff.mp hd).2
    exact ⟨_, if_pos (by rw [hd, hl]; rfl), violate_locked hd' hl⟩
  · have ho : dapOpen s = true := by
      unfold dapOpen dapEnabled
      rw [hl, hf]
      rfl
    exact if_pos (by rw [hl, ho]; rfl)
  · exact (if_neg (by rw [hp]; decide)).trans (if_pos hb)
  · refine ⟨_, _, if_neg (by rw [hp]; decide), rfl, by rw [List.length_map, List.length_range], rfl, fun h0 hn => ?_⟩
    obtain ⟨k, rfl⟩ : ∃ k, n = k + 1 := ⟨n - 1, by omega⟩
    rw [h0, List.range_succ_eq_map]
    rfl
  · exact (if_neg (by rw [hp]; decide)).trans (if_pos rfl)
  · exact if_pos hm
  · have hr : runFlashes s = true := by
      unfold runFlashes
      rcases hm with h | h | h <;> rw [h] <;> rfl
    exact if_pos hr

end Sys2Proof.Machine
end
